-- ==== Sys2Proof/Word.lean ====
section
/-! DEFINITION. The word and byte types, and their plainest arithmetic. -/
namespace Sys2Proof

/-- A register word: R16 gives every transfer 32 bits. -/
abbrev Word := BitVec 32

/-- A byte of an addressed RAM. -/
abbrev Byte := BitVec 8

/-- The word that holds a natural number, modulo 2^32. -/
def wordOf (n : Nat) : Word := BitVec.ofNat 32 n

/-- The word that holds a signed number in two's complement, modulo 2^32. -/
def wordOfInt (i : Int) : Word := BitVec.ofInt 32 i

/-- A word read as a signed number. -/
def wordInt (w : Word) : Int := w.toInt

end Sys2Proof
end

