-- ==== Sys2Proof/Syntax.lean ====
section
/-! DEFINITION. The commands of the block: one constructor per row of spec/opcode_table.json, with the row's operands.
An index is a `Fin` of the instance count the spec gives, so that a command names an instance the address map has. -/
namespace Sys2Proof


/-- A measurement at an AUX regulator (R302, R304, R462): the regulator, and a voltage in mV or a current in mA as the row says. -/
structure AuxSample where
  unit : Fin 4
  level : Nat
  deriving DecidableEq, Repr

/-- The output of an integrated regulator and PREIN, in mV (R462). -/
structure SupplySample where
  out : Nat
  prein : Nat
  deriving DecidableEq, Repr

/-- An ordered set as a link receives it (R119). An RTT echo carries the round trip measured for it, in ticks. -/
inductive OrderedSet where
  | align
  | cap (type vmax ish irated flags rev crc : Nat)
  | rate (version crc : Nat)
  | rtt (ticks : Nat)
  | reset
  | invalid
  deriving DecidableEq, Repr

/-- A condition word of WAITC, CHECK and SUBJ (R200): SEL, IDX, NEG, the literal of word 3 when LIT = 1, GV, and KIND. -/
structure CondWord where
  sel : Fin 64
  idx : Fin 64
  neg : Bool
  lit : Option Word
  gv : Fin 16
  kind : Fin 64
  deriving DecidableEq, Repr

/-- An operand value by SRC (R191): the IMM field, a register, word 1, or the undefined 0b11. -/
inductive Src where
  | imm (v : Fin 131072)
  | reg (g : Fin 16)
  | word (w : Word)
  | undef
  deriving DecidableEq, Repr

/-- A value from a register or from an extension word (R191, format SV). -/
inductive RegWord where
  | reg (g : Fin 16)
  | word (w : Word)
  deriving DecidableEq, Repr

/-- A shift count (R193): Gb[7:0] with I = 0, N with I = 1. -/
inductive ShiftCount where
  | reg (g : Fin 16)
  | imm (n : Fin 64)
  deriving DecidableEq, Repr

/-- The time of WAIT (R199): IMM in µs with R = 0, Ga with R = 1. -/
inductive WaitTime where
  | imm (us : Fin 2097152)
  | reg (g : Fin 16)
  deriving DecidableEq, Repr

/-- How a register word arrives at its target (R11, R373): plain, as a pair with its complement, or as one half of a split
pair. -/
inductive WriteForm where
  | plain (v : Word)
  | pair (v c : Word)
  | valueHalf (v : Word)
  | compHalf (c : Word)
  deriving DecidableEq, Repr

/-- A transfer that reaches its target in a core cycle (R16, R18, R19): the oldest of an engine's queue, one that a host port or a
hardware master sends, or an event that a rail loop sends. -/
inductive ArmSource where
  | queue (e : Fin 48)
  | sent (m : Fin 64) (a : Fin 65536) (v : Word)
  | event (n : Fin 32) (a : Fin 65536) (v : Word)
  deriving DecidableEq, Repr

/-- A frame of a host port (R326) beside its command: the clock edges counted, VER, ADDR, DATA, ALIVE, bits [19:16], the CRC
received, and whether it began before the response to the request in progress was ready (R331). -/
structure HostFrame where
  edges : Nat
  ver : Fin 16
  addr : Fin 65536
  data : Word
  alive : Fin 16
  reserved : Fin 16
  crc : BitVec 16
  early : Bool
  undef : Option (Fin 9) := none
  deriving DecidableEq, Repr

/-- The commands (spec/opcode_table.json). -/
inductive Instr where
  /-- ARMATURE_TRANSFER (R18). A master's transfer reaches its target word over the armature and is applied or answered. -/
  | armatureTransfer (l : List ArmSource) (bad : Option (Nat × Nat))
  /-- REGISTER_WRITE (R11). A write to a register that has no row of its own is applied under its access codes, locks and rights. -/
  | registerWrite (m : Fin 64) (a : Fin 65536) (f : WriteForm)
  /-- TREF_LOSS (R27). TREF shows no rising edge for 1 µs and the timing PLL moves to the crystal without losing a tick. -/
  | trefLoss
  /-- TREF_RETURN (R27). TREF has been valid for 1 ms and the timing PLL returns to it, slewing at most 10 ppm/ms. -/
  | trefReturn
  /-- XTAL_LOSS (R28). The crystal stops for 64 CK_WD cycles, the core PLL is held reset and TBASE runs from CK_WD. -/
  | xtalLoss
  /-- PD_SWITCH (R24). A domain switch fails to reach its state within 100 µs, so the domain is treated as unpowered and the fault is raised. -/
  | pdSwitch (d : Fin 12)
  /-- PDOPT_WRITE (R35). A write of SYS_PDOPT_SB or SYS_PDOPT_PV adds or drains optional domains within 2 core cycles. -/
  | pdoptWrite (pv : Bool) (w : Word)
  /-- INPUT_SUPPLY_LOST (R40). PREIN stays below the input-loss threshold for 50 µs and hardware requests SHUTDOWN with cause 0x01. -/
  | inputSupplyLost (prein : Nat)
  /-- HOST_MODE_REQUEST (R43). A host write of SYS_MODEREQ makes a mode request, which is checked for key, source and target. -/
  | hostModeRequest (p : Fin 3) (key : Fin 65536) (target : Fin 16) (sdend : Fin 4)
  /-- MODE_ARBITRATION (R41). Once per core cycle the mode controller takes the highest-ranked legal request and refuses or holds the rest. -/
  | modeArbitration
  /-- DOMAIN_TIER_COMPLETE (R46). A tier of domains finishes powering up, and the next tier starts or the transition ends. -/
  | domainTierComplete
  /-- HOUR_SECOND_ELAPSED (R50). A mode's sub-second accumulator completes a second and SYS_HOURm counts it, stopping at its maximum. -/
  | hourSecondElapsed
  /-- HOUR_CLEAR (R50). A keyed write of zero clears a SYS_HOURm counter in SERVICE or PROVISION. -/
  | hourClear (m : Fin 12) (w : Word)
  /-- DOWN_SEQUENCE_END (R47). No engine holding a program is running, so SHUTDOWN ends in its end state or begins the re-arm toward WAKE. -/
  | downSequenceEnd (btn src : Bool)
  /-- SHUTDOWN_DEADLINE (R47). SDTMO expires and the device raises SD_DEADLINE, disables every rail and drains LX and CHG. -/
  | shutdownDeadline
  /-- REARM_EXPIRED (R47). The re-arm time after cause 0x09 ends and the device restarts through WAKE. -/
  | rearmExpired
  /-- WAKE_DEADLINE (R49). WKTMO expires before STANDBY and the start counts as a failed start. -/
  | wakeDeadline
  /-- LATCH_WAKE (R52). WAKE_BTN or SRCDET holds past its filter in SHIP, so the latch closes BDIS and PD0 powers up. -/
  | latchWake (btn src : Bool)
  /-- PD0_POWER_UP (R72). PD0 comes up through a power-on reset, clearing its retention and entering WAKE. -/
  | pd0PowerUp
  /-- DORMANT_WAKE (R53). An enabled wake source in DORMANT raises cause 0x06 and the device goes to WAKE. -/
  | dormantWake (btn src errin : Bool)
  /-- WAKE_ALARM (R53). The SYS_WAKEALM count expires in DORMANT and, when enabled, wakes the device. -/
  | wakeAlarm
  /-- CHIP_RESET (R355). A chip reset takes effect after any burn pulse completes, returns registers under R72 and enters WAKE with cause 0x08. -/
  | chipReset
  /-- PLINTH_WAKE (R476). A host WAKE request in PLINTH stops the sequencer, resets PD1-PD11 registers and starts WAKE at step 2. -/
  | plinthWake
  /-- CORE_SOFT_START_DONE (R54). WAKE step 1 finishes the CORE, IO33 and IO18 soft start with PD1 powered, and step 2 begins. -/
  | coreSoftStartDone
  /-- CORE_PLL_LOCK (R54). The core PLL locks at step 2 and the OTP load begins. -/
  | corePllLock
  /-- OTP_LOAD (R55). Step 3 reads TRIM and CONFIG, checks digests and delivers critical bits. -/
  | otpLoad (damage : List (Fin 128 × Word)) (wires : Fin 1048576)
  /-- TIMING_PLL_LOCK (R54). Step 4 ends once its domains are up and the timing PLL is locked, and self-test begins. -/
  | timingPllLock (onTref : Bool)
  /-- SELF_TEST (R57). Step 5 runs the listed tests, records SYS_STRES and fails the start with reason 0x20 on any failure. -/
  | selfTest (fails : Fin 1024)
  /-- IMAGE_LOAD (R61). Step 6 selects a candidate slot, checks declarations and keys, and streams and digests the body. -/
  | imageLoad (flashA : List Byte) (flashB : List (Nat × List Byte))
  /-- FLASH_BUSY_TIMEOUT (R62). The flash status poll finds write-in-progress still set after 3 s, a load failure with reason 0x16. -/
  | flashBusyTimeout
  /-- WAITHOST_EXPIRED (R63). The 2 s wait for a host image with no flash candidate ends. -/
  | waithostExpired
  /-- SIGNATURE_VERIFICATION (R61). Step 7 verifies SIG for a signed image, or discards the slot and returns to step 6. -/
  | signatureVerification
  /-- INSTALLATION (R64). Step 8 loads ownership and spares, invalidates checkpoints, sets PCs and releases RUNMASK engines together. -/
  | installation
  /-- BOOT_LOADER_CHECK_IN (R58). The boot loader checks in every enabled slot of each running watchdog at each step end and every 100 ms during a poll or host load. -/
  | bootLoaderCheckIn
  /-- HOSTREQ (R63). A keyed SYS_BOOTCTL.HOSTREQ write from HSPI0 makes the loader take its image over the host port. -/
  | hostreq (p : Fin 3) (key : Fin 65536)
  /-- BOOTDATA_WRITE (R63). HSPI0 writes one word of header or body to SYS_BOOTDATA for a host load. -/
  | bootdataWrite (m : Fin 64) (w : Word)
  /-- HOST_LOAD_TIMEOUT (R63). 2 s pass between host-load words, a load failure with reason 0x17. -/
  | hostLoadTimeout
  /-- QSPI_GO (R65). A host write of SYS_QSPICMD.GO issues a single-bit flash command. -/
  | qspiGo (p : Fin 3) (w : Word)
  /-- QSPI_COMMAND_COMPLETE (R65). A flash command finishes, BUSY clears and read data land in SYS_QSPIDAT. -/
  | qspiCommandComplete (data : Word)
  /-- FAILED_START (R67). A failed start disables outputs, counts FAILS, records the reason and chooses PLINTH or restart. -/
  | failedStart
  /-- FAILED_START_REARM_END (R67). The REARM wait after a failed start ends, and the held choice is carried out. -/
  | failedStartRearmEnd
  /-- FAILS_CLEAR_TIMER (R68). 60 s of continuous STANDBY or RUN clears FAILS. -/
  | failsClearTimer
  /-- BOOTCNT_CLEAR (R68). A keyed write of SYS_BOOTCNT clears FAILS in PLINTH or SERVICE. -/
  | bootcntClear (w : Word)
  /-- PLINTH_STEP (R69). The plinth sequencer executes its next PLSEQ step: ENABLE, DISABLE, WAIT, CHECKPG, RSTREL or END. -/
  | plinthStep
  /-- PLINTH_WAIT_END (R69). A plinth WAIT step's time ends and the next step runs. -/
  | plinthWaitEnd
  /-- PLINTH_CHECKPG_PASS (R69). The target's power-good becomes true during CHECKPG and the sequence continues. -/
  | plinthCheckpgPass
  /-- PLINTH_CHECKPG_TIMEOUT (R69). A CHECKPG step times out, stopping the sequence with PLFAIL. -/
  | plinthCheckpgTimeout
  /-- RLN_EN_WRITE (R74). A write of RLn_CTRL.EN enables the rail as ENR or disables it as DISR. -/
  | rlnEnWrite (n : Fin 32) (en : Bool)
  /-- VSET_WRITE (R84). A host write of RLn_VSET sets the target and retargets the slew at RLn_SLEW. -/
  | vsetWrite (m : Fin 51) (n : Fin 32) (v : Word)
  /-- COMP_APPLY (R81). A write of COMP3.APPLY makes the shadow compensator set take effect at the next loop update. -/
  | compApply (n : Fin 32)
  /-- RLN_UNFENCE (R97). A write of RLn_UNFENCE in OFF returns the named phases to service. -/
  | rlnUnfence (n : Fin 32) (mask : Word)
  /-- LOOP_UPDATE (R79). Once per frame the rail forms its reference, steps the slew, runs the compensator and applies contributions. -/
  | loopUpdate (n : Fin 32) (diffs : List Int)
  /-- SWITCHING_PERIOD (R93). At each switching period the rail updates current balance and its hiccup count. -/
  | switchingPeriod (n : Fin 32)
  /-- HICCUP_RESTART (R73). The hiccup off time ends and the rail re-enters SOFTSTART. -/
  | hiccupRestart (n : Fin 32)
  /-- RETRY_CLEAR (R93). 1 s of continuous power-good in REGULATE clears the retry count. -/
  | retryClear (n : Fin 32)
  /-- PHASE_ADD (R88). IRAIL/NACT stays above ADDTH for ADDDLY and the manager adds phases. -/
  | phaseAdd (n : Fin 32)
  /-- PHASE_SHED (R88). The shed condition holds for SHEDDLY and the manager sheds one phase. -/
  | phaseShed (n : Fin 32)
  /-- PHASE_FENCE (R95). A fence cause holds for a phase, so it is removed from service, NSVC drops and the fault asserts. -/
  | phaseFence (ph : Fin 64) (cause : Fin 6)
  /-- RAIL_DRAIN_END (R99). The frame in progress ends and a draining rail goes OFF. -/
  | railDrainEnd (n : Fin 32)
  /-- DOWNSTREAM_FRAME (R106). At each grid boundary a channel assembles and sends a downstream frame carrying the edges and commands due. -/
  | downstreamFrame (l : Fin 72) (b : Nat)
  /-- UPSTREAM_FRAME (R114). An upstream frame arrives, is checked and updates current, AUX, status and the error counters. -/
  | upstreamFrame (l : Fin 72) (frame : BitVec 64) (codeOk : Bool) (ref : Fin 16)
  /-- ERRLIM_WINDOW (R115). A 1 ms window ends and the count of bad frames restarts. -/
  | errlimWindow (l : Fin 72)
  /-- COMMAND_RESEND (R108). No echo arrives within 8 frames, so the command is sent again, and after the third resend the link is lost. -/
  | commandResend (l : Fin 72)
  /-- AUTORT_RETRAIN (R116). 100 µs after a loss with AUTORT = 1, a new training begins. -/
  | autortRetrain (l : Fin 72)
  /-- TRAINING_START (R122). A link begins training once its domain is powered, the timing PLL is locked and EN = 1. -/
  | trainingStart (l : Fin 72)
  /-- ORDERED_SET (R119). An ordered set arrives during training and is counted toward the present step. -/
  | orderedSet (l : Fin 72) (o : OrderedSet)
  /-- TRAINING_TIMEOUT (R121). A training step exceeds its limit, so link resets are sent and a retry is scheduled or the link goes FAILED. -/
  | trainingTimeout (l : Fin 72)
  /-- TRAINING_RETRY (R121). 100 µs after a failed attempt, a new training attempt starts. -/
  | trainingRetry (l : Fin 72)
  /-- LINK_EN_WRITE (R125). A write of FXCTRL.EN starts training or drains the channel. -/
  | linkEnWrite (l : Fin 72) (en : Bool)
  /-- LINK_DRAIN_END (R125). A channel finishes its drain frames and link resets, goes DOWN and raises ABORTED. -/
  | linkDrainEnd (l : Fin 72)
  /-- PKLIM_WRITE (R108). A write of PHn_PKLIM makes SETLIM fall due within 2 frames. -/
  | pklimWrite (l : Fin 72) (w : Word)
  /-- CLRFLT (R108). A write of PHn_FXCMD.CLRFLT sends CLRFLT to the stage, unless refused. -/
  | clrflt (l : Fin 72)
  /-- RETRAIN (R116). A write of PHn_FXCMD.RETRAIN resets the link and starts a new training. -/
  | retrain (l : Fin 72)
  /-- PH_CLRCNT (R126). A write of PHn_FXCMD.CLRCNT clears the three link counters and their SAT bits. -/
  | phClrcnt (l : Fin 72)
  /-- REQUEST_BEAT (R129). A port samples a request beat and answers GRANT, DEFER or REFUSE from the swapped-in vector. -/
  | requestBeat (p : Fin 16) (c : Fin 64)
  /-- RELEASE_BEAT (R129). A port samples a release beat, answers 0b01 and queues it for the core. -/
  | releaseBeat (p : Fin 16)
  /-- IDLE_BEAT (R129). A port samples an idle beat and drives whether it holds an open intent. -/
  | idleBeat (p : Fin 16)
  /-- IP_EN_WRITE (R132). A write of IPn_CTRL.EN = 1 starts the handshake, or makes an SRC = 1 port LIVE. -/
  | ipEnWrite (p : Fin 16)
  /-- HANDSHAKE_COMPLETE (R132). A pattern holds for 8 samples, the version is chosen, announced on IACK and the port enters LIVE. -/
  | handshakeComplete (p : Fin 16) (v2 : Bool)
  /-- HSFAIL (R132). No pattern holds within 1,024 ICLKg cycles and the port goes DISABLED. -/
  | hsfail (p : Fin 16)
  /-- PORT_DRAIN (R160). EN = 0, a supply loss or a mode change drains the port: FIFO discarded, intents revoked or returned, DISABLED. -/
  | portDrain (p : Fin 16)
  /-- GRANT_VECTOR_PUBLISH (R135). Every 4 core cycles the anticipation unit writes each group's answers, epoch and grant counts into the inactive buffer. -/
  | grantVectorPublish (g : Fin 4)
  /-- BUFFER_SWAP (R135). On the falling ICLKg edge after a publication, the buffers swap, SWEPOCH updates and matching BUSY flags clear. -/
  | bufferSwap (g : Fin 4)
  /-- GRANT_PROCESSING (R144). The core processes a GRANT beat: it opens the record, debits the allowance, starts CWIN and sends the effects. -/
  | grantProcessing (p : Fin 16)
  /-- RELEASE_PROCESSING (R149). The core processes a release beat, returning a CONF grant or revoking a SUBJ intent. -/
  | releaseProcessing (p : Fin 16)
  /-- CONFIRM_WINDOW_EXPIRY (R147). CWIN ends without confirmation and the intent is revoked with reason WINDOW. -/
  | confirmWindowExpiry (p : Fin 16)
  /-- SHED_DELAY_EXPIRY (R148). SHDLY after a revocation ends and the contribution's armed phases are disarmed. -/
  | shedDelayExpiry (n : Fin 32) (k : Fin 4)
  /-- BANK_CHANGE (R140). A write of IPn_BANK rebuilds the port's answers from the new bank and publishes them within 1 µs. -/
  | bankChange (p : Fin 16) (w : Word)
  /-- INTENT_TABLE_WRITE (R140). A window write to an Intent Table entry is applied, or refused LIVEBANK. -/
  | intentTableWrite (i : Fin 32768) (v : Word)
  /-- ICLK_STOP (R159). ICLKg stops while a port answers on its balls, the ports enter CLKLOST and SUBJ intents are revoked. -/
  | iclkStop (g : Fin 4)
  /-- ICLK_RETURN (R159). ICLKg has run for 1 µs and the CLKLOST ports repeat the handshake. -/
  | iclkReturn (g : Fin 4)
  /-- IP_CLRCNT (R162). A write of IPn_CMD.CLRCNT clears the port's counters, IPT_REFUND and IPT_STALE. -/
  | ipClrcnt (p : Fin 16)
  /-- VDDIP_CLASS_CHANGE (R447). A group's supply changes class after the filter, draining its non-disabled ports. -/
  | vddipClassChange (g : Fin 4) (mv : Nat)
  /-- START_COMMAND (R172). An ENGn_CMD.START write starts a HALTED engine at ENGn_PC, or is refused. -/
  | startCommand (m : Fin 51) (e : Fin 48)
  /-- HALT_COMMAND (R171). An ENGn_CMD.HALT write halts the engine at the next retire boundary and revokes its clause. -/
  | haltCommand (m : Fin 51) (e : Fin 48)
  /-- SIGRAISE (R173). An ENGn_CMD.SIGRAISE write raises a signal without sequence for the program. -/
  | sigraise (m : Fin 51) (e : Fin 48) (n : Fin 16)
  /-- ENG_CLRCNT (R187). An ENGn_CMD.CLRCNT write clears NCONF, NREVK and their SAT state. -/
  | engClrcnt (m : Fin 51) (e : Fin 48)
  /-- MIGRATE (R182). A keyed MIGRATE command starts migration of a fenced engine's program. -/
  | migrate (p : Fin 3) (e : Fin 48) (key : Fin 65536)
  /-- RESTORE (R185). A keyed RESTORE command reloads a frozen engine's valid slot in place and runs with REPLAY. -/
  | restore (p : Fin 3) (e : Fin 48) (key : Fin 65536)
  /-- UNFREEZE (R185). A keyed UNFREEZE command resumes a frozen engine at ENGn_PC. -/
  | unfreeze (p : Fin 3) (e : Fin 48) (key : Fin 65536)
  /-- MOV (R193). Copies Ga to Gd. -/
  | mov (e : Fin 48) (d a : Fin 16)
  /-- MOVI (R193). Loads a sign-extended 22-bit immediate into Gd. -/
  | movi (e : Fin 48) (d : Fin 16) (imm : BitVec 22)
  /-- MOVH (R193). Loads the upper 16 bits of Gd. -/
  | movh (e : Fin 48) (d : Fin 16) (imm : BitVec 22)
  /-- LD (R194). Loads a data word from the private window or the shared region. -/
  | ld (e : Fin 48) (d a : Fin 16) (imm : BitVec 18)
  /-- ST (R194). Stores a data word, held in a clause for the shared region. -/
  | st (e : Fin 48) (d a : Fin 16) (imm : BitVec 18)
  /-- LDX (R195). Reads a host-map word, stalling until it returns, with V set on a non-success status. -/
  | ldx (e : Fin 48) (d a : Fin 16) (imm : BitVec 18)
  /-- STX (R195). Posts a write to a host-map word under the rights of R168. -/
  | stx (e : Fin 48) (d a : Fin 16) (imm : BitVec 18)
  /-- ADD (R193). Adds two registers and sets flags. -/
  | add (e : Fin 48) (d a b : Fin 16)
  /-- ADDI (R193). Adds an immediate and sets flags. -/
  | addi (e : Fin 48) (d a : Fin 16) (imm : BitVec 18)
  /-- SUB (R193). Subtracts two registers and sets flags. -/
  | sub (e : Fin 48) (d a b : Fin 16)
  /-- MUL (R193). Gives the low 32 bits of the signed product. -/
  | mul (e : Fin 48) (d a b : Fin 16)
  /-- MULH (R193). Gives the high 32 bits of the signed product. -/
  | mulh (e : Fin 48) (d a b : Fin 16)
  /-- AND (R193). Bitwise AND. -/
  | andd (e : Fin 48) (d a b : Fin 16)
  /-- OR (R193). Bitwise OR. -/
  | orr (e : Fin 48) (d a b : Fin 16)
  /-- XOR (R193). Bitwise XOR. -/
  | xorr (e : Fin 48) (d a b : Fin 16)
  /-- NOT (R193). One's complement of Ga. -/
  | nott (e : Fin 48) (d a : Fin 16)
  /-- SHL (R193). Shift left. -/
  | shl (e : Fin 48) (d a : Fin 16) (n : ShiftCount)
  /-- SHR (R193). Logical shift right. -/
  | shr (e : Fin 48) (d a : Fin 16) (n : ShiftCount)
  /-- SAR (R193). Arithmetic shift right. -/
  | sar (e : Fin 48) (d a : Fin 16) (n : ShiftCount)
  /-- CMP (R193). Sets flags from Ga minus Gb. -/
  | cmp (e : Fin 48) (a b : Fin 16)
  /-- CMPI (R193). Sets flags from Ga minus an immediate. -/
  | cmpi (e : Fin 48) (a : Fin 16) (imm : BitVec 18)
  /-- MIN (R193). Signed minimum. -/
  | minn (e : Fin 48) (d a b : Fin 16)
  /-- MAX (R193). Signed maximum. -/
  | maxx (e : Fin 48) (d a b : Fin 16)
  /-- SAT (R193). Clamps Ga to n signed bits, setting V when the clamp acts. -/
  | sat (e : Fin 48) (d a : Fin 16) (n : Fin 64)
  /-- J (R197). Unconditional jump. -/
  | j (e : Fin 48) (t : Fin 65536)
  /-- JC (R197). Branches when COND holds. -/
  | jc (e : Fin 48) (cond : Fin 16) (t : Fin 65536)
  /-- CALL (R197). Pushes the return index and jumps, freezing RSTACK on a full stack. -/
  | call (e : Fin 48) (t : Fin 65536)
  /-- RET (R197). Pops the return stack, freezing RSTACK on an empty one. -/
  | ret (e : Fin 48)
  /-- LOOP (R197). Decrements Gd and branches while it is not zero. -/
  | loop (e : Fin 48) (d : Fin 16) (t : Fin 65536)
  /-- NOP (R198). Does nothing. -/
  | nop (e : Fin 48)
  /-- YIELD (R198). Gives up fetch and shared-region slots for 16 core cycles. -/
  | yield (e : Fin 48)
  /-- HALT (R198). Takes the engine to HALTED with PC at the following word. -/
  | halt (e : Fin 48)
  /-- WAIT (R199). Puts the engine in WAITING for a time. -/
  | wait (e : Fin 48) (t : WaitTime)
  /-- WAIT_END (R199). A WAIT's time ends and the engine runs again. -/
  | waitEnd (e : Fin 48)
  /-- WAITC (R202). Waits for a condition with a timeout and a label. -/
  | waitc (e : Fin 48) (c : CondWord) (timeout label : Fin 65536)
  /-- WAITC_SATISFIED (R202). A WAITC condition becomes true and the engine continues, clearing a SIGNAL bit. -/
  | waitcSatisfied (e : Fin 48)
  /-- WAITC_TIMEOUT (R202). A WAITC timeout ends first and the engine branches to its label. -/
  | waitcTimeout (e : Fin 48)
  /-- TIME (R199). Reads TBASE bits into Gd. -/
  | time (e : Fin 48) (d : Fin 16) (h : Bool)
  /-- ENR (R205). Enables a rail as RLn_CTRL.EN = 1. -/
  | enr (e : Fin 48) (n : Fin 32)
  /-- DISR (R205). Disables a rail as RLn_CTRL.EN = 0 and passes a marked RESUME point. -/
  | disr (e : Fin 48) (n : Fin 32)
  /-- SETV (R205). Sets VSET and slews at RATE, or forms the clause pre-bias inside a clause. -/
  | setv (e : Fin 48) (n : Fin 32) (t : RegWord) (rate : Fin 65536)
  /-- SETI (R205). Writes RLn_ILIM. -/
  | seti (e : Fin 48) (n : Fin 32) (v : Src)
  /-- SETF (R205). Writes RLn_PERIOD. -/
  | setf (e : Fin 48) (n : Fin 32) (v : Src)
  /-- PHASE_ARM (R177). Sets the clause arming of a rail, and retires as NOP outside a clause. -/
  | phaseArm (e : Fin 48) (n : Fin 32) (v : Src)
  /-- PHASE_MAP (R205). Writes RLn_PMAP. -/
  | phaseMap (e : Fin 48) (n : Fin 32) (v : Src)
  /-- PHASE_UNFENCE (R97). Returns named map positions to service while the rail is OFF. -/
  | phaseUnfence (e : Fin 48) (n : Fin 32) (v : Src)
  /-- PHASE_TH (R205). Writes RLn_PHTH. -/
  | phaseTh (e : Fin 48) (n : Fin 32) (v : Src)
  /-- PHASE_DLY (R205). Writes RLn_PHDLY. -/
  | phaseDly (e : Fin 48) (n : Fin 32) (v : Src)
  /-- PHASE_BAL (R205). Writes RLn_BAL. -/
  | phaseBal (e : Fin 48) (n : Fin 32) (v : Src)
  /-- PHASE_LPH (R205). Writes RLn_LPH. -/
  | phaseLph (e : Fin 48) (n : Fin 32) (v : Src)
  /-- TRACK (R206). Writes RLn_TRACK leader, mode and ratio. -/
  | track (e : Fin 48) (n : Fin 32) (leader : Fin 64) (mode : Fin 8) (ratio : Src)
  /-- HICC (R205). Writes RLn_HICC. -/
  | hicc (e : Fin 48) (n : Fin 32) (v : Src)
  /-- BOUND (R205). Writes the named bound register of a rail. -/
  | bound (e : Fin 48) (n : Fin 32) (kind : Fin 8) (v : Src)
  /-- CHECK (R203). Waits for a condition to dwell true within a timeout, counting transitions. -/
  | check (e : Fin 48) (c : CondWord) (dwell timeout : Fin 65536) (code : Fin 256) (chlim : Fin 64)
  /-- CHECK_PASS (R203). The condition has been true for DWELL and CHECK passes. -/
  | checkPass (e : Fin 48)
  /-- CHECK_CHATTER (R203). Transitions exceed CHLIM, so CHECK fails CHATTER and ENG_CHECK asserts. -/
  | checkChatter (e : Fin 48)
  /-- CHECK_TIMEOUT (R203). The timeout ends without a pass, so CHECK fails TIMEOUT and ENG_CHECK asserts. -/
  | checkTimeout (e : Fin 48)
  /-- TEL (R208). Reads a committed or raw telemetry value into Gd. -/
  | tel (e : Fin 48) (d : Fin 16) (kind idx : Fin 64) (raw : Bool)
  /-- TELC (R208). Reads and clears a committed peak. -/
  | telc (e : Fin 48) (d : Fin 16) (kind idx : Fin 64)
  /-- BREQ (R209). Sets the program's requested level on a pool. -/
  | breq (e : Fin 48) (pool : Fin 8) (v : Src)
  /-- BREL (R209). Lowers the program's grant on a pool to a level. -/
  | brel (e : Fin 48) (pool : Fin 8) (v : Src)
  /-- SUBJ (R175). Opens a clause with a condition, a window and a revocation label. -/
  | subj (e : Fin 48) (c : CondWord) (window label : Fin 65536)
  /-- REVOKE (R210). Revokes the open clause with reason PROGRAM. -/
  | revoke (e : Fin 48)
  /-- CLAUSE_CONFIRM (R178). The clause condition becomes true in its window, so the pre-bias becomes a SETV, reservations become grants and the held queue is issued. -/
  | clauseConfirm (e : Fin 48)
  /-- CLAUSE_WINDOW_EXPIRY (R179). The clause window ends without confirmation and the clause is revoked WINDOW. -/
  | clauseWindowExpiry (e : Fin 48)
  /-- CLAUSE_DISARM (R179). CLSHDLY after a revocation, the clause arming is withdrawn. -/
  | clauseDisarm (e : Fin 48)
  /-- SIG (R212). Sends a sequenced signal to a program. -/
  | sig (e : Fin 48) (prog : Fin 64) (n : Fin 16)
  /-- SIGNAL_DELIVERY (R173). A signal reaches the receiving program and is accepted, discarded or flagged by its sequence. -/
  | signalDelivery
  /-- SYNC (R212). Arrives at a barrier and waits for its generation. -/
  | sync (e : Fin 48) (b : Fin 8) (timeout label : Fin 65536)
  /-- BARRIER_COMPLETION (R174). Every participating program has reached the generation and the waiting engines continue. -/
  | barrierCompletion (b : Fin 8)
  /-- SYNC_TIMEOUT (R174). A SYNC times out and its engine branches to the else-label. -/
  | syncTimeout (e : Fin 48)
  /-- MODE (R213). Requests a mode from the engine source, or makes the branch back of R45. -/
  | mode (e : Fin 48) (target : Fin 16) (sdend : Fin 4)
  /-- MODE_RESUME (R213). Marks a RESUME point in SHUTDOWN and sets SYS_MODE.RESUME. -/
  | modeResume (e : Fin 48)
  /-- MODE_PASS (R213). Passes the marked RESUME point. -/
  | modePass (e : Fin 48)
  /-- FENCE (R214). Asks FLT to fence an owned rail, an LX module or an AUX regulator. -/
  | fence (e : Fin 48) (kind : Fin 4) (index : Fin 32)
  /-- LOG (R215). Posts a program record to the patina log. -/
  | log (e : Fin 48) (code : Fin 65536) (a : Fin 16) (b : Option (Fin 16))
  /-- CKPT (R181). Starts the atomic copy of the program's state to its checkpoint slot. -/
  | ckpt (e : Fin 48)
  /-- CHECKPOINT_COMPLETE (R181). The checkpoint copy ends with the valid word written, and the engine continues. -/
  | checkpointComplete (e : Fin 48)
  /-- INTENT (R216). Issues a beat on an SRC = 1 port and stalls for its answer. -/
  | intent (e : Fin 48) (d port : Fin 16) (code scale : Fin 64)
  /-- OUT (R217). Drives the program term of an RSTO output. -/
  | out (e : Fin 48) (n : Fin 16) (level : Bool)
  /-- KICK (R217). Checks in a watchdog slot at once. -/
  | kick (e : Fin 48) (wd : Fin 8) (slot : Fin 16)
  /-- POSTED_STATUS_RETURN (R196). A posted instruction's refusal returns, setting MODEDENY or freezing the engine for a target-found violation. -/
  | postedStatusReturn (e : Fin 48)
  /-- ENGINE_FENCE (R180). An execute disagreement or register pair mismatch fences the engine within 2 core cycles. -/
  | engineFence (e : Fin 48) (pair : Bool)
  /-- SPARE_SELF_CHECK_DONE (R182). A spare's 2,000-cycle comparator self-check ends, and it restores the slot or is fenced. -/
  | spareSelfCheckDone (e : Fin 48) (pass : Bool)
  /-- RESTORE_COMPLETE (R182). The slot is restored, rights move and the engine runs with REPLAY, or the slot is unreadable and migration fails. -/
  | restoreComplete (e : Fin 48)
  /-- ENGINE_DRAIN_END (R186). An engine's drain ends and it raises ABORTED and ends HALTED. -/
  | engineDrainEnd (e : Fin 48)
  /-- HWREQ_WRITE (R221). A write of BUD_HWREQc sets a hardware consumer's requested level. -/
  | hwreqWrite (c : Fin 10) (w : Word)
  /-- PREQ_WRITE (R222). A host write of BUD_PREQ sets a program's requested level. -/
  | preqWrite (w : Word)
  /-- CAP_WRITE (R220). A write of a pool's CAP claims or releases in its parent and may cut the pool. -/
  | capWrite (k : Fin 8) (w : Word)
  /-- ALMAX_WRITE (R228). A write of BUD_IPCFGn.ALMAX sets a port's allowance target and pool limit. -/
  | almaxWrite (n : Fin 16) (w : Word)
  /-- POOL_ARBITRATION (R223). Each core cycle a pool applies releases and capacity changes and serves claims in rank order. -/
  | poolArbitration (k : Fin 8)
  /-- ALLOWANCE_REDUCTION_COMPLETE (R138). The group's SWEPOCH shows the reduced vector and the reduction leaves ALLOWED. -/
  | allowanceReductionComplete (n : Fin 16)
  /-- CLAIM_REFUSAL (R225). A claim pending for PENDTMO with cause SHORT is refused. -/
  | claimRefusal (hw : Bool) (idx : Fin 48) (k : Fin 8)
  /-- MEASURED_USE_REFRESH (R231). Every 10 µs MEAS is refreshed for each pool. -/
  | measuredUseRefresh (aux : List Nat)
  /-- OVERLOAD (R231). MEAS exceeds CAPEFF for OVLPERS and the OVERLOAD status, event and fault follow. -/
  | overload (k : Fin 8)
  /-- PINNED_EVENT (R233). A quantity stays pinned for its persistence and its BUD_PINEVTq bit sets. -/
  | pinnedEvent (n : Fin 32) (q : Fin 4)
  /-- PINSEL_CLR (R233). A write of BUD_PINSEL.CLR clears the selected pinned-time counter. -/
  | pinselClr
  /-- LX_EN_WRITE (R249). A write of LXm_CTRL.EN starts, stops or holds a restart of a module. -/
  | lxEnWrite (m : Fin 4) (en : Bool)
  /-- LX_RECONFIGURE (R250). A write changing CMODE, FWDEN, REVEN or PCHG in RUN takes the module through REVERSING. -/
  | lxReconfigure (m : Fin 4) (w : Word)
  /-- VTGT_WRITE (R245). A write of LXm_VTGT retargets vref at VSLEW. -/
  | vtgtWrite (m : Fin 4) (v : Word)
  /-- LX_UPDATE (R244). Twice per period a module computes its demand and Φ from the means and fixes the boundary's edges. -/
  | lxUpdate (m : Fin 4)
  /-- LX_RUN_REACHED (R248). A START module completes 8 periods and enters RUN. -/
  | lxRunReached (m : Fin 4)
  /-- WAIT_RECOVERY (R248). The source stays above its threshold plus 2 % for 1 ms and the module restarts. -/
  | waitRecovery (m : Fin 4)
  /-- PCDONE (R253). vhv stays within PCBAND for PCDWELL and the precharge is DONE. -/
  | pcdone (m : Fin 4)
  /-- PRECHARGE_TIMEOUT (R253). PCTMO ends outside the band and the module trips with cause PCHG. -/
  | prechargeTimeout (m : Fin 4)
  /-- LX_UNFENCE (R256). A keyed LXm_CMD.UNFENCE takes a fenced module to OFF. -/
  | lxUnfence (m : Fin 4) (key : Fin 65536)
  /-- LX_CLRCNT (R258). A write of LXm_CMD.CLRCNT clears TRIP.COUNT. -/
  | lxClrcnt (m : Fin 4)
  /-- LX_DRAIN_END (R256). A draining module completes its half period and ends OFF with ABORTED. -/
  | lxDrainEnd (m : Fin 4)
  /-- CHG_COMPUTATION (R263). Every 10 µs CHG computes ilim, chg_i and the voltage target for LX and AUX3. -/
  | chgComputation (vbat bsen vhb ihb vas vin3 : Int) (rise : Fin 8)
  /-- BEN_WRITE (R262). A write of CHG_CTRL.BEN starts or stops the BATM path. -/
  | benWrite (en : Bool)
  /-- HEN_WRITE (R269). A write of CHG_CTRL.HEN starts or stops the BATH path. -/
  | henWrite (en : Bool)
  /-- AUXCHG_WRITE (R268). A write of CHG_CTRL.AUXCHG puts AUX3 into or out of charger duty. -/
  | auxchgWrite (b : Bool)
  /-- CHEM_WRITE (R261). A write of CHG_CTRL.CHEM loads the chemistry defaults. -/
  | chemWrite (c : Fin 4)
  /-- BATTERY_PRESENCE (R272). A battery lies in the presence window for 1 s and the path leaves DETECT or ABSENT. -/
  | batteryPresence (path : Fin 2)
  /-- PRECOND_COMPLETE (R262). The battery stays at or above the precondition limit for 10 s and fast charge begins. -/
  | precondComplete (path : Fin 2)
  /-- CV_ENTRY (R262). vbat stays near vcv for 10 ms and the path enters CV. -/
  | cvEntry (assist : Bool)
  /-- TAPER_TERMINATION (R265). The taper count reaches TERMDLY and the path goes to DONE or FLOAT. -/
  | taperTermination (assist : Bool)
  /-- RECHARGE (R262). The battery stays below the recharge level for 10 s and a new cycle begins. -/
  | recharge (path : Fin 2)
  /-- BATH_TERMINATION (R270). A 1 s mean fires the −ΔV or dT/dt rule and BATH goes DONE. -/
  | bathTermination (v t : Int)
  /-- BATH_OVP (R269). vhb exceeds 20 × VHMAX for 1 ms, AUX3 stops and the path stops with OVP. -/
  | bathOvp
  /-- NOSOURCE (R262). No source has run for 10 ms and the path is suspended with cause NOSOURCE. -/
  | nosource (path : Fin 2)
  /-- SAFETY_TIMER_SECOND (R267). Each second the safety timer counts by rate and stops the path at its limit. -/
  | safetyTimerSecond
  /-- TEMPERATURE_WINDOW_UPDATE (R266). Each 100 ms mean selects the window, applying hysteresis, suspension or an NTC fault. -/
  | temperatureWindowUpdate (path : Fin 2) (uv : Nat)
  /-- NTC_FAULT_END (R266). The NTC reading has been back in range for 1 s and the fault ends. -/
  | ntcFaultEnd (path : Fin 2)
  /-- DISCONNECT_OPEN (R271). LX has run at VTGT for 1 ms after a BATM removal and CHG opens the disconnect. -/
  | disconnectOpen
  /-- RECONNECTION (R272). vlv matches vbat for 1 ms in MATCH, CHG closes the disconnect and the path goes to DETECT. -/
  | reconnection
  /-- MATCH_RETRY (R272). The match is not made within 1 s and CHG tries again. -/
  | matchRetry
  /-- CLRSTOP (R267). A write of CHG_CMD.CLRSTOP clears or holds the clear of a stopped BATM path. -/
  | clrstop
  /-- HCLRSTOP (R267). A write of CHG_CMD.HCLRSTOP clears or holds the clear of a stopped BATH path. -/
  | hclrstop
  /-- CHG_CLRCNT (R281). A write of CHG_CMD.CLRCNT clears the timer counts in the permitted states. -/
  | chgClrcnt
  /-- ASSTART (R278). A write of CHG_CMD.ASSTART starts an assist session into ISOLATE. -/
  | asstart
  /-- ASSTOP (R278). A write of CHG_CMD.ASSTOP ends a session through RETURN with HOSTSTOP. -/
  | asstop
  /-- ASSIST_DETECTION (R278). vas lies in the window for 1 s, or leaves it for 1 s, and the session goes READY or IDLE. -/
  | assistDetection
  /-- ISOLATE_COMPLETE (R278). |ibat| stays at or below 2 A for 10 ms, the disconnect opens and MATCH begins. -/
  | isolateComplete
  /-- ASSIST_MATCH_COMPLETE (R278). vlv matches vas for 1 ms, ASSIST_EN goes high and CHARGE begins. -/
  | assistMatchComplete
  /-- ASSIST_RETURN_COMPLETE (R278). vlv matches vbat for 1 ms, the disconnect closes and the session ENDS. -/
  | assistReturnComplete
  /-- ASSIST_LIMIT (R278). An assist state exceeds its 500 ms limit and the session moves on with reason MATCH. -/
  | assistLimit
  /-- ASSIST_FALLBACK (R280). A fallback cause drops ASSIST_EN and closes the disconnect without matching. -/
  | assistFallback
  /-- SHIP_DISCONNECT_OPEN (R277). 20 ms after arming, the latch opens the disconnect and holds PRE off. -/
  | shipDisconnectOpen
  /-- COMPARATOR_TRANSITION (R284). A rail comparator's deglitch count completes and it changes state, acting under ACT. -/
  | comparatorTransition (n : Fin 32) (q : Fin 4) (v : Int)
  /-- GS_TRANSITION (R287). A general supervisor changes state after DGL conversions. -/
  | gsTransition (k : Fin 16)
  /-- RESET_OUTPUT_RELEASE (R288). The stretch ends with every source good and the output is released. -/
  | resetOutputRelease (j : Fin 8)
  /-- CNT_CLR (R291). A write of SUP_CNTSEL.CLR clears the selected event counter. -/
  | cntClr
  /-- TELEMETRY_WINDOW_END (R293). A 2^N µs window ends and the committed value is closed on its non-subjunctive samples. -/
  | telemetryWindowEnd (c : Fin 4)
  /-- TELDATA_READ (R295). A read of SUP_TELDATA returns the selected value and clears a peak when CLRPK is set. -/
  | teldataRead (p : Fin 3)
  /-- SCAN_TRIGGER (R297). A HADC trigger begins a scan after DELAY, or is missed and counted. -/
  | scanTrigger (c : Fin 2)
  /-- HADC_GO (R297). A write of HADCc_CMD.GO triggers a scan under TRIG 1. -/
  | hadcGo (c : Fin 2)
  /-- HADC_CLRCNT (R301). A write of HADCc_CMD.CLRCNT clears MISS. -/
  | hadcClrcnt (c : Fin 2)
  /-- HADC_CONVERSION (R298). A conversion completes, writes its result and checks over-range and the reference. -/
  | hadcConversion (c : Fin 2) (uv : Int) (lost : Bool)
  /-- HADC_RESULT_READ (R301). A read of a result register returns it and clears NEW. -/
  | hadcResultRead (i : Fin 64)
  /-- HADC_EN_WRITE (R299). A write of HADCc_CTRL.EN starts the converter or drains it. -/
  | hadcEnWrite (c : Fin 2) (en : Bool)
  /-- AUX_EN_WRITE (R303). A write of HKR_AUXnCTRL.EN starts or stops an AUX regulator. -/
  | auxEnWrite (n : Fin 4) (en : Bool)
  /-- AUX_CFG_WRITE (R303). A write of HKR_AUXnCFG sets VOUT and ILIM, slewing a running output. -/
  | auxCfgWrite (n : Fin 4) (w : Word)
  /-- AUX_SOFTSTART_COMPLETE (R302). The output reaches VOUT and the regulator enters REGULATE. -/
  | auxSoftstartComplete (n : Fin 4)
  /-- AUX_INLOSS (R302). AUXnIN stays below 4.2 V for 10 µs and the regulator stops in INLOSS. -/
  | auxInloss (a : AuxSample)
  /-- AUX_INLOSS_RECOVERY (R302). AUXnIN stays at or above 4.5 V for 1 ms and soft start resumes. -/
  | auxInlossRecovery (a : AuxSample)
  /-- AUX_OVERCURRENT (R304). The output stands at its limit for 1 ms and HKR_AUX asserts with kind 1. -/
  | auxOvercurrent (a : AuxSample)
  /-- AUX_OUTPUT_UV (R304). The output stays below 90 % for 100 µs and HKR_AUX asserts with kind 3. -/
  | auxOutputUv (a : AuxSample)
  /-- AUX_POWER_GOOD (R304). The output stays within ±6 % for 50 µs and AUX power-good becomes true. -/
  | auxPowerGood (a : AuxSample)
  /-- AUX_UNFENCE (R305). A keyed HKR_AUXnCMD.UNFENCE takes a fenced regulator to OFF. -/
  | auxUnfence (n : Fin 4) (key : Fin 65536)
  /-- HKR_SUPPLY_WINDOW (R306). PRE, CORE or IO33 stays out of its window for 20 µs and its fault asserts. -/
  | hkrSupplyWindow (k : Fin 3) (v : SupplySample)
  /-- MAQUETTE_UPDATE (R310). Every 100 µs the maquette integrates node temperatures and judges sensors, levels and actions. -/
  | maquetteUpdate (ts : List (Nat × Int)) (hkr : List Nat)
  /-- MAQUETTE_INIT_END (R317). 10 ms after PD11 power-up, INIT clears and the cross-check starts. -/
  | maquetteInitEnd
  /-- THM_EN_WRITE (R311). A write of THM_CTRL.EN starts the maquette after stability checks, or drains it. -/
  | thmEnWrite (en : Bool)
  /-- CLRBRK (R315). A write of THM_CMD.CLRBRK clears every broken-sensor mark. -/
  | clrbrk
  /-- DIE_LIMIT (R322). Two or more die comparators assert after the deglitch and hardware requests SHUTDOWN with cause 0x02. -/
  | dieLimit (temps : List Int)
  /-- DIE_SINGLE_SENSOR (R322). One sensor alone stays at the limit for 1 ms and THM_DIESENS asserts. -/
  | dieSingleSensor (t : Fin 9)
  /-- DIE_LIMIT_RELEASE (R322). ASSERT clears and the held wake events are acted on. -/
  | dieLimitRelease
  /-- HOST_NOP (R329). A host frame with command NOP, answered NONE. -/
  | hostNop (p : Fin 3) (f : HostFrame)
  /-- RD (R329). A host frame reads a word. -/
  | rd (p : Fin 3) (f : HostFrame)
  /-- WR (R329). A host frame writes a word that holds no CP field. -/
  | wr (p : Fin 3) (f : HostFrame)
  /-- WRPV (R330). A host frame holds the value half of a pair. -/
  | wrpv (p : Fin 3) (f : HostFrame)
  /-- WRPC (R330). A host frame gives the complement half and issues the pair write. -/
  | wrpc (p : Fin 3) (f : HostFrame)
  /-- RDC (R329). A host frame reads the stored complement half. -/
  | rdc (p : Fin 3) (f : HostFrame)
  /-- RDCLR (R329). A host frame reads a word and clears its W1C bits that read 1, in one operation. -/
  | rdclr (p : Fin 3) (f : HostFrame)
  /-- SVC_RESPONSE_READ (R334). An I²C read on SVC returns the last response, stretching SCL or giving WAIT. -/
  | svcResponseRead (ready : Bool)
  /-- SVC_BUS_RESET (R334). SVC_SCL held low for 25 ms resets SVC's bus logic. -/
  | svcBusReset
  /-- HOSTVER_WRITE (R332). A write of SYS_HOSTVER.ACT changes the port's protocol version from the next frame. -/
  | hostverWrite (p : Fin 3) (act : Fin 16)
  /-- UNFRZ_WRITE (R337). A keyed SYS_UNFRZ write unfreezes the named host ports or the scan engine. -/
  | unfrzWrite (p : Fin 3) (key : Fin 65536) (masters : Fin 16)
  /-- HOST_CLRCNT (R349). A write of SYS_HCMD.CLRCNT clears SYS_HERR0-2. -/
  | hostClrcnt (p : Fin 3)
  /-- INTERRUPT_ROUTING (R341). Each core cycle INTC applies acknowledgements and routes eligible sources to the least busy target. -/
  | interruptRouting
  /-- ACK (R344). A write of INTC_ACKt pushes a routed source on the target's stack. -/
  | ack (m : Fin 51) (t : Fin 4) (i : Fin 256)
  /-- EOI (R345). A write of INTC_EOIt removes a source from the stack. -/
  | eoi (m : Fin 51) (t : Fin 4) (i : Fin 256)
  /-- SWISET (R338). A write of INTC_SWISET sets software interrupt lines. -/
  | swiset (w : Word)
  /-- SWICLR (R338). A write of INTC_SWICLR clears software interrupt lines. -/
  | swiclr (w : Word)
  /-- NMICNT_READ (R347). A read of INTC_NMICNT returns and clears the count. -/
  | nmicntRead
  /-- STKERR_CLR (R345). A write of INTC_STKERR.CLR clears the stack error record. -/
  | stkerrClr
  /-- FAULT_ASSERTION (R350). A fault source asserts, with fences, the reaction, the error pair and the first-fault record following. -/
  | faultAssertion (src : Fin 416) (inst : Fin 65536)
  /-- ERRIN (R358). ERRIN_N stays low for 10 µs and asserts the ERRIN source. -/
  | errin
  /-- EPCLR (R357). A keyed FLT_CMD.EPCLR requests the error pair clear, which is held until it may take effect. -/
  | epclr (key : Fin 65536)
  /-- EP_CLEAR_EFFECT (R357). MINT is met with no EP source at level 1 and the pair returns to normal. -/
  | epClearEffect
  /-- EPMISM (R356). A ball reads back wrong for 1 µs and FLT_SELF asserts. -/
  | epmism
  /-- FFCLR (R360). A keyed FLT_CMD.FFCLR clears the first-fault record and relatches a source still at level 1. -/
  | ffclr (key : Fin 65536)
  /-- INJECTION_ARM (R362). A keyed FLT_INJARM.ARM arms the prepared injection. -/
  | injectionArm (key : Fin 65536)
  /-- INJECTION_DISARM (R363). A write of FLT_INJARM.DISARM ends an armed injection. -/
  | injectionDisarm
  /-- INJECTION_NOFIRE (R363). No evaluation comes within 10 ms and the injection ends NOFIRE. -/
  | injectionNofire
  /-- SCRUB_READ (R371). Every SCRUBINT cycles the scrubber reads and decodes the next line. -/
  | scrubRead
  /-- PAIR_CHECK (R372). A block's checker visits its CP fields and a mismatch asserts REG_PAIR. -/
  | pairCheck (a : Fin 65536)
  /-- SPLIT_PAIR_TIMEOUT (R373). A value half is not completed within 32 core cycles and is discarded. -/
  | splitPairTimeout (a : Fin 65536)
  /-- CRC_CLAIM (R376). A write of CHK_CRCCFGu.CLAIM claims a CRC unit and loads its initial value. -/
  | crcClaim (m : Fin 64) (u : Fin 2) (kind : Fin 4) (order : Bool)
  /-- CRC_RELEASE (R376). A write of CHK_CRCCFGu.RELEASE frees the unit. -/
  | crcRelease (m : Fin 64) (u : Fin 2)
  /-- CRCDATA_WRITE (R376). The owner feeds four bytes to a CRC unit. -/
  | crcdataWrite (m : Fin 64) (u : Fin 2) (w : Word)
  /-- CRCDATAB_WRITE (R376). The owner feeds one byte to a CRC unit. -/
  | crcdatabWrite (m : Fin 64) (u : Fin 2) (b : Byte)
  /-- CRC_UNIT_TIMEOUT (R376). 10 ms without an owner write releases the unit. -/
  | crcUnitTimeout (u : Fin 2)
  /-- SCAN_JOB_GO (R378). A write of CHK_SJCTRL.GO starts a scan job. -/
  | scanJobGo (m : Fin 51)
  /-- SCAN_JOB_ABORT (R380). A write of CHK_SJCTRL.ABORT drains the job. -/
  | scanJobAbort (m : Fin 51)
  /-- SCAN_JOB_END (R379). The job's range is done and it ends DONE, with CMP judged. -/
  | scanJobEnd
  /-- CHK_CLRCNT (R386). A write of CHK_CMD.CLRCNT clears CECNT and UECNT. -/
  | chkClrcnt
  /-- ALIVE_WRITE (R381). A write of CHK_ALVk.VAL is compared with the previous count. -/
  | aliveWrite (k : Fin 8) (w : Word)
  /-- ALVTMO (R381). TMO ms pass without a write and ALVTMO sets. -/
  | alvtmo (k : Fin 8)
  /-- CROSSING_TIMEOUT (R383). A crossing counts 64 cycles without a presence toggle and enters TIMEOUT. -/
  | crossingTimeout (x : Fin 149)
  /-- CLK_XRST (R385). A keyed CLK_XRST write starts the paired reset of a crossing. -/
  | clkXrst (key : Fin 65536) (x : Fin 256)
  /-- PAIRED_RESET_RELEASE (R385). Both sides have counted 4 edges with acknowledgement and the crossing is released. -/
  | pairedResetRelease (x : Fin 149)
  /-- HKICK (R393). A host write of WDn_HKICK checks in a slot. -/
  | hkick (n : Fin 8) (p : Fin 3) (k : Fin 16)
  /-- WINDOW_OPEN (R388). The closed window ends and the open window begins. -/
  | windowOpen (n : Fin 8)
  /-- PREEXP (R391). The EWARN point passes with a slot missing and PREEXP sets. -/
  | preexp (n : Fin 8)
  /-- MISSING_EXPIRY (R395). The open window ends with an enabled slot not checked in and the period expires MISSING. -/
  | missingExpiry (n : Fin 8)
  /-- WD_EN_WRITE (R396). A write of WDn_CTRL.EN starts an instance or drains it. -/
  | wdEnWrite (n : Fin 8) (en : Bool)
  /-- CLOCK_MONITOR_TRIP (R399). The monitor sees its clock stop, switches clocks and asserts WD_CLKMON. -/
  | clockMonitorTrip (n : Fin 8)
  /-- EVCLR (R401). A keyed WDn_CMD.EVCLR clears the evidence. -/
  | evclr (n : Fin 8) (key : Fin 65536)
  /-- WD_CLRCNT (R403). A write of WDn_CMD.CLRCNT clears EXPCNT. -/
  | wdClrcnt (n : Fin 8)
  /-- BURN (R414). A keyed OTP_CMD GO with OP BURN starts burning the named bits. -/
  | burn (key : Fin 65536)
  /-- FINALIZE (R420). A keyed OTP_CMD GO with OP FINALIZE seals a region with its digest and lock. -/
  | finalize (key : Fin 65536) (force : Bool)
  /-- OTP_ABORT (R416). A keyed OTP_CMD.ABORT ends the command after the pulse in progress. -/
  | otpAbort (key : Fin 65536)
  /-- PUMP_CHARGED (R415). The internal pump finishes its 200 µs charge and the first pulse begins. -/
  | pumpCharged
  /-- PULSE_COMPLETE (R415). A burn pulse and its margin verify end, with a retry, the next bit or the command end following. -/
  | pulseComplete (ok : Bool) (vpp : Nat)
  /-- SHADOW_WRITE (R422). A pair write of OTP_SHDATA overrides the selected TRIM field. -/
  | shadowWrite (v : Word)
  /-- REL (R422). A write of OTP_SHCTRL.REL releases the selected override. -/
  | rel
  /-- RELALL (R422). A write of OTP_SHCTRL.RELALL releases every override. -/
  | relall
  /-- RECORD_WRITE (R429). The patina unit writes the next queued record to HEAD with NEXTSEQ. -/
  | recordWrite
  /-- MARK_WRITE (R427). The mark of a FORM 1 record is written and the record is read back. -/
  | markWrite
  /-- PAT_CLR (R431). A keyed PAT_CMD.CLR starts clearing the log. -/
  | patClr (m : Fin 51) (key : Fin 65536)
  /-- CLEAR_COMPLETE (R431). Every line is zeroed, GEN rises by 4,096 and a CLEAR record is written. -/
  | clearComplete
  /-- REBUILD_COMPLETE (R432). The rebuild after PD10 power-up finds HEAD, NEXTSEQ and COUNT from the records. -/
  | rebuildComplete
  /-- ACK_NEW (R430). A write of PAT_CMD.ACK clears PAT_NEW. -/
  | ackNew
  /-- PAT_CLRCNT (R436). A write of PAT_CMD.CLRCNT clears PAT_LOST. -/
  | patClrcnt
  /-- OFFDATA0_READ (R435). A read of PAT_OFFDATA0 snapshots record IDX for the master. -/
  | offdata0Read (m : Fin 51)
  /-- OFFDATA7_READ (R435). A read of PAT_OFFDATA7 returns the snapshot word and advances IDX with AUTOINC. -/
  | offdata7Read (m : Fin 51)
  /-- BYPASS (R453). The test port's BYPASS instruction. -/
  | bypass
  /-- IDCODE (R453). The test port returns the identity code. -/
  | idcode
  /-- SAMPLE_PRELOAD (R453). The test port samples or preloads the boundary chain. -/
  | samplePreload (levels shift : BitVec 181)
  /-- EXTEST (R453). The test port drives the balls when the conditions hold, and otherwise acts as BYPASS. -/
  | extest (levels shift : BitVec 181)
  /-- TRST (R453). TRST_N low holds the test port in Test-Logic-Reset. -/
  | trst (low : Bool)
  /-- UNDEFINED_ENCODING (R188). An engine reaches an instruction word with opcode 0x00 or 0x3D-0x3F, such as program store beyond PSWORDS or a zeroed uncorrectable line, and freezes with cause ILLEGAL. -/
  | undefinedEncoding (e : Fin 48)
  /-- ERRIN_RELEASE (R358). ERRIN_N stays high for 10 µs and the ERRIN source falls to level 0, which can let a held error-pair clear or a first-fault relatch proceed. -/
  | errinRelease
  /-- CORE_PLL_RELOCK (R28). The crystal returns after an XTAL_LOSS that did not chip-reset, the core PLL relocks, and TBASE moves back to CK_CORE without a step. -/
  | corePllRelock
  /-- AUX_POWER_GOOD_LOSS (R304). An AUX output leaves its ±6 % window while the regulator is in REGULATE, so its power-good becomes false and the reset outputs that select it assert. -/
  | auxPowerGoodLoss (a : AuxSample)
  deriving DecidableEq, Repr

end Sys2Proof
end

