-- ==== Sys2Proof/WellFormed.lean ====
section
/-! DEFINITION. The commands whose operands fit the fields that carry them: the checks that the operand types do not make by
themselves (R16, R18, R191, R231). -/
namespace Sys2Proof

/-- An operand of format V: IMM has 12 bits (R191). -/
def Src.wfV : Src → Bool
  | .imm v => decide (v.val < 4096)
  | _ => true

/-- An operand of format TR, which has no IMM (R191). -/
def Src.wfTr : Src → Bool
  | .imm v => decide (v.val = 0)
  | _ => true

/-- The masters that a transfer may come from (R16): the engines, the host ports and the hardware masters. -/
def masterWf (m : Nat) : Bool := decide (m ≤ 0x39)

/-- A well-formed command: every operand fits the field that carries it. -/
def Instr.wf : Instr → Bool
  | .seti _ _ v | .setf _ _ v | .phaseArm _ _ v | .phaseMap _ _ v | .phaseUnfence _ _ v | .phaseTh _ _ v
  | .phaseDly _ _ v | .phaseBal _ _ v | .phaseLph _ _ v | .hicc _ _ v => v.wfV
  | .bound _ _ _ v => v.wfV
  | .track _ _ _ _ r => r.wfTr
  | .registerWrite m _ _ => masterWf m
  | .armatureTransfer l _ => decide (0 < l.length) && l.all (fun x => match x with
    | .sent m _ _ => decide (48 ≤ m.val) && masterWf m
    | _ => true)
  | .measuredUseRefresh aux => decide (aux.length = 4)
  | _ => true

end Sys2Proof
end

