-- ==== Sys2Proof/Decode.lean ====
section
/-! DEFINITION. The words of the Lannos instructions (R188, R191, R192, R200, R201, R205–R211): their encoder and their decoder,
and the commands that a word spells by the bits of spec/opcode_table.json. -/
namespace Sys2Proof

/-- The command that an instruction word of the table spells. The table gives no row any bits: no command is spelled by a word
(assumption log entry 9). -/
def decodeTableWord (_nbits _w : Nat) : Option Instr := none

/-! ## Fields -/

/-- `k` bits of `w` from bit `lo`. -/
def fieldAt (w lo k : Nat) : Nat := w / 2 ^ lo % 2 ^ k

/-- A field of four bits names a register. -/
def regAtBit (w lo : Nat) : Fin 16 := ⟨w / 2 ^ lo % 16, Nat.mod_lt _ (by decide)⟩

/-- A field as an index below `n`. -/
def finField (n : Nat) (h : 0 < n) (v : Nat) : Fin n := ⟨v % n, Nat.mod_lt _ h⟩

/-! ## Encoding -/

/-- The first word of opcode `op` with the fields `f`. -/
def word0 (op f : Nat) : Nat := op * 2 ^ 26 + f

/-- Formats A, B, C and J. -/
def encA (op d a b : Nat) : List Nat := [word0 op (d * 2 ^ 22 + a * 2 ^ 18 + b * 2 ^ 14)]
def encB (op d a : Nat) (imm : BitVec 18) : List Nat := [word0 op (d * 2 ^ 22 + a * 2 ^ 18 + imm.toNat)]
def encC (op d : Nat) (imm : BitVec 22) : List Nat := [word0 op (d * 2 ^ 22 + imm.toNat)]
def encJ (op d t : Nat) : List Nat := [word0 op (d * 2 ^ 22 + t)]

/-- Format S. -/
def encS (op d a : Nat) : ShiftCount → List Nat
  | .reg g => [word0 op (d * 2 ^ 22 + a * 2 ^ 18 + g * 2 ^ 14)]
  | .imm n => [word0 op (d * 2 ^ 22 + a * 2 ^ 18 + 2 ^ 13 + n)]

/-- Format V. -/
def encV (op n sub : Nat) : Src → List Nat
  | .imm v => [word0 op (n * 2 ^ 21 + sub * 2 ^ 18 + v)]
  | .reg g => [word0 op (n * 2 ^ 21 + sub * 2 ^ 18 + 1 * 2 ^ 16 + g * 2 ^ 12)]
  | .word x => [word0 op (n * 2 ^ 21 + sub * 2 ^ 18 + 2 * 2 ^ 16), x.toNat]
  | .undef => [word0 op (n * 2 ^ 21 + sub * 2 ^ 18 + 3 * 2 ^ 16)]

/-- Format TR. -/
def encTr (op n mode leader : Nat) : Src → List Nat
  | .imm _ => [word0 op (n * 2 ^ 21 + mode * 2 ^ 18 + leader * 2 ^ 6)]
  | .reg g => [word0 op (n * 2 ^ 21 + mode * 2 ^ 18 + 1 * 2 ^ 16 + g * 2 ^ 12 + leader * 2 ^ 6)]
  | .word x => [word0 op (n * 2 ^ 21 + mode * 2 ^ 18 + 2 * 2 ^ 16 + leader * 2 ^ 6), x.toNat]
  | .undef => [word0 op (n * 2 ^ 21 + mode * 2 ^ 18 + 3 * 2 ^ 16 + leader * 2 ^ 6)]

/-- The budget instructions (R209). -/
def encBud (op pool : Nat) : Src → List Nat
  | .imm v => [word0 op (pool * 2 ^ 23 + v)]
  | .reg g => [word0 op (pool * 2 ^ 23 + 1 * 2 ^ 21 + g * 2 ^ 17)]
  | .word x => [word0 op (pool * 2 ^ 23 + 2 * 2 ^ 21), x.toNat]
  | .undef => [word0 op (pool * 2 ^ 23 + 3 * 2 ^ 21)]

/-- The condition word (R200). -/
def encCond (c : CondWord) : Nat :=
  c.sel * 2 ^ 26 + c.idx * 2 ^ 20 + c.neg.toNat * 2 ^ 19 + c.lit.isSome.toNat * 2 ^ 18 + c.gv * 2 ^ 14 + c.kind * 2 ^ 8

/-- Format W: word 0, the condition, the time word and the literal. -/
def encW (op f : Nat) (c : CondWord) (time : Nat) : List Nat :=
  [word0 op f, encCond c, time] ++ (match c.lit with | some x => [x.toNat] | none => [])

/-- The words of a Lannos instruction (R192); no other command has any. -/
def encodeLannos : Instr → List Nat
  | .mov _ d a => encA 0x01 d a 0
  | .movi _ d imm => encC 0x02 d imm
  | .movh _ d imm => encC 0x03 d imm
  | .ld _ d a imm => encB 0x04 d a imm
  | .st _ d a imm => encB 0x05 d a imm
  | .ldx _ d a imm => encB 0x06 d a imm
  | .stx _ d a imm => encB 0x07 d a imm
  | .add _ d a b => encA 0x08 d a b
  | .addi _ d a imm => encB 0x09 d a imm
  | .sub _ d a b => encA 0x0A d a b
  | .mul _ d a b => encA 0x0B d a b
  | .mulh _ d a b => encA 0x0C d a b
  | .andd _ d a b => encA 0x0D d a b
  | .orr _ d a b => encA 0x0E d a b
  | .xorr _ d a b => encA 0x0F d a b
  | .nott _ d a => encA 0x10 d a 0
  | .shl _ d a n => encS 0x11 d a n
  | .shr _ d a n => encS 0x12 d a n
  | .sar _ d a n => encS 0x13 d a n
  | .cmp _ a b => encA 0x14 0 a b
  | .cmpi _ a imm => encB 0x15 0 a imm
  | .minn _ d a b => encA 0x16 d a b
  | .maxx _ d a b => encA 0x17 d a b
  | .sat _ d a n => [word0 0x18 (d * 2 ^ 22 + a * 2 ^ 18 + n)]
  | .j _ t => encJ 0x19 0 t
  | .jc _ cond t => encJ 0x1A cond t
  | .call _ t => encJ 0x1B 0 t
  | .ret _ => [word0 0x1C 0]
  | .loop _ d t => encJ 0x1D d t
  | .nop _ => [word0 0x1E 0]
  | .yield _ => [word0 0x1F 0]
  | .halt _ => [word0 0x20 0]
  | .wait _ (.imm us) => [word0 0x21 us]
  | .wait _ (.reg g) => [word0 0x21 (g * 2 ^ 22 + 2 ^ 21)]
  | .waitc _ c timeout label => encW 0x22 label c timeout
  | .time _ d h => [word0 0x23 (d * 2 ^ 22 + h.toNat * 2 ^ 21)]
  | .enr _ n => [word0 0x24 (n * 2 ^ 21)]
  | .disr _ n => [word0 0x25 (n * 2 ^ 21)]
  | .setv _ n (.reg g) rate => [word0 0x26 (n * 2 ^ 21 + g * 2 ^ 16 + rate)]
  | .setv _ n (.word x) rate => [word0 0x26 (n * 2 ^ 21 + 2 ^ 20 + rate), x.toNat]
  | .seti _ n v => encV 0x27 n 0 v
  | .setf _ n v => encV 0x28 n 0 v
  | .phaseArm _ n v => encV 0x29 n 0 v
  | .phaseMap _ n v => encV 0x29 n 1 v
  | .phaseUnfence _ n v => encV 0x29 n 2 v
  | .phaseTh _ n v => encV 0x29 n 3 v
  | .phaseDly _ n v => encV 0x29 n 4 v
  | .phaseBal _ n v => encV 0x29 n 5 v
  | .phaseLph _ n v => encV 0x29 n 6 v
  | .track _ n leader mode r => encTr 0x2A n mode leader r
  | .hicc _ n v => encV 0x2B n 0 v
  | .bound _ n kind v => encV 0x2C n kind v
  | .check _ c dwell timeout code chlim => encW 0x2D (chlim * 2 ^ 20 + code) c (dwell * 2 ^ 16 + timeout)
  | .tel _ d kind idx raw => [word0 0x2E (d * 2 ^ 22 + kind * 2 ^ 16 + idx * 2 ^ 10 + raw.toNat * 2 ^ 9)]
  | .telc _ d kind idx => [word0 0x2F (d * 2 ^ 22 + kind * 2 ^ 16 + idx * 2 ^ 10)]
  | .breq _ pool v => encBud 0x30 pool v
  | .brel _ pool v => encBud 0x31 pool v
  | .subj _ c window label => encW 0x32 label c window
  | .revoke _ => [word0 0x33 0]
  | .sig _ prog n => [word0 0x34 (prog * 2 ^ 20 + n * 2 ^ 16)]
  | .sync _ b timeout label => [word0 0x35 (b * 2 ^ 23 + label), timeout]
  | .mode _ target sdend => [word0 0x36 (target * 2 ^ 22 + sdend * 2 ^ 20)]
  | .modeResume _ => [word0 0x36 (1 * 2 ^ 18)]
  | .modePass _ => [word0 0x36 (2 * 2 ^ 18)]
  | .fence _ kind index => [word0 0x37 (kind * 2 ^ 24 + index * 2 ^ 19)]
  | .log _ code a (some b) => [word0 0x38 (a * 2 ^ 22 + b * 2 ^ 18 + 2 ^ 17 + code)]
  | .log _ code a none => [word0 0x38 (a * 2 ^ 22 + code)]
  | .ckpt _ => [word0 0x39 0]
  | .intent _ d port code scale => [word0 0x3A (d * 2 ^ 22 + port * 2 ^ 18 + code * 2 ^ 12 + scale * 2 ^ 6)]
  | .out _ n level => [word0 0x3B (n * 2 ^ 22 + level.toNat * 2 ^ 21)]
  | .kick _ wd slot => [word0 0x3C (wd * 2 ^ 23 + slot * 2 ^ 19)]
  | _ => []

/-- The engine whose instruction a command is; none for the commands that have no words. -/
def Instr.lannosEngine : Instr → Option (Fin 48)
  | .mov e _ _ | .movi e _ _ | .movh e _ _ | .ld e _ _ _ | .st e _ _ _ | .ldx e _ _ _ | .stx e _ _ _ | .add e _ _ _
  | .addi e _ _ _ | .sub e _ _ _ | .mul e _ _ _ | .mulh e _ _ _ | .andd e _ _ _ | .orr e _ _ _ | .xorr e _ _ _
  | .nott e _ _ | .shl e _ _ _ | .shr e _ _ _ | .sar e _ _ _ | .cmp e _ _ | .cmpi e _ _ | .minn e _ _ _
  | .maxx e _ _ _ | .sat e _ _ _ | .j e _ | .jc e _ _ | .call e _ | .ret e | .loop e _ _ | .nop e | .yield e | .halt e
  | .wait e _ | .waitc e _ _ _ | .time e _ _ | .enr e _ | .disr e _ | .setv e _ _ _ | .seti e _ _ | .setf e _ _
  | .phaseArm e _ _ | .phaseMap e _ _ | .phaseUnfence e _ _ | .phaseTh e _ _ | .phaseDly e _ _ | .phaseBal e _ _
  | .phaseLph e _ _ | .track e _ _ _ _ | .hicc e _ _ | .bound e _ _ _ | .check e _ _ _ _ _ | .tel e _ _ _ _
  | .telc e _ _ _ | .breq e _ _ | .brel e _ _ | .subj e _ _ _ | .revoke e | .sig e _ _ | .sync e _ _ _ | .mode e _ _
  | .modeResume e | .modePass e | .fence e _ _ | .log e _ _ _ | .ckpt e | .intent e _ _ _ _ | .out e _ _ | .kick e _ _ => some e
  | _ => none

/-! ## Decoding -/

/-- What a decoder answers: an instruction with the words that follow it, an undefined encoding, or too few words. -/
inductive Decoded where
  | instr (i : Instr) (rest : List Nat)
  | undefined
  | short
  deriving DecidableEq, Repr

/-- An instruction of one word whose fields shown as zero are zero (R188). -/
def oneWord (zero : Bool) (i : Instr) (rest : List Nat) : Decoded := if zero then .instr i rest else .undefined

/-- Format S. -/
def decShift (w : Nat) (mk : ShiftCount → Instr) (rest : List Nat) : Decoded :=
  if fieldAt w 6 7 ≠ 0 then .undefined
  else if fieldAt w 13 1 = 1 then .instr (mk (.imm (finField 64 (by decide) w))) rest
  else oneWord (fieldAt w 0 6 == 0) (mk (.reg (regAtBit w 14))) rest

/-- The value that SRC selects at bit `lo`, with a register at bit `glo` and the immediate `imm`. -/
def decSrc (src g imm : Nat) (mk : Src → Instr) (rest : List Nat) : Decoded :=
  match src with
  | 0 => .instr (mk (.imm (finField 131072 (by decide) imm))) rest
  | 1 => .instr (mk (.reg (finField 16 (by decide) g))) rest
  | 2 => match rest with
    | x :: rest => .instr (mk (.word (wordOf x))) rest
    | [] => .short
  | _ => .instr (mk .undef) rest

/-- Format V. -/
def decV (w : Nat) (mk : Src → Instr) (rest : List Nat) : Decoded :=
  decSrc (fieldAt w 16 2) (fieldAt w 12 4) (fieldAt w 0 12) mk rest

/-- The condition word and the time word, with the literal where LIT = 1 (R200, R201). -/
def decW (mk : CondWord → Nat → Option Instr) : List Nat → Decoded
  | c :: t :: rest =>
    if fieldAt c 0 8 ≠ 0 then .undefined
    else
      let cw (lit : Option Word) : CondWord :=
        { sel := finField 64 (by decide) (fieldAt c 26 6), idx := finField 64 (by decide) (fieldAt c 20 6)
          neg := fieldAt c 19 1 == 1, lit := lit, gv := finField 16 (by decide) (fieldAt c 14 4)
          kind := finField 64 (by decide) (fieldAt c 8 6) }
      let answer (lit : Option Word) (rest : List Nat) : Decoded :=
        match mk (cw lit) t with
        | some i => .instr i rest
        | none => .undefined
      if fieldAt c 18 1 = 1 then
        match rest with
        | x :: rest => answer (some (wordOf x)) rest
        | [] => .short
      else answer none rest
  | _ => .short

/-- The instruction of engine `e` at the front of a list of words (R188, R192). -/
def decodeLannos (e : Fin 48) : List Nat → Decoded
  | [] => .short
  | w :: rest =>
    let d := regAtBit w 22
    let a := regAtBit w 18
    let b := regAtBit w 14
    let immB : BitVec 18 := BitVec.ofNat 18 w
    let immC : BitVec 22 := BitVec.ofNat 22 w
    let rail : Fin 32 := finField 32 (by decide) (fieldAt w 21 5)
    let sub := fieldAt w 18 3
    let t : Fin 65536 := finField 65536 (by decide) w
    let zA := fieldAt w 0 14 == 0
    let zJ := fieldAt w 16 6 == 0
    let zN := fieldAt w 0 26 == 0
    let zD := fieldAt w 22 4 == 0
    let zV := sub == 0
    let alu (mk : Fin 48 → Fin 16 → Fin 16 → Fin 16 → Instr) : Decoded := oneWord zA (mk e d a b) rest
    match fieldAt w 26 6 with
    | 0x01 => oneWord zA (.mov e d a) rest
    | 0x02 => .instr (.movi e d immC) rest
    | 0x03 => .instr (.movh e d immC) rest
    | 0x04 => .instr (.ld e d a immB) rest
    | 0x05 => .instr (.st e d a immB) rest
    | 0x06 => .instr (.ldx e d a immB) rest
    | 0x07 => .instr (.stx e d a immB) rest
    | 0x08 => alu .add
    | 0x09 => .instr (.addi e d a immB) rest
    | 0x0A => alu .sub
    | 0x0B => alu .mul
    | 0x0C => alu .mulh
    | 0x0D => alu .andd
    | 0x0E => alu .orr
    | 0x0F => alu .xorr
    | 0x10 => oneWord (fieldAt w 0 18 == 0) (.nott e d a) rest
    | 0x11 => decShift w (.shl e d a) rest
    | 0x12 => decShift w (.shr e d a) rest
    | 0x13 => decShift w (.sar e d a) rest
    | 0x14 => oneWord (zA && zD) (.cmp e a b) rest
    | 0x15 => oneWord zD (.cmpi e a immB) rest
    | 0x16 => alu .minn
    | 0x17 => alu .maxx
    | 0x18 => oneWord (fieldAt w 6 12 == 0) (.sat e d a (finField 64 (by decide) w)) rest
    | 0x19 => oneWord (zJ && zD) (.j e t) rest
    | 0x1A => oneWord zJ (.jc e d t) rest
    | 0x1B => oneWord (zJ && zD) (.call e t) rest
    | 0x1C => oneWord zN (.ret e) rest
    | 0x1D => oneWord zJ (.loop e d t) rest
    | 0x1E => oneWord zN (.nop e) rest
    | 0x1F => oneWord zN (.yield e) rest
    | 0x20 => oneWord zN (.halt e) rest
    | 0x21 =>
      if fieldAt w 21 1 = 1 then oneWord (fieldAt w 0 21 == 0) (.wait e (.reg d)) rest
      else .instr (.wait e (.imm (finField 2097152 (by decide) w))) rest
    | 0x22 =>
      if fieldAt w 16 10 ≠ 0 then .undefined
      else decW (fun c time => if 65536 ≤ time then none else some (.waitc e c (finField 65536 (by decide) time) t)) rest
    | 0x23 => oneWord (fieldAt w 0 21 == 0) (.time e d (fieldAt w 21 1 == 1)) rest
    | 0x24 => oneWord (fieldAt w 0 21 == 0) (.enr e rail) rest
    | 0x25 => oneWord (fieldAt w 0 21 == 0) (.disr e rail) rest
    | 0x26 =>
      if fieldAt w 20 1 = 1 then
        match rest with
        | x :: rest => .instr (.setv e rail (.word (wordOf x)) t) rest
        | [] => .short
      else .instr (.setv e rail (.reg (regAtBit w 16)) t) rest
    | 0x27 => if zV then decV w (.seti e rail) rest else .undefined
    | 0x28 => if zV then decV w (.setf e rail) rest else .undefined
    | 0x29 =>
      match sub with
      | 0 => decV w (.phaseArm e rail) rest
      | 1 => decV w (.phaseMap e rail) rest
      | 2 => decV w (.phaseUnfence e rail) rest
      | 3 => decV w (.phaseTh e rail) rest
      | 4 => decV w (.phaseDly e rail) rest
      | 5 => decV w (.phaseBal e rail) rest
      | 6 => decV w (.phaseLph e rail) rest
      | _ => .undefined
    | 0x2A =>
      if fieldAt w 0 6 ≠ 0 then .undefined
      else decSrc (fieldAt w 16 2) (fieldAt w 12 4) 0
        (.track e rail (finField 64 (by decide) (fieldAt w 6 6)) (finField 8 (by decide) sub)) rest
    | 0x2B => if zV then decV w (.hicc e rail) rest else .undefined
    | 0x2C => decV w (.bound e rail (finField 8 (by decide) sub)) rest
    | 0x2D =>
      if fieldAt w 8 12 ≠ 0 then .undefined
      else decW (fun c time => some (.check e c (finField 65536 (by decide) (fieldAt time 16 16)) (finField 65536 (by decide) time)
        (finField 256 (by decide) w) (finField 64 (by decide) (fieldAt w 20 6)))) rest
    | 0x2E => oneWord (fieldAt w 0 9 == 0) (.tel e d (finField 64 (by decide) (fieldAt w 16 6))
        (finField 64 (by decide) (fieldAt w 10 6)) (fieldAt w 9 1 == 1)) rest
    | 0x2F => oneWord (fieldAt w 0 10 == 0) (.telc e d (finField 64 (by decide) (fieldAt w 16 6))
        (finField 64 (by decide) (fieldAt w 10 6))) rest
    | 0x30 => decSrc (fieldAt w 21 2) (fieldAt w 17 4) (fieldAt w 0 17) (.breq e (finField 8 (by decide) (fieldAt w 23 3))) rest
    | 0x31 => decSrc (fieldAt w 21 2) (fieldAt w 17 4) (fieldAt w 0 17) (.brel e (finField 8 (by decide) (fieldAt w 23 3))) rest
    | 0x32 =>
      if fieldAt w 16 10 ≠ 0 then .undefined
      else decW (fun c time => if 65536 ≤ time then none else some (.subj e c (finField 65536 (by decide) time) t)) rest
    | 0x33 => oneWord zN (.revoke e) rest
    | 0x34 => oneWord (fieldAt w 0 16 == 0) (.sig e (finField 64 (by decide) (fieldAt w 20 6)) (regAtBit w 16)) rest
    | 0x35 =>
      if fieldAt w 16 7 ≠ 0 then .undefined
      else match rest with
        | x :: rest =>
          oneWord (fieldAt x 16 16 == 0) (.sync e (finField 8 (by decide) (fieldAt w 23 3)) (finField 65536 (by decide) x) t) rest
        | [] => .short
    | 0x36 =>
      match fieldAt w 18 2 with
      | 0 => oneWord (fieldAt w 0 18 == 0) (.mode e d (finField 4 (by decide) (fieldAt w 20 2))) rest
      | 1 => oneWord (fieldAt w 0 18 == 0 && fieldAt w 20 6 == 0) (.modeResume e) rest
      | 2 => oneWord (fieldAt w 0 18 == 0 && fieldAt w 20 6 == 0) (.modePass e) rest
      | _ => .undefined
    | 0x37 => oneWord (fieldAt w 0 19 == 0) (.fence e (finField 4 (by decide) (fieldAt w 24 2))
        (finField 32 (by decide) (fieldAt w 19 5))) rest
    | 0x38 =>
      if fieldAt w 17 1 = 1 then oneWord (fieldAt w 16 1 == 0) (.log e t d (some a)) rest
      else oneWord (fieldAt w 16 1 == 0 && fieldAt w 18 4 == 0) (.log e t d none) rest
    | 0x39 => oneWord zN (.ckpt e) rest
    | 0x3A => oneWord (fieldAt w 0 6 == 0) (.intent e d a (finField 64 (by decide) (fieldAt w 12 6))
        (finField 64 (by decide) (fieldAt w 6 6))) rest
    | 0x3B => oneWord (fieldAt w 0 21 == 0) (.out e d (fieldAt w 21 1 == 1)) rest
    | 0x3C => oneWord (fieldAt w 0 19 == 0) (.kick e (finField 8 (by decide) (fieldAt w 23 3))
        (finField 16 (by decide) (fieldAt w 19 4))) rest
    | _ => .undefined

end Sys2Proof
end

