-- ==== Sys2Proof/Config.lean ====
section
/-! DEFINITION. The constants of an implementation and the free values. A free value is a function with no body of a
counter that State holds (`State.freeCtr`): the spec gives the step its effect and leaves this one value open, so no
proof can see what it is. -/
namespace Sys2Proof.Config

/-- A word the spec leaves open, number `n` of the run (assumption log entry 2). -/
opaque freeWord : Nat → Word

/-- A word of the TRIM array, which Steiston burns at production test: words whose contents R407 does not fix (assumption
log entry 5). -/
opaque trimWord : Nat → Word

/-- One less than the width of a TRIM field whose width R407 does not state (assumption log entry 5). -/
opaque trimBits : Nat → Fin 32

/-- What the consumer of a TRIM field receives where the field's pair does not check and no value has been delivered: the safe default of
R404, which the spec does not give for TRIM (assumption log entry 169). -/
opaque trimSafe : Nat → Word

/-- The peak limit in mA that the stage of a phase uses while PKLIM is 0: the stage's own default (R107), which the spec does not
give (assumption log entry 131). -/
opaque stageLimit : Nat → BitVec 20

/-- Steiston's manufacturer code of the test port's identity (R453), which the spec does not give (assumption log entry 6). -/
opaque manufacturer : BitVec 11

end Sys2Proof.Config
end

