-- ==== Sys2Proof/Machine/Cells.lean ====
section
/-! DEFINITION. Sparse maps by number: a list of (key, value) pairs in one canonical form, keys strictly rising
and no entry equal to what an unlisted key reads as. Memory bytes, register words and the records of the
block's instances (rails, links, engines, ports) are all held this way, so that equal contents are equal data. -/
namespace Sys2Proof.Machine

/-- What key `a` reads as; `d` is what an unlisted key reads as. -/
def cellGet {α : Type} (d : α) : List (Nat × α) → Nat → α
  | [], _ => d
  | (k, v) :: t, a => if k = a then v else cellGet d t a

/-- The list without an entry for key `a`. -/
def cellErase {α : Type} : List (Nat × α) → Nat → List (Nat × α)
  | [], _ => []
  | (k, v) :: t, a => if k = a then cellErase t a else (k, v) :: cellErase t a

/-- The list with the entry `(a, v)`, in its place by key. -/
def cellInsert {α : Type} : List (Nat × α) → Nat → α → List (Nat × α)
  | [], a, v => [(a, v)]
  | (k, w) :: t, a, v =>
    if a < k then (a, v) :: (k, w) :: t
    else if a = k then (a, v) :: t
    else (k, w) :: cellInsert t a v

/-- Write: the value an unlisted key reads as removes the entry, any other value stands in its place. -/
def cellSet {α : Type} [DecidableEq α] (d : α) (m : List (Nat × α)) (a : Nat) (v : α) : List (Nat × α) :=
  if v = d then cellErase m a else cellInsert m a v

/-- The canonical form of an entry list whose keys all lie at or above `lo`. -/
def cellWfFrom {α : Type} [DecidableEq α] (d : α) (lo : Nat) : List (Nat × α) → Bool
  | [] => true
  | (k, v) :: t => decide (lo ≤ k) && !decide (v = d) && cellWfFrom d (k + 1) t

/-- The canonical form: keys strictly rising, no entry equal to the default. -/
def cellWf {α : Type} [DecidableEq α] (d : α) (m : List (Nat × α)) : Bool := cellWfFrom d 0 m

/-- The entries whose keys satisfy `p`. -/
def cellKeep {α : Type} (p : Nat → Bool) (m : List (Nat × α)) : List (Nat × α) :=
  m.filter (fun kv => p kv.1)

end Sys2Proof.Machine
end

