-- ==== Sys2Proof/Machine/RegMap.lean ====
section
/-! DEFINITION. The register map: every register word of the spec's register tables, with its address, its
instances, its power domain, its reset value, and for each field its bits and its access code (R11). One `Reg` per
table entry and one `Fld` per named field, in the order of the spec's chapters. -/
namespace Sys2Proof.Machine

/-- The access codes of R11. -/
inductive Access where
  | ro | rw | w1c | wo | rc | rwl | key
  deriving DecidableEq, Repr

/-- One field of a register word: bits `hi` to `lo`, its access code, and whether it is complement-paired. -/
structure FieldRow where
  hi : Nat
  lo : Nat
  acc : Access
  cp : Bool
  deriving DecidableEq, Repr

/-- A register of the host address map (R29). Instance `n` stands at `base + stride * n`. With `copies` every armature
master has its own copy (R30) and `n` is the master's number. `dom n` is the power domain that holds instance `n`
(R22), and `reset n` its reset value. -/
structure Reg where
  base : Nat
  stride : Nat
  count : Nat
  copies : Bool
  dom : Nat → Nat
  reset : Nat → Word
  fields : List FieldRow

/-- A named field of a register. -/
structure Fld where
  reg : Reg
  hi : Nat
  lo : Nat

/-- The key under which instance `n` is stored: its host word address, and above the address space for an instance that
no single address names (a master's copy, a selected node, a link of LX). -/
def Reg.addr (r : Reg) (n : Nat) : Nat :=
  if n < r.count then r.base + r.stride * n else r.base + 0x10000 * (n + 1)

/-- The value that a field of `hi - lo + 1` bits holds in a word. -/
def Word.bits (w : Word) (hi lo : Nat) : Nat := (w.toNat >>> lo) % 2 ^ (hi + 1 - lo)

/-- The word with the bits `hi` to `lo` replaced by the low bits of `v`. -/
def Word.setBits (w : Word) (hi lo v : Nat) : Word :=
  let m : Word := BitVec.ofNat 32 ((2 ^ (hi + 1 - lo) - 1) <<< lo)
  (w &&& ~~~m) ||| (BitVec.ofNat 32 (v <<< lo) &&& m)

/-- A bit of a word. -/
def Word.bit (w : Word) (k : Nat) : Bool := w.toNat.testBit k

/-- The word with bit `k` set or cleared. -/
def Word.setBit (w : Word) (k : Nat) (b : Bool) : Word := Word.setBits w k k b.toNat

/-- The low `n` bits of `v` read as a signed number. -/
def signed (n v : Nat) : Int := (BitVec.ofNat n v).toInt

/-- The default configuration of fault source `s` (R350, the Default and Fence columns): REACT in bits 2–0, EP in bit 4,
FENCE in bit 8. -/
def faultDefault (s : Nat) : Word :=
  let ep : Nat := 16
  if s < 32 then 1 else if s < 64 then BitVec.ofNat 32 (2 + ep) else if s < 192 then 1
  else if s < 240 then BitVec.ofNat 32 (1 + ep + 256) else if s < 288 then 1
  else if s < 296 then BitVec.ofNat 32 (2 + ep) else if s < 312 then 1
  else if s < 320 then BitVec.ofNat 32 (4 + ep) else if s < 329 then 1
  else if s = 329 then BitVec.ofNat 32 (2 + ep) else if s = 330 then 1 else if s = 331 then BitVec.ofNat 32 (2 + ep)
  else if s < 334 then 1 else if s = 334 then BitVec.ofNat 32 (2 + ep) else if s = 335 then 1
  else if s = 336 then BitVec.ofNat 32 (1 + ep + 256) else if s < 353 then 1 else if s = 353 then 2
  else if s < 356 then BitVec.ofNat 32 (2 + ep) else if s = 356 then 0 else if s = 357 then BitVec.ofNat 32 (2 + ep)
  else if s < 360 then 1 else if s = 360 then BitVec.ofNat 32 (2 + ep) else if s = 361 then BitVec.ofNat 32 (4 + ep)
  else if s = 362 then BitVec.ofNat 32 (2 + ep) else if s = 363 then BitVec.ofNat 32 (1 + ep)
  else if s < 368 then BitVec.ofNat 32 (2 + ep) else if s = 368 then 1 else if s = 369 then BitVec.ofNat 32 (2 + ep)
  else if s = 370 then BitVec.ofNat 32 (1 + ep) else if s = 371 then BitVec.ofNat 32 (2 + ep) else 0

/-- `SYS_IDENT`, at 0x0000 (00_scope.md). -/
def SYS_IDENT : Reg := { base := 0x0000, stride := 0x0, count := 1, copies := false, dom := fun _ => 0, reset := fun _ => 0x53547264#32, fields := [⟨31, 16, .ro, false⟩, ⟨15, 0, .ro, false⟩] }
def SYS_IDENT_VENDOR : Fld := ⟨SYS_IDENT, 31, 16⟩
def SYS_IDENT_PART : Fld := ⟨SYS_IDENT, 15, 0⟩
/-- `SYS_REVCNT`, at 0x0001 (00_scope.md). -/
def SYS_REVCNT : Reg := { base := 0x0001, stride := 0x0, count := 1, copies := false, dom := fun _ => 0, reset := fun _ => 0xB0304020#32, fields := [⟨31, 24, .ro, false⟩, ⟨23, 16, .ro, false⟩, ⟨15, 8, .ro, false⟩, ⟨7, 0, .ro, false⟩] }
def SYS_REVCNT_REV : Fld := ⟨SYS_REVCNT, 31, 24⟩
def SYS_REVCNT_ENGCNT : Fld := ⟨SYS_REVCNT, 23, 16⟩
def SYS_REVCNT_PHCNT : Fld := ⟨SYS_REVCNT, 15, 8⟩
def SYS_REVCNT_RLCNT : Fld := ⟨SYS_REVCNT, 7, 0⟩
/-- `PDC_STAT`, at 0x0100 (01_architecture.md). -/
def PDC_STAT : Reg := { base := 0x0100, stride := 0x0, count := 1, copies := false, dom := fun _ => 0, reset := fun _ => 0x00000003#32, fields := [⟨27, 16, .w1c, false⟩, ⟨11, 0, .ro, false⟩] }
def PDC_STAT_SWFAULT : Fld := ⟨PDC_STAT, 27, 16⟩
def PDC_STAT_ON : Fld := ⟨PDC_STAT, 11, 0⟩
/-- `CLK_STAT`, at 0x0110 (01_architecture.md). -/
def CLK_STAT : Reg := { base := 0x0110, stride := 0x0, count := 1, copies := false, dom := fun _ => 0, reset := fun _ => 0x00000020#32, fields := [⟨5, 5, .ro, false⟩, ⟨4, 4, .w1c, false⟩, ⟨3, 3, .w1c, false⟩, ⟨2, 2, .ro, false⟩, ⟨1, 1, .ro, false⟩, ⟨0, 0, .ro, false⟩] }
def CLK_STAT_WDOSC_OK : Fld := ⟨CLK_STAT, 5, 5⟩
def CLK_STAT_XTALFAIL : Fld := ⟨CLK_STAT, 4, 4⟩
def CLK_STAT_TREFLOSS : Fld := ⟨CLK_STAT, 3, 3⟩
def CLK_STAT_TREFSEL : Fld := ⟨CLK_STAT, 2, 2⟩
def CLK_STAT_TIMELOCK : Fld := ⟨CLK_STAT, 1, 1⟩
def CLK_STAT_CORELOCK : Fld := ⟨CLK_STAT, 0, 0⟩
/-- `SYS_WINBANK`, at 0x0010 + 0x10000·n (01_architecture.md). -/
def SYS_WINBANK : Reg := { base := 0x0010, stride := 0x10000, count := 64, copies := true, dom := fun _ => 0, reset := fun _ => 0x00000000#32, fields := [⟨18, 16, .rw, false⟩, ⟨14, 12, .rw, false⟩, ⟨9, 8, .rw, false⟩, ⟨3, 0, .rw, false⟩] }
def SYS_WINBANK_PRBANK : Fld := ⟨SYS_WINBANK, 18, 16⟩
def SYS_WINBANK_ITBANK : Fld := ⟨SYS_WINBANK, 14, 12⟩
def SYS_WINBANK_DRBANK : Fld := ⟨SYS_WINBANK, 9, 8⟩
def SYS_WINBANK_PSBANK : Fld := ⟨SYS_WINBANK, 3, 0⟩
/-- `SYS_PDOPT_SB`, at 0x0026 (02_modes.md). -/
def SYS_PDOPT_SB : Reg := { base := 0x0026, stride := 0x0, count := 1, copies := false, dom := fun _ => 0, reset := fun _ => 0x00000220#32, fields := [⟨11, 0, .rw, true⟩] }
def SYS_PDOPT_SB_OPT : Fld := ⟨SYS_PDOPT_SB, 11, 0⟩
/-- `SYS_PDOPT_PV`, at 0x0027 (02_modes.md). -/
def SYS_PDOPT_PV : Reg := { base := 0x0027, stride := 0x0, count := 1, copies := false, dom := fun _ => 0, reset := fun _ => 0x00000000#32, fields := [⟨11, 0, .rw, true⟩] }
def SYS_PDOPT_PV_OPT : Fld := ⟨SYS_PDOPT_PV, 11, 0⟩
/-- `SYS_HOUR`, at 0x0040 + 0x1·n (02_modes.md). -/
def SYS_HOUR : Reg := { base := 0x0040, stride := 0x1, count := 12, copies := false, dom := fun _ => 0, reset := fun _ => 0x00000000#32, fields := [⟨31, 0, .ro, false⟩] }
def SYS_HOUR_SECONDS : Fld := ⟨SYS_HOUR, 31, 0⟩
/-- `SYS_MODE`, at 0x0020 (02_modes.md). -/
def SYS_MODE : Reg := { base := 0x0020, stride := 0x0, count := 1, copies := false, dom := fun _ => 0, reset := fun _ => 0x00000201#32, fields := [⟨12, 12, .ro, false⟩, ⟨11, 8, .ro, false⟩, ⟨7, 4, .ro, false⟩, ⟨0, 0, .ro, false⟩] }
def SYS_MODE_RESUME : Fld := ⟨SYS_MODE, 12, 12⟩
def SYS_MODE_TARGET : Fld := ⟨SYS_MODE, 11, 8⟩
def SYS_MODE_PREV : Fld := ⟨SYS_MODE, 7, 4⟩
def SYS_MODE_TRANS : Fld := ⟨SYS_MODE, 0, 0⟩
/-- `SYS_MODECUR`, at 0x0021 (02_modes.md). -/
def SYS_MODECUR : Reg := { base := 0x0021, stride := 0x0, count := 1, copies := false, dom := fun _ => 0, reset := fun _ => 0x00000002#32, fields := [⟨3, 0, .ro, true⟩] }
def SYS_MODECUR_CUR : Fld := ⟨SYS_MODECUR, 3, 0⟩
/-- `SYS_MODEREQ`, at 0x0022 + 0x10000·n (02_modes.md). -/
def SYS_MODEREQ : Reg := { base := 0x0022, stride := 0x10000, count := 64, copies := true, dom := fun _ => 0, reset := fun _ => 0x00000000#32, fields := [⟨31, 16, .key, false⟩, ⟨15, 12, .ro, false⟩, ⟨9, 8, .rw, true⟩, ⟨3, 0, .rw, true⟩] }
def SYS_MODEREQ_KEY : Fld := ⟨SYS_MODEREQ, 31, 16⟩
def SYS_MODEREQ_STATUS : Fld := ⟨SYS_MODEREQ, 15, 12⟩
def SYS_MODEREQ_SDEND : Fld := ⟨SYS_MODEREQ, 9, 8⟩
def SYS_MODEREQ_TARGET : Fld := ⟨SYS_MODEREQ, 3, 0⟩
/-- `SYS_MODECFG`, at 0x0024 (02_modes.md). -/
def SYS_MODECFG : Reg := { base := 0x0024, stride := 0x0, count := 1, copies := false, dom := fun _ => 0, reset := fun _ => 0x321191F4#32, fields := [⟨31, 24, .ro, false⟩, ⟨20, 20, .rw, true⟩, ⟨19, 10, .rw, true⟩, ⟨9, 0, .rw, true⟩] }
def SYS_MODECFG_WKTMO : Fld := ⟨SYS_MODECFG, 31, 24⟩
def SYS_MODECFG_FENCEDEG : Fld := ⟨SYS_MODECFG, 20, 20⟩
def SYS_MODECFG_REARM : Fld := ⟨SYS_MODECFG, 19, 10⟩
def SYS_MODECFG_SDTMO : Fld := ⟨SYS_MODECFG, 9, 0⟩
/-- `SYS_MODESRC`, at 0x0028 (02_modes.md). -/
def SYS_MODESRC : Reg := { base := 0x0028, stride := 0x0, count := 1, copies := false, dom := fun _ => 0, reset := fun _ => 0x08000022#32, fields := [⟨31, 24, .ro, false⟩, ⟨17, 12, .ro, false⟩, ⟨11, 8, .ro, false⟩, ⟨7, 4, .ro, false⟩, ⟨3, 0, .ro, false⟩] }
def SYS_MODESRC_HWCAUSE : Fld := ⟨SYS_MODESRC, 31, 24⟩
def SYS_MODESRC_ENG : Fld := ⟨SYS_MODESRC, 17, 12⟩
def SYS_MODESRC_SRCKIND : Fld := ⟨SYS_MODESRC, 11, 8⟩
def SYS_MODESRC_TO : Fld := ⟨SYS_MODESRC, 7, 4⟩
def SYS_MODESRC_FROM : Fld := ⟨SYS_MODESRC, 3, 0⟩
/-- `SYS_WAKECFG`, at 0x0050 (03_start_up.md). -/
def SYS_WAKECFG : Reg := { base := 0x0050, stride := 0x0, count := 1, copies := false, dom := fun _ => 0, reset := fun _ => 0x00000503#32, fields := [⟨13, 8, .rw, false⟩, ⟨3, 3, .rw, false⟩, ⟨2, 2, .rw, false⟩, ⟨1, 1, .rw, false⟩, ⟨0, 0, .rw, false⟩] }
def SYS_WAKECFG_BTNDEB : Fld := ⟨SYS_WAKECFG, 13, 8⟩
def SYS_WAKECFG_ALMEN : Fld := ⟨SYS_WAKECFG, 3, 3⟩
def SYS_WAKECFG_ERRINEN : Fld := ⟨SYS_WAKECFG, 2, 2⟩
def SYS_WAKECFG_SRCEN : Fld := ⟨SYS_WAKECFG, 1, 1⟩
def SYS_WAKECFG_BTNEN : Fld := ⟨SYS_WAKECFG, 0, 0⟩
/-- `SYS_WAKEALM`, at 0x0052 (03_start_up.md). -/
def SYS_WAKEALM : Reg := { base := 0x0052, stride := 0x0, count := 1, copies := false, dom := fun _ => 0, reset := fun _ => 0x00000000#32, fields := [⟨31, 0, .rw, false⟩] }
def SYS_WAKEALM_SECONDS : Fld := ⟨SYS_WAKEALM, 31, 0⟩
/-- `SYS_WAKESRC`, at 0x0051 (03_start_up.md). -/
def SYS_WAKESRC : Reg := { base := 0x0051, stride := 0x0, count := 1, copies := false, dom := fun _ => 0, reset := fun _ => 0x00000080#32, fields := [⟨8, 8, .ro, false⟩, ⟨7, 7, .ro, false⟩, ⟨6, 6, .ro, false⟩, ⟨5, 5, .ro, false⟩, ⟨4, 4, .ro, false⟩, ⟨3, 3, .ro, false⟩, ⟨2, 2, .ro, false⟩, ⟨1, 1, .ro, false⟩, ⟨0, 0, .ro, false⟩] }
def SYS_WAKESRC_PLWAKE : Fld := ⟨SYS_WAKESRC, 8, 8⟩
def SYS_WAKESRC_PD0POR : Fld := ⟨SYS_WAKESRC, 7, 7⟩
def SYS_WAKESRC_LATCH : Fld := ⟨SYS_WAKESRC, 6, 6⟩
def SYS_WAKESRC_CHIPRST : Fld := ⟨SYS_WAKESRC, 5, 5⟩
def SYS_WAKESRC_REARM : Fld := ⟨SYS_WAKESRC, 4, 4⟩
def SYS_WAKESRC_ALM : Fld := ⟨SYS_WAKESRC, 3, 3⟩
def SYS_WAKESRC_ERRIN : Fld := ⟨SYS_WAKESRC, 2, 2⟩
def SYS_WAKESRC_SRC : Fld := ⟨SYS_WAKESRC, 1, 1⟩
def SYS_WAKESRC_BTN : Fld := ⟨SYS_WAKESRC, 0, 0⟩
/-- `SYS_STRES`, at 0x0058 (03_start_up.md). -/
def SYS_STRES : Reg := { base := 0x0058, stride := 0x0, count := 1, copies := false, dom := fun _ => 0, reset := fun _ => 0x00000000#32, fields := [⟨9, 9, .ro, false⟩, ⟨8, 8, .ro, false⟩, ⟨7, 7, .ro, false⟩, ⟨6, 6, .ro, false⟩, ⟨5, 5, .ro, false⟩, ⟨4, 4, .ro, false⟩, ⟨3, 3, .ro, false⟩, ⟨2, 2, .ro, false⟩, ⟨1, 1, .ro, false⟩, ⟨0, 0, .ro, false⟩] }
def SYS_STRES_WDMON : Fld := ⟨SYS_STRES, 9, 9⟩
def SYS_STRES_LINKLB : Fld := ⟨SYS_STRES, 8, 8⟩
def SYS_STRES_ADCREF : Fld := ⟨SYS_STRES, 7, 7⟩
def SYS_STRES_CLKMON : Fld := ⟨SYS_STRES, 6, 6⟩
def SYS_STRES_CRCU : Fld := ⟨SYS_STRES, 5, 5⟩
def SYS_STRES_ARMPAIR : Fld := ⟨SYS_STRES, 4, 4⟩
def SYS_STRES_SYMCODE : Fld := ⟨SYS_STRES, 3, 3⟩
def SYS_STRES_MBIST : Fld := ⟨SYS_STRES, 2, 2⟩
def SYS_STRES_LBIST : Fld := ⟨SYS_STRES, 1, 1⟩
def SYS_STRES_ENGCMP : Fld := ⟨SYS_STRES, 0, 0⟩
/-- `SYS_BOOTCTL`, at 0x0056 (03_start_up.md). -/
def SYS_BOOTCTL : Reg := { base := 0x0056, stride := 0x0, count := 1, copies := false, dom := fun _ => 0, reset := fun _ => 0x00000000#32, fields := [⟨31, 16, .key, false⟩, ⟨1, 1, .ro, false⟩, ⟨0, 0, .wo, false⟩] }
def SYS_BOOTCTL_KEY : Fld := ⟨SYS_BOOTCTL, 31, 16⟩
def SYS_BOOTCTL_WAITHOST : Fld := ⟨SYS_BOOTCTL, 1, 1⟩
def SYS_BOOTCTL_HOSTREQ : Fld := ⟨SYS_BOOTCTL, 0, 0⟩
/-- `SYS_QSPICMD`, at 0x0070 (03_start_up.md). -/
def SYS_QSPICMD : Reg := { base := 0x0070, stride := 0x0, count := 1, copies := false, dom := fun _ => 0, reset := fun _ => 0x00000000#32, fields := [⟨31, 24, .rw, false⟩, ⟨23, 22, .rw, false⟩, ⟨21, 19, .rw, false⟩, ⟨18, 18, .rw, false⟩, ⟨1, 1, .ro, false⟩, ⟨0, 0, .wo, false⟩] }
def SYS_QSPICMD_OPCODE : Fld := ⟨SYS_QSPICMD, 31, 24⟩
def SYS_QSPICMD_ADDRB : Fld := ⟨SYS_QSPICMD, 23, 22⟩
def SYS_QSPICMD_DLEN : Fld := ⟨SYS_QSPICMD, 21, 19⟩
def SYS_QSPICMD_DIR : Fld := ⟨SYS_QSPICMD, 18, 18⟩
def SYS_QSPICMD_BUSY : Fld := ⟨SYS_QSPICMD, 1, 1⟩
def SYS_QSPICMD_GO : Fld := ⟨SYS_QSPICMD, 0, 0⟩
/-- `SYS_BOOTCNT`, at 0x0055 (03_start_up.md). -/
def SYS_BOOTCNT : Reg := { base := 0x0055, stride := 0x0, count := 1, copies := false, dom := fun _ => 0, reset := fun _ => 0x00000300#32, fields := [⟨31, 16, .key, false⟩, ⟨10, 8, .ro, false⟩, ⟨3, 0, .ro, false⟩] }
def SYS_BOOTCNT_KEY : Fld := ⟨SYS_BOOTCNT, 31, 16⟩
def SYS_BOOTCNT_LIMIT : Fld := ⟨SYS_BOOTCNT, 10, 8⟩
def SYS_BOOTCNT_FAILS : Fld := ⟨SYS_BOOTCNT, 3, 0⟩
/-- `SYS_BOOTSTAT`, at 0x0054 (03_start_up.md). -/
def SYS_BOOTSTAT : Reg := { base := 0x0054, stride := 0x0, count := 1, copies := false, dom := fun _ => 0, reset := fun _ => 0x00100000#32, fields := [⟨31, 24, .ro, false⟩, ⟨23, 20, .ro, false⟩, ⟨18, 18, .ro, false⟩, ⟨17, 17, .ro, false⟩, ⟨16, 16, .ro, false⟩, ⟨15, 15, .ro, false⟩, ⟨14, 12, .ro, false⟩, ⟨11, 11, .ro, false⟩, ⟨10, 10, .ro, false⟩, ⟨9, 9, .ro, false⟩] }
def SYS_BOOTSTAT_REASON : Fld := ⟨SYS_BOOTSTAT, 31, 24⟩
def SYS_BOOTSTAT_STEP : Fld := ⟨SYS_BOOTSTAT, 23, 20⟩
def SYS_BOOTSTAT_HOSTIMG : Fld := ⟨SYS_BOOTSTAT, 18, 18⟩
def SYS_BOOTSTAT_ALTSLOT : Fld := ⟨SYS_BOOTSTAT, 17, 17⟩
def SYS_BOOTSTAT_SLOT : Fld := ⟨SYS_BOOTSTAT, 16, 16⟩
def SYS_BOOTSTAT_UNPROV : Fld := ⟨SYS_BOOTSTAT, 15, 15⟩
def SYS_BOOTSTAT_PLSTEP : Fld := ⟨SYS_BOOTSTAT, 14, 12⟩
def SYS_BOOTSTAT_PLFAIL : Fld := ⟨SYS_BOOTSTAT, 11, 11⟩
def SYS_BOOTSTAT_OTPHOLD : Fld := ⟨SYS_BOOTSTAT, 10, 10⟩
def SYS_BOOTSTAT_PLDEF : Fld := ⟨SYS_BOOTSTAT, 9, 9⟩
/-- `SYS_SURIDX`, at 0x0060 (03_start_up.md). -/
def SYS_SURIDX : Reg := { base := 0x0060, stride := 0x0, count := 1, copies := false, dom := fun _ => 0, reset := fun _ => 0x00000000#32, fields := [⟨15, 8, .ro, false⟩, ⟨5, 0, .rw, false⟩] }
def SYS_SURIDX_COUNT : Fld := ⟨SYS_SURIDX, 15, 8⟩
def SYS_SURIDX_IDX : Fld := ⟨SYS_SURIDX, 5, 0⟩
/-- `RL_CTRL`, at 0x1000 + 0x80·n (04_rail_regulation.md). -/
def RL_CTRL : Reg := { base := 0x1000, stride := 0x80, count := 32, copies := false, dom := fun n => if n < 16 then 4 else 5, reset := fun _ => 0x00000000#32, fields := [⟨11, 8, .rw, true⟩, ⟨4, 4, .rw, false⟩, ⟨3, 3, .rw, false⟩, ⟨0, 0, .rw, true⟩] }
def RL_CTRL_DIV : Fld := ⟨RL_CTRL, 11, 8⟩
def RL_CTRL_STOPMODE : Fld := ⟨RL_CTRL, 4, 4⟩
def RL_CTRL_SINKEN : Fld := ⟨RL_CTRL, 3, 3⟩
def RL_CTRL_EN : Fld := ⟨RL_CTRL, 0, 0⟩
/-- `RL_STAT`, at 0x1001 + 0x80·n (04_rail_regulation.md). -/
def RL_STAT : Reg := { base := 0x1001, stride := 0x80, count := 32, copies := false, dom := fun n => if n < 16 then 4 else 5, reset := fun _ => 0x00000000#32, fields := [⟨29, 24, .ro, false⟩, ⟨21, 16, .ro, false⟩, ⟨13, 8, .ro, false⟩, ⟨7, 7, .ro, false⟩, ⟨6, 6, .ro, false⟩, ⟨5, 5, .ro, false⟩, ⟨4, 4, .ro, false⟩, ⟨3, 0, .ro, false⟩] }
def RL_STAT_NACT : Fld := ⟨RL_STAT, 29, 24⟩
def RL_STAT_NSVC : Fld := ⟨RL_STAT, 21, 16⟩
def RL_STAT_NMAP : Fld := ⟨RL_STAT, 13, 8⟩
def RL_STAT_SUBJ : Fld := ⟨RL_STAT, 7, 7⟩
def RL_STAT_TRK : Fld := ⟨RL_STAT, 6, 6⟩
def RL_STAT_SLEWING : Fld := ⟨RL_STAT, 5, 5⟩
def RL_STAT_RATE : Fld := ⟨RL_STAT, 4, 4⟩
def RL_STAT_STATE : Fld := ⟨RL_STAT, 3, 0⟩
/-- `RL_VSET`, at 0x1002 + 0x80·n (04_rail_regulation.md). -/
def RL_VSET : Reg := { base := 0x1002, stride := 0x80, count := 32, copies := false, dom := fun n => if n < 16 then 4 else 5, reset := fun _ => 0x00000000#32, fields := [⟨31, 0, .rw, true⟩] }
def RL_VSET_VSET : Fld := ⟨RL_VSET, 31, 0⟩
/-- `RL_SLEW`, at 0x1003 + 0x80·n (04_rail_regulation.md). -/
def RL_SLEW : Reg := { base := 0x1003, stride := 0x80, count := 32, copies := false, dom := fun n => if n < 16 then 4 else 5, reset := fun _ => 0x03E803E8#32, fields := [⟨31, 16, .rw, false⟩, ⟨15, 0, .rw, false⟩] }
def RL_SLEW_DOWN : Fld := ⟨RL_SLEW, 31, 16⟩
def RL_SLEW_UP : Fld := ⟨RL_SLEW, 15, 0⟩
/-- `RL_VREF`, at 0x1004 + 0x80·n (04_rail_regulation.md). -/
def RL_VREF : Reg := { base := 0x1004, stride := 0x80, count := 32, copies := false, dom := fun n => if n < 16 then 4 else 5, reset := fun _ => 0x00000000#32, fields := [⟨31, 0, .ro, false⟩] }
def RL_VREF_VREF : Fld := ⟨RL_VREF, 31, 0⟩
/-- `RL_VSTAT`, at 0x1005 + 0x80·n (04_rail_regulation.md). -/
def RL_VSTAT : Reg := { base := 0x1005, stride := 0x80, count := 32, copies := false, dom := fun n => if n < 16 then 4 else 5, reset := fun _ => 0x00000000#32, fields := [⟨31, 24, .ro, false⟩] }
def RL_VSTAT_SUPMST : Fld := ⟨RL_VSTAT, 31, 24⟩
/-- `RL_TRACK`, at 0x1006 + 0x80·n (04_rail_regulation.md). -/
def RL_TRACK : Reg := { base := 0x1006, stride := 0x80, count := 32, copies := false, dom := fun n => if n < 16 then 4 else 5, reset := fun _ => 0x40003F00#32, fields := [⟨31, 16, .rw, true⟩, ⟨13, 8, .rw, true⟩, ⟨1, 0, .rw, true⟩] }
def RL_TRACK_RATIO : Fld := ⟨RL_TRACK, 31, 16⟩
def RL_TRACK_LEADER : Fld := ⟨RL_TRACK, 13, 8⟩
def RL_TRACK_MODE : Fld := ⟨RL_TRACK, 1, 0⟩
/-- `RL_COMP0`, at 0x1008 + 0x80·n (04_rail_regulation.md). -/
def RL_COMP0 : Reg := { base := 0x1008, stride := 0x80, count := 32, copies := false, dom := fun n => if n < 16 then 4 else 5, reset := fun _ => 0x00000000#32, fields := [⟨31, 16, .rw, true⟩, ⟨15, 0, .rw, true⟩] }
def RL_COMP0_KP : Fld := ⟨RL_COMP0, 31, 16⟩
def RL_COMP0_KI : Fld := ⟨RL_COMP0, 15, 0⟩
/-- `RL_COMP1`, at 0x1009 + 0x80·n (04_rail_regulation.md). -/
def RL_COMP1 : Reg := { base := 0x1009, stride := 0x80, count := 32, copies := false, dom := fun n => if n < 16 then 4 else 5, reset := fun _ => 0x00000000#32, fields := [⟨31, 16, .rw, true⟩, ⟨15, 0, .rw, true⟩] }
def RL_COMP1_KD : Fld := ⟨RL_COMP1, 31, 16⟩
def RL_COMP1_A1 : Fld := ⟨RL_COMP1, 15, 0⟩
/-- `RL_COMP2`, at 0x100A + 0x80·n (04_rail_regulation.md). -/
def RL_COMP2 : Reg := { base := 0x100A, stride := 0x80, count := 32, copies := false, dom := fun n => if n < 16 then 4 else 5, reset := fun _ => 0x00001000#32, fields := [⟨31, 16, .rw, true⟩, ⟨15, 0, .rw, true⟩] }
def RL_COMP2_A2 : Fld := ⟨RL_COMP2, 31, 16⟩
def RL_COMP2_ISAT : Fld := ⟨RL_COMP2, 15, 0⟩
/-- `RL_COMP3`, at 0x100B + 0x80·n (04_rail_regulation.md). -/
def RL_COMP3 : Reg := { base := 0x100B, stride := 0x80, count := 32, copies := false, dom := fun n => if n < 16 then 4 else 5, reset := fun _ => 0x00000000#32, fields := [⟨31, 16, .rw, true⟩, ⟨1, 1, .ro, false⟩, ⟨0, 0, .wo, false⟩] }
def RL_COMP3_FFGAIN : Fld := ⟨RL_COMP3, 31, 16⟩
def RL_COMP3_PEND : Fld := ⟨RL_COMP3, 1, 1⟩
def RL_COMP3_APPLY : Fld := ⟨RL_COMP3, 0, 0⟩
/-- `RL_DLIM`, at 0x100C + 0x80·n (04_rail_regulation.md). -/
def RL_DLIM : Reg := { base := 0x100C, stride := 0x80, count := 32, copies := false, dom := fun n => if n < 16 then 4 else 5, reset := fun _ => 0xE0000000#32, fields := [⟨31, 16, .rw, true⟩, ⟨15, 0, .rw, true⟩] }
def RL_DLIM_DMAX : Fld := ⟨RL_DLIM, 31, 16⟩
def RL_DLIM_DMIN : Fld := ⟨RL_DLIM, 15, 0⟩
/-- `RL_PERIOD`, at 0x100D + 0x80·n (04_rail_regulation.md). -/
def RL_PERIOD : Reg := { base := 0x100D, stride := 0x80, count := 32, copies := false, dom := fun n => if n < 16 then 4 else 5, reset := fun _ => 0x00003200#32, fields := [⟨16, 0, .rw, true⟩] }
def RL_PERIOD_PERIOD : Fld := ⟨RL_PERIOD, 16, 0⟩
/-- `RL_LPH`, at 0x100E + 0x80·n (04_rail_regulation.md). -/
def RL_LPH : Reg := { base := 0x100E, stride := 0x80, count := 32, copies := false, dom := fun n => if n < 16 then 4 else 5, reset := fun _ => 0x00000000#32, fields := [⟨15, 0, .rw, false⟩] }
def RL_LPH_LPH : Fld := ⟨RL_LPH, 15, 0⟩
/-- `RL_PMAP`, at 0x1010 + 0x80·n (04_rail_regulation.md). -/
def RL_PMAP : Reg := { base := 0x1010, stride := 0x80, count := 32, copies := false, dom := fun n => if n < 16 then 4 else 5, reset := fun _ => 0x00000000#32, fields := [⟨31, 0, .rw, true⟩] }
def RL_PMAP_PMAP : Fld := ⟨RL_PMAP, 31, 0⟩
/-- `RL_PHTH`, at 0x1011 + 0x80·n (04_rail_regulation.md). -/
def RL_PHTH : Reg := { base := 0x1011, stride := 0x80, count := 32, copies := false, dom := fun n => if n < 16 then 4 else 5, reset := fun _ => 0x00000000#32, fields := [⟨31, 16, .rw, false⟩, ⟨15, 0, .rw, false⟩] }
def RL_PHTH_ADDTH : Fld := ⟨RL_PHTH, 31, 16⟩
def RL_PHTH_SHEDTH : Fld := ⟨RL_PHTH, 15, 0⟩
/-- `RL_PHDLY`, at 0x1012 + 0x80·n (04_rail_regulation.md). -/
def RL_PHDLY : Reg := { base := 0x1012, stride := 0x80, count := 32, copies := false, dom := fun n => if n < 16 then 4 else 5, reset := fun _ => 0x00040064#32, fields := [⟨31, 16, .rw, false⟩, ⟨15, 0, .rw, false⟩] }
def RL_PHDLY_ADDDLY : Fld := ⟨RL_PHDLY, 31, 16⟩
def RL_PHDLY_SHEDDLY : Fld := ⟨RL_PHDLY, 15, 0⟩
/-- `RL_BAL`, at 0x1013 + 0x80·n (04_rail_regulation.md). -/
def RL_BAL : Reg := { base := 0x1013, stride := 0x80, count := 32, copies := false, dom := fun n => if n < 16 then 4 else 5, reset := fun _ => 0x04000010#32, fields := [⟨31, 16, .rw, false⟩, ⟨15, 0, .rw, false⟩] }
def RL_BAL_TRIMLIM : Fld := ⟨RL_BAL, 31, 16⟩
def RL_BAL_BALGAIN : Fld := ⟨RL_BAL, 15, 0⟩
/-- `RL_PHACT`, at 0x1014 + 0x80·n (04_rail_regulation.md). -/
def RL_PHACT : Reg := { base := 0x1014, stride := 0x80, count := 32, copies := false, dom := fun n => if n < 16 then 4 else 5, reset := fun _ => 0x00000000#32, fields := [⟨31, 0, .ro, false⟩] }
def RL_PHACT_MASK : Fld := ⟨RL_PHACT, 31, 0⟩
/-- `RL_PHSVC`, at 0x1015 + 0x80·n (04_rail_regulation.md). -/
def RL_PHSVC : Reg := { base := 0x1015, stride := 0x80, count := 32, copies := false, dom := fun n => if n < 16 then 4 else 5, reset := fun _ => 0x00000000#32, fields := [⟨31, 0, .ro, false⟩] }
def RL_PHSVC_MASK : Fld := ⟨RL_PHSVC, 31, 0⟩
/-- `RL_PHARM`, at 0x1016 + 0x80·n (04_rail_regulation.md). -/
def RL_PHARM : Reg := { base := 0x1016, stride := 0x80, count := 32, copies := false, dom := fun n => if n < 16 then 4 else 5, reset := fun _ => 0x00000000#32, fields := [⟨31, 0, .ro, false⟩] }
def RL_PHARM_MASK : Fld := ⟨RL_PHARM, 31, 0⟩
/-- `RL_FENCE`, at 0x1017 + 0x80·n (04_rail_regulation.md). -/
def RL_FENCE : Reg := { base := 0x1017, stride := 0x80, count := 32, copies := false, dom := fun n => if n < 16 then 4 else 5, reset := fun _ => 0x00000000#32, fields := [⟨31, 16, .ro, false⟩, ⟨13, 8, .ro, false⟩, ⟨2, 0, .ro, false⟩] }
def RL_FENCE_COUNT : Fld := ⟨RL_FENCE, 31, 16⟩
def RL_FENCE_PHASE : Fld := ⟨RL_FENCE, 13, 8⟩
def RL_FENCE_CAUSE : Fld := ⟨RL_FENCE, 2, 0⟩
/-- `RL_UNFENCE`, at 0x1018 + 0x80·n (04_rail_regulation.md). -/
def RL_UNFENCE : Reg := { base := 0x1018, stride := 0x80, count := 32, copies := false, dom := fun n => if n < 16 then 4 else 5, reset := fun _ => 0x00000000#32, fields := [⟨31, 0, .wo, false⟩] }
def RL_UNFENCE_MASK : Fld := ⟨RL_UNFENCE, 31, 0⟩
/-- `RL_ILIM`, at 0x1019 + 0x80·n (04_rail_regulation.md). -/
def RL_ILIM : Reg := { base := 0x1019, stride := 0x80, count := 32, copies := false, dom := fun n => if n < 16 then 4 else 5, reset := fun _ => 0x00000000#32, fields := [⟨31, 0, .rw, true⟩] }
def RL_ILIM_ILIM : Fld := ⟨RL_ILIM, 31, 0⟩
/-- `RL_ILIMEFF`, at 0x101A + 0x80·n (04_rail_regulation.md). -/
def RL_ILIMEFF : Reg := { base := 0x101A, stride := 0x80, count := 32, copies := false, dom := fun n => if n < 16 then 4 else 5, reset := fun _ => 0x00000000#32, fields := [⟨31, 0, .ro, false⟩] }
def RL_ILIMEFF_ILIMEFF : Fld := ⟨RL_ILIMEFF, 31, 0⟩
/-- `RL_HICC`, at 0x101B + 0x80·n (04_rail_regulation.md). -/
def RL_HICC : Reg := { base := 0x101B, stride := 0x80, count := 32, copies := false, dom := fun n => if n < 16 then 4 else 5, reset := fun _ => 0x00004C10#32, fields := [⟨23, 20, .rw, true⟩, ⟨19, 10, .rw, true⟩, ⟨7, 0, .rw, true⟩] }
def RL_HICC_RETRY : Fld := ⟨RL_HICC, 23, 20⟩
def RL_HICC_OFFT : Fld := ⟨RL_HICC, 19, 10⟩
def RL_HICC_NCYC : Fld := ⟨RL_HICC, 7, 0⟩
/-- `RL_HSTAT`, at 0x101C + 0x80·n (04_rail_regulation.md). -/
def RL_HSTAT : Reg := { base := 0x101C, stride := 0x80, count := 32, copies := false, dom := fun n => if n < 16 then 4 else 5, reset := fun _ => 0x00000000#32, fields := [⟨19, 16, .ro, false⟩, ⟨7, 0, .ro, false⟩] }
def RL_HSTAT_RETRIES : Fld := ⟨RL_HSTAT, 19, 16⟩
def RL_HSTAT_COUNT : Fld := ⟨RL_HSTAT, 7, 0⟩
/-- `RL_VFLOOR`, at 0x101D + 0x80·n (04_rail_regulation.md). -/
def RL_VFLOOR : Reg := { base := 0x101D, stride := 0x80, count := 32, copies := false, dom := fun n => if n < 16 then 4 else 5, reset := fun _ => 0x00000000#32, fields := [⟨31, 0, .rw, true⟩] }
def RL_VFLOOR_VFLOOR : Fld := ⟨RL_VFLOOR, 31, 0⟩
/-- `RL_VCEIL`, at 0x101E + 0x80·n (04_rail_regulation.md). -/
def RL_VCEIL : Reg := { base := 0x101E, stride := 0x80, count := 32, copies := false, dom := fun n => if n < 16 then 4 else 5, reset := fun _ => 0x00FA0000#32, fields := [⟨31, 0, .rw, true⟩] }
def RL_VCEIL_VCEIL : Fld := ⟨RL_VCEIL, 31, 0⟩
/-- `RL_PHBND`, at 0x101F + 0x80·n (04_rail_regulation.md). -/
def RL_PHBND : Reg := { base := 0x101F, stride := 0x80, count := 32, copies := false, dom := fun n => if n < 16 then 4 else 5, reset := fun _ => 0x00002001#32, fields := [⟨13, 8, .rw, true⟩, ⟨5, 0, .rw, true⟩] }
def RL_PHBND_PHCEIL : Fld := ⟨RL_PHBND, 13, 8⟩
def RL_PHBND_PHFLOOR : Fld := ⟨RL_PHBND, 5, 0⟩
/-- `RL_PERMAX`, at 0x1020 + 0x80·n (04_rail_regulation.md). -/
def RL_PERMAX : Reg := { base := 0x1020, stride := 0x80, count := 32, copies := false, dom := fun n => if n < 16 then 4 else 5, reset := fun _ => 0x00010AAA#32, fields := [⟨16, 0, .rw, true⟩] }
def RL_PERMAX_PERMAX : Fld := ⟨RL_PERMAX, 16, 0⟩
/-- `RL_PERMIN`, at 0x1021 + 0x80·n (04_rail_regulation.md). -/
def RL_PERMIN : Reg := { base := 0x1021, stride := 0x80, count := 32, copies := false, dom := fun n => if n < 16 then 4 else 5, reset := fun _ => 0x00000A00#32, fields := [⟨16, 0, .rw, true⟩] }
def RL_PERMIN_PERMIN : Fld := ⟨RL_PERMIN, 16, 0⟩
/-- `RL_DERMAX`, at 0x1022 + 0x80·n (04_rail_regulation.md). -/
def RL_DERMAX : Reg := { base := 0x1022, stride := 0x80, count := 32, copies := false, dom := fun n => if n < 16 then 4 else 5, reset := fun _ => 0x00000080#32, fields := [⟨7, 0, .rw, true⟩] }
def RL_DERMAX_DERMAX : Fld := ⟨RL_DERMAX, 7, 0⟩
/-- `RL_EVT`, at 0x1023 + 0x80·n (04_rail_regulation.md). -/
def RL_EVT : Reg := { base := 0x1023, stride := 0x80, count := 32, copies := false, dom := fun n => if n < 16 then 4 else 5, reset := fun _ => 0x00000000#32, fields := [⟨10, 10, .w1c, false⟩, ⟨9, 9, .w1c, false⟩, ⟨8, 8, .w1c, false⟩, ⟨7, 7, .w1c, false⟩, ⟨6, 6, .w1c, false⟩, ⟨5, 5, .w1c, false⟩, ⟨4, 4, .w1c, false⟩, ⟨3, 3, .w1c, false⟩, ⟨2, 2, .w1c, false⟩, ⟨1, 1, .w1c, false⟩, ⟨0, 0, .w1c, false⟩] }
def RL_EVT_ABORTED : Fld := ⟨RL_EVT, 10, 10⟩
def RL_EVT_PHSHED : Fld := ⟨RL_EVT, 9, 9⟩
def RL_EVT_PHADD : Fld := ⟨RL_EVT, 8, 8⟩
def RL_EVT_TRKLOST : Fld := ⟨RL_EVT, 7, 7⟩
def RL_EVT_NOPHASE : Fld := ⟨RL_EVT, 6, 6⟩
def RL_EVT_PHFENCE : Fld := ⟨RL_EVT, 5, 5⟩
def RL_EVT_HLATCH : Fld := ⟨RL_EVT, 4, 4⟩
def RL_EVT_HICCUP : Fld := ⟨RL_EVT, 3, 3⟩
def RL_EVT_OVRANGE : Fld := ⟨RL_EVT, 2, 2⟩
def RL_EVT_SUPERSEDED : Fld := ⟨RL_EVT, 1, 1⟩
def RL_EVT_SLEWDONE : Fld := ⟨RL_EVT, 0, 0⟩
/-- `RL_EVTEN`, at 0x1024 + 0x80·n (04_rail_regulation.md). -/
def RL_EVTEN : Reg := { base := 0x1024, stride := 0x80, count := 32, copies := false, dom := fun n => if n < 16 then 4 else 5, reset := fun _ => 0x00000000#32, fields := [⟨10, 10, .rw, false⟩, ⟨9, 9, .rw, false⟩, ⟨8, 8, .rw, false⟩, ⟨7, 7, .rw, false⟩, ⟨6, 6, .rw, false⟩, ⟨5, 5, .rw, false⟩, ⟨4, 4, .rw, false⟩, ⟨3, 3, .rw, false⟩, ⟨2, 2, .rw, false⟩, ⟨1, 1, .rw, false⟩, ⟨0, 0, .rw, false⟩] }
def RL_EVTEN_ABORTED : Fld := ⟨RL_EVTEN, 10, 10⟩
def RL_EVTEN_PHSHED : Fld := ⟨RL_EVTEN, 9, 9⟩
def RL_EVTEN_PHADD : Fld := ⟨RL_EVTEN, 8, 8⟩
def RL_EVTEN_TRKLOST : Fld := ⟨RL_EVTEN, 7, 7⟩
def RL_EVTEN_NOPHASE : Fld := ⟨RL_EVTEN, 6, 6⟩
def RL_EVTEN_PHFENCE : Fld := ⟨RL_EVTEN, 5, 5⟩
def RL_EVTEN_HLATCH : Fld := ⟨RL_EVTEN, 4, 4⟩
def RL_EVTEN_HICCUP : Fld := ⟨RL_EVTEN, 3, 3⟩
def RL_EVTEN_OVRANGE : Fld := ⟨RL_EVTEN, 2, 2⟩
def RL_EVTEN_SUPERSEDED : Fld := ⟨RL_EVTEN, 1, 1⟩
def RL_EVTEN_SLEWDONE : Fld := ⟨RL_EVTEN, 0, 0⟩
/-- `RL_PBLIVE`, at 0x1028 + 0x80·n (04_rail_regulation.md). -/
def RL_PBLIVE : Reg := { base := 0x1028, stride := 0x80, count := 32, copies := false, dom := fun n => if n < 16 then 4 else 5, reset := fun _ => 0x00000000#32, fields := [⟨31, 0, .ro, false⟩] }
def RL_PBLIVE_PBLIVE : Fld := ⟨RL_PBLIVE, 31, 0⟩
/-- `RL_FFLIVE`, at 0x1029 + 0x80·n (04_rail_regulation.md). -/
def RL_FFLIVE : Reg := { base := 0x1029, stride := 0x80, count := 32, copies := false, dom := fun n => if n < 16 then 4 else 5, reset := fun _ => 0x00000000#32, fields := [⟨31, 0, .ro, false⟩] }
def RL_FFLIVE_FFLIVE : Fld := ⟨RL_FFLIVE, 31, 0⟩
/-- `RL_VIN`, at 0x102A + 0x80·n (04_rail_regulation.md). -/
def RL_VIN : Reg := { base := 0x102A, stride := 0x80, count := 32, copies := false, dom := fun n => if n < 16 then 4 else 5, reset := fun _ => 0x00000000#32, fields := [⟨31, 0, .ro, false⟩] }
def RL_VIN_VIN : Fld := ⟨RL_VIN, 31, 0⟩
/-- `RL_DUTY`, at 0x102B + 0x80·n (04_rail_regulation.md). -/
def RL_DUTY : Reg := { base := 0x102B, stride := 0x80, count := 32, copies := false, dom := fun n => if n < 16 then 4 else 5, reset := fun _ => 0x00000000#32, fields := [⟨15, 0, .ro, false⟩] }
def RL_DUTY_D : Fld := ⟨RL_DUTY, 15, 0⟩
/-- `RL_IRAIL`, at 0x102C + 0x80·n (04_rail_regulation.md). -/
def RL_IRAIL : Reg := { base := 0x102C, stride := 0x80, count := 32, copies := false, dom := fun n => if n < 16 then 4 else 5, reset := fun _ => 0x00000000#32, fields := [⟨31, 0, .ro, false⟩] }
def RL_IRAIL_IRAIL : Fld := ⟨RL_IRAIL, 31, 0⟩
/-- `RL_ERR`, at 0x102D + 0x80·n (04_rail_regulation.md). -/
def RL_ERR : Reg := { base := 0x102D, stride := 0x80, count := 32, copies := false, dom := fun n => if n < 16 then 4 else 5, reset := fun _ => 0x00000000#32, fields := [⟨16, 16, .ro, false⟩, ⟨8, 0, .ro, false⟩] }
def RL_ERR_OR : Fld := ⟨RL_ERR, 16, 16⟩
def RL_ERR_CODE : Fld := ⟨RL_ERR, 8, 0⟩
/-- `PH_FXCTRL`, at 0x2000 + 0x40·n (05_fenxo_link.md). -/
def PH_FXCTRL : Reg := { base := 0x2000, stride := 0x40, count := 64, copies := false, dom := fun n => if n < 32 then 4 else if n < 64 then 5 else 9, reset := fun _ => 0x10030305#32, fields := [⟨31, 24, .rw, false⟩, ⟨17, 16, .rw, false⟩, ⟨9, 8, .rw, true⟩, ⟨2, 2, .rw, false⟩, ⟨0, 0, .rw, true⟩] }
def PH_FXCTRL_ERRLIM : Fld := ⟨PH_FXCTRL, 31, 24⟩
def PH_FXCTRL_ATTEMPTS : Fld := ⟨PH_FXCTRL, 17, 16⟩
def PH_FXCTRL_VMAX : Fld := ⟨PH_FXCTRL, 9, 8⟩
def PH_FXCTRL_AUTORT : Fld := ⟨PH_FXCTRL, 2, 2⟩
def PH_FXCTRL_EN : Fld := ⟨PH_FXCTRL, 0, 0⟩
/-- `PH_FXSTAT`, at 0x2001 + 0x40·n (05_fenxo_link.md). -/
def PH_FXSTAT : Reg := { base := 0x2001, stride := 0x40, count := 64, copies := false, dom := fun n => if n < 32 then 4 else if n < 64 then 5 else 9, reset := fun _ => 0x00000000#32, fields := [⟨31, 28, .ro, false⟩, ⟨27, 24, .ro, false⟩, ⟨22, 22, .ro, false⟩, ⟨21, 21, .ro, false⟩, ⟨20, 20, .ro, false⟩, ⟨17, 16, .ro, false⟩, ⟨3, 0, .ro, false⟩] }
def PH_FXSTAT_FAILSTEP : Fld := ⟨PH_FXSTAT, 31, 28⟩
def PH_FXSTAT_ATTEMPT : Fld := ⟨PH_FXSTAT, 27, 24⟩
def PH_FXSTAT_LOSSSAT : Fld := ⟨PH_FXSTAT, 22, 22⟩
def PH_FXSTAT_DNSAT : Fld := ⟨PH_FXSTAT, 21, 21⟩
def PH_FXSTAT_ERRSAT : Fld := ⟨PH_FXSTAT, 20, 20⟩
def PH_FXSTAT_VER : Fld := ⟨PH_FXSTAT, 17, 16⟩
def PH_FXSTAT_LSTATE : Fld := ⟨PH_FXSTAT, 3, 0⟩
/-- `PH_FXCAP`, at 0x2002 + 0x40·n (05_fenxo_link.md). -/
def PH_FXCAP : Reg := { base := 0x2002, stride := 0x40, count := 64, copies := false, dom := fun n => if n < 32 then 4 else if n < 64 then 5 else 9, reset := fun _ => 0x00000000#32, fields := [⟨31, 24, .ro, false⟩, ⟨23, 16, .ro, false⟩, ⟨15, 8, .ro, false⟩, ⟨5, 4, .ro, false⟩, ⟨1, 0, .ro, false⟩] }
def PH_FXCAP_STAGEREV : Fld := ⟨PH_FXCAP, 31, 24⟩
def PH_FXCAP_FLAGS : Fld := ⟨PH_FXCAP, 23, 16⟩
def PH_FXCAP_IRATED : Fld := ⟨PH_FXCAP, 15, 8⟩
def PH_FXCAP_ISH : Fld := ⟨PH_FXCAP, 5, 4⟩
def PH_FXCAP_SVMAX : Fld := ⟨PH_FXCAP, 1, 0⟩
/-- `PH_RTT`, at 0x2003 + 0x40·n (05_fenxo_link.md). -/
def PH_RTT : Reg := { base := 0x2003, stride := 0x40, count := 64, copies := false, dom := fun n => if n < 32 then 4 else if n < 64 then 5 else 9, reset := fun _ => 0x00000000#32, fields := [⟨19, 16, .ro, false⟩, ⟨15, 0, .ro, false⟩] }
def PH_RTT_LAG : Fld := ⟨PH_RTT, 19, 16⟩
def PH_RTT_RTT : Fld := ⟨PH_RTT, 15, 0⟩
/-- `PH_DLYTRIM`, at 0x2004 + 0x40·n (05_fenxo_link.md). -/
def PH_DLYTRIM : Reg := { base := 0x2004, stride := 0x40, count := 64, copies := false, dom := fun n => if n < 32 then 4 else if n < 64 then 5 else 9, reset := fun _ => 0x00000000#32, fields := [⟨8, 0, .rw, true⟩] }
def PH_DLYTRIM_TRIM : Fld := ⟨PH_DLYTRIM, 8, 0⟩
/-- `PH_PKLIM`, at 0x2005 + 0x40·n (05_fenxo_link.md). -/
def PH_PKLIM : Reg := { base := 0x2005, stride := 0x40, count := 64, copies := false, dom := fun n => if n < 32 then 4 else if n < 64 then 5 else 9, reset := fun _ => 0x00000000#32, fields := [⟨15, 0, .rw, true⟩] }
def PH_PKLIM_PKLIM : Fld := ⟨PH_PKLIM, 15, 0⟩
/-- `PH_FXCMD`, at 0x2006 + 0x40·n (05_fenxo_link.md). -/
def PH_FXCMD : Reg := { base := 0x2006, stride := 0x40, count := 64, copies := false, dom := fun n => if n < 32 then 4 else if n < 64 then 5 else 9, reset := fun _ => 0x00000000#32, fields := [⟨2, 2, .wo, false⟩, ⟨1, 1, .wo, false⟩, ⟨0, 0, .wo, false⟩] }
def PH_FXCMD_CLRCNT : Fld := ⟨PH_FXCMD, 2, 2⟩
def PH_FXCMD_CLRFLT : Fld := ⟨PH_FXCMD, 1, 1⟩
def PH_FXCMD_RETRAIN : Fld := ⟨PH_FXCMD, 0, 0⟩
/-- `PH_ERRCNT`, at 0x2008 + 0x40·n (05_fenxo_link.md). -/
def PH_ERRCNT : Reg := { base := 0x2008, stride := 0x40, count := 64, copies := false, dom := fun n => if n < 32 then 4 else if n < 64 then 5 else 9, reset := fun _ => 0x00000000#32, fields := [⟨31, 0, .ro, false⟩] }
def PH_ERRCNT_COUNT : Fld := ⟨PH_ERRCNT, 31, 0⟩
/-- `PH_DNERRCNT`, at 0x2009 + 0x40·n (05_fenxo_link.md). -/
def PH_DNERRCNT : Reg := { base := 0x2009, stride := 0x40, count := 64, copies := false, dom := fun n => if n < 32 then 4 else if n < 64 then 5 else 9, reset := fun _ => 0x00000000#32, fields := [⟨31, 0, .ro, false⟩] }
def PH_DNERRCNT_COUNT : Fld := ⟨PH_DNERRCNT, 31, 0⟩
/-- `PH_LOSSCNT`, at 0x200A + 0x40·n (05_fenxo_link.md). -/
def PH_LOSSCNT : Reg := { base := 0x200A, stride := 0x40, count := 64, copies := false, dom := fun n => if n < 32 then 4 else if n < 64 then 5 else 9, reset := fun _ => 0x00000000#32, fields := [⟨31, 0, .ro, false⟩] }
def PH_LOSSCNT_COUNT : Fld := ⟨PH_LOSSCNT, 31, 0⟩
/-- `PH_TELI`, at 0x200C + 0x40·n (05_fenxo_link.md). -/
def PH_TELI : Reg := { base := 0x200C, stride := 0x40, count := 64, copies := false, dom := fun n => if n < 32 then 4 else if n < 64 then 5 else 9, reset := fun _ => 0x00000000#32, fields := [⟨31, 0, .ro, false⟩] }
def PH_TELI_ICUR : Fld := ⟨PH_TELI, 31, 0⟩
/-- `PH_TELV`, at 0x200D + 0x40·n (05_fenxo_link.md). -/
def PH_TELV : Reg := { base := 0x200D, stride := 0x40, count := 64, copies := false, dom := fun n => if n < 32 then 4 else if n < 64 then 5 else 9, reset := fun _ => 0x00000000#32, fields := [⟨31, 0, .ro, false⟩] }
def PH_TELV_VIN : Fld := ⟨PH_TELV, 31, 0⟩
/-- `PH_TELT`, at 0x200E + 0x40·n (05_fenxo_link.md). -/
def PH_TELT : Reg := { base := 0x200E, stride := 0x40, count := 64, copies := false, dom := fun n => if n < 32 then 4 else if n < 64 then 5 else 9, reset := fun _ => 0x00000000#32, fields := [⟨15, 0, .ro, false⟩] }
def PH_TELT_TEMP : Fld := ⟨PH_TELT, 15, 0⟩
/-- `PH_TELPV`, at 0x200F + 0x40·n (05_fenxo_link.md). -/
def PH_TELPV : Reg := { base := 0x200F, stride := 0x40, count := 64, copies := false, dom := fun n => if n < 32 then 4 else if n < 64 then 5 else 9, reset := fun _ => 0x00000000#32, fields := [⟨31, 0, .ro, false⟩] }
def PH_TELPV_IPV : Fld := ⟨PH_TELPV, 31, 0⟩
/-- `PH_STSTAT`, at 0x2010 + 0x40·n (05_fenxo_link.md). -/
def PH_STSTAT : Reg := { base := 0x2010, stride := 0x40, count := 64, copies := false, dom := fun n => if n < 32 then 4 else if n < 64 then 5 else 9, reset := fun _ => 0x00000000#32, fields := [⟨15, 8, .w1c, false⟩, ⟨7, 0, .ro, false⟩] }
def PH_STSTAT_STICKY : Fld := ⟨PH_STSTAT, 15, 8⟩
def PH_STSTAT_LAST : Fld := ⟨PH_STSTAT, 7, 0⟩
/-- `PH_EVT`, at 0x2011 + 0x40·n (05_fenxo_link.md). -/
def PH_EVT : Reg := { base := 0x2011, stride := 0x40, count := 64, copies := false, dom := fun n => if n < 32 then 4 else if n < 64 then 5 else 9, reset := fun _ => 0x00000000#32, fields := [⟨8, 8, .w1c, false⟩, ⟨7, 7, .w1c, false⟩, ⟨6, 6, .w1c, false⟩, ⟨5, 5, .w1c, false⟩, ⟨4, 4, .w1c, false⟩, ⟨3, 3, .w1c, false⟩, ⟨2, 2, .w1c, false⟩, ⟨1, 1, .w1c, false⟩, ⟨0, 0, .w1c, false⟩] }
def PH_EVT_ABORTED : Fld := ⟨PH_EVT, 8, 8⟩
def PH_EVT_SATURATED : Fld := ⟨PH_EVT, 7, 7⟩
def PH_EVT_CMDFAIL : Fld := ⟨PH_EVT, 6, 6⟩
def PH_EVT_OTW : Fld := ⟨PH_EVT, 5, 5⟩
def PH_EVT_SFLT : Fld := ⟨PH_EVT, 4, 4⟩
def PH_EVT_VERDROP : Fld := ⟨PH_EVT, 3, 3⟩
def PH_EVT_TRFAIL : Fld := ⟨PH_EVT, 2, 2⟩
def PH_EVT_LOST : Fld := ⟨PH_EVT, 1, 1⟩
def PH_EVT_UP : Fld := ⟨PH_EVT, 0, 0⟩
/-- `PH_EVTEN`, at 0x2012 + 0x40·n (05_fenxo_link.md). -/
def PH_EVTEN : Reg := { base := 0x2012, stride := 0x40, count := 64, copies := false, dom := fun n => if n < 32 then 4 else if n < 64 then 5 else 9, reset := fun _ => 0x00000000#32, fields := [⟨8, 8, .rw, false⟩, ⟨7, 7, .rw, false⟩, ⟨6, 6, .rw, false⟩, ⟨5, 5, .rw, false⟩, ⟨4, 4, .rw, false⟩, ⟨3, 3, .rw, false⟩, ⟨2, 2, .rw, false⟩, ⟨1, 1, .rw, false⟩, ⟨0, 0, .rw, false⟩] }
def PH_EVTEN_ABORTED : Fld := ⟨PH_EVTEN, 8, 8⟩
def PH_EVTEN_SATURATED : Fld := ⟨PH_EVTEN, 7, 7⟩
def PH_EVTEN_CMDFAIL : Fld := ⟨PH_EVTEN, 6, 6⟩
def PH_EVTEN_OTW : Fld := ⟨PH_EVTEN, 5, 5⟩
def PH_EVTEN_SFLT : Fld := ⟨PH_EVTEN, 4, 4⟩
def PH_EVTEN_VERDROP : Fld := ⟨PH_EVTEN, 3, 3⟩
def PH_EVTEN_TRFAIL : Fld := ⟨PH_EVTEN, 2, 2⟩
def PH_EVTEN_LOST : Fld := ⟨PH_EVTEN, 1, 1⟩
def PH_EVTEN_UP : Fld := ⟨PH_EVTEN, 0, 0⟩
/-- `IPT_REFUND`, at 0x3802 (06_anticipation.md). -/
def IPT_REFUND : Reg := { base := 0x3802, stride := 0x0, count := 1, copies := false, dom := fun _ => 4, reset := fun _ => 0x00000000#32, fields := [⟨31, 0, .ro, false⟩] }
def IPT_REFUND_COUNT : Fld := ⟨IPT_REFUND, 31, 0⟩
/-- `IPT_STALE`, at 0x3803 (06_anticipation.md). -/
def IPT_STALE : Reg := { base := 0x3803, stride := 0x0, count := 1, copies := false, dom := fun _ => 4, reset := fun _ => 0x00000000#32, fields := [⟨31, 0, .ro, false⟩] }
def IPT_STALE_COUNT : Fld := ⟨IPT_STALE, 31, 0⟩
/-- `IPT_GRP`, at 0x3808 + 0x1·n (06_anticipation.md). -/
def IPT_GRP : Reg := { base := 0x3808, stride := 0x1, count := 4, copies := false, dom := fun _ => 4, reset := fun _ => 0x00000000#32, fields := [⟨31, 24, .ro, false⟩, ⟨9, 8, .ro, false⟩, ⟨1, 1, .w1c, false⟩, ⟨0, 0, .ro, false⟩] }
def IPT_GRP_SWEPOCH : Fld := ⟨IPT_GRP, 31, 24⟩
def IPT_GRP_IOSTAT : Fld := ⟨IPT_GRP, 9, 8⟩
def IPT_GRP_CLKSTOP : Fld := ⟨IPT_GRP, 1, 1⟩
def IPT_GRP_CLKOK : Fld := ⟨IPT_GRP, 0, 0⟩
/-- `IP_CTRL`, at 0x3900 + 0x10·n (06_anticipation.md). -/
def IP_CTRL : Reg := { base := 0x3900, stride := 0x10, count := 16, copies := false, dom := fun _ => 4, reset := fun _ => 0x00000020#32, fields := [⟨21, 16, .rw, false⟩, ⟨12, 12, .rw, false⟩, ⟨10, 8, .rw, true⟩, ⟨5, 4, .rw, false⟩, ⟨1, 1, .rw, false⟩, ⟨0, 0, .rw, true⟩] }
def IP_CTRL_ENG : Fld := ⟨IP_CTRL, 21, 16⟩
def IP_CTRL_LOG : Fld := ⟨IP_CTRL, 12, 12⟩
def IP_CTRL_POOL : Fld := ⟨IP_CTRL, 10, 8⟩
def IP_CTRL_VMAX : Fld := ⟨IP_CTRL, 5, 4⟩
def IP_CTRL_SRC : Fld := ⟨IP_CTRL, 1, 1⟩
def IP_CTRL_EN : Fld := ⟨IP_CTRL, 0, 0⟩
/-- `IP_STAT`, at 0x3901 + 0x10·n (06_anticipation.md). -/
def IP_STAT : Reg := { base := 0x3901, stride := 0x10, count := 16, copies := false, dom := fun _ => 4, reset := fun _ => 0x00000000#32, fields := [⟨31, 28, .ro, false⟩, ⟨27, 26, .ro, false⟩, ⟨23, 21, .ro, false⟩, ⟨20, 15, .ro, false⟩, ⟨14, 14, .ro, false⟩, ⟨3, 0, .ro, false⟩] }
def IP_STAT_PSTATE : Fld := ⟨IP_STAT, 31, 28⟩
def IP_STAT_VER : Fld := ⟨IP_STAT, 27, 26⟩
def IP_STAT_LASTDEF : Fld := ⟨IP_STAT, 23, 21⟩
def IP_STAT_DEFCODE : Fld := ⟨IP_STAT, 20, 15⟩
def IP_STAT_REFPEND : Fld := ⟨IP_STAT, 14, 14⟩
def IP_STAT_GCOUNT : Fld := ⟨IP_STAT, 3, 0⟩
/-- `IP_BANK`, at 0x3902 + 0x10·n (06_anticipation.md). -/
def IP_BANK : Reg := { base := 0x3902, stride := 0x10, count := 16, copies := false, dom := fun _ => 4, reset := fun _ => 0x00000000#32, fields := [⟨6, 4, .rw, true⟩, ⟨2, 0, .rw, true⟩] }
def IP_BANK_DBANK : Fld := ⟨IP_BANK, 6, 4⟩
def IP_BANK_BANK : Fld := ⟨IP_BANK, 2, 0⟩
/-- `IP_ALLOW`, at 0x3903 + 0x10·n (06_anticipation.md). -/
def IP_ALLOW : Reg := { base := 0x3903, stride := 0x10, count := 16, copies := false, dom := fun _ => 4, reset := fun _ => 0x00000000#32, fields := [⟨19, 0, .ro, false⟩] }
def IP_ALLOW_ALLOW : Fld := ⟨IP_ALLOW, 19, 0⟩
/-- `IP_OPENT`, at 0x3905 + 0x10·n (06_anticipation.md). -/
def IP_OPENT : Reg := { base := 0x3905, stride := 0x10, count := 16, copies := false, dom := fun _ => 4, reset := fun _ => 0x00000000#32, fields := [⟨31, 0, .ro, false⟩] }
def IP_OPENT_TGRANT : Fld := ⟨IP_OPENT, 31, 0⟩
/-- `IP_BASE`, at 0x3906 + 0x10·n (06_anticipation.md). -/
def IP_BASE : Reg := { base := 0x3906, stride := 0x10, count := 16, copies := false, dom := fun _ => 4, reset := fun _ => 0x00000000#32, fields := [⟨31, 0, .ro, false⟩] }
def IP_BASE_IB : Fld := ⟨IP_BASE, 31, 0⟩
/-- `IP_OPEN`, at 0x3904 + 0x10·n (06_anticipation.md). -/
def IP_OPEN : Reg := { base := 0x3904, stride := 0x10, count := 16, copies := false, dom := fun _ => 4, reset := fun _ => 0x003F0000#32, fields := [⟨31, 30, .ro, false⟩, ⟨29, 24, .ro, false⟩, ⟨21, 16, .ro, false⟩, ⟨14, 12, .ro, false⟩, ⟨1, 1, .ro, false⟩, ⟨0, 0, .ro, false⟩] }
def IP_OPEN_STATE : Fld := ⟨IP_OPEN, 31, 30⟩
def IP_OPEN_CODE : Fld := ⟨IP_OPEN, 29, 24⟩
def IP_OPEN_SCALE : Fld := ⟨IP_OPEN, 21, 16⟩
def IP_OPEN_BANK : Fld := ⟨IP_OPEN, 14, 12⟩
def IP_OPEN_METB : Fld := ⟨IP_OPEN, 1, 1⟩
def IP_OPEN_META : Fld := ⟨IP_OPEN, 0, 0⟩
/-- `IP_NCONF`, at 0x3908 + 0x10·n (06_anticipation.md). -/
def IP_NCONF : Reg := { base := 0x3908, stride := 0x10, count := 16, copies := false, dom := fun _ => 4, reset := fun _ => 0x00000000#32, fields := [⟨31, 0, .ro, false⟩] }
def IP_NCONF_COUNT : Fld := ⟨IP_NCONF, 31, 0⟩
/-- `IP_NREVK`, at 0x3909 + 0x10·n (06_anticipation.md). -/
def IP_NREVK : Reg := { base := 0x3909, stride := 0x10, count := 16, copies := false, dom := fun _ => 4, reset := fun _ => 0x00000000#32, fields := [⟨31, 0, .ro, false⟩] }
def IP_NREVK_COUNT : Fld := ⟨IP_NREVK, 31, 0⟩
/-- `IP_NDEFER`, at 0x390A + 0x10·n (06_anticipation.md). -/
def IP_NDEFER : Reg := { base := 0x390A, stride := 0x10, count := 16, copies := false, dom := fun _ => 4, reset := fun _ => 0x00000000#32, fields := [⟨31, 0, .ro, false⟩] }
def IP_NDEFER_COUNT : Fld := ⟨IP_NDEFER, 31, 0⟩
/-- `IP_NREFUSE`, at 0x390B + 0x10·n (06_anticipation.md). -/
def IP_NREFUSE : Reg := { base := 0x390B, stride := 0x10, count := 16, copies := false, dom := fun _ => 4, reset := fun _ => 0x00000000#32, fields := [⟨31, 0, .ro, false⟩] }
def IP_NREFUSE_COUNT : Fld := ⟨IP_NREFUSE, 31, 0⟩
/-- `IP_REVRSN`, at 0x390C + 0x10·n (06_anticipation.md). -/
def IP_REVRSN : Reg := { base := 0x390C, stride := 0x10, count := 16, copies := false, dom := fun _ => 4, reset := fun _ => 0x00000000#32, fields := [⟨3, 0, .ro, false⟩] }
def IP_REVRSN_REASON : Fld := ⟨IP_REVRSN, 3, 0⟩
/-- `IP_EVT`, at 0x390D + 0x10·n (06_anticipation.md). -/
def IP_EVT : Reg := { base := 0x390D, stride := 0x10, count := 16, copies := false, dom := fun _ => 4, reset := fun _ => 0x00000000#32, fields := [⟨9, 9, .w1c, false⟩, ⟨8, 8, .w1c, false⟩, ⟨7, 7, .w1c, false⟩, ⟨6, 6, .w1c, false⟩, ⟨5, 5, .w1c, false⟩, ⟨4, 4, .w1c, false⟩, ⟨3, 3, .w1c, false⟩, ⟨2, 2, .w1c, false⟩, ⟨1, 1, .w1c, false⟩, ⟨0, 0, .w1c, false⟩] }
def IP_EVT_LIVE : Fld := ⟨IP_EVT, 9, 9⟩
def IP_EVT_SATURATED : Fld := ⟨IP_EVT, 8, 8⟩
def IP_EVT_ABORTED : Fld := ⟨IP_EVT, 7, 7⟩
def IP_EVT_OVERRUN : Fld := ⟨IP_EVT, 6, 6⟩
def IP_EVT_CLKSTOP : Fld := ⟨IP_EVT, 5, 5⟩
def IP_EVT_HSFAIL : Fld := ⟨IP_EVT, 4, 4⟩
def IP_EVT_STALE : Fld := ⟨IP_EVT, 3, 3⟩
def IP_EVT_REFUND : Fld := ⟨IP_EVT, 2, 2⟩
def IP_EVT_REVOKED : Fld := ⟨IP_EVT, 1, 1⟩
def IP_EVT_CONFIRMED : Fld := ⟨IP_EVT, 0, 0⟩
/-- `IP_EVTEN`, at 0x390E + 0x10·n (06_anticipation.md). -/
def IP_EVTEN : Reg := { base := 0x390E, stride := 0x10, count := 16, copies := false, dom := fun _ => 4, reset := fun _ => 0x00000000#32, fields := [⟨9, 9, .rw, false⟩, ⟨8, 8, .rw, false⟩, ⟨7, 7, .rw, false⟩, ⟨6, 6, .rw, false⟩, ⟨5, 5, .rw, false⟩, ⟨4, 4, .rw, false⟩, ⟨3, 3, .rw, false⟩, ⟨2, 2, .rw, false⟩, ⟨1, 1, .rw, false⟩, ⟨0, 0, .rw, false⟩] }
def IP_EVTEN_LIVE : Fld := ⟨IP_EVTEN, 9, 9⟩
def IP_EVTEN_SATURATED : Fld := ⟨IP_EVTEN, 8, 8⟩
def IP_EVTEN_ABORTED : Fld := ⟨IP_EVTEN, 7, 7⟩
def IP_EVTEN_OVERRUN : Fld := ⟨IP_EVTEN, 6, 6⟩
def IP_EVTEN_CLKSTOP : Fld := ⟨IP_EVTEN, 5, 5⟩
def IP_EVTEN_HSFAIL : Fld := ⟨IP_EVTEN, 4, 4⟩
def IP_EVTEN_STALE : Fld := ⟨IP_EVTEN, 3, 3⟩
def IP_EVTEN_REFUND : Fld := ⟨IP_EVTEN, 2, 2⟩
def IP_EVTEN_REVOKED : Fld := ⟨IP_EVTEN, 1, 1⟩
def IP_EVTEN_CONFIRMED : Fld := ⟨IP_EVTEN, 0, 0⟩
/-- `IP_CMD`, at 0x390F + 0x10·n (06_anticipation.md). -/
def IP_CMD : Reg := { base := 0x390F, stride := 0x10, count := 16, copies := false, dom := fun _ => 4, reset := fun _ => 0x00000000#32, fields := [⟨0, 0, .wo, false⟩] }
def IP_CMD_CLRCNT : Fld := ⟨IP_CMD, 0, 0⟩
/-- `IPT_RSLOT`, at 0x3A00 + 0x1·n (06_anticipation.md). -/
def IPT_RSLOT : Reg := { base := 0x3A00, stride := 0x1, count := 32, copies := false, dom := fun _ => 4, reset := fun _ => 0x00000000#32, fields := [⟨7, 0, .ro, false⟩, ⟨15, 8, .ro, false⟩, ⟨23, 16, .ro, false⟩, ⟨31, 24, .ro, false⟩] }
def IPT_RSLOT_SLOT0 : Fld := ⟨IPT_RSLOT, 7, 0⟩
def IPT_RSLOT_SLOT1 : Fld := ⟨IPT_RSLOT, 15, 8⟩
def IPT_RSLOT_SLOT2 : Fld := ⟨IPT_RSLOT, 23, 16⟩
def IPT_RSLOT_SLOT3 : Fld := ⟨IPT_RSLOT, 31, 24⟩
/-- `ENG_CTRL`, at 0x3000 + 0x20·n (07_engines.md). -/
def ENG_CTRL : Reg := { base := 0x3000, stride := 0x20, count := 48, copies := false, dom := fun n => if n < 24 then 2 else 3, reset := fun _ => 0x00320001#32, fields := [⟨23, 16, .rw, false⟩, ⟨8, 8, .rwl, false⟩, ⟨0, 0, .rw, true⟩] }
def ENG_CTRL_CLSHDLY : Fld := ⟨ENG_CTRL, 23, 16⟩
def ENG_CTRL_WLOCK : Fld := ⟨ENG_CTRL, 8, 8⟩
def ENG_CTRL_MIGEN : Fld := ⟨ENG_CTRL, 0, 0⟩
/-- `ENG_STAT`, at 0x3001 + 0x20·n (07_engines.md). -/
def ENG_STAT : Reg := { base := 0x3001, stride := 0x20, count := 48, copies := false, dom := fun n => if n < 24 then 2 else 3, reset := fun n => BitVec.ofNat 32 (n * 256), fields := [⟨16, 16, .ro, false⟩, ⟨13, 8, .ro, false⟩, ⟨3, 0, .ro, false⟩] }
def ENG_STAT_REPLAY : Fld := ⟨ENG_STAT, 16, 16⟩
def ENG_STAT_PROG : Fld := ⟨ENG_STAT, 13, 8⟩
def ENG_STAT_STATE : Fld := ⟨ENG_STAT, 3, 0⟩
/-- `ENG_PC`, at 0x3002 + 0x20·n (07_engines.md). -/
def ENG_PC : Reg := { base := 0x3002, stride := 0x20, count := 48, copies := false, dom := fun n => if n < 24 then 2 else 3, reset := fun _ => 0x00000000#32, fields := [⟨15, 0, .rw, false⟩] }
def ENG_PC_PC : Fld := ⟨ENG_PC, 15, 0⟩
/-- `ENG_FLAGS`, at 0x3003 + 0x20·n (07_engines.md). -/
def ENG_FLAGS : Reg := { base := 0x3003, stride := 0x20, count := 48, copies := false, dom := fun n => if n < 24 then 2 else 3, reset := fun _ => 0x00000000#32, fields := [⟨12, 10, .ro, false⟩, ⟨9, 9, .ro, false⟩, ⟨8, 8, .w1c, false⟩, ⟨7, 7, .w1c, false⟩, ⟨6, 6, .w1c, false⟩, ⟨0, 0, .ro, false⟩, ⟨1, 1, .ro, false⟩, ⟨2, 2, .ro, false⟩, ⟨3, 3, .ro, false⟩] }
def ENG_FLAGS_RSDEPTH : Fld := ⟨ENG_FLAGS, 12, 10⟩
def ENG_FLAGS_RSFULL : Fld := ⟨ENG_FLAGS, 9, 9⟩
def ENG_FLAGS_CLCKPT : Fld := ⟨ENG_FLAGS, 8, 8⟩
def ENG_FLAGS_MODEDENY : Fld := ⟨ENG_FLAGS, 7, 7⟩
def ENG_FLAGS_INTDROP : Fld := ⟨ENG_FLAGS, 6, 6⟩
def ENG_FLAGS_Z : Fld := ⟨ENG_FLAGS, 0, 0⟩
def ENG_FLAGS_N : Fld := ⟨ENG_FLAGS, 1, 1⟩
def ENG_FLAGS_C : Fld := ⟨ENG_FLAGS, 2, 2⟩
def ENG_FLAGS_V : Fld := ⟨ENG_FLAGS, 3, 3⟩
/-- `ENG_FWIN`, at 0x3004 + 0x20·n (07_engines.md). -/
def ENG_FWIN : Reg := { base := 0x3004, stride := 0x20, count := 48, copies := false, dom := fun n => if n < 24 then 2 else 3, reset := fun _ => 0xFFFF0000#32, fields := [⟨31, 16, .rwl, true⟩, ⟨15, 0, .rwl, true⟩] }
def ENG_FWIN_LAST : Fld := ⟨ENG_FWIN, 31, 16⟩
def ENG_FWIN_FIRST : Fld := ⟨ENG_FWIN, 15, 0⟩
/-- `ENG_WRMASK`, at 0x3005 + 0x20·n (07_engines.md). -/
def ENG_WRMASK : Reg := { base := 0x3005, stride := 0x20, count := 48, copies := false, dom := fun n => if n < 24 then 2 else 3, reset := fun _ => 0x00000000#32, fields := [⟨17, 0, .rwl, true⟩] }
def ENG_WRMASK_MASK : Fld := ⟨ENG_WRMASK, 17, 0⟩
/-- `ENG_SIG`, at 0x3006 + 0x20·n (07_engines.md). -/
def ENG_SIG : Reg := { base := 0x3006, stride := 0x20, count := 48, copies := false, dom := fun n => if n < 24 then 2 else 3, reset := fun _ => 0x00000000#32, fields := [⟨15, 0, .ro, false⟩] }
def ENG_SIG_PENDING : Fld := ⟨ENG_SIG, 15, 0⟩
/-- `ENG_BAR`, at 0x3007 + 0x20·n (07_engines.md). -/
def ENG_BAR : Reg := { base := 0x3007, stride := 0x20, count := 48, copies := false, dom := fun n => if n < 24 then 2 else 3, reset := fun _ => 0x00000000#32, fields := [⟨7, 0, .rw, false⟩] }
def ENG_BAR_BARMASK : Fld := ⟨ENG_BAR, 7, 0⟩
/-- `ENG_BARGEN`, at 0x3008 + 0x20·n (07_engines.md). -/
def ENG_BARGEN : Reg := { base := 0x3008, stride := 0x20, count := 48, copies := false, dom := fun n => if n < 24 then 2 else 3, reset := fun _ => 0x00000000#32, fields := [⟨31, 0, .ro, false⟩] }
def ENG_BARGEN_GEN : Fld := ⟨ENG_BARGEN, 31, 0⟩
/-- `ENG_CLAUSE`, at 0x3009 + 0x20·n (07_engines.md). -/
def ENG_CLAUSE : Reg := { base := 0x3009, stride := 0x20, count := 48, copies := false, dom := fun n => if n < 24 then 2 else 3, reset := fun _ => 0x00000000#32, fields := [⟨31, 30, .ro, false⟩, ⟨29, 26, .ro, false⟩, ⟨25, 21, .ro, false⟩, ⟨15, 0, .ro, false⟩] }
def ENG_CLAUSE_STATE : Fld := ⟨ENG_CLAUSE, 31, 30⟩
def ENG_CLAUSE_LASTRSN : Fld := ⟨ENG_CLAUSE, 29, 26⟩
def ENG_CLAUSE_HELD : Fld := ⟨ENG_CLAUSE, 25, 21⟩
def ENG_CLAUSE_REMAIN : Fld := ⟨ENG_CLAUSE, 15, 0⟩
/-- `ENG_NCONF`, at 0x300A + 0x20·n (07_engines.md). -/
def ENG_NCONF : Reg := { base := 0x300A, stride := 0x20, count := 48, copies := false, dom := fun n => if n < 24 then 2 else 3, reset := fun _ => 0x00000000#32, fields := [⟨31, 0, .ro, false⟩] }
def ENG_NCONF_COUNT : Fld := ⟨ENG_NCONF, 31, 0⟩
/-- `ENG_NREVK`, at 0x300B + 0x20·n (07_engines.md). -/
def ENG_NREVK : Reg := { base := 0x300B, stride := 0x20, count := 48, copies := false, dom := fun n => if n < 24 then 2 else 3, reset := fun _ => 0x00000000#32, fields := [⟨31, 0, .ro, false⟩] }
def ENG_NREVK_COUNT : Fld := ⟨ENG_NREVK, 31, 0⟩
/-- `ENG_RETIRED`, at 0x3010 + 0x20·n (07_engines.md). -/
def ENG_RETIRED : Reg := { base := 0x3010, stride := 0x20, count := 48, copies := false, dom := fun n => if n < 24 then 2 else 3, reset := fun _ => 0x00000000#32, fields := [⟨31, 0, .ro, false⟩] }
def ENG_RETIRED_COUNT : Fld := ⟨ENG_RETIRED, 31, 0⟩
/-- `ENG_CKSTAT`, at 0x300C + 0x20·n (07_engines.md). -/
def ENG_CKSTAT : Reg := { base := 0x300C, stride := 0x20, count := 48, copies := false, dom := fun n => if n < 24 then 2 else 3, reset := fun _ => 0x00000000#32, fields := [⟨31, 31, .ro, false⟩, ⟨15, 0, .ro, false⟩] }
def ENG_CKSTAT_VALID : Fld := ⟨ENG_CKSTAT, 31, 31⟩
def ENG_CKSTAT_SEQ : Fld := ⟨ENG_CKSTAT, 15, 0⟩
/-- `ENG_CKTIME`, at 0x300D + 0x20·n (07_engines.md). -/
def ENG_CKTIME : Reg := { base := 0x300D, stride := 0x20, count := 48, copies := false, dom := fun n => if n < 24 then 2 else 3, reset := fun _ => 0x00000000#32, fields := [⟨31, 0, .ro, false⟩] }
def ENG_CKTIME_TIME : Fld := ⟨ENG_CKTIME, 31, 0⟩
/-- `ENG_FREEZE`, at 0x300E + 0x20·n (07_engines.md). -/
def ENG_FREEZE : Reg := { base := 0x300E, stride := 0x20, count := 48, copies := false, dom := fun n => if n < 24 then 2 else 3, reset := fun _ => 0x00000000#32, fields := [⟨31, 28, .ro, false⟩, ⟨15, 0, .ro, false⟩] }
def ENG_FREEZE_CAUSE : Fld := ⟨ENG_FREEZE, 31, 28⟩
def ENG_FREEZE_ADDR : Fld := ⟨ENG_FREEZE, 15, 0⟩
/-- `ENG_MIGR`, at 0x300F + 0x20·n (07_engines.md). -/
def ENG_MIGR : Reg := { base := 0x300F, stride := 0x20, count := 48, copies := false, dom := fun n => if n < 24 then 2 else 3, reset := fun _ => 0x00003F3F#32, fields := [⟨31, 16, .ro, false⟩, ⟨13, 8, .ro, false⟩, ⟨5, 0, .ro, false⟩] }
def ENG_MIGR_COUNT : Fld := ⟨ENG_MIGR, 31, 16⟩
def ENG_MIGR_FROM : Fld := ⟨ENG_MIGR, 13, 8⟩
def ENG_MIGR_TO : Fld := ⟨ENG_MIGR, 5, 0⟩
/-- `ENG_GSEL`, at 0x3011 + 0x20·n (07_engines.md). -/
def ENG_GSEL : Reg := { base := 0x3011, stride := 0x20, count := 48, copies := false, dom := fun n => if n < 24 then 2 else 3, reset := fun _ => 0x00000000#32, fields := [⟨4, 0, .rw, false⟩] }
def ENG_GSEL_SEL : Fld := ⟨ENG_GSEL, 4, 0⟩
/-- `ENG_GDATA`, at 0x3012 + 0x20·n (07_engines.md). -/
def ENG_GDATA : Reg := { base := 0x3012, stride := 0x20, count := 48, copies := false, dom := fun n => if n < 24 then 2 else 3, reset := fun _ => 0x00000000#32, fields := [⟨31, 0, .ro, false⟩] }
def ENG_GDATA_DATA : Fld := ⟨ENG_GDATA, 31, 0⟩
/-- `ENG_CKIDX`, at 0x3013 + 0x20·n (07_engines.md). -/
def ENG_CKIDX : Reg := { base := 0x3013, stride := 0x20, count := 48, copies := false, dom := fun n => if n < 24 then 2 else 3, reset := fun _ => 0x00000000#32, fields := [⟨8, 0, .rw, false⟩] }
def ENG_CKIDX_WORD : Fld := ⟨ENG_CKIDX, 8, 0⟩
/-- `ENG_CKDATA`, at 0x3014 + 0x20·n (07_engines.md). -/
def ENG_CKDATA : Reg := { base := 0x3014, stride := 0x20, count := 48, copies := false, dom := fun n => if n < 24 then 2 else 3, reset := fun _ => 0x00000000#32, fields := [⟨31, 0, .ro, false⟩] }
def ENG_CKDATA_DATA : Fld := ⟨ENG_CKDATA, 31, 0⟩
/-- `ENG_EVT`, at 0x3015 + 0x20·n (07_engines.md). -/
def ENG_EVT : Reg := { base := 0x3015, stride := 0x20, count := 48, copies := false, dom := fun n => if n < 24 then 2 else 3, reset := fun _ => 0x00000000#32, fields := [⟨10, 10, .w1c, false⟩, ⟨9, 9, .w1c, false⟩, ⟨8, 8, .w1c, false⟩, ⟨7, 7, .w1c, false⟩, ⟨6, 6, .w1c, false⟩, ⟨5, 5, .w1c, false⟩, ⟨4, 4, .w1c, false⟩, ⟨3, 3, .w1c, false⟩, ⟨2, 2, .w1c, false⟩, ⟨1, 1, .w1c, false⟩, ⟨0, 0, .w1c, false⟩] }
def ENG_EVT_SATURATED : Fld := ⟨ENG_EVT, 10, 10⟩
def ENG_EVT_BARLOST : Fld := ⟨ENG_EVT, 9, 9⟩
def ENG_EVT_REPLAYDUP : Fld := ⟨ENG_EVT, 8, 8⟩
def ENG_EVT_ABORTED : Fld := ⟨ENG_EVT, 7, 7⟩
def ENG_EVT_RESTORED : Fld := ⟨ENG_EVT, 6, 6⟩
def ENG_EVT_MIGRATED : Fld := ⟨ENG_EVT, 5, 5⟩
def ENG_EVT_FENCED : Fld := ⟨ENG_EVT, 4, 4⟩
def ENG_EVT_FROZEN : Fld := ⟨ENG_EVT, 3, 3⟩
def ENG_EVT_HALTED : Fld := ⟨ENG_EVT, 2, 2⟩
def ENG_EVT_REVOKED : Fld := ⟨ENG_EVT, 1, 1⟩
def ENG_EVT_CONFIRMED : Fld := ⟨ENG_EVT, 0, 0⟩
/-- `ENG_EVTEN`, at 0x3016 + 0x20·n (07_engines.md). -/
def ENG_EVTEN : Reg := { base := 0x3016, stride := 0x20, count := 48, copies := false, dom := fun n => if n < 24 then 2 else 3, reset := fun _ => 0x00000000#32, fields := [⟨10, 10, .rw, false⟩, ⟨9, 9, .rw, false⟩, ⟨8, 8, .rw, false⟩, ⟨7, 7, .rw, false⟩, ⟨6, 6, .rw, false⟩, ⟨5, 5, .rw, false⟩, ⟨4, 4, .rw, false⟩, ⟨3, 3, .rw, false⟩, ⟨2, 2, .rw, false⟩, ⟨1, 1, .rw, false⟩, ⟨0, 0, .rw, false⟩] }
def ENG_EVTEN_SATURATED : Fld := ⟨ENG_EVTEN, 10, 10⟩
def ENG_EVTEN_BARLOST : Fld := ⟨ENG_EVTEN, 9, 9⟩
def ENG_EVTEN_REPLAYDUP : Fld := ⟨ENG_EVTEN, 8, 8⟩
def ENG_EVTEN_ABORTED : Fld := ⟨ENG_EVTEN, 7, 7⟩
def ENG_EVTEN_RESTORED : Fld := ⟨ENG_EVTEN, 6, 6⟩
def ENG_EVTEN_MIGRATED : Fld := ⟨ENG_EVTEN, 5, 5⟩
def ENG_EVTEN_FENCED : Fld := ⟨ENG_EVTEN, 4, 4⟩
def ENG_EVTEN_FROZEN : Fld := ⟨ENG_EVTEN, 3, 3⟩
def ENG_EVTEN_HALTED : Fld := ⟨ENG_EVTEN, 2, 2⟩
def ENG_EVTEN_REVOKED : Fld := ⟨ENG_EVTEN, 1, 1⟩
def ENG_EVTEN_CONFIRMED : Fld := ⟨ENG_EVTEN, 0, 0⟩
/-- `ENG_CMD`, at 0x3017 + 0x20·n (07_engines.md). -/
def ENG_CMD : Reg := { base := 0x3017, stride := 0x20, count := 48, copies := false, dom := fun n => if n < 24 then 2 else 3, reset := fun _ => 0x00000000#32, fields := [⟨31, 16, .key, false⟩, ⟨11, 8, .wo, false⟩, ⟨7, 7, .wo, false⟩, ⟨6, 6, .wo, false⟩, ⟨5, 5, .wo, false⟩, ⟨4, 4, .wo, false⟩, ⟨3, 3, .wo, false⟩, ⟨1, 1, .wo, false⟩, ⟨0, 0, .wo, false⟩] }
def ENG_CMD_KEY : Fld := ⟨ENG_CMD, 31, 16⟩
def ENG_CMD_SIGNO : Fld := ⟨ENG_CMD, 11, 8⟩
def ENG_CMD_SIGRAISE : Fld := ⟨ENG_CMD, 7, 7⟩
def ENG_CMD_CLRCNT : Fld := ⟨ENG_CMD, 6, 6⟩
def ENG_CMD_MIGRATE : Fld := ⟨ENG_CMD, 5, 5⟩
def ENG_CMD_RESTORE : Fld := ⟨ENG_CMD, 4, 4⟩
def ENG_CMD_UNFREEZE : Fld := ⟨ENG_CMD, 3, 3⟩
def ENG_CMD_HALT : Fld := ⟨ENG_CMD, 1, 1⟩
def ENG_CMD_START : Fld := ⟨ENG_CMD, 0, 0⟩
/-- `BUD_CFG`, at 0x0F00 (09_budget_policy.md). -/
def BUD_CFG : Reg := { base := 0x0F00, stride := 0x0, count := 1, copies := false, dom := fun _ => 4, reset := fun _ => 0x00000A05#32, fields := [⟨31, 31, .rwl, false⟩, ⟨15, 8, .rw, false⟩, ⟨7, 0, .rw, false⟩] }
def BUD_CFG_LOCK : Fld := ⟨BUD_CFG, 31, 31⟩
def BUD_CFG_PENDTMO : Fld := ⟨BUD_CFG, 15, 8⟩
def BUD_CFG_OVLPERS : Fld := ⟨BUD_CFG, 7, 0⟩
/-- `BUD_EVT`, at 0x0F01 (09_budget_policy.md). -/
def BUD_EVT : Reg := { base := 0x0F01, stride := 0x0, count := 1, copies := false, dom := fun _ => 4, reset := fun _ => 0x00000000#32, fields := [⟨31, 24, .w1c, false⟩, ⟨23, 16, .w1c, false⟩, ⟨2, 2, .w1c, false⟩, ⟨1, 1, .w1c, false⟩, ⟨0, 0, .w1c, false⟩] }
def BUD_EVT_OVERCOMMIT : Fld := ⟨BUD_EVT, 31, 24⟩
def BUD_EVT_OVERLOAD : Fld := ⟨BUD_EVT, 23, 16⟩
def BUD_EVT_REFUSED : Fld := ⟨BUD_EVT, 2, 2⟩
def BUD_EVT_GRANTCUT : Fld := ⟨BUD_EVT, 1, 1⟩
def BUD_EVT_PINSAT : Fld := ⟨BUD_EVT, 0, 0⟩
/-- `BUD_EVTEN`, at 0x0F02 (09_budget_policy.md). -/
def BUD_EVTEN : Reg := { base := 0x0F02, stride := 0x0, count := 1, copies := false, dom := fun _ => 4, reset := fun _ => 0x00000000#32, fields := [⟨31, 24, .rw, false⟩, ⟨23, 16, .rw, false⟩, ⟨2, 2, .rw, false⟩, ⟨1, 1, .rw, false⟩, ⟨0, 0, .rw, false⟩] }
def BUD_EVTEN_OVERCOMMIT : Fld := ⟨BUD_EVTEN, 31, 24⟩
def BUD_EVTEN_OVERLOAD : Fld := ⟨BUD_EVTEN, 23, 16⟩
def BUD_EVTEN_REFUSED : Fld := ⟨BUD_EVTEN, 2, 2⟩
def BUD_EVTEN_GRANTCUT : Fld := ⟨BUD_EVTEN, 1, 1⟩
def BUD_EVTEN_PINSAT : Fld := ⟨BUD_EVTEN, 0, 0⟩
/-- `BUD_PCFG`, at 0x0F10 + 0x8·n (09_budget_policy.md). -/
def BUD_PCFG : Reg := { base := 0x0F10, stride := 0x8, count := 8, copies := false, dom := fun _ => 4, reset := fun _ => 0x0F000000#32, fields := [⟨27, 24, .rwl, true⟩, ⟨19, 0, .rw, true⟩] }
def BUD_PCFG_PARENT : Fld := ⟨BUD_PCFG, 27, 24⟩
def BUD_PCFG_CAP : Fld := ⟨BUD_PCFG, 19, 0⟩
/-- `BUD_PCAPEFF`, at 0x0F11 + 0x8·n (09_budget_policy.md). -/
def BUD_PCAPEFF : Reg := { base := 0x0F11, stride := 0x8, count := 8, copies := false, dom := fun _ => 4, reset := fun _ => 0x00000000#32, fields := [⟨19, 0, .ro, false⟩] }
def BUD_PCAPEFF_VALUE : Fld := ⟨BUD_PCAPEFF, 19, 0⟩
/-- `BUD_PGRANTED`, at 0x0F12 + 0x8·n (09_budget_policy.md). -/
def BUD_PGRANTED : Reg := { base := 0x0F12, stride := 0x8, count := 8, copies := false, dom := fun _ => 4, reset := fun _ => 0x00000000#32, fields := [⟨19, 0, .ro, false⟩] }
def BUD_PGRANTED_VALUE : Fld := ⟨BUD_PGRANTED, 19, 0⟩
/-- `BUD_PALLOWED`, at 0x0F13 + 0x8·n (09_budget_policy.md). -/
def BUD_PALLOWED : Reg := { base := 0x0F13, stride := 0x8, count := 8, copies := false, dom := fun _ => 4, reset := fun _ => 0x00000000#32, fields := [⟨19, 0, .ro, false⟩] }
def BUD_PALLOWED_VALUE : Fld := ⟨BUD_PALLOWED, 19, 0⟩
/-- `BUD_PRESERVED`, at 0x0F14 + 0x8·n (09_budget_policy.md). -/
def BUD_PRESERVED : Reg := { base := 0x0F14, stride := 0x8, count := 8, copies := false, dom := fun _ => 4, reset := fun _ => 0x00000000#32, fields := [⟨19, 0, .ro, false⟩] }
def BUD_PRESERVED_VALUE : Fld := ⟨BUD_PRESERVED, 19, 0⟩
/-- `BUD_PFREE`, at 0x0F15 + 0x8·n (09_budget_policy.md). -/
def BUD_PFREE : Reg := { base := 0x0F15, stride := 0x8, count := 8, copies := false, dom := fun _ => 4, reset := fun _ => 0x00000000#32, fields := [⟨19, 0, .ro, false⟩] }
def BUD_PFREE_VALUE : Fld := ⟨BUD_PFREE, 19, 0⟩
/-- `BUD_PMEAS`, at 0x0F16 + 0x8·n (09_budget_policy.md). -/
def BUD_PMEAS : Reg := { base := 0x0F16, stride := 0x8, count := 8, copies := false, dom := fun _ => 4, reset := fun _ => 0x00000000#32, fields := [⟨31, 0, .ro, false⟩] }
def BUD_PMEAS_MEAS : Fld := ⟨BUD_PMEAS, 31, 0⟩
/-- `BUD_PSTAT`, at 0x0F17 + 0x8·n (09_budget_policy.md). -/
def BUD_PSTAT : Reg := { base := 0x0F17, stride := 0x8, count := 8, copies := false, dom := fun _ => 4, reset := fun _ => 0x00000000#32, fields := [⟨31, 31, .ro, false⟩, ⟨30, 30, .ro, false⟩, ⟨29, 29, .ro, false⟩, ⟨25, 24, .ro, false⟩, ⟨19, 0, .ro, false⟩] }
def BUD_PSTAT_OVERCOMMIT : Fld := ⟨BUD_PSTAT, 31, 31⟩
def BUD_PSTAT_OVERLOAD : Fld := ⟨BUD_PSTAT, 30, 30⟩
def BUD_PSTAT_CUTPEND : Fld := ⟨BUD_PSTAT, 29, 29⟩
def BUD_PSTAT_DEPTH : Fld := ⟨BUD_PSTAT, 25, 24⟩
def BUD_PSTAT_PENDING : Fld := ⟨BUD_PSTAT, 19, 0⟩
/-- `BUD_IPCFG`, at 0x0F50 + 0x1·n (09_budget_policy.md). -/
def BUD_IPCFG : Reg := { base := 0x0F50, stride := 0x1, count := 16, copies := false, dom := fun _ => 4, reset := fun _ => 0x00000000#32, fields := [⟨19, 0, .rw, true⟩] }
def BUD_IPCFG_ALMAX : Fld := ⟨BUD_IPCFG, 19, 0⟩
/-- `BUD_HWREQ`, at 0x0F60 + 0x2·n (09_budget_policy.md). -/
def BUD_HWREQ : Reg := { base := 0x0F60, stride := 0x2, count := 10, copies := false, dom := fun _ => 4, reset := fun _ => 0x00000000#32, fields := [⟨26, 24, .rw, true⟩, ⟨19, 0, .rw, true⟩] }
def BUD_HWREQ_POOL : Fld := ⟨BUD_HWREQ, 26, 24⟩
def BUD_HWREQ_LEVEL : Fld := ⟨BUD_HWREQ, 19, 0⟩
/-- `BUD_HWGNT`, at 0x0F61 + 0x2·n (09_budget_policy.md). -/
def BUD_HWGNT : Reg := { base := 0x0F61, stride := 0x2, count := 10, copies := false, dom := fun _ => 4, reset := fun _ => 0x00000000#32, fields := [⟨31, 30, .ro, false⟩, ⟨29, 29, .ro, false⟩, ⟨19, 0, .ro, false⟩] }
def BUD_HWGNT_STATUS : Fld := ⟨BUD_HWGNT, 31, 30⟩
def BUD_HWGNT_CAUSE : Fld := ⟨BUD_HWGNT, 29, 29⟩
def BUD_HWGNT_GRANT : Fld := ⟨BUD_HWGNT, 19, 0⟩
/-- `BUD_RIGHT`, at 0x0F80 + 0x1·n (09_budget_policy.md). -/
def BUD_RIGHT : Reg := { base := 0x0F80, stride := 0x1, count := 48, copies := false, dom := fun _ => 4, reset := fun _ => 0x00000000#32, fields := [⟨31, 24, .rwl, true⟩, ⟨11, 0, .rwl, true⟩] }
def BUD_RIGHT_MASK : Fld := ⟨BUD_RIGHT, 31, 24⟩
def BUD_RIGHT_MAX : Fld := ⟨BUD_RIGHT, 11, 0⟩
/-- `BUD_PSEL`, at 0x0FB0 (09_budget_policy.md). -/
def BUD_PSEL : Reg := { base := 0x0FB0, stride := 0x0, count := 1, copies := false, dom := fun _ => 4, reset := fun _ => 0x00000000#32, fields := [⟨13, 8, .rw, false⟩, ⟨2, 0, .rw, false⟩] }
def BUD_PSEL_PROG : Fld := ⟨BUD_PSEL, 13, 8⟩
def BUD_PSEL_POOL : Fld := ⟨BUD_PSEL, 2, 0⟩
/-- `BUD_PREQ`, at 0x0FB1 (09_budget_policy.md). -/
def BUD_PREQ : Reg := { base := 0x0FB1, stride := 0x0, count := 1, copies := false, dom := fun _ => 4, reset := fun _ => 0x00000000#32, fields := [⟨31, 30, .ro, false⟩, ⟨29, 29, .ro, false⟩, ⟨28, 28, .ro, false⟩, ⟨19, 0, .rw, false⟩] }
def BUD_PREQ_STATUS : Fld := ⟨BUD_PREQ, 31, 30⟩
def BUD_PREQ_CAUSE : Fld := ⟨BUD_PREQ, 29, 29⟩
def BUD_PREQ_SUBJ : Fld := ⟨BUD_PREQ, 28, 28⟩
def BUD_PREQ_LEVEL : Fld := ⟨BUD_PREQ, 19, 0⟩
/-- `BUD_PGNT`, at 0x0FB2 (09_budget_policy.md). -/
def BUD_PGNT : Reg := { base := 0x0FB2, stride := 0x0, count := 1, copies := false, dom := fun _ => 4, reset := fun _ => 0x00000000#32, fields := [⟨19, 0, .ro, false⟩] }
def BUD_PGNT_GRANT : Fld := ⟨BUD_PGNT, 19, 0⟩
/-- `BUD_RLPOOL`, at 0x0FB4 + 0x1·n (09_budget_policy.md). -/
def BUD_RLPOOL : Reg := { base := 0x0FB4, stride := 0x1, count := 4, copies := false, dom := fun _ => 4, reset := fun _ => 0xFFFFFFFF#32, fields := [⟨3, 0, .rwl, false⟩, ⟨7, 4, .rwl, false⟩, ⟨11, 8, .rwl, false⟩, ⟨15, 12, .rwl, false⟩, ⟨19, 16, .rwl, false⟩, ⟨23, 20, .rwl, false⟩, ⟨27, 24, .rwl, false⟩, ⟨31, 28, .rwl, false⟩] }
def BUD_RLPOOL_POOL0 : Fld := ⟨BUD_RLPOOL, 3, 0⟩
def BUD_RLPOOL_POOL1 : Fld := ⟨BUD_RLPOOL, 7, 4⟩
def BUD_RLPOOL_POOL2 : Fld := ⟨BUD_RLPOOL, 11, 8⟩
def BUD_RLPOOL_POOL3 : Fld := ⟨BUD_RLPOOL, 15, 12⟩
def BUD_RLPOOL_POOL4 : Fld := ⟨BUD_RLPOOL, 19, 16⟩
def BUD_RLPOOL_POOL5 : Fld := ⟨BUD_RLPOOL, 23, 20⟩
def BUD_RLPOOL_POOL6 : Fld := ⟨BUD_RLPOOL, 27, 24⟩
def BUD_RLPOOL_POOL7 : Fld := ⟨BUD_RLPOOL, 31, 28⟩
/-- `BUD_PINPERS`, at 0x0FC0 (09_budget_policy.md). -/
def BUD_PINPERS : Reg := { base := 0x0FC0, stride := 0x0, count := 1, copies := false, dom := fun _ => 4, reset := fun _ => 0x0A0A0A0A#32, fields := [⟨31, 24, .rw, false⟩, ⟨23, 16, .rw, false⟩, ⟨15, 8, .rw, false⟩, ⟨7, 0, .rw, false⟩] }
def BUD_PINPERS_DER : Fld := ⟨BUD_PINPERS, 31, 24⟩
def BUD_PINPERS_PER : Fld := ⟨BUD_PINPERS, 23, 16⟩
def BUD_PINPERS_PHS : Fld := ⟨BUD_PINPERS, 15, 8⟩
def BUD_PINPERS_REF : Fld := ⟨BUD_PINPERS, 7, 0⟩
/-- `BUD_PINEVT`, at 0x0FC4 + 0x1·n (09_budget_policy.md). -/
def BUD_PINEVT : Reg := { base := 0x0FC4, stride := 0x1, count := 4, copies := false, dom := fun _ => 4, reset := fun _ => 0x00000000#32, fields := [⟨31, 0, .w1c, false⟩] }
def BUD_PINEVT_RAILS : Fld := ⟨BUD_PINEVT, 31, 0⟩
/-- `BUD_PINEN`, at 0x0FC8 + 0x1·n (09_budget_policy.md). -/
def BUD_PINEN : Reg := { base := 0x0FC8, stride := 0x1, count := 4, copies := false, dom := fun _ => 4, reset := fun _ => 0x00000000#32, fields := [⟨31, 0, .rw, false⟩] }
def BUD_PINEN_RAILS : Fld := ⟨BUD_PINEN, 31, 0⟩
/-- `BUD_OVR`, at 0x0FCC (09_budget_policy.md). -/
def BUD_OVR : Reg := { base := 0x0FCC, stride := 0x0, count := 1, copies := false, dom := fun _ => 4, reset := fun _ => 0x00000000#32, fields := [⟨31, 0, .ro, false⟩] }
def BUD_OVR_RAILS : Fld := ⟨BUD_OVR, 31, 0⟩
/-- `BUD_PINSEL`, at 0x0FCD (09_budget_policy.md). -/
def BUD_PINSEL : Reg := { base := 0x0FCD, stride := 0x0, count := 1, copies := false, dom := fun _ => 4, reset := fun _ => 0x00000000#32, fields := [⟨31, 31, .ro, false⟩, ⟨30, 30, .wo, false⟩, ⟨12, 8, .rw, false⟩, ⟨1, 0, .rw, false⟩] }
def BUD_PINSEL_SAT : Fld := ⟨BUD_PINSEL, 31, 31⟩
def BUD_PINSEL_CLR : Fld := ⟨BUD_PINSEL, 30, 30⟩
def BUD_PINSEL_RAIL : Fld := ⟨BUD_PINSEL, 12, 8⟩
def BUD_PINSEL_QTY : Fld := ⟨BUD_PINSEL, 1, 0⟩
/-- `BUD_PINTIME`, at 0x0FCE (09_budget_policy.md). -/
def BUD_PINTIME : Reg := { base := 0x0FCE, stride := 0x0, count := 1, copies := false, dom := fun _ => 4, reset := fun _ => 0x00000000#32, fields := [⟨31, 0, .ro, false⟩] }
def BUD_PINTIME_MS : Fld := ⟨BUD_PINTIME, 31, 0⟩
/-- `LX_PERIOD`, at 0x3C00 (10_link_converter.md). -/
def LX_PERIOD : Reg := { base := 0x3C00, stride := 0x0, count := 1, copies := false, dom := fun _ => 9, reset := fun _ => 0x00019000#32, fields := [⟨17, 0, .rw, true⟩] }
def LX_PERIOD_PERIOD : Fld := ⟨LX_PERIOD, 17, 0⟩
/-- `LX_GROUP`, at 0x3C01 (10_link_converter.md). -/
def LX_GROUP : Reg := { base := 0x3C01, stride := 0x0, count := 1, copies := false, dom := fun _ => 9, reset := fun _ => 0x00000001#32, fields := [⟨19, 16, .rw, true⟩, ⟨0, 0, .rw, false⟩] }
def LX_GROUP_PAR : Fld := ⟨LX_GROUP, 19, 16⟩
def LX_GROUP_ILVEN : Fld := ⟨LX_GROUP, 0, 0⟩
/-- `LX_PCCFG`, at 0x3C02 (10_link_converter.md). -/
def LX_PCCFG : Reg := { base := 0x3C02, stride := 0x0, count := 1, copies := false, dom := fun _ => 9, reset := fun _ => 0x07D00064#32, fields := [⟨31, 16, .rw, true⟩, ⟨15, 0, .rw, false⟩] }
def LX_PCCFG_PRECAP : Fld := ⟨LX_PCCFG, 31, 16⟩
def LX_PCCFG_PCBAND : Fld := ⟨LX_PCCFG, 15, 0⟩
/-- `LX_PCTIME`, at 0x3C03 (10_link_converter.md). -/
def LX_PCTIME : Reg := { base := 0x3C03, stride := 0x0, count := 1, copies := false, dom := fun _ => 9, reset := fun _ => 0x07D00005#32, fields := [⟨31, 16, .rw, false⟩, ⟨15, 0, .rw, false⟩] }
def LX_PCTIME_PCTMO : Fld := ⟨LX_PCTIME, 31, 16⟩
def LX_PCTIME_PCDWELL : Fld := ⟨LX_PCTIME, 15, 0⟩
/-- `LXM_CTRL`, at 0x3D40 + 0x20·n (10_link_converter.md). -/
def LXM_CTRL : Reg := { base := 0x3D40, stride := 0x20, count := 4, copies := false, dom := fun _ => 9, reset := fun _ => 0x00001000#32, fields := [⟨16, 16, .rw, true⟩, ⟨14, 14, .rw, true⟩, ⟨13, 13, .rw, true⟩, ⟨12, 12, .rw, true⟩, ⟨9, 8, .rw, true⟩, ⟨6, 4, .rw, true⟩, ⟨0, 0, .rw, true⟩] }
def LXM_CTRL_CHGEN : Fld := ⟨LXM_CTRL, 16, 16⟩
def LXM_CTRL_PCHG : Fld := ⟨LXM_CTRL, 14, 14⟩
def LXM_CTRL_REVEN : Fld := ⟨LXM_CTRL, 13, 13⟩
def LXM_CTRL_FWDEN : Fld := ⟨LXM_CTRL, 12, 12⟩
def LXM_CTRL_MOD : Fld := ⟨LXM_CTRL, 9, 8⟩
def LXM_CTRL_CMODE : Fld := ⟨LXM_CTRL, 6, 4⟩
def LXM_CTRL_EN : Fld := ⟨LXM_CTRL, 0, 0⟩
/-- `LXM_STAT`, at 0x3D41 + 0x20·n (10_link_converter.md). -/
def LXM_STAT : Reg := { base := 0x3D41, stride := 0x20, count := 4, copies := false, dom := fun _ => 9, reset := fun _ => 0x00000000#32, fields := [⟨26, 24, .ro, false⟩, ⟨20, 20, .ro, false⟩, ⟨19, 19, .ro, false⟩, ⟨18, 18, .ro, false⟩, ⟨17, 17, .ro, false⟩, ⟨16, 16, .ro, false⟩, ⟨9, 8, .ro, false⟩, ⟨6, 4, .ro, false⟩, ⟨3, 0, .ro, false⟩] }
def LXM_STAT_PCST : Fld := ⟨LXM_STAT, 26, 24⟩
def LXM_STAT_RXPASS : Fld := ⟨LXM_STAT, 20, 20⟩
def LXM_STAT_CHGOVR : Fld := ⟨LXM_STAT, 19, 19⟩
def LXM_STAT_LIMR : Fld := ⟨LXM_STAT, 18, 18⟩
def LXM_STAT_LIMF : Fld := ⟨LXM_STAT, 17, 17⟩
def LXM_STAT_CEIL : Fld := ⟨LXM_STAT, 16, 16⟩
def LXM_STAT_DIR : Fld := ⟨LXM_STAT, 9, 8⟩
def LXM_STAT_RANK : Fld := ⟨LXM_STAT, 6, 4⟩
def LXM_STAT_STATE : Fld := ⟨LXM_STAT, 3, 0⟩
/-- `LXM_VTGT`, at 0x3D42 + 0x20·n (10_link_converter.md). -/
def LXM_VTGT : Reg := { base := 0x3D42, stride := 0x20, count := 4, copies := false, dom := fun _ => 9, reset := fun _ => 0x00000000#32, fields := [⟨31, 0, .rw, true⟩] }
def LXM_VTGT_VTGT : Fld := ⟨LXM_VTGT, 31, 0⟩
/-- `LXM_ITGT`, at 0x3D43 + 0x20·n (10_link_converter.md). -/
def LXM_ITGT : Reg := { base := 0x3D43, stride := 0x20, count := 4, copies := false, dom := fun _ => 9, reset := fun _ => 0x00000000#32, fields := [⟨31, 0, .rw, true⟩] }
def LXM_ITGT_ITGT : Fld := ⟨LXM_ITGT, 31, 0⟩
/-- `LXM_ILIMF`, at 0x3D44 + 0x20·n (10_link_converter.md). -/
def LXM_ILIMF : Reg := { base := 0x3D44, stride := 0x20, count := 4, copies := false, dom := fun _ => 9, reset := fun _ => 0x00000000#32, fields := [⟨31, 0, .rw, true⟩] }
def LXM_ILIMF_ILIMF : Fld := ⟨LXM_ILIMF, 31, 0⟩
/-- `LXM_ILIMR`, at 0x3D45 + 0x20·n (10_link_converter.md). -/
def LXM_ILIMR : Reg := { base := 0x3D45, stride := 0x20, count := 4, copies := false, dom := fun _ => 9, reset := fun _ => 0x00000000#32, fields := [⟨31, 0, .rw, true⟩] }
def LXM_ILIMR_ILIMR : Fld := ⟨LXM_ILIMR, 31, 0⟩
/-- `LXM_VSLEW`, at 0x3D46 + 0x20·n (10_link_converter.md). -/
def LXM_VSLEW : Reg := { base := 0x3D46, stride := 0x20, count := 4, copies := false, dom := fun _ => 9, reset := fun _ => 0x00002710#32, fields := [⟨31, 0, .rw, false⟩] }
def LXM_VSLEW_RATE : Fld := ⟨LXM_VSLEW, 31, 0⟩
/-- `LXM_XFMR`, at 0x3D47 + 0x20·n (10_link_converter.md). -/
def LXM_XFMR : Reg := { base := 0x3D47, stride := 0x20, count := 4, copies := false, dom := fun _ => 9, reset := fun _ => 0x00000000#32, fields := [⟨31, 16, .rw, true⟩, ⟨15, 0, .rw, true⟩] }
def LXM_XFMR_NTR : Fld := ⟨LXM_XFMR, 31, 16⟩
def LXM_XFMR_LLK : Fld := ⟨LXM_XFMR, 15, 0⟩
/-- `LXM_S1`, at 0x3D48 + 0x20·n (10_link_converter.md). -/
def LXM_S1 : Reg := { base := 0x3D48, stride := 0x20, count := 4, copies := false, dom := fun _ => 9, reset := fun _ => 0x00000000#32, fields := [⟨16, 0, .rw, false⟩] }
def LXM_S1_S : Fld := ⟨LXM_S1, 16, 0⟩
/-- `LXM_S2`, at 0x3D49 + 0x20·n (10_link_converter.md). -/
def LXM_S2 : Reg := { base := 0x3D49, stride := 0x20, count := 4, copies := false, dom := fun _ => 9, reset := fun _ => 0x00000000#32, fields := [⟨16, 0, .rw, false⟩] }
def LXM_S2_S : Fld := ⟨LXM_S2, 16, 0⟩
/-- `LXM_PHI`, at 0x3D4A + 0x20·n (10_link_converter.md). -/
def LXM_PHI : Reg := { base := 0x3D4A, stride := 0x20, count := 4, copies := false, dom := fun _ => 9, reset := fun _ => 0x01006400#32, fields := [⟨31, 16, .rw, true⟩, ⟨15, 0, .rw, true⟩] }
def LXM_PHI_PHISTEP : Fld := ⟨LXM_PHI, 31, 16⟩
def LXM_PHI_PHIMAX : Fld := ⟨LXM_PHI, 15, 0⟩
/-- `LXM_DT`, at 0x3D4B + 0x20·n (10_link_converter.md). -/
def LXM_DT : Reg := { base := 0x3D4B, stride := 0x20, count := 4, copies := false, dom := fun _ => 9, reset := fun _ => 0x02000200#32, fields := [⟨27, 16, .rw, true⟩, ⟨11, 0, .rw, true⟩] }
def LXM_DT_DTA : Fld := ⟨LXM_DT, 27, 16⟩
def LXM_DT_DTB : Fld := ⟨LXM_DT, 11, 0⟩
/-- `LXM_KV`, at 0x3D4C + 0x20·n (10_link_converter.md). -/
def LXM_KV : Reg := { base := 0x3D4C, stride := 0x20, count := 4, copies := false, dom := fun _ => 9, reset := fun _ => 0x00000000#32, fields := [⟨31, 16, .rw, true⟩, ⟨15, 0, .rw, true⟩] }
def LXM_KV_KPV : Fld := ⟨LXM_KV, 31, 16⟩
def LXM_KV_KIV : Fld := ⟨LXM_KV, 15, 0⟩
/-- `LXM_KI`, at 0x3D4D + 0x20·n (10_link_converter.md). -/
def LXM_KI : Reg := { base := 0x3D4D, stride := 0x20, count := 4, copies := false, dom := fun _ => 9, reset := fun _ => 0x00000000#32, fields := [⟨31, 16, .rw, true⟩, ⟨15, 0, .rw, true⟩] }
def LXM_KI_KPI : Fld := ⟨LXM_KI, 31, 16⟩
def LXM_KI_KII : Fld := ⟨LXM_KI, 15, 0⟩
/-- `LXM_HVOV`, at 0x3D4E + 0x20·n (10_link_converter.md). -/
def LXM_HVOV : Reg := { base := 0x3D4E, stride := 0x20, count := 4, copies := false, dom := fun _ => 9, reset := fun _ => 0x3DFD2400#32, fields := [⟨31, 0, .rw, true⟩] }
def LXM_HVOV_V : Fld := ⟨LXM_HVOV, 31, 0⟩
/-- `LXM_HVUV`, at 0x3D4F + 0x20·n (10_link_converter.md). -/
def LXM_HVUV : Reg := { base := 0x3D4F, stride := 0x20, count := 4, copies := false, dom := fun _ => 9, reset := fun _ => 0x17D78400#32, fields := [⟨31, 0, .rw, true⟩] }
def LXM_HVUV_V : Fld := ⟨LXM_HVUV, 31, 0⟩
/-- `LXM_LVOV`, at 0x3D50 + 0x20·n (10_link_converter.md). -/
def LXM_LVOV : Reg := { base := 0x3D50, stride := 0x20, count := 4, copies := false, dom := fun _ => 9, reset := fun _ => 0x03D09000#32, fields := [⟨31, 0, .rw, true⟩] }
def LXM_LVOV_V : Fld := ⟨LXM_LVOV, 31, 0⟩
/-- `LXM_LVUV`, at 0x3D51 + 0x20·n (10_link_converter.md). -/
def LXM_LVUV : Reg := { base := 0x3D51, stride := 0x20, count := 4, copies := false, dom := fun _ => 9, reset := fun _ => 0x00F42400#32, fields := [⟨31, 0, .rw, true⟩] }
def LXM_LVUV_V : Fld := ⟨LXM_LVUV, 31, 0⟩
/-- `LXM_TRIP`, at 0x3D52 + 0x20·n (10_link_converter.md). -/
def LXM_TRIP : Reg := { base := 0x3D52, stride := 0x20, count := 4, copies := false, dom := fun _ => 9, reset := fun _ => 0x00000000#32, fields := [⟨31, 16, .ro, false⟩, ⟨2, 0, .ro, false⟩] }
def LXM_TRIP_COUNT : Fld := ⟨LXM_TRIP, 31, 16⟩
def LXM_TRIP_CAUSE : Fld := ⟨LXM_TRIP, 2, 0⟩
/-- `LXM_CMD`, at 0x3D55 + 0x20·n (10_link_converter.md). -/
def LXM_CMD : Reg := { base := 0x3D55, stride := 0x20, count := 4, copies := false, dom := fun _ => 9, reset := fun _ => 0x00000000#32, fields := [⟨31, 16, .key, false⟩, ⟨1, 1, .wo, false⟩, ⟨0, 0, .wo, false⟩] }
def LXM_CMD_KEY : Fld := ⟨LXM_CMD, 31, 16⟩
def LXM_CMD_CLRCNT : Fld := ⟨LXM_CMD, 1, 1⟩
def LXM_CMD_UNFENCE : Fld := ⟨LXM_CMD, 0, 0⟩
/-- `LXM_VHV`, at 0x3D58 + 0x20·n (10_link_converter.md). -/
def LXM_VHV : Reg := { base := 0x3D58, stride := 0x20, count := 4, copies := false, dom := fun _ => 9, reset := fun _ => 0x00000000#32, fields := [⟨31, 0, .ro, false⟩] }
def LXM_VHV_V : Fld := ⟨LXM_VHV, 31, 0⟩
/-- `LXM_VLV`, at 0x3D59 + 0x20·n (10_link_converter.md). -/
def LXM_VLV : Reg := { base := 0x3D59, stride := 0x20, count := 4, copies := false, dom := fun _ => 9, reset := fun _ => 0x00000000#32, fields := [⟨31, 0, .ro, false⟩] }
def LXM_VLV_V : Fld := ⟨LXM_VLV, 31, 0⟩
/-- `LXM_IHV`, at 0x3D5A + 0x20·n (10_link_converter.md). -/
def LXM_IHV : Reg := { base := 0x3D5A, stride := 0x20, count := 4, copies := false, dom := fun _ => 9, reset := fun _ => 0x00000000#32, fields := [⟨31, 0, .ro, false⟩] }
def LXM_IHV_I : Fld := ⟨LXM_IHV, 31, 0⟩
/-- `LXM_ILV`, at 0x3D5B + 0x20·n (10_link_converter.md). -/
def LXM_ILV : Reg := { base := 0x3D5B, stride := 0x20, count := 4, copies := false, dom := fun _ => 9, reset := fun _ => 0x00000000#32, fields := [⟨31, 0, .ro, false⟩] }
def LXM_ILV_I : Fld := ⟨LXM_ILV, 31, 0⟩
/-- `LXM_PWR`, at 0x3D5C + 0x20·n (10_link_converter.md). -/
def LXM_PWR : Reg := { base := 0x3D5C, stride := 0x20, count := 4, copies := false, dom := fun _ => 9, reset := fun _ => 0x00000000#32, fields := [⟨31, 0, .ro, false⟩] }
def LXM_PWR_P : Fld := ⟨LXM_PWR, 31, 0⟩
/-- `LXM_PHILIVE`, at 0x3D5D + 0x20·n (10_link_converter.md). -/
def LXM_PHILIVE : Reg := { base := 0x3D5D, stride := 0x20, count := 4, copies := false, dom := fun _ => 9, reset := fun _ => 0x00000000#32, fields := [⟨16, 0, .ro, false⟩] }
def LXM_PHILIVE_PHI : Fld := ⟨LXM_PHILIVE, 16, 0⟩
/-- `LXM_WLIVE`, at 0x3D5E + 0x20·n (10_link_converter.md). -/
def LXM_WLIVE : Reg := { base := 0x3D5E, stride := 0x20, count := 4, copies := false, dom := fun _ => 9, reset := fun _ => 0x00000000#32, fields := [⟨16, 0, .ro, false⟩] }
def LXM_WLIVE_W : Fld := ⟨LXM_WLIVE, 16, 0⟩
/-- `LXM_EVT`, at 0x3D53 + 0x20·n (10_link_converter.md). -/
def LXM_EVT : Reg := { base := 0x3D53, stride := 0x20, count := 4, copies := false, dom := fun _ => 9, reset := fun _ => 0x00000000#32, fields := [⟨9, 9, .w1c, false⟩, ⟨8, 8, .w1c, false⟩, ⟨7, 7, .w1c, false⟩, ⟨6, 6, .w1c, false⟩, ⟨5, 5, .w1c, false⟩, ⟨4, 4, .w1c, false⟩, ⟨3, 3, .w1c, false⟩, ⟨2, 2, .w1c, false⟩, ⟨1, 1, .w1c, false⟩, ⟨0, 0, .w1c, false⟩] }
def LXM_EVT_ABORTED : Fld := ⟨LXM_EVT, 9, 9⟩
def LXM_EVT_FENCED : Fld := ⟨LXM_EVT, 8, 8⟩
def LXM_EVT_CHGDROP : Fld := ⟨LXM_EVT, 7, 7⟩
def LXM_EVT_CEILING : Fld := ⟨LXM_EVT, 6, 6⟩
def LXM_EVT_SUPERSEDED : Fld := ⟨LXM_EVT, 5, 5⟩
def LXM_EVT_PCFAIL : Fld := ⟨LXM_EVT, 4, 4⟩
def LXM_EVT_PCDONE : Fld := ⟨LXM_EVT, 3, 3⟩
def LXM_EVT_WAIT : Fld := ⟨LXM_EVT, 2, 2⟩
def LXM_EVT_TRIP : Fld := ⟨LXM_EVT, 1, 1⟩
def LXM_EVT_RUN : Fld := ⟨LXM_EVT, 0, 0⟩
/-- `LXM_EVTEN`, at 0x3D54 + 0x20·n (10_link_converter.md). -/
def LXM_EVTEN : Reg := { base := 0x3D54, stride := 0x20, count := 4, copies := false, dom := fun _ => 9, reset := fun _ => 0x00000000#32, fields := [⟨9, 9, .rw, false⟩, ⟨8, 8, .rw, false⟩, ⟨7, 7, .rw, false⟩, ⟨6, 6, .rw, false⟩, ⟨5, 5, .rw, false⟩, ⟨4, 4, .rw, false⟩, ⟨3, 3, .rw, false⟩, ⟨2, 2, .rw, false⟩, ⟨1, 1, .rw, false⟩, ⟨0, 0, .rw, false⟩] }
def LXM_EVTEN_ABORTED : Fld := ⟨LXM_EVTEN, 9, 9⟩
def LXM_EVTEN_FENCED : Fld := ⟨LXM_EVTEN, 8, 8⟩
def LXM_EVTEN_CHGDROP : Fld := ⟨LXM_EVTEN, 7, 7⟩
def LXM_EVTEN_CEILING : Fld := ⟨LXM_EVTEN, 6, 6⟩
def LXM_EVTEN_SUPERSEDED : Fld := ⟨LXM_EVTEN, 5, 5⟩
def LXM_EVTEN_PCFAIL : Fld := ⟨LXM_EVTEN, 4, 4⟩
def LXM_EVTEN_PCDONE : Fld := ⟨LXM_EVTEN, 3, 3⟩
def LXM_EVTEN_WAIT : Fld := ⟨LXM_EVTEN, 2, 2⟩
def LXM_EVTEN_TRIP : Fld := ⟨LXM_EVTEN, 1, 1⟩
def LXM_EVTEN_RUN : Fld := ⟨LXM_EVTEN, 0, 0⟩
/-- `CHG_CTRL`, at 0x3E00 (11_charge_path.md). -/
def CHG_CTRL : Reg := { base := 0x3E00, stride := 0x0, count := 1, copies := false, dom := fun _ => 8, reset := fun _ => 0x00000100#32, fields := [⟨9, 8, .rw, true⟩, ⟨2, 2, .rw, true⟩, ⟨1, 1, .rw, true⟩, ⟨0, 0, .rw, true⟩] }
def CHG_CTRL_CHEM : Fld := ⟨CHG_CTRL, 9, 8⟩
def CHG_CTRL_AUXCHG : Fld := ⟨CHG_CTRL, 2, 2⟩
def CHG_CTRL_HEN : Fld := ⟨CHG_CTRL, 1, 1⟩
def CHG_CTRL_BEN : Fld := ⟨CHG_CTRL, 0, 0⟩
/-- `CHG_STAT`, at 0x3E01 (11_charge_path.md). -/
def CHG_STAT : Reg := { base := 0x3E01, stride := 0x0, count := 1, copies := false, dom := fun _ => 8, reset := fun _ => 0x00400400#32, fields := [⟨31, 28, .ro, false⟩, ⟨27, 24, .ro, false⟩, ⟨23, 21, .ro, false⟩, ⟨20, 20, .ro, false⟩, ⟨19, 16, .ro, false⟩, ⟨15, 12, .ro, false⟩, ⟨11, 9, .ro, false⟩, ⟨8, 8, .ro, false⟩, ⟨7, 7, .ro, false⟩, ⟨6, 6, .ro, false⟩, ⟨5, 5, .ro, false⟩] }
def CHG_STAT_HREASON : Fld := ⟨CHG_STAT, 31, 28⟩
def CHG_STAT_HSTATE : Fld := ⟨CHG_STAT, 27, 24⟩
def CHG_STAT_HWIN : Fld := ⟨CHG_STAT, 23, 21⟩
def CHG_STAT_HTHALF : Fld := ⟨CHG_STAT, 20, 20⟩
def CHG_STAT_BREASON : Fld := ⟨CHG_STAT, 19, 16⟩
def CHG_STAT_BSTATE : Fld := ⟨CHG_STAT, 15, 12⟩
def CHG_STAT_BWIN : Fld := ⟨CHG_STAT, 11, 9⟩
def CHG_STAT_BTHALF : Fld := ⟨CHG_STAT, 8, 8⟩
def CHG_STAT_BCLRPEND : Fld := ⟨CHG_STAT, 7, 7⟩
def CHG_STAT_HCLRPEND : Fld := ⟨CHG_STAT, 6, 6⟩
def CHG_STAT_BDIS : Fld := ⟨CHG_STAT, 5, 5⟩
/-- `CHG_CMD`, at 0x3E02 (11_charge_path.md). -/
def CHG_CMD : Reg := { base := 0x3E02, stride := 0x0, count := 1, copies := false, dom := fun _ => 8, reset := fun _ => 0x00000000#32, fields := [⟨4, 4, .wo, false⟩, ⟨3, 3, .wo, false⟩, ⟨2, 2, .wo, false⟩, ⟨1, 1, .wo, false⟩, ⟨0, 0, .wo, false⟩] }
def CHG_CMD_CLRCNT : Fld := ⟨CHG_CMD, 4, 4⟩
def CHG_CMD_ASSTOP : Fld := ⟨CHG_CMD, 3, 3⟩
def CHG_CMD_ASSTART : Fld := ⟨CHG_CMD, 2, 2⟩
def CHG_CMD_HCLRSTOP : Fld := ⟨CHG_CMD, 1, 1⟩
def CHG_CMD_CLRSTOP : Fld := ⟨CHG_CMD, 0, 0⟩
/-- `CHG_ICHG`, at 0x3E08 (11_charge_path.md). -/
def CHG_ICHG : Reg := { base := 0x3E08, stride := 0x0, count := 1, copies := false, dom := fun _ => 8, reset := fun _ => 0x00000000#32, fields := [⟨31, 0, .rw, true⟩] }
def CHG_ICHG_ICHG : Fld := ⟨CHG_ICHG, 31, 0⟩
/-- `CHG_VCELL`, at 0x3E09 (11_charge_path.md). -/
def CHG_VCELL : Reg := { base := 0x3E09, stride := 0x0, count := 1, copies := false, dom := fun _ => 8, reset := fun _ => 0x8AAC0000#32, fields := [⟨31, 16, .rw, true⟩, ⟨15, 0, .rw, true⟩] }
def CHG_VCELL_VCV : Fld := ⟨CHG_VCELL, 31, 16⟩
def CHG_VCELL_VFLOAT : Fld := ⟨CHG_VCELL, 15, 0⟩
/-- `CHG_VTHR`, at 0x3E0A (11_charge_path.md). -/
def CHG_VTHR : Reg := { base := 0x3E0A, stride := 0x0, count := 1, copies := false, dom := fun _ => 8, reset := fun _ => 0x82DC6D60#32, fields := [⟨31, 16, .rw, false⟩, ⟨15, 0, .rw, false⟩] }
def CHG_VTHR_VRECH : Fld := ⟨CHG_VTHR, 31, 16⟩
def CHG_VTHR_VPRE : Fld := ⟨CHG_VTHR, 15, 0⟩
/-- `CHG_ITHR`, at 0x3E0B (11_charge_path.md). -/
def CHG_ITHR : Reg := { base := 0x3E0B, stride := 0x0, count := 1, copies := false, dom := fun _ => 8, reset := fun _ => 0x00000000#32, fields := [⟨31, 16, .rw, false⟩, ⟨15, 0, .rw, false⟩] }
def CHG_ITHR_ITERM : Fld := ⟨CHG_ITHR, 31, 16⟩
def CHG_ITHR_IPRE : Fld := ⟨CHG_ITHR, 15, 0⟩
/-- `CHG_TIME`, at 0x3E0C (11_charge_path.md). -/
def CHG_TIME : Reg := { base := 0x3E0C, stride := 0x0, count := 1, copies := false, dom := fun _ => 8, reset := fun _ => 0x0258003C#32, fields := [⟨31, 16, .rw, false⟩, ⟨15, 0, .rw, false⟩] }
def CHG_TIME_TMR : Fld := ⟨CHG_TIME, 31, 16⟩
def CHG_TIME_TERMDLY : Fld := ⟨CHG_TIME, 15, 0⟩
/-- `CHG_TCOMP`, at 0x3E0D (11_charge_path.md). -/
def CHG_TCOMP : Reg := { base := 0x3E0D, stride := 0x0, count := 1, copies := false, dom := fun _ => 8, reset := fun _ => 0x00000000#32, fields := [⟨31, 16, .rw, true⟩, ⟨15, 0, .rw, false⟩] }
def CHG_TCOMP_RSH : Fld := ⟨CHG_TCOMP, 31, 16⟩
def CHG_TCOMP_VCOMP : Fld := ⟨CHG_TCOMP, 15, 0⟩
/-- `CHG_BTWIN`, at 0x3E10 (11_charge_path.md). -/
def CHG_BTWIN : Reg := { base := 0x3E10, stride := 0x0, count := 1, copies := false, dom := fun _ => 8, reset := fun _ => 0x372D0A00#32, fields := [⟨31, 24, .rw, false⟩, ⟨23, 16, .rw, false⟩, ⟨15, 8, .rw, false⟩, ⟨7, 0, .rw, false⟩] }
def CHG_BTWIN_T4 : Fld := ⟨CHG_BTWIN, 31, 24⟩
def CHG_BTWIN_T3 : Fld := ⟨CHG_BTWIN, 23, 16⟩
def CHG_BTWIN_T2 : Fld := ⟨CHG_BTWIN, 15, 8⟩
def CHG_BTWIN_T1 : Fld := ⟨CHG_BTWIN, 7, 0⟩
/-- `CHG_HTWIN`, at 0x3E1C (11_charge_path.md). -/
def CHG_HTWIN : Reg := { base := 0x3E1C, stride := 0x0, count := 1, copies := false, dom := fun _ => 8, reset := fun _ => 0x32280A00#32, fields := [⟨31, 24, .rw, false⟩, ⟨23, 16, .rw, false⟩, ⟨15, 8, .rw, false⟩, ⟨7, 0, .rw, false⟩] }
def CHG_HTWIN_T4 : Fld := ⟨CHG_HTWIN, 31, 24⟩
def CHG_HTWIN_T3 : Fld := ⟨CHG_HTWIN, 23, 16⟩
def CHG_HTWIN_T2 : Fld := ⟨CHG_HTWIN, 15, 8⟩
def CHG_HTWIN_T1 : Fld := ⟨CHG_HTWIN, 7, 0⟩
/-- `CHG_BIFRAC`, at 0x3E11 (11_charge_path.md). -/
def CHG_BIFRAC : Reg := { base := 0x3E11, stride := 0x0, count := 1, copies := false, dom := fun _ => 8, reset := fun _ => 0x00044080#32, fields := [⟨24, 0, .rw, false⟩] }
def CHG_BIFRAC_IFRAC : Fld := ⟨CHG_BIFRAC, 24, 0⟩
/-- `CHG_HIFRAC`, at 0x3E1D (11_charge_path.md). -/
def CHG_HIFRAC : Reg := { base := 0x3E1D, stride := 0x0, count := 1, copies := false, dom := fun _ => 8, reset := fun _ => 0x00044080#32, fields := [⟨24, 0, .rw, false⟩] }
def CHG_HIFRAC_IFRAC : Fld := ⟨CHG_HIFRAC, 24, 0⟩
/-- `CHG_BVDROP`, at 0x3E12 (11_charge_path.md). -/
def CHG_BVDROP : Reg := { base := 0x3E12, stride := 0x0, count := 1, copies := false, dom := fun _ => 8, reset := fun _ => 0x00C80000#32, fields := [⟨29, 0, .rw, false⟩] }
def CHG_BVDROP_VDROP : Fld := ⟨CHG_BVDROP, 29, 0⟩
/-- `CHG_BNTC`, at 0x3E13 (11_charge_path.md). -/
def CHG_BNTC : Reg := { base := 0x3E13, stride := 0x0, count := 1, copies := false, dom := fun _ => 8, reset := fun _ => 0x0D6B03E8#32, fields := [⟨31, 16, .rw, false⟩, ⟨15, 0, .rw, false⟩] }
def CHG_BNTC_BETA : Fld := ⟨CHG_BNTC, 31, 16⟩
def CHG_BNTC_RNOM : Fld := ⟨CHG_BNTC, 15, 0⟩
/-- `CHG_HNTC`, at 0x3E1E (11_charge_path.md). -/
def CHG_HNTC : Reg := { base := 0x3E1E, stride := 0x0, count := 1, copies := false, dom := fun _ => 8, reset := fun _ => 0x0D6B03E8#32, fields := [⟨31, 16, .rw, false⟩, ⟨15, 0, .rw, false⟩] }
def CHG_HNTC_BETA : Fld := ⟨CHG_HNTC, 31, 16⟩
def CHG_HNTC_RNOM : Fld := ⟨CHG_HNTC, 15, 0⟩
/-- `CHG_HICHG`, at 0x3E18 (11_charge_path.md). -/
def CHG_HICHG : Reg := { base := 0x3E18, stride := 0x0, count := 1, copies := false, dom := fun _ => 8, reset := fun _ => 0x00000000#32, fields := [⟨31, 16, .rw, false⟩, ⟨15, 0, .rw, true⟩] }
def CHG_HICHG_HPRE : Fld := ⟨CHG_HICHG, 31, 16⟩
def CHG_HICHG_IFAST : Fld := ⟨CHG_HICHG, 15, 0⟩
/-- `CHG_HCELL`, at 0x3E19 (11_charge_path.md). -/
def CHG_HCELL : Reg := { base := 0x3E19, stride := 0x0, count := 1, copies := false, dom := fun _ => 8, reset := fun _ => 0x3E8032C8#32, fields := [⟨31, 16, .rw, true⟩, ⟨15, 0, .rw, false⟩] }
def CHG_HCELL_VHMAX : Fld := ⟨CHG_HCELL, 31, 16⟩
def CHG_HCELL_HVRECH : Fld := ⟨CHG_HCELL, 15, 0⟩
/-- `CHG_HTERM`, at 0x3E1A (11_charge_path.md). -/
def CHG_HTERM : Reg := { base := 0x3E1A, stride := 0x0, count := 1, copies := false, dom := fun _ => 8, reset := fun _ => 0x05050064#32, fields := [⟨31, 24, .rw, false⟩, ⟨23, 16, .rw, false⟩, ⟨15, 0, .rw, false⟩] }
def CHG_HTERM_DV : Fld := ⟨CHG_HTERM, 31, 24⟩
def CHG_HTERM_HOLDOFF : Fld := ⟨CHG_HTERM, 23, 16⟩
def CHG_HTERM_DTDT : Fld := ⟨CHG_HTERM, 15, 0⟩
/-- `CHG_HTIME`, at 0x3E1B (11_charge_path.md). -/
def CHG_HTIME : Reg := { base := 0x3E1B, stride := 0x0, count := 1, copies := false, dom := fun _ => 8, reset := fun _ => 0x000000B4#32, fields := [⟨15, 0, .rw, false⟩] }
def CHG_HTIME_TMR : Fld := ⟨CHG_HTIME, 15, 0⟩
/-- `CHG_ASCFG`, at 0x3E20 (11_charge_path.md). -/
def CHG_ASCFG : Reg := { base := 0x3E20, stride := 0x0, count := 1, copies := false, dom := fun _ => 8, reset := fun _ => 0x00000000#32, fields := [⟨31, 16, .rw, false⟩, ⟨13, 8, .rw, false⟩, ⟨5, 0, .rw, false⟩] }
def CHG_ASCFG_IGAIN : Fld := ⟨CHG_ASCFG, 31, 16⟩
def CHG_ASCFG_NCELL : Fld := ⟨CHG_ASCFG, 13, 8⟩
def CHG_ASCFG_ISEL : Fld := ⟨CHG_ASCFG, 5, 0⟩
/-- `CHG_ASV`, at 0x3E21 (11_charge_path.md). -/
def CHG_ASV : Reg := { base := 0x3E21, stride := 0x0, count := 1, copies := false, dom := fun _ => 8, reset := fun _ => 0x00000000#32, fields := [⟨31, 0, .rw, true⟩] }
def CHG_ASV_ASV : Fld := ⟨CHG_ASV, 31, 0⟩
/-- `CHG_ASI`, at 0x3E22 (11_charge_path.md). -/
def CHG_ASI : Reg := { base := 0x3E22, stride := 0x0, count := 1, copies := false, dom := fun _ => 8, reset := fun _ => 0x00000000#32, fields := [⟨31, 0, .rw, true⟩] }
def CHG_ASI_ASI : Fld := ⟨CHG_ASI, 31, 0⟩
/-- `CHG_ASTHR`, at 0x3E23 (11_charge_path.md). -/
def CHG_ASTHR : Reg := { base := 0x3E23, stride := 0x0, count := 1, copies := false, dom := fun _ => 8, reset := fun _ => 0x00000000#32, fields := [⟨31, 16, .rw, false⟩, ⟨15, 0, .rw, false⟩] }
def CHG_ASTHR_ITERM : Fld := ⟨CHG_ASTHR, 31, 16⟩
def CHG_ASTHR_TMR : Fld := ⟨CHG_ASTHR, 15, 0⟩
/-- `CHG_ASWIN`, at 0x3E24 (11_charge_path.md). -/
def CHG_ASWIN : Reg := { base := 0x3E24, stride := 0x0, count := 1, copies := false, dom := fun _ => 8, reset := fun _ => 0x00000000#32, fields := [⟨31, 16, .rw, true⟩, ⟨15, 0, .rw, true⟩] }
def CHG_ASWIN_VMAX : Fld := ⟨CHG_ASWIN, 31, 16⟩
def CHG_ASWIN_VMIN : Fld := ⟨CHG_ASWIN, 15, 0⟩
/-- `CHG_ASSTAT`, at 0x3E25 (11_charge_path.md). -/
def CHG_ASSTAT : Reg := { base := 0x3E25, stride := 0x0, count := 1, copies := false, dom := fun _ => 8, reset := fun _ => 0x00000000#32, fields := [⟨7, 4, .ro, false⟩, ⟨3, 0, .ro, false⟩] }
def CHG_ASSTAT_ASREASON : Fld := ⟨CHG_ASSTAT, 7, 4⟩
def CHG_ASSTAT_ASTATE : Fld := ⟨CHG_ASSTAT, 3, 0⟩
/-- `CHG_VBAT`, at 0x3E28 (11_charge_path.md). -/
def CHG_VBAT : Reg := { base := 0x3E28, stride := 0x0, count := 1, copies := false, dom := fun _ => 8, reset := fun _ => 0x00000000#32, fields := [⟨31, 0, .ro, false⟩] }
def CHG_VBAT_V : Fld := ⟨CHG_VBAT, 31, 0⟩
/-- `CHG_VHB`, at 0x3E30 (11_charge_path.md). -/
def CHG_VHB : Reg := { base := 0x3E30, stride := 0x0, count := 1, copies := false, dom := fun _ => 8, reset := fun _ => 0x00000000#32, fields := [⟨31, 0, .ro, false⟩] }
def CHG_VHB_V : Fld := ⟨CHG_VHB, 31, 0⟩
/-- `CHG_VAS`, at 0x3E32 (11_charge_path.md). -/
def CHG_VAS : Reg := { base := 0x3E32, stride := 0x0, count := 1, copies := false, dom := fun _ => 8, reset := fun _ => 0x00000000#32, fields := [⟨31, 0, .ro, false⟩] }
def CHG_VAS_V : Fld := ⟨CHG_VAS, 31, 0⟩
/-- `CHG_IBAT`, at 0x3E29 (11_charge_path.md). -/
def CHG_IBAT : Reg := { base := 0x3E29, stride := 0x0, count := 1, copies := false, dom := fun _ => 8, reset := fun _ => 0x00000000#32, fields := [⟨31, 0, .ro, false⟩] }
def CHG_IBAT_I : Fld := ⟨CHG_IBAT, 31, 0⟩
/-- `CHG_IHB`, at 0x3E31 (11_charge_path.md). -/
def CHG_IHB : Reg := { base := 0x3E31, stride := 0x0, count := 1, copies := false, dom := fun _ => 8, reset := fun _ => 0x00000000#32, fields := [⟨31, 0, .ro, false⟩] }
def CHG_IHB_I : Fld := ⟨CHG_IHB, 31, 0⟩
/-- `CHG_IAS`, at 0x3E33 (11_charge_path.md). -/
def CHG_IAS : Reg := { base := 0x3E33, stride := 0x0, count := 1, copies := false, dom := fun _ => 8, reset := fun _ => 0x00000000#32, fields := [⟨31, 0, .ro, false⟩] }
def CHG_IAS_I : Fld := ⟨CHG_IAS, 31, 0⟩
/-- `CHG_ISYS`, at 0x3E2A (11_charge_path.md). -/
def CHG_ISYS : Reg := { base := 0x3E2A, stride := 0x0, count := 1, copies := false, dom := fun _ => 8, reset := fun _ => 0x00000000#32, fields := [⟨31, 0, .ro, false⟩] }
def CHG_ISYS_I : Fld := ⟨CHG_ISYS, 31, 0⟩
/-- `CHG_ILIM`, at 0x3E2B (11_charge_path.md). -/
def CHG_ILIM : Reg := { base := 0x3E2B, stride := 0x0, count := 1, copies := false, dom := fun _ => 8, reset := fun _ => 0x00000000#32, fields := [⟨31, 0, .ro, false⟩] }
def CHG_ILIM_I : Fld := ⟨CHG_ILIM, 31, 0⟩
/-- `CHG_TEMPS`, at 0x3E2C (11_charge_path.md). -/
def CHG_TEMPS : Reg := { base := 0x3E2C, stride := 0x0, count := 1, copies := false, dom := fun _ => 8, reset := fun _ => 0x00000000#32, fields := [⟨31, 16, .ro, false⟩, ⟨15, 0, .ro, false⟩] }
def CHG_TEMPS_THB : Fld := ⟨CHG_TEMPS, 31, 16⟩
def CHG_TEMPS_TBAT : Fld := ⟨CHG_TEMPS, 15, 0⟩
/-- `CHG_BTMR`, at 0x3E2D (11_charge_path.md). -/
def CHG_BTMR : Reg := { base := 0x3E2D, stride := 0x0, count := 1, copies := false, dom := fun _ => 8, reset := fun _ => 0x00000000#32, fields := [⟨31, 0, .ro, false⟩] }
def CHG_BTMR_COUNT : Fld := ⟨CHG_BTMR, 31, 0⟩
/-- `CHG_HTMR`, at 0x3E2E (11_charge_path.md). -/
def CHG_HTMR : Reg := { base := 0x3E2E, stride := 0x0, count := 1, copies := false, dom := fun _ => 8, reset := fun _ => 0x00000000#32, fields := [⟨31, 0, .ro, false⟩] }
def CHG_HTMR_COUNT : Fld := ⟨CHG_HTMR, 31, 0⟩
/-- `CHG_ATMR`, at 0x3E2F (11_charge_path.md). -/
def CHG_ATMR : Reg := { base := 0x3E2F, stride := 0x0, count := 1, copies := false, dom := fun _ => 8, reset := fun _ => 0x00000000#32, fields := [⟨31, 0, .ro, false⟩] }
def CHG_ATMR_COUNT : Fld := ⟨CHG_ATMR, 31, 0⟩
/-- `CHG_EVT`, at 0x3E03 (11_charge_path.md). -/
def CHG_EVT : Reg := { base := 0x3E03, stride := 0x0, count := 1, copies := false, dom := fun _ => 8, reset := fun _ => 0x00000000#32, fields := [⟨14, 14, .w1c, false⟩, ⟨13, 13, .w1c, false⟩, ⟨12, 12, .w1c, false⟩, ⟨11, 11, .w1c, false⟩, ⟨10, 10, .w1c, false⟩, ⟨9, 9, .w1c, false⟩, ⟨8, 8, .w1c, false⟩, ⟨7, 7, .w1c, false⟩, ⟨6, 6, .w1c, false⟩, ⟨5, 5, .w1c, false⟩, ⟨4, 4, .w1c, false⟩, ⟨3, 3, .w1c, false⟩, ⟨2, 2, .w1c, false⟩, ⟨1, 1, .w1c, false⟩, ⟨0, 0, .w1c, false⟩] }
def CHG_EVT_ABORTED : Fld := ⟨CHG_EVT, 14, 14⟩
def CHG_EVT_NTCFLT : Fld := ⟨CHG_EVT, 13, 13⟩
def CHG_EVT_ASFALL : Fld := ⟨CHG_EVT, 12, 12⟩
def CHG_EVT_ASEND : Fld := ⟨CHG_EVT, 11, 11⟩
def CHG_EVT_ASDET : Fld := ⟨CHG_EVT, 10, 10⟩
def CHG_EVT_HWINCHG : Fld := ⟨CHG_EVT, 9, 9⟩
def CHG_EVT_HPRESENT : Fld := ⟨CHG_EVT, 8, 8⟩
def CHG_EVT_HABSENT : Fld := ⟨CHG_EVT, 7, 7⟩
def CHG_EVT_HSTOP : Fld := ⟨CHG_EVT, 6, 6⟩
def CHG_EVT_HDONE : Fld := ⟨CHG_EVT, 5, 5⟩
def CHG_EVT_BWINCHG : Fld := ⟨CHG_EVT, 4, 4⟩
def CHG_EVT_BPRESENT : Fld := ⟨CHG_EVT, 3, 3⟩
def CHG_EVT_BABSENT : Fld := ⟨CHG_EVT, 2, 2⟩
def CHG_EVT_BSTOP : Fld := ⟨CHG_EVT, 1, 1⟩
def CHG_EVT_BDONE : Fld := ⟨CHG_EVT, 0, 0⟩
/-- `CHG_EVTEN`, at 0x3E04 (11_charge_path.md). -/
def CHG_EVTEN : Reg := { base := 0x3E04, stride := 0x0, count := 1, copies := false, dom := fun _ => 8, reset := fun _ => 0x00000000#32, fields := [⟨14, 14, .rw, false⟩, ⟨13, 13, .rw, false⟩, ⟨12, 12, .rw, false⟩, ⟨11, 11, .rw, false⟩, ⟨10, 10, .rw, false⟩, ⟨9, 9, .rw, false⟩, ⟨8, 8, .rw, false⟩, ⟨7, 7, .rw, false⟩, ⟨6, 6, .rw, false⟩, ⟨5, 5, .rw, false⟩, ⟨4, 4, .rw, false⟩, ⟨3, 3, .rw, false⟩, ⟨2, 2, .rw, false⟩, ⟨1, 1, .rw, false⟩, ⟨0, 0, .rw, false⟩] }
def CHG_EVTEN_ABORTED : Fld := ⟨CHG_EVTEN, 14, 14⟩
def CHG_EVTEN_NTCFLT : Fld := ⟨CHG_EVTEN, 13, 13⟩
def CHG_EVTEN_ASFALL : Fld := ⟨CHG_EVTEN, 12, 12⟩
def CHG_EVTEN_ASEND : Fld := ⟨CHG_EVTEN, 11, 11⟩
def CHG_EVTEN_ASDET : Fld := ⟨CHG_EVTEN, 10, 10⟩
def CHG_EVTEN_HWINCHG : Fld := ⟨CHG_EVTEN, 9, 9⟩
def CHG_EVTEN_HPRESENT : Fld := ⟨CHG_EVTEN, 8, 8⟩
def CHG_EVTEN_HABSENT : Fld := ⟨CHG_EVTEN, 7, 7⟩
def CHG_EVTEN_HSTOP : Fld := ⟨CHG_EVTEN, 6, 6⟩
def CHG_EVTEN_HDONE : Fld := ⟨CHG_EVTEN, 5, 5⟩
def CHG_EVTEN_BWINCHG : Fld := ⟨CHG_EVTEN, 4, 4⟩
def CHG_EVTEN_BPRESENT : Fld := ⟨CHG_EVTEN, 3, 3⟩
def CHG_EVTEN_BABSENT : Fld := ⟨CHG_EVTEN, 2, 2⟩
def CHG_EVTEN_BSTOP : Fld := ⟨CHG_EVTEN, 1, 1⟩
def CHG_EVTEN_BDONE : Fld := ⟨CHG_EVTEN, 0, 0⟩
/-- `SUP_UVOV`, at 0x0E00 + 0x4·n (12_supervision_telemetry.md). -/
def SUP_UVOV : Reg := { base := 0x0E00, stride := 0x4, count := 32, copies := false, dom := fun _ => 6, reset := fun _ => 0x01F401F4#32, fields := [⟨31, 16, .rw, true⟩, ⟨15, 0, .rw, true⟩] }
def SUP_UVOV_OVOFF : Fld := ⟨SUP_UVOV, 31, 16⟩
def SUP_UVOV_UVOFF : Fld := ⟨SUP_UVOV, 15, 0⟩
/-- `SUP_PG`, at 0x0E01 + 0x4·n (12_supervision_telemetry.md). -/
def SUP_PG : Reg := { base := 0x0E01, stride := 0x4, count := 32, copies := false, dom := fun _ => 6, reset := fun _ => 0x012C012C#32, fields := [⟨31, 16, .rw, true⟩, ⟨15, 0, .rw, true⟩] }
def SUP_PG_PGHI : Fld := ⟨SUP_PG, 31, 16⟩
def SUP_PG_PGLO : Fld := ⟨SUP_PG, 15, 0⟩
/-- `SUP_EW`, at 0x0E02 + 0x4·n (12_supervision_telemetry.md). -/
def SUP_EW : Reg := { base := 0x0E02, stride := 0x4, count := 32, copies := false, dom := fun _ => 6, reset := fun _ => 0x00C800C8#32, fields := [⟨31, 16, .rw, false⟩, ⟨15, 0, .rw, false⟩] }
def SUP_EW_EWHI : Fld := ⟨SUP_EW, 31, 16⟩
def SUP_EW_EWLO : Fld := ⟨SUP_EW, 15, 0⟩
/-- `SUP_CFG`, at 0x0E03 + 0x4·n (12_supervision_telemetry.md). -/
def SUP_CFG : Reg := { base := 0x0E03, stride := 0x4, count := 32, copies := false, dom := fun _ => 6, reset := fun _ => 0x04320907#32, fields := [⟨31, 24, .rw, false⟩, ⟨23, 16, .rw, false⟩, ⟨13, 12, .rw, true⟩, ⟨11, 10, .rw, true⟩, ⟨9, 8, .rw, true⟩, ⟨3, 3, .rw, true⟩, ⟨2, 2, .rw, true⟩, ⟨1, 1, .rw, true⟩, ⟨0, 0, .rw, true⟩] }
def SUP_CFG_DGL : Fld := ⟨SUP_CFG, 31, 24⟩
def SUP_CFG_HYST : Fld := ⟨SUP_CFG, 23, 16⟩
def SUP_CFG_EWACT : Fld := ⟨SUP_CFG, 13, 12⟩
def SUP_CFG_OVACT : Fld := ⟨SUP_CFG, 11, 10⟩
def SUP_CFG_UVACT : Fld := ⟨SUP_CFG, 9, 8⟩
def SUP_CFG_EWEN : Fld := ⟨SUP_CFG, 3, 3⟩
def SUP_CFG_PGEN : Fld := ⟨SUP_CFG, 2, 2⟩
def SUP_CFG_OVEN : Fld := ⟨SUP_CFG, 1, 1⟩
def SUP_CFG_UVEN : Fld := ⟨SUP_CFG, 0, 0⟩
/-- `SUP_STAT`, at 0x0E80 + 0x1·n (12_supervision_telemetry.md). -/
def SUP_STAT : Reg := { base := 0x0E80, stride := 0x1, count := 4, copies := false, dom := fun _ => 6, reset := fun _ => 0x00000000#32, fields := [⟨31, 0, .ro, false⟩] }
def SUP_STAT_RAILS : Fld := ⟨SUP_STAT, 31, 0⟩
/-- `SUP_EVT`, at 0x0E84 + 0x1·n (12_supervision_telemetry.md). -/
def SUP_EVT : Reg := { base := 0x0E84, stride := 0x1, count := 4, copies := false, dom := fun _ => 6, reset := fun _ => 0x00000000#32, fields := [⟨31, 0, .w1c, false⟩] }
def SUP_EVT_RAILS : Fld := ⟨SUP_EVT, 31, 0⟩
/-- `SUP_EVTEN`, at 0x0E88 + 0x1·n (12_supervision_telemetry.md). -/
def SUP_EVTEN : Reg := { base := 0x0E88, stride := 0x1, count := 4, copies := false, dom := fun _ => 6, reset := fun _ => 0x00000000#32, fields := [⟨31, 0, .rw, false⟩] }
def SUP_EVTEN_RAILS : Fld := ⟨SUP_EVTEN, 31, 0⟩
/-- `GS_CFG`, at 0x0E90 + 0x3·n (12_supervision_telemetry.md). -/
def GS_CFG : Reg := { base := 0x0E90, stride := 0x3, count := 16, copies := false, dom := fun _ => 6, reset := fun _ => 0x01000000#32, fields := [⟨31, 24, .rw, false⟩, ⟨23, 16, .rw, false⟩, ⟨14, 14, .rw, true⟩, ⟨13, 12, .rw, true⟩, ⟨11, 6, .rw, true⟩, ⟨0, 0, .rw, true⟩] }
def GS_CFG_DGL : Fld := ⟨GS_CFG, 31, 24⟩
def GS_CFG_HYST : Fld := ⟨GS_CFG, 23, 16⟩
def GS_CFG_FAULT : Fld := ⟨GS_CFG, 14, 14⟩
def GS_CFG_MODE : Fld := ⟨GS_CFG, 13, 12⟩
def GS_CFG_CH : Fld := ⟨GS_CFG, 11, 6⟩
def GS_CFG_EN : Fld := ⟨GS_CFG, 0, 0⟩
/-- `GS_LO`, at 0x0E91 + 0x3·n (12_supervision_telemetry.md). -/
def GS_LO : Reg := { base := 0x0E91, stride := 0x3, count := 16, copies := false, dom := fun _ => 6, reset := fun _ => 0x00000000#32, fields := [⟨31, 0, .rw, true⟩] }
def GS_LO_V : Fld := ⟨GS_LO, 31, 0⟩
/-- `GS_HI`, at 0x0E92 + 0x3·n (12_supervision_telemetry.md). -/
def GS_HI : Reg := { base := 0x0E92, stride := 0x3, count := 16, copies := false, dom := fun _ => 6, reset := fun _ => 0x00000000#32, fields := [⟨31, 0, .rw, true⟩] }
def GS_HI_V : Fld := ⟨GS_HI, 31, 0⟩
/-- `SUP_GSSTAT`, at 0x0EC0 (12_supervision_telemetry.md). -/
def SUP_GSSTAT : Reg := { base := 0x0EC0, stride := 0x0, count := 1, copies := false, dom := fun _ => 6, reset := fun _ => 0x00000000#32, fields := [⟨15, 0, .ro, false⟩] }
def SUP_GSSTAT_GS : Fld := ⟨SUP_GSSTAT, 15, 0⟩
/-- `SUP_GSEVT`, at 0x0EC1 (12_supervision_telemetry.md). -/
def SUP_GSEVT : Reg := { base := 0x0EC1, stride := 0x0, count := 1, copies := false, dom := fun _ => 6, reset := fun _ => 0x00000000#32, fields := [⟨15, 0, .w1c, false⟩] }
def SUP_GSEVT_GS : Fld := ⟨SUP_GSEVT, 15, 0⟩
/-- `SUP_GSEVTEN`, at 0x0EC2 (12_supervision_telemetry.md). -/
def SUP_GSEVTEN : Reg := { base := 0x0EC2, stride := 0x0, count := 1, copies := false, dom := fun _ => 6, reset := fun _ => 0x00000000#32, fields := [⟨15, 0, .rw, false⟩] }
def SUP_GSEVTEN_GS : Fld := ⟨SUP_GSEVTEN, 15, 0⟩
/-- `RSTO_RMASK`, at 0x0ED0 + 0x4·n (12_supervision_telemetry.md). -/
def RSTO_RMASK : Reg := { base := 0x0ED0, stride := 0x4, count := 8, copies := false, dom := fun _ => 0, reset := fun _ => 0x00000000#32, fields := [⟨31, 0, .rw, true⟩] }
def RSTO_RMASK_RAILS : Fld := ⟨RSTO_RMASK, 31, 0⟩
/-- `RSTO_SMASK`, at 0x0ED1 + 0x4·n (12_supervision_telemetry.md). -/
def RSTO_SMASK : Reg := { base := 0x0ED1, stride := 0x4, count := 8, copies := false, dom := fun _ => 0, reset := fun _ => 0x00000000#32, fields := [⟨19, 16, .rw, true⟩, ⟨15, 0, .rw, true⟩] }
def RSTO_SMASK_AUX : Fld := ⟨RSTO_SMASK, 19, 16⟩
def RSTO_SMASK_GS : Fld := ⟨RSTO_SMASK, 15, 0⟩
/-- `RSTO_CFG`, at 0x0ED2 + 0x4·n (12_supervision_telemetry.md). -/
def RSTO_CFG : Reg := { base := 0x0ED2, stride := 0x4, count := 8, copies := false, dom := fun _ => 0, reset := fun _ => 0x000100C8#32, fields := [⟨17, 17, .rw, false⟩, ⟨16, 16, .rw, true⟩, ⟨13, 0, .rw, false⟩] }
def RSTO_CFG_TERM : Fld := ⟨RSTO_CFG, 17, 17⟩
def RSTO_CFG_PROGEN : Fld := ⟨RSTO_CFG, 16, 16⟩
def RSTO_CFG_STRETCH : Fld := ⟨RSTO_CFG, 13, 0⟩
/-- `RSTO_STAT`, at 0x0ED3 + 0x4·n (12_supervision_telemetry.md). -/
def RSTO_STAT : Reg := { base := 0x0ED3, stride := 0x4, count := 8, copies := false, dom := fun _ => 0, reset := fun _ => 0x00000042#32, fields := [⟨31, 31, .ro, false⟩, ⟨30, 30, .ro, false⟩, ⟨29, 16, .ro, false⟩, ⟨7, 0, .ro, false⟩] }
def RSTO_STAT_LEVEL : Fld := ⟨RSTO_STAT, 31, 31⟩
def RSTO_STAT_STRETCHING : Fld := ⟨RSTO_STAT, 30, 30⟩
def RSTO_STAT_REMAIN : Fld := ⟨RSTO_STAT, 29, 16⟩
def RSTO_STAT_CAUSE : Fld := ⟨RSTO_STAT, 7, 0⟩
/-- `SUP_CNTSEL`, at 0x0EF0 (12_supervision_telemetry.md). -/
def SUP_CNTSEL : Reg := { base := 0x0EF0, stride := 0x0, count := 1, copies := false, dom := fun _ => 11, reset := fun _ => 0x00000000#32, fields := [⟨31, 31, .ro, false⟩, ⟨30, 30, .wo, false⟩, ⟨7, 0, .rw, false⟩] }
def SUP_CNTSEL_SAT : Fld := ⟨SUP_CNTSEL, 31, 31⟩
def SUP_CNTSEL_CLR : Fld := ⟨SUP_CNTSEL, 30, 30⟩
def SUP_CNTSEL_IDX : Fld := ⟨SUP_CNTSEL, 7, 0⟩
/-- `SUP_CNTDATA`, at 0x0EF1 (12_supervision_telemetry.md). -/
def SUP_CNTDATA : Reg := { base := 0x0EF1, stride := 0x0, count := 1, copies := false, dom := fun _ => 11, reset := fun _ => 0x00000000#32, fields := [⟨31, 0, .ro, false⟩] }
def SUP_CNTDATA_COUNT : Fld := ⟨SUP_CNTDATA, 31, 0⟩
/-- `SUP_CNTEVT`, at 0x0EF2 (12_supervision_telemetry.md). -/
def SUP_CNTEVT : Reg := { base := 0x0EF2, stride := 0x0, count := 1, copies := false, dom := fun _ => 11, reset := fun _ => 0x00000000#32, fields := [⟨31, 0, .w1c, false⟩] }
def SUP_CNTEVT_RAILS : Fld := ⟨SUP_CNTEVT, 31, 0⟩
/-- `SUP_CNTEVTEN`, at 0x0EF3 (12_supervision_telemetry.md). -/
def SUP_CNTEVTEN : Reg := { base := 0x0EF3, stride := 0x0, count := 1, copies := false, dom := fun _ => 11, reset := fun _ => 0x00000000#32, fields := [⟨31, 0, .rw, false⟩] }
def SUP_CNTEVTEN_RAILS : Fld := ⟨SUP_CNTEVTEN, 31, 0⟩
/-- `SUP_TELCFG`, at 0x0EF4 (12_supervision_telemetry.md). -/
def SUP_TELCFG : Reg := { base := 0x0EF4, stride := 0x0, count := 1, copies := false, dom := fun _ => 11, reset := fun _ => 0x0A0A0A0A#32, fields := [⟨28, 24, .rw, false⟩, ⟨20, 16, .rw, false⟩, ⟨12, 8, .rw, false⟩, ⟨4, 0, .rw, false⟩] }
def SUP_TELCFG_NOTH : Fld := ⟨SUP_TELCFG, 28, 24⟩
def SUP_TELCFG_NHADC : Fld := ⟨SUP_TELCFG, 20, 16⟩
def SUP_TELCFG_NPH : Fld := ⟨SUP_TELCFG, 12, 8⟩
def SUP_TELCFG_NRAIL : Fld := ⟨SUP_TELCFG, 4, 0⟩
/-- `SUP_TELSEL`, at 0x0EF5 + 0x10000·n (12_supervision_telemetry.md). -/
def SUP_TELSEL : Reg := { base := 0x0EF5, stride := 0x10000, count := 64, copies := true, dom := fun _ => 11, reset := fun _ => 0x00000000#32, fields := [⟨31, 31, .ro, false⟩, ⟨30, 30, .ro, false⟩, ⟨29, 29, .ro, false⟩, ⟨18, 18, .rw, false⟩, ⟨17, 17, .rw, false⟩, ⟨16, 16, .rw, false⟩, ⟨13, 8, .rw, false⟩, ⟨5, 0, .rw, false⟩] }
def SUP_TELSEL_SUBJ : Fld := ⟨SUP_TELSEL, 31, 31⟩
def SUP_TELSEL_PDOFF : Fld := ⟨SUP_TELSEL, 30, 30⟩
def SUP_TELSEL_HELD : Fld := ⟨SUP_TELSEL, 29, 29⟩
def SUP_TELSEL_CLRPK : Fld := ⟨SUP_TELSEL, 18, 18⟩
def SUP_TELSEL_PEAK : Fld := ⟨SUP_TELSEL, 17, 17⟩
def SUP_TELSEL_RAW : Fld := ⟨SUP_TELSEL, 16, 16⟩
def SUP_TELSEL_IDX : Fld := ⟨SUP_TELSEL, 13, 8⟩
def SUP_TELSEL_KIND : Fld := ⟨SUP_TELSEL, 5, 0⟩
/-- `SUP_TELDATA`, at 0x0EF6 (12_supervision_telemetry.md). -/
def SUP_TELDATA : Reg := { base := 0x0EF6, stride := 0x0, count := 1, copies := false, dom := fun _ => 11, reset := fun _ => 0x00000000#32, fields := [⟨31, 0, .ro, false⟩] }
def SUP_TELDATA_VALUE : Fld := ⟨SUP_TELDATA, 31, 0⟩
/-- `HADC_CTRL`, at 0x0D00 + 0x10·n (12_supervision_telemetry.md). -/
def HADC_CTRL : Reg := { base := 0x0D00, stride := 0x10, count := 2, copies := false, dom := fun _ => 6, reset := fun _ => 0x00000001#32, fields := [⟨25, 16, .rw, false⟩, ⟨12, 8, .rw, false⟩, ⟨6, 4, .rw, false⟩, ⟨0, 0, .rw, false⟩] }
def HADC_CTRL_DELAY : Fld := ⟨HADC_CTRL, 25, 16⟩
def HADC_CTRL_TSEL : Fld := ⟨HADC_CTRL, 12, 8⟩
def HADC_CTRL_TRIG : Fld := ⟨HADC_CTRL, 6, 4⟩
def HADC_CTRL_EN : Fld := ⟨HADC_CTRL, 0, 0⟩
/-- `HADC_MASK`, at 0x0D01 + 0x10·n (12_supervision_telemetry.md). -/
def HADC_MASK : Reg := { base := 0x0D01, stride := 0x10, count := 2, copies := false, dom := fun _ => 6, reset := fun _ => 0xFF000000#32, fields := [⟨31, 0, .rw, false⟩] }
def HADC_MASK_CH : Fld := ⟨HADC_MASK, 31, 0⟩
/-- `HADC_PER`, at 0x0D02 + 0x10·n (12_supervision_telemetry.md). -/
def HADC_PER : Reg := { base := 0x0D02, stride := 0x10, count := 2, copies := false, dom := fun _ => 6, reset := fun _ => 0x000003E8#32, fields := [⟨15, 0, .rw, false⟩] }
def HADC_PER_PER : Fld := ⟨HADC_PER, 15, 0⟩
/-- `HADC_STAT`, at 0x0D03 + 0x10·n (12_supervision_telemetry.md). -/
def HADC_STAT : Reg := { base := 0x0D03, stride := 0x10, count := 2, copies := false, dom := fun _ => 6, reset := fun _ => 0x00000000#32, fields := [⟨1, 1, .w1c, false⟩, ⟨0, 0, .ro, false⟩] }
def HADC_STAT_OVERRUN : Fld := ⟨HADC_STAT, 1, 1⟩
def HADC_STAT_BUSY : Fld := ⟨HADC_STAT, 0, 0⟩
/-- `HADC_MISS`, at 0x0D04 + 0x10·n (12_supervision_telemetry.md). -/
def HADC_MISS : Reg := { base := 0x0D04, stride := 0x10, count := 2, copies := false, dom := fun _ => 6, reset := fun _ => 0x00000000#32, fields := [⟨31, 0, .ro, false⟩] }
def HADC_MISS_COUNT : Fld := ⟨HADC_MISS, 31, 0⟩
/-- `HADC_CMD`, at 0x0D05 + 0x10·n (12_supervision_telemetry.md). -/
def HADC_CMD : Reg := { base := 0x0D05, stride := 0x10, count := 2, copies := false, dom := fun _ => 6, reset := fun _ => 0x00000000#32, fields := [⟨1, 1, .wo, false⟩, ⟨0, 0, .wo, false⟩] }
def HADC_CMD_CLRCNT : Fld := ⟨HADC_CMD, 1, 1⟩
def HADC_CMD_GO : Fld := ⟨HADC_CMD, 0, 0⟩
/-- `HADC_EVT`, at 0x0D06 + 0x10·n (12_supervision_telemetry.md). -/
def HADC_EVT : Reg := { base := 0x0D06, stride := 0x10, count := 2, copies := false, dom := fun _ => 6, reset := fun _ => 0x00000000#32, fields := [⟨5, 5, .w1c, false⟩, ⟨4, 4, .w1c, false⟩, ⟨3, 3, .w1c, false⟩, ⟨2, 2, .w1c, false⟩, ⟨1, 1, .w1c, false⟩, ⟨0, 0, .w1c, false⟩] }
def HADC_EVT_REFFAIL : Fld := ⟨HADC_EVT, 5, 5⟩
def HADC_EVT_ABORTED : Fld := ⟨HADC_EVT, 4, 4⟩
def HADC_EVT_OVERRUN : Fld := ⟨HADC_EVT, 3, 3⟩
def HADC_EVT_OVR : Fld := ⟨HADC_EVT, 2, 2⟩
def HADC_EVT_TRIGMISS : Fld := ⟨HADC_EVT, 1, 1⟩
def HADC_EVT_SCANDONE : Fld := ⟨HADC_EVT, 0, 0⟩
/-- `HADC_EVTEN`, at 0x0D07 + 0x10·n (12_supervision_telemetry.md). -/
def HADC_EVTEN : Reg := { base := 0x0D07, stride := 0x10, count := 2, copies := false, dom := fun _ => 6, reset := fun _ => 0x00000000#32, fields := [⟨5, 5, .rw, false⟩, ⟨4, 4, .rw, false⟩, ⟨3, 3, .rw, false⟩, ⟨2, 2, .rw, false⟩, ⟨1, 1, .rw, false⟩, ⟨0, 0, .rw, false⟩] }
def HADC_EVTEN_REFFAIL : Fld := ⟨HADC_EVTEN, 5, 5⟩
def HADC_EVTEN_ABORTED : Fld := ⟨HADC_EVTEN, 4, 4⟩
def HADC_EVTEN_OVERRUN : Fld := ⟨HADC_EVTEN, 3, 3⟩
def HADC_EVTEN_OVR : Fld := ⟨HADC_EVTEN, 2, 2⟩
def HADC_EVTEN_TRIGMISS : Fld := ⟨HADC_EVTEN, 1, 1⟩
def HADC_EVTEN_SCANDONE : Fld := ⟨HADC_EVTEN, 0, 0⟩
/-- `HADC_ORMASK`, at 0x0D08 + 0x10·n (12_supervision_telemetry.md). -/
def HADC_ORMASK : Reg := { base := 0x0D08, stride := 0x10, count := 2, copies := false, dom := fun _ => 6, reset := fun _ => 0x00000000#32, fields := [⟨31, 0, .w1c, false⟩] }
def HADC_ORMASK_CH : Fld := ⟨HADC_ORMASK, 31, 0⟩
/-- `HADC_RES`, at 0x0D40 + 0x1·n (12_supervision_telemetry.md). -/
def HADC_RES : Reg := { base := 0x0D40, stride := 0x1, count := 64, copies := false, dom := fun _ => 6, reset := fun _ => 0x00000000#32, fields := [⟨31, 31, .ro, false⟩, ⟨30, 30, .rc, false⟩, ⟨25, 0, .ro, false⟩] }
def HADC_RES_OR : Fld := ⟨HADC_RES, 31, 31⟩
def HADC_RES_NEW : Fld := ⟨HADC_RES, 30, 30⟩
def HADC_RES_V : Fld := ⟨HADC_RES, 25, 0⟩
/-- `HKR_STAT`, at 0x3F00 (12_supervision_telemetry.md). -/
def HKR_STAT : Reg := { base := 0x3F00, stride := 0x0, count := 1, copies := false, dom := fun _ => 0, reset := fun _ => 0x00000000#32, fields := [⟨11, 8, .ro, false⟩, ⟨2, 2, .ro, false⟩, ⟨1, 1, .ro, false⟩, ⟨0, 0, .ro, false⟩] }
def HKR_STAT_AUXPG : Fld := ⟨HKR_STAT, 11, 8⟩
def HKR_STAT_IO33OK : Fld := ⟨HKR_STAT, 2, 2⟩
def HKR_STAT_COREOK : Fld := ⟨HKR_STAT, 1, 1⟩
def HKR_STAT_PREOK : Fld := ⟨HKR_STAT, 0, 0⟩
/-- `AUX_CTRL`, at 0x3F10 + 0x4·n (12_supervision_telemetry.md). -/
def AUX_CTRL : Reg := { base := 0x3F10, stride := 0x4, count := 4, copies := false, dom := fun _ => 0, reset := fun _ => 0x00000000#32, fields := [⟨0, 0, .rw, true⟩] }
def AUX_CTRL_EN : Fld := ⟨AUX_CTRL, 0, 0⟩
/-- `AUX_CFG`, at 0x3F11 + 0x4·n (12_supervision_telemetry.md). -/
def AUX_CFG : Reg := { base := 0x3F11, stride := 0x4, count := 4, copies := false, dom := fun _ => 0, reset := fun _ => 0x00000000#32, fields := [⟨26, 16, .rw, true⟩, ⟨15, 0, .rw, true⟩] }
def AUX_CFG_ILIM : Fld := ⟨AUX_CFG, 26, 16⟩
def AUX_CFG_VOUT : Fld := ⟨AUX_CFG, 15, 0⟩
/-- `AUX_STAT`, at 0x3F12 + 0x4·n (12_supervision_telemetry.md). -/
def AUX_STAT : Reg := { base := 0x3F12, stride := 0x4, count := 4, copies := false, dom := fun _ => 0, reset := fun _ => 0x00000000#32, fields := [⟨31, 16, .ro, false⟩, ⟨15, 12, .ro, false⟩, ⟨8, 8, .ro, false⟩, ⟨4, 4, .ro, false⟩, ⟨2, 0, .ro, false⟩] }
def AUX_STAT_ILIMEFF : Fld := ⟨AUX_STAT, 31, 16⟩
def AUX_STAT_LASTOFF : Fld := ⟨AUX_STAT, 15, 12⟩
def AUX_STAT_BUDGOV : Fld := ⟨AUX_STAT, 8, 8⟩
def AUX_STAT_PG : Fld := ⟨AUX_STAT, 4, 4⟩
def AUX_STAT_STATE : Fld := ⟨AUX_STAT, 2, 0⟩
/-- `AUX_CMD`, at 0x3F13 + 0x4·n (12_supervision_telemetry.md). -/
def AUX_CMD : Reg := { base := 0x3F13, stride := 0x4, count := 4, copies := false, dom := fun _ => 0, reset := fun _ => 0x00000000#32, fields := [⟨31, 16, .key, false⟩, ⟨0, 0, .wo, false⟩] }
def AUX_CMD_KEY : Fld := ⟨AUX_CMD, 31, 16⟩
def AUX_CMD_UNFENCE : Fld := ⟨AUX_CMD, 0, 0⟩
/-- `SYS_DIELIM`, at 0x0030 (13_thermal.md). -/
def SYS_DIELIM : Reg := { base := 0x0030, stride := 0x0, count := 1, copies := false, dom := fun _ => 0, reset := fun _ => 0x00000000#32, fields := [⟨17, 17, .w1c, false⟩, ⟨16, 16, .w1c, false⟩, ⟨9, 9, .ro, false⟩, ⟨8, 0, .ro, false⟩] }
def SYS_DIELIM_SINGLE : Fld := ⟨SYS_DIELIM, 17, 17⟩
def SYS_DIELIM_TRIP : Fld := ⟨SYS_DIELIM, 16, 16⟩
def SYS_DIELIM_ASSERT : Fld := ⟨SYS_DIELIM, 9, 9⟩
def SYS_DIELIM_SENS : Fld := ⟨SYS_DIELIM, 8, 0⟩
/-- `THM_CTRL`, at 0x0C00 (13_thermal.md). -/
def THM_CTRL : Reg := { base := 0x0C00, stride := 0x0, count := 1, copies := false, dom := fun _ => 11, reset := fun _ => 0x00000000#32, fields := [⟨8, 3, .rw, false⟩, ⟨1, 1, .rw, false⟩, ⟨0, 0, .rw, true⟩] }
def THM_CTRL_AMBCH : Fld := ⟨THM_CTRL, 8, 3⟩
def THM_CTRL_AMBSRC : Fld := ⟨THM_CTRL, 1, 1⟩
def THM_CTRL_EN : Fld := ⟨THM_CTRL, 0, 0⟩
/-- `THM_STAT`, at 0x0C01 (13_thermal.md). -/
def THM_STAT : Reg := { base := 0x0C01, stride := 0x0, count := 1, copies := false, dom := fun _ => 11, reset := fun _ => 0x00007F00#32, fields := [⟨14, 8, .ro, false⟩, ⟨1, 1, .ro, false⟩, ⟨0, 0, .ro, false⟩] }
def THM_STAT_BADNODE : Fld := ⟨THM_STAT, 14, 8⟩
def THM_STAT_AMBFB : Fld := ⟨THM_STAT, 1, 1⟩
def THM_STAT_INIT : Fld := ⟨THM_STAT, 0, 0⟩
/-- `THM_AMB`, at 0x0C02 (13_thermal.md). -/
def THM_AMB : Reg := { base := 0x0C02, stride := 0x0, count := 1, copies := false, dom := fun _ => 11, reset := fun _ => 0x000009C4#32, fields := [⟨15, 0, .rw, false⟩] }
def THM_AMB_TAMB : Fld := ⟨THM_AMB, 15, 0⟩
/-- `THM_AMBCAL`, at 0x0C03 (13_thermal.md). -/
def THM_AMBCAL : Reg := { base := 0x0C03, stride := 0x0, count := 1, copies := false, dom := fun _ => 11, reset := fun _ => 0x00000000#32, fields := [⟨31, 16, .rw, false⟩, ⟨15, 0, .rw, false⟩] }
def THM_AMBCAL_GAIN : Fld := ⟨THM_AMBCAL, 31, 16⟩
def THM_AMBCAL_OFFSET : Fld := ⟨THM_AMBCAL, 15, 0⟩
/-- `THM_XCHK`, at 0x0C04 (13_thermal.md). -/
def THM_XCHK : Reg := { base := 0x0C04, stride := 0x0, count := 1, copies := false, dom := fun _ => 11, reset := fun _ => 0x03E80064#32, fields := [⟨31, 16, .rw, false⟩, ⟨15, 0, .rw, false⟩] }
def THM_XCHK_XDEV : Fld := ⟨THM_XCHK, 31, 16⟩
def THM_XCHK_XPERS : Fld := ⟨THM_XCHK, 15, 0⟩
/-- `THM_CMD`, at 0x0C05 (13_thermal.md). -/
def THM_CMD : Reg := { base := 0x0C05, stride := 0x0, count := 1, copies := false, dom := fun _ => 11, reset := fun _ => 0x00000000#32, fields := [⟨0, 0, .wo, false⟩] }
def THM_CMD_CLRBRK : Fld := ⟨THM_CMD, 0, 0⟩
/-- `THM_EVT`, at 0x0C06 (13_thermal.md). -/
def THM_EVT : Reg := { base := 0x0C06, stride := 0x0, count := 1, copies := false, dom := fun _ => 11, reset := fun _ => 0x00007F00#32, fields := [⟨14, 8, .ro, false⟩, ⟨7, 7, .w1c, false⟩, ⟨6, 6, .w1c, false⟩, ⟨5, 5, .w1c, false⟩, ⟨4, 4, .w1c, false⟩, ⟨3, 3, .w1c, false⟩, ⟨2, 2, .w1c, false⟩, ⟨1, 1, .w1c, false⟩] }
def THM_EVT_NODE : Fld := ⟨THM_EVT, 14, 8⟩
def THM_EVT_ABORTED : Fld := ⟨THM_EVT, 7, 7⟩
def THM_EVT_AMBFAIL : Fld := ⟨THM_EVT, 6, 6⟩
def THM_EVT_MODELDEV : Fld := ⟨THM_EVT, 5, 5⟩
def THM_EVT_SENSBRK : Fld := ⟨THM_EVT, 4, 4⟩
def THM_EVT_SHUTDOWN : Fld := ⟨THM_EVT, 3, 3⟩
def THM_EVT_THROTTLE : Fld := ⟨THM_EVT, 2, 2⟩
def THM_EVT_WARN : Fld := ⟨THM_EVT, 1, 1⟩
/-- `THM_EVTEN`, at 0x0C07 (13_thermal.md). -/
def THM_EVTEN : Reg := { base := 0x0C07, stride := 0x0, count := 1, copies := false, dom := fun _ => 11, reset := fun _ => 0x00000000#32, fields := [⟨14, 8, .ro, false⟩, ⟨7, 7, .rw, false⟩, ⟨6, 6, .rw, false⟩, ⟨5, 5, .rw, false⟩, ⟨4, 4, .rw, false⟩, ⟨3, 3, .rw, false⟩, ⟨2, 2, .rw, false⟩, ⟨1, 1, .rw, false⟩] }
def THM_EVTEN_NODE : Fld := ⟨THM_EVTEN, 14, 8⟩
def THM_EVTEN_ABORTED : Fld := ⟨THM_EVTEN, 7, 7⟩
def THM_EVTEN_AMBFAIL : Fld := ⟨THM_EVTEN, 6, 6⟩
def THM_EVTEN_MODELDEV : Fld := ⟨THM_EVTEN, 5, 5⟩
def THM_EVTEN_SENSBRK : Fld := ⟨THM_EVTEN, 4, 4⟩
def THM_EVTEN_SHUTDOWN : Fld := ⟨THM_EVTEN, 3, 3⟩
def THM_EVTEN_THROTTLE : Fld := ⟨THM_EVTEN, 2, 2⟩
def THM_EVTEN_WARN : Fld := ⟨THM_EVTEN, 1, 1⟩
/-- `THM_NSEL`, at 0x0C08 + 0x10000·n (13_thermal.md). -/
def THM_NSEL : Reg := { base := 0x0C08, stride := 0x10000, count := 64, copies := true, dom := fun _ => 11, reset := fun _ => 0x00000000#32, fields := [⟨6, 0, .rw, false⟩] }
def THM_NSEL_NODE : Fld := ⟨THM_NSEL, 6, 0⟩
/-- `THM_NCFG`, at 0x0C09 + 0x10000·n (13_thermal.md). -/
def THM_NCFG : Reg := { base := 0x0C09, stride := 0x10000, count := 78, copies := false, dom := fun _ => 11, reset := fun _ => 0x00000000#32, fields := [⟨18, 16, .rw, false⟩, ⟨15, 0, .rw, false⟩] }
def THM_NCFG_PROF : Fld := ⟨THM_NCFG, 18, 16⟩
def THM_NCFG_C : Fld := ⟨THM_NCFG, 15, 0⟩
/-- `THM_NNBR`, at 0x0C0A + 0x10000·n (13_thermal.md). -/
def THM_NNBR : Reg := { base := 0x0C0A, stride := 0x10000, count := 78, copies := false, dom := fun _ => 11, reset := fun _ => 0x0FFFFFFF#32, fields := [⟨27, 0, .rw, false⟩] }
def THM_NNBR_NBR : Fld := ⟨THM_NNBR, 27, 0⟩
/-- `THM_NTH0`, at 0x0C0B + 0x10000·n (13_thermal.md). -/
def THM_NTH0 : Reg := { base := 0x0C0B, stride := 0x10000, count := 78, copies := false, dom := fun _ => 11, reset := fun n => if n = 76 then 0x36B032C8#32 else 0x2CEC2904#32, fields := [⟨31, 16, .rw, false⟩, ⟨15, 0, .rw, false⟩] }
def THM_NTH0_THR : Fld := ⟨THM_NTH0, 31, 16⟩
def THM_NTH0_WARN : Fld := ⟨THM_NTH0, 15, 0⟩
/-- `THM_NTH1`, at 0x0C0C + 0x10000·n (13_thermal.md). -/
def THM_NTH1 : Reg := { base := 0x0C0C, stride := 0x10000, count := 78, copies := false, dom := fun _ => 11, reset := fun n => if n = 76 then 0x3C8C01F4#32 else 0x30D401F4#32, fields := [⟨31, 16, .rw, false⟩, ⟨15, 0, .rw, false⟩] }
def THM_NTH1_SD : Fld := ⟨THM_NTH1, 31, 16⟩
def THM_NTH1_HYST : Fld := ⟨THM_NTH1, 15, 0⟩
/-- `THM_NTEMP`, at 0x0C0D + 0x10000·n (13_thermal.md). -/
def THM_NTEMP : Reg := { base := 0x0C0D, stride := 0x10000, count := 78, copies := false, dom := fun _ => 11, reset := fun _ => 0x00000000#32, fields := [⟨31, 16, .ro, false⟩, ⟨15, 0, .ro, false⟩] }
def THM_NTEMP_SENS : Fld := ⟨THM_NTEMP, 31, 16⟩
def THM_NTEMP_MODEL : Fld := ⟨THM_NTEMP, 15, 0⟩
/-- `THM_LSEL`, at 0x0C10 + 0x10000·n (13_thermal.md). -/
def THM_LSEL : Reg := { base := 0x0C10, stride := 0x10000, count := 64, copies := true, dom := fun _ => 11, reset := fun _ => 0x00000000#32, fields := [⟨7, 0, .rw, false⟩] }
def THM_LSEL_LINK : Fld := ⟨THM_LSEL, 7, 0⟩
/-- `THM_LDATA`, at 0x0C11 + 0x10000·n (13_thermal.md). -/
def THM_LDATA : Reg := { base := 0x0C11, stride := 0x10000, count := 160, copies := false, dom := fun _ => 11, reset := fun _ => 0xFFFC0000#32, fields := [⟨31, 25, .rw, false⟩, ⟨24, 18, .rw, false⟩, ⟨15, 0, .rw, false⟩] }
def THM_LDATA_A : Fld := ⟨THM_LDATA, 31, 25⟩
def THM_LDATA_B : Fld := ⟨THM_LDATA, 24, 18⟩
def THM_LDATA_G : Fld := ⟨THM_LDATA, 15, 0⟩
/-- `THM_LP0`, at 0x0C20 + 0x2·n (13_thermal.md). -/
def THM_LP0 : Reg := { base := 0x0C20, stride := 0x2, count := 8, copies := false, dom := fun _ => 11, reset := fun _ => 0x00000000#32, fields := [⟨31, 16, .rw, false⟩, ⟨15, 0, .rw, false⟩] }
def THM_LP0_K1 : Fld := ⟨THM_LP0, 31, 16⟩
def THM_LP0_K0 : Fld := ⟨THM_LP0, 15, 0⟩
/-- `THM_LP1`, at 0x0C21 + 0x2·n (13_thermal.md). -/
def THM_LP1 : Reg := { base := 0x0C21, stride := 0x2, count := 8, copies := false, dom := fun _ => 11, reset := fun _ => 0x00000000#32, fields := [⟨31, 16, .rw, false⟩, ⟨15, 0, .rw, false⟩] }
def THM_LP1_KS : Fld := ⟨THM_LP1, 31, 16⟩
def THM_LP1_K2 : Fld := ⟨THM_LP1, 15, 0⟩
/-- `THM_RTHR`, at 0x0C40 + 0x1·n (13_thermal.md). -/
def THM_RTHR : Reg := { base := 0x0C40, stride := 0x1, count := 32, copies := false, dom := fun _ => 11, reset := fun _ => 0x00000000#32, fields := [⟨31, 16, .rw, true⟩, ⟨7, 0, .rw, true⟩] }
def THM_RTHR_PSTR : Fld := ⟨THM_RTHR, 31, 16⟩
def THM_RTHR_DGAIN : Fld := ⟨THM_RTHR, 7, 0⟩
/-- `THM_RLIVE`, at 0x0C60 + 0x1·n (13_thermal.md). -/
def THM_RLIVE : Reg := { base := 0x0C60, stride := 0x1, count := 32, copies := false, dom := fun _ => 11, reset := fun _ => 0x00000000#32, fields := [⟨31, 24, .ro, false⟩, ⟨16, 0, .ro, false⟩] }
def THM_RLIVE_DERATE : Fld := ⟨THM_RLIVE, 31, 24⟩
def THM_RLIVE_PEREFF : Fld := ⟨THM_RLIVE, 16, 0⟩
/-- `THM_LVL`, at 0x0C80 + 0x1·n (13_thermal.md). -/
def THM_LVL : Reg := { base := 0x0C80, stride := 0x1, count := 9, copies := false, dom := fun _ => 11, reset := fun _ => 0x00000000#32, fields := [⟨31, 0, .ro, false⟩] }
def THM_LVL_NODES : Fld := ⟨THM_LVL, 31, 0⟩
/-- `THM_BRK`, at 0x0C89 + 0x1·n (13_thermal.md). -/
def THM_BRK : Reg := { base := 0x0C89, stride := 0x1, count := 3, copies := false, dom := fun _ => 11, reset := fun _ => 0x00000000#32, fields := [⟨31, 0, .ro, false⟩] }
def THM_BRK_NODES : Fld := ⟨THM_BRK, 31, 0⟩
/-- `SYS_HOSTVER`, at 0x0002 + 0x10000·n (14_host_interrupts.md). -/
def SYS_HOSTVER : Reg := { base := 0x0002, stride := 0x10000, count := 64, copies := true, dom := fun _ => 0, reset := fun _ => 0x12000001#32, fields := [⟨31, 28, .ro, false⟩, ⟨27, 24, .ro, false⟩, ⟨3, 0, .rw, false⟩] }
def SYS_HOSTVER_MINVER : Fld := ⟨SYS_HOSTVER, 31, 28⟩
def SYS_HOSTVER_MAXVER : Fld := ⟨SYS_HOSTVER, 27, 24⟩
def SYS_HOSTVER_ACT : Fld := ⟨SYS_HOSTVER, 3, 0⟩
/-- `SYS_HPERM1`, at 0x0080 (14_host_interrupts.md). -/
def SYS_HPERM1 : Reg := { base := 0x0080, stride := 0x0, count := 1, copies := false, dom := fun _ => 0, reset := fun _ => 0x007FFFFF#32, fields := [⟨31, 31, .rwl, false⟩, ⟨22, 0, .rwl, true⟩] }
def SYS_HPERM1_LOCK : Fld := ⟨SYS_HPERM1, 31, 31⟩
def SYS_HPERM1_MASK : Fld := ⟨SYS_HPERM1, 22, 0⟩
/-- `SYS_HPERMS`, at 0x0081 (14_host_interrupts.md). -/
def SYS_HPERMS : Reg := { base := 0x0081, stride := 0x0, count := 1, copies := false, dom := fun _ => 0, reset := fun _ => 0x00000081#32, fields := [⟨31, 31, .rwl, false⟩, ⟨22, 0, .rwl, true⟩] }
def SYS_HPERMS_LOCK : Fld := ⟨SYS_HPERMS, 31, 31⟩
def SYS_HPERMS_MASK : Fld := ⟨SYS_HPERMS, 22, 0⟩
/-- `SYS_HSTAT`, at 0x0084 + 0x1·n (14_host_interrupts.md). -/
def SYS_HSTAT : Reg := { base := 0x0084, stride := 0x1, count := 3, copies := false, dom := fun _ => 0, reset := fun _ => 0x00000001#32, fields := [⟨31, 31, .ro, false⟩, ⟨30, 28, .ro, false⟩, ⟨23, 8, .ro, false⟩, ⟨7, 4, .ro, false⟩, ⟨3, 0, .ro, false⟩] }
def SYS_HSTAT_FROZEN : Fld := ⟨SYS_HSTAT, 31, 31⟩
def SYS_HSTAT_CAUSE : Fld := ⟨SYS_HSTAT, 30, 28⟩
def SYS_HSTAT_ADDR : Fld := ⟨SYS_HSTAT, 23, 8⟩
def SYS_HSTAT_ALIVEREF : Fld := ⟨SYS_HSTAT, 7, 4⟩
def SYS_HSTAT_ACTVER : Fld := ⟨SYS_HSTAT, 3, 0⟩
/-- `SYS_HERR`, at 0x0088 + 0x1·n (14_host_interrupts.md). -/
def SYS_HERR : Reg := { base := 0x0088, stride := 0x1, count := 3, copies := false, dom := fun _ => 0, reset := fun _ => 0x00000000#32, fields := [⟨31, 0, .ro, false⟩] }
def SYS_HERR_COUNT : Fld := ⟨SYS_HERR, 31, 0⟩
/-- `SYS_UNFRZ`, at 0x008C (14_host_interrupts.md). -/
def SYS_UNFRZ : Reg := { base := 0x008C, stride := 0x0, count := 1, copies := false, dom := fun _ => 0, reset := fun _ => 0x00000000#32, fields := [⟨31, 16, .key, false⟩, ⟨3, 0, .wo, false⟩] }
def SYS_UNFRZ_KEY : Fld := ⟨SYS_UNFRZ, 31, 16⟩
def SYS_UNFRZ_MASTERS : Fld := ⟨SYS_UNFRZ, 3, 0⟩
/-- `SYS_SFRZ`, at 0x008D (14_host_interrupts.md). -/
def SYS_SFRZ : Reg := { base := 0x008D, stride := 0x0, count := 1, copies := false, dom := fun _ => 0, reset := fun _ => 0x00000000#32, fields := [⟨31, 31, .ro, false⟩, ⟨15, 0, .ro, false⟩] }
def SYS_SFRZ_FROZEN : Fld := ⟨SYS_SFRZ, 31, 31⟩
def SYS_SFRZ_ADDR : Fld := ⟨SYS_SFRZ, 15, 0⟩
/-- `SYS_HEVT`, at 0x008E (14_host_interrupts.md). -/
def SYS_HEVT : Reg := { base := 0x008E, stride := 0x0, count := 1, copies := false, dom := fun _ => 0, reset := fun _ => 0x00000000#32, fields := [⟨8, 0, .w1c, false⟩] }
def SYS_HEVT_EVENTS : Fld := ⟨SYS_HEVT, 8, 0⟩
/-- `SYS_HCMD`, at 0x008F (14_host_interrupts.md). -/
def SYS_HCMD : Reg := { base := 0x008F, stride := 0x0, count := 1, copies := false, dom := fun _ => 0, reset := fun _ => 0x00000000#32, fields := [⟨0, 0, .wo, false⟩] }
def SYS_HCMD_CLRCNT : Fld := ⟨SYS_HCMD, 0, 0⟩
/-- `INTC_SRC`, at 0x0200 + 0x1·n (14_host_interrupts.md). -/
def INTC_SRC : Reg := { base := 0x0200, stride := 0x1, count := 256, copies := false, dom := fun _ => 7, reset := fun _ => 0x00000F00#32, fields := [⟨31, 31, .ro, false⟩, ⟨30, 30, .ro, false⟩, ⟨29, 29, .ro, false⟩, ⟨25, 24, .ro, false⟩, ⟨11, 8, .rw, false⟩, ⟨3, 0, .rw, false⟩] }
def INTC_SRC_LEVEL : Fld := ⟨INTC_SRC, 31, 31⟩
def INTC_SRC_ROUTED : Fld := ⟨INTC_SRC, 30, 30⟩
def INTC_SRC_ACTIVE : Fld := ⟨INTC_SRC, 29, 29⟩
def INTC_SRC_TGT : Fld := ⟨INTC_SRC, 25, 24⟩
def INTC_SRC_TMASK : Fld := ⟨INTC_SRC, 11, 8⟩
def INTC_SRC_PRI : Fld := ⟨INTC_SRC, 3, 0⟩
/-- `INTC_TCTRL`, at 0x0300 + 0x20·n (14_host_interrupts.md). -/
def INTC_TCTRL : Reg := { base := 0x0300, stride := 0x20, count := 4, copies := false, dom := fun _ => 7, reset := fun _ => 0x0000EF00#32, fields := [⟨16, 16, .rw, false⟩, ⟨15, 12, .rw, false⟩, ⟨11, 8, .rw, false⟩, ⟨0, 0, .rw, false⟩] }
def INTC_TCTRL_NMIEN : Fld := ⟨INTC_TCTRL, 16, 16⟩
def INTC_TCTRL_NMISIG : Fld := ⟨INTC_TCTRL, 15, 12⟩
def INTC_TCTRL_SIGNO : Fld := ⟨INTC_TCTRL, 11, 8⟩
def INTC_TCTRL_EN : Fld := ⟨INTC_TCTRL, 0, 0⟩
/-- `INTC_TPRI`, at 0x0301 + 0x20·n (14_host_interrupts.md). -/
def INTC_TPRI : Reg := { base := 0x0301, stride := 0x20, count := 4, copies := false, dom := fun _ => 7, reset := fun _ => 0x00000000#32, fields := [⟨3, 0, .rw, false⟩] }
def INTC_TPRI_TPRI : Fld := ⟨INTC_TPRI, 3, 0⟩
/-- `INTC_TSTAT`, at 0x0302 + 0x20·n (14_host_interrupts.md). -/
def INTC_TSTAT : Reg := { base := 0x0302, stride := 0x20, count := 4, copies := false, dom := fun _ => 7, reset := fun _ => 0x00000000#32, fields := [⟨31, 28, .ro, false⟩, ⟨20, 16, .ro, false⟩, ⟨15, 8, .ro, false⟩, ⟨1, 1, .ro, false⟩, ⟨0, 0, .ro, false⟩] }
def INTC_TSTAT_RPRI : Fld := ⟨INTC_TSTAT, 31, 28⟩
def INTC_TSTAT_DEPTH : Fld := ⟨INTC_TSTAT, 20, 16⟩
def INTC_TSTAT_TOPSRC : Fld := ⟨INTC_TSTAT, 15, 8⟩
def INTC_TSTAT_AVAIL : Fld := ⟨INTC_TSTAT, 1, 1⟩
def INTC_TSTAT_INTP : Fld := ⟨INTC_TSTAT, 0, 0⟩
/-- `INTC_ACK`, at 0x0303 + 0x20·n (14_host_interrupts.md). -/
def INTC_ACK : Reg := { base := 0x0303, stride := 0x20, count := 4, copies := false, dom := fun _ => 7, reset := fun _ => 0x00000000#32, fields := [⟨7, 0, .wo, false⟩] }
def INTC_ACK_SRC : Fld := ⟨INTC_ACK, 7, 0⟩
/-- `INTC_EOI`, at 0x0304 + 0x20·n (14_host_interrupts.md). -/
def INTC_EOI : Reg := { base := 0x0304, stride := 0x20, count := 4, copies := false, dom := fun _ => 7, reset := fun _ => 0x00000000#32, fields := [⟨7, 0, .wo, false⟩] }
def INTC_EOI_SRC : Fld := ⟨INTC_EOI, 7, 0⟩
/-- `INTC_STKSEL`, at 0x0305 + 0x20·n (14_host_interrupts.md). -/
def INTC_STKSEL : Reg := { base := 0x0305, stride := 0x20, count := 4, copies := false, dom := fun _ => 7, reset := fun _ => 0x00000000#32, fields := [⟨3, 0, .rw, false⟩] }
def INTC_STKSEL_IDX : Fld := ⟨INTC_STKSEL, 3, 0⟩
/-- `INTC_STKDATA`, at 0x0306 + 0x20·n (14_host_interrupts.md). -/
def INTC_STKDATA : Reg := { base := 0x0306, stride := 0x20, count := 4, copies := false, dom := fun _ => 7, reset := fun _ => 0x00000000#32, fields := [⟨31, 31, .ro, false⟩, ⟨11, 8, .ro, false⟩, ⟨7, 0, .ro, false⟩] }
def INTC_STKDATA_VALID : Fld := ⟨INTC_STKDATA, 31, 31⟩
def INTC_STKDATA_PRI : Fld := ⟨INTC_STKDATA, 11, 8⟩
def INTC_STKDATA_SRC : Fld := ⟨INTC_STKDATA, 7, 0⟩
/-- `INTC_PEND`, at 0x0308 + 0x1·n (14_host_interrupts.md). -/
def INTC_PEND : Reg := { base := 0x0308, stride := 0x1, count := 32, copies := false, dom := fun _ => 7, reset := fun _ => 0x00000000#32, fields := [⟨31, 0, .ro, false⟩] }
def INTC_PEND_SRCS : Fld := ⟨INTC_PEND, 31, 0⟩
/-- `INTC_UNRT`, at 0x0380 + 0x1·n (14_host_interrupts.md). -/
def INTC_UNRT : Reg := { base := 0x0380, stride := 0x1, count := 8, copies := false, dom := fun _ => 7, reset := fun _ => 0x00000000#32, fields := [⟨31, 0, .ro, false⟩] }
def INTC_UNRT_SRCS : Fld := ⟨INTC_UNRT, 31, 0⟩
/-- `INTC_SWISET`, at 0x0388 (14_host_interrupts.md). -/
def INTC_SWISET : Reg := { base := 0x0388, stride := 0x0, count := 1, copies := false, dom := fun _ => 7, reset := fun _ => 0x00000000#32, fields := [⟨31, 0, .wo, false⟩] }
def INTC_SWISET_SWI : Fld := ⟨INTC_SWISET, 31, 0⟩
/-- `INTC_SWICLR`, at 0x0389 (14_host_interrupts.md). -/
def INTC_SWICLR : Reg := { base := 0x0389, stride := 0x0, count := 1, copies := false, dom := fun _ => 7, reset := fun _ => 0x00000000#32, fields := [⟨31, 0, .wo, false⟩] }
def INTC_SWICLR_SWI : Fld := ⟨INTC_SWICLR, 31, 0⟩
/-- `INTC_SWISTAT`, at 0x038A (14_host_interrupts.md). -/
def INTC_SWISTAT : Reg := { base := 0x038A, stride := 0x0, count := 1, copies := false, dom := fun _ => 7, reset := fun _ => 0x00000000#32, fields := [⟨31, 0, .ro, false⟩] }
def INTC_SWISTAT_SWI : Fld := ⟨INTC_SWISTAT, 31, 0⟩
/-- `INTC_NMI`, at 0x038C (14_host_interrupts.md). -/
def INTC_NMI : Reg := { base := 0x038C, stride := 0x0, count := 1, copies := false, dom := fun _ => 7, reset := fun _ => 0x00000000#32, fields := [⟨3, 0, .w1c, false⟩] }
def INTC_NMI_PEND : Fld := ⟨INTC_NMI, 3, 0⟩
/-- `INTC_NMICNT`, at 0x038D (14_host_interrupts.md). -/
def INTC_NMICNT : Reg := { base := 0x038D, stride := 0x0, count := 1, copies := false, dom := fun _ => 7, reset := fun _ => 0x00000000#32, fields := [⟨31, 0, .rc, false⟩] }
def INTC_NMICNT_COUNT : Fld := ⟨INTC_NMICNT, 31, 0⟩
/-- `INTC_STKERR`, at 0x038E (14_host_interrupts.md). -/
def INTC_STKERR : Reg := { base := 0x038E, stride := 0x0, count := 1, copies := false, dom := fun _ => 7, reset := fun _ => 0x00000000#32, fields := [⟨31, 30, .ro, false⟩, ⟨23, 16, .ro, false⟩, ⟨15, 8, .ro, false⟩, ⟨2, 0, .ro, false⟩, ⟨3, 3, .wo, false⟩] }
def INTC_STKERR_T : Fld := ⟨INTC_STKERR, 31, 30⟩
def INTC_STKERR_NAMED : Fld := ⟨INTC_STKERR, 23, 16⟩
def INTC_STKERR_TOP : Fld := ⟨INTC_STKERR, 15, 8⟩
def INTC_STKERR_KIND : Fld := ⟨INTC_STKERR, 2, 0⟩
def INTC_STKERR_CLR : Fld := ⟨INTC_STKERR, 3, 3⟩
/-- `FLT_CTRL`, at 0x0400 (15_faults.md). -/
def FLT_CTRL : Reg := { base := 0x0400, stride := 0x0, count := 1, copies := false, dom := fun _ => 0, reset := fun _ => 0x00000000#32, fields := [⟨31, 31, .rwl, false⟩] }
def FLT_CTRL_LOCK : Fld := ⟨FLT_CTRL, 31, 31⟩
/-- `FLT_STAT`, at 0x0401 (15_faults.md). -/
def FLT_STAT : Reg := { base := 0x0401, stride := 0x0, count := 1, copies := false, dom := fun _ => 0, reset := fun _ => 0x80000000#32, fields := [⟨31, 31, .ro, false⟩, ⟨30, 30, .w1c, false⟩, ⟨29, 29, .ro, false⟩, ⟨1, 1, .w1c, false⟩, ⟨0, 0, .w1c, false⟩] }
def FLT_STAT_EPSTATE : Fld := ⟨FLT_STAT, 31, 31⟩
def FLT_STAT_EPMISM : Fld := ⟨FLT_STAT, 30, 30⟩
def FLT_STAT_EPPEND : Fld := ⟨FLT_STAT, 29, 29⟩
def FLT_STAT_FENCEEV : Fld := ⟨FLT_STAT, 1, 1⟩
def FLT_STAT_IRQ : Fld := ⟨FLT_STAT, 0, 0⟩
/-- `FLT_CMD`, at 0x0402 (15_faults.md). -/
def FLT_CMD : Reg := { base := 0x0402, stride := 0x0, count := 1, copies := false, dom := fun _ => 0, reset := fun _ => 0x00000000#32, fields := [⟨31, 16, .key, false⟩, ⟨1, 1, .wo, false⟩, ⟨0, 0, .wo, false⟩] }
def FLT_CMD_KEY : Fld := ⟨FLT_CMD, 31, 16⟩
def FLT_CMD_EPCLR : Fld := ⟨FLT_CMD, 1, 1⟩
def FLT_CMD_FFCLR : Fld := ⟨FLT_CMD, 0, 0⟩
/-- `FLT_FENCECNT`, at 0x0403 (15_faults.md). -/
def FLT_FENCECNT : Reg := { base := 0x0403, stride := 0x0, count := 1, copies := false, dom := fun _ => 0, reset := fun _ => 0x00000000#32, fields := [⟨31, 0, .ro, false⟩] }
def FLT_FENCECNT_COUNT : Fld := ⟨FLT_FENCECNT, 31, 0⟩
/-- `FLT_FFSRC`, at 0x0404 (15_faults.md). -/
def FLT_FFSRC : Reg := { base := 0x0404, stride := 0x0, count := 1, copies := false, dom := fun _ => 0, reset := fun _ => 0x00000000#32, fields := [⟨31, 31, .ro, false⟩, ⟨30, 30, .ro, false⟩, ⟨29, 29, .ro, false⟩, ⟨28, 28, .ro, false⟩, ⟨19, 19, .ro, false⟩, ⟨18, 16, .ro, false⟩, ⟨8, 0, .ro, false⟩] }
def FLT_FFSRC_ACTIVE : Fld := ⟨FLT_FFSRC, 31, 31⟩
def FLT_FFSRC_OVF : Fld := ⟨FLT_FFSRC, 30, 30⟩
def FLT_FFSRC_INJ : Fld := ⟨FLT_FFSRC, 29, 29⟩
def FLT_FFSRC_ESC : Fld := ⟨FLT_FFSRC, 28, 28⟩
def FLT_FFSRC_EPAPPL : Fld := ⟨FLT_FFSRC, 19, 19⟩
def FLT_FFSRC_APPLIED : Fld := ⟨FLT_FFSRC, 18, 16⟩
def FLT_FFSRC_SRC : Fld := ⟨FLT_FFSRC, 8, 0⟩
/-- `FLT_FFTIMEL`, at 0x0405 (15_faults.md). -/
def FLT_FFTIMEL : Reg := { base := 0x0405, stride := 0x0, count := 1, copies := false, dom := fun _ => 0, reset := fun _ => 0x00000000#32, fields := [⟨31, 0, .ro, false⟩] }
def FLT_FFTIMEL_TIME : Fld := ⟨FLT_FFTIMEL, 31, 0⟩
/-- `FLT_FFTIMEH`, at 0x0406 (15_faults.md). -/
def FLT_FFTIMEH : Reg := { base := 0x0406, stride := 0x0, count := 1, copies := false, dom := fun _ => 0, reset := fun _ => 0x00000000#32, fields := [⟨23, 0, .ro, false⟩] }
def FLT_FFTIMEH_TIME : Fld := ⟨FLT_FFTIMEH, 23, 0⟩
/-- `FLT_FFDATA0`, at 0x0407 (15_faults.md). -/
def FLT_FFDATA0 : Reg := { base := 0x0407, stride := 0x0, count := 1, copies := false, dom := fun _ => 0, reset := fun _ => 0x00000000#32, fields := [⟨31, 0, .ro, false⟩] }
def FLT_FFDATA0_DATA : Fld := ⟨FLT_FFDATA0, 31, 0⟩
/-- `FLT_FFDATA1`, at 0x0408 (15_faults.md). -/
def FLT_FFDATA1 : Reg := { base := 0x0408, stride := 0x0, count := 1, copies := false, dom := fun _ => 0, reset := fun _ => 0x00000000#32, fields := [⟨31, 0, .ro, false⟩] }
def FLT_FFDATA1_DATA : Fld := ⟨FLT_FFDATA1, 31, 0⟩
/-- `FLT_FFCNT`, at 0x0409 (15_faults.md). -/
def FLT_FFCNT : Reg := { base := 0x0409, stride := 0x0, count := 1, copies := false, dom := fun _ => 0, reset := fun _ => 0x00000000#32, fields := [⟨15, 0, .ro, false⟩] }
def FLT_FFCNT_COUNT : Fld := ⟨FLT_FFCNT, 15, 0⟩
/-- `FLT_FFLAST`, at 0x040A (15_faults.md). -/
def FLT_FFLAST : Reg := { base := 0x040A, stride := 0x0, count := 1, copies := false, dom := fun _ => 0, reset := fun _ => 0x00000000#32, fields := [⟨29, 29, .ro, false⟩, ⟨8, 0, .ro, false⟩] }
def FLT_FFLAST_INJ : Fld := ⟨FLT_FFLAST, 29, 29⟩
def FLT_FFLAST_SRC : Fld := ⟨FLT_FFLAST, 8, 0⟩
/-- `FLT_EPCTRL`, at 0x0410 (15_faults.md). -/
def FLT_EPCTRL : Reg := { base := 0x0410, stride := 0x0, count := 1, copies := false, dom := fun _ => 0, reset := fun _ => 0x0000000A#32, fields := [⟨7, 0, .rwl, false⟩] }
def FLT_EPCTRL_MINT : Fld := ⟨FLT_EPCTRL, 7, 0⟩
/-- `FLT_INJSEL`, at 0x0418 (15_faults.md). -/
def FLT_INJSEL : Reg := { base := 0x0418, stride := 0x0, count := 1, copies := false, dom := fun _ => 0, reset := fun _ => 0x00000000#32, fields := [⟨17, 12, .rw, false⟩, ⟨11, 11, .rw, false⟩, ⟨10, 9, .rw, false⟩, ⟨8, 0, .rw, false⟩] }
def FLT_INJSEL_INST : Fld := ⟨FLT_INJSEL, 17, 12⟩
def FLT_INJSEL_REC : Fld := ⟨FLT_INJSEL, 11, 11⟩
def FLT_INJSEL_KIND : Fld := ⟨FLT_INJSEL, 10, 9⟩
def FLT_INJSEL_SRC : Fld := ⟨FLT_INJSEL, 8, 0⟩
/-- `FLT_INJARM`, at 0x0419 (15_faults.md). -/
def FLT_INJARM : Reg := { base := 0x0419, stride := 0x0, count := 1, copies := false, dom := fun _ => 0, reset := fun _ => 0x00000000#32, fields := [⟨31, 16, .key, false⟩, ⟨1, 1, .wo, false⟩, ⟨0, 0, .wo, false⟩] }
def FLT_INJARM_KEY : Fld := ⟨FLT_INJARM, 31, 16⟩
def FLT_INJARM_DISARM : Fld := ⟨FLT_INJARM, 1, 1⟩
def FLT_INJARM_ARM : Fld := ⟨FLT_INJARM, 0, 0⟩
/-- `FLT_INJSTAT`, at 0x041A (15_faults.md). -/
def FLT_INJSTAT : Reg := { base := 0x041A, stride := 0x0, count := 1, copies := false, dom := fun _ => 0, reset := fun _ => 0x00000000#32, fields := [⟨2, 0, .ro, false⟩] }
def FLT_INJSTAT_STATE : Fld := ⟨FLT_INJSTAT, 2, 0⟩
/-- `FLT_INJTIME`, at 0x041B (15_faults.md). -/
def FLT_INJTIME : Reg := { base := 0x041B, stride := 0x0, count := 1, copies := false, dom := fun _ => 0, reset := fun _ => 0x00000000#32, fields := [⟨31, 0, .ro, false⟩] }
def FLT_INJTIME_TIME : Fld := ⟨FLT_INJTIME, 31, 0⟩
/-- `FLT_INJDATA`, at 0x041C (15_faults.md). -/
def FLT_INJDATA : Reg := { base := 0x041C, stride := 0x0, count := 1, copies := false, dom := fun _ => 0, reset := fun _ => 0x00000000#32, fields := [⟨31, 0, .ro, false⟩] }
def FLT_INJDATA_DATA0 : Fld := ⟨FLT_INJDATA, 31, 0⟩
/-- `FLT_STS`, at 0x0420 + 0x1·n (15_faults.md). -/
def FLT_STS : Reg := { base := 0x0420, stride := 0x1, count := 13, copies := false, dom := fun _ => 0, reset := fun _ => 0x00000000#32, fields := [⟨31, 0, .w1c, false⟩] }
def FLT_STS_SRCS : Fld := ⟨FLT_STS, 31, 0⟩
/-- `FLT_LVL`, at 0x0440 + 0x1·n (15_faults.md). -/
def FLT_LVL : Reg := { base := 0x0440, stride := 0x1, count := 13, copies := false, dom := fun _ => 0, reset := fun _ => 0x00000000#32, fields := [⟨31, 0, .ro, false⟩] }
def FLT_LVL_SRCS : Fld := ⟨FLT_LVL, 31, 0⟩
/-- `FLT_CFG`, at 0x0500 + 0x1·n (15_faults.md). -/
def FLT_CFG : Reg := { base := 0x0500, stride := 0x1, count := 416, copies := false, dom := fun _ => 0, reset := fun n => faultDefault n, fields := [⟨8, 8, .rw, true⟩, ⟨4, 4, .rw, true⟩, ⟨2, 0, .rw, true⟩] }
def FLT_CFG_FENCE : Fld := ⟨FLT_CFG, 8, 8⟩
def FLT_CFG_EP : Fld := ⟨FLT_CFG, 4, 4⟩
def FLT_CFG_REACT : Fld := ⟨FLT_CFG, 2, 0⟩
/-- `CHK_CTRL`, at 0x0A00 (16_data_integrity.md). -/
def CHK_CTRL : Reg := { base := 0x0A00, stride := 0x0, count := 1, copies := false, dom := fun _ => 10, reset := fun _ => 0x803F03E8#32, fields := [⟨31, 31, .rw, false⟩, ⟨21, 16, .rw, false⟩, ⟨15, 0, .rw, false⟩] }
def CHK_CTRL_SCRUBEN : Fld := ⟨CHK_CTRL, 31, 31⟩
def CHK_CTRL_SCRUBMASK : Fld := ⟨CHK_CTRL, 21, 16⟩
def CHK_CTRL_SCRUBINT : Fld := ⟨CHK_CTRL, 15, 0⟩
/-- `CHK_SCPASS`, at 0x0A01 (16_data_integrity.md). -/
def CHK_SCPASS : Reg := { base := 0x0A01, stride := 0x0, count := 1, copies := false, dom := fun _ => 10, reset := fun _ => 0x00000000#32, fields := [⟨31, 0, .ro, false⟩] }
def CHK_SCPASS_COUNT : Fld := ⟨CHK_SCPASS, 31, 0⟩
/-- `CHK_CMD`, at 0x0A04 (16_data_integrity.md). -/
def CHK_CMD : Reg := { base := 0x0A04, stride := 0x0, count := 1, copies := false, dom := fun _ => 10, reset := fun _ => 0x00000000#32, fields := [⟨0, 0, .wo, false⟩] }
def CHK_CMD_CLRCNT : Fld := ⟨CHK_CMD, 0, 0⟩
/-- `CHK_CECNT`, at 0x0A08 + 0x1·n (16_data_integrity.md). -/
def CHK_CECNT : Reg := { base := 0x0A08, stride := 0x1, count := 6, copies := false, dom := fun _ => 10, reset := fun _ => 0x00000000#32, fields := [⟨31, 0, .ro, false⟩] }
def CHK_CECNT_COUNT : Fld := ⟨CHK_CECNT, 31, 0⟩
/-- `CHK_UECNT`, at 0x0A10 + 0x1·n (16_data_integrity.md). -/
def CHK_UECNT : Reg := { base := 0x0A10, stride := 0x1, count := 6, copies := false, dom := fun _ => 10, reset := fun _ => 0x00000000#32, fields := [⟨31, 0, .ro, false⟩] }
def CHK_UECNT_COUNT : Fld := ⟨CHK_UECNT, 31, 0⟩
/-- `CHK_UELOG`, at 0x0A18 + 0x1·n (16_data_integrity.md). -/
def CHK_UELOG : Reg := { base := 0x0A18, stride := 0x1, count := 4, copies := false, dom := fun _ => 10, reset := fun _ => 0x00000000#32, fields := [⟨31, 31, .ro, false⟩, ⟨30, 30, .ro, false⟩, ⟨18, 16, .ro, false⟩, ⟨12, 0, .ro, false⟩] }
def CHK_UELOG_VALID : Fld := ⟨CHK_UELOG, 31, 31⟩
def CHK_UELOG_LOGOVF : Fld := ⟨CHK_UELOG, 30, 30⟩
def CHK_UELOG_RAM : Fld := ⟨CHK_UELOG, 18, 16⟩
def CHK_UELOG_LINE : Fld := ⟨CHK_UELOG, 12, 0⟩
/-- `CHK_EVT`, at 0x0A02 (16_data_integrity.md). -/
def CHK_EVT : Reg := { base := 0x0A02, stride := 0x0, count := 1, copies := false, dom := fun _ => 10, reset := fun _ => 0x00000000#32, fields := [⟨5, 5, .w1c, false⟩, ⟨4, 4, .w1c, false⟩, ⟨3, 3, .w1c, false⟩, ⟨2, 2, .w1c, false⟩, ⟨1, 1, .w1c, false⟩, ⟨0, 0, .w1c, false⟩] }
def CHK_EVT_SATURATED : Fld := ⟨CHK_EVT, 5, 5⟩
def CHK_EVT_ALVTMO : Fld := ⟨CHK_EVT, 4, 4⟩
def CHK_EVT_ALVERR : Fld := ⟨CHK_EVT, 3, 3⟩
def CHK_EVT_UNCORR : Fld := ⟨CHK_EVT, 2, 2⟩
def CHK_EVT_ABORTED : Fld := ⟨CHK_EVT, 1, 1⟩
def CHK_EVT_JOBEND : Fld := ⟨CHK_EVT, 0, 0⟩
/-- `CHK_EVTEN`, at 0x0A03 (16_data_integrity.md). -/
def CHK_EVTEN : Reg := { base := 0x0A03, stride := 0x0, count := 1, copies := false, dom := fun _ => 10, reset := fun _ => 0x00000000#32, fields := [⟨5, 5, .rw, false⟩, ⟨4, 4, .rw, false⟩, ⟨3, 3, .rw, false⟩, ⟨2, 2, .rw, false⟩, ⟨1, 1, .rw, false⟩, ⟨0, 0, .rw, false⟩] }
def CHK_EVTEN_SATURATED : Fld := ⟨CHK_EVTEN, 5, 5⟩
def CHK_EVTEN_ALVTMO : Fld := ⟨CHK_EVTEN, 4, 4⟩
def CHK_EVTEN_ALVERR : Fld := ⟨CHK_EVTEN, 3, 3⟩
def CHK_EVTEN_UNCORR : Fld := ⟨CHK_EVTEN, 2, 2⟩
def CHK_EVTEN_ABORTED : Fld := ⟨CHK_EVTEN, 1, 1⟩
def CHK_EVTEN_JOBEND : Fld := ⟨CHK_EVTEN, 0, 0⟩
/-- `CHK_CRCCFG`, at 0x0A20 + 0x4·n (16_data_integrity.md). -/
def CHK_CRCCFG : Reg := { base := 0x0A20, stride := 0x4, count := 2, copies := false, dom := fun _ => 10, reset := fun _ => 0x00000000#32, fields := [⟨31, 31, .ro, false⟩, ⟨23, 16, .ro, false⟩, ⟨4, 4, .rw, false⟩, ⟨3, 2, .rw, false⟩, ⟨1, 1, .wo, false⟩, ⟨0, 0, .wo, false⟩] }
def CHK_CRCCFG_OWNED : Fld := ⟨CHK_CRCCFG, 31, 31⟩
def CHK_CRCCFG_MASTER : Fld := ⟨CHK_CRCCFG, 23, 16⟩
def CHK_CRCCFG_ORDER : Fld := ⟨CHK_CRCCFG, 4, 4⟩
def CHK_CRCCFG_KIND : Fld := ⟨CHK_CRCCFG, 3, 2⟩
def CHK_CRCCFG_RELEASE : Fld := ⟨CHK_CRCCFG, 1, 1⟩
def CHK_CRCCFG_CLAIM : Fld := ⟨CHK_CRCCFG, 0, 0⟩
/-- `CHK_CRCDATA`, at 0x0A21 + 0x4·n (16_data_integrity.md). -/
def CHK_CRCDATA : Reg := { base := 0x0A21, stride := 0x4, count := 2, copies := false, dom := fun _ => 10, reset := fun _ => 0x00000000#32, fields := [⟨31, 0, .wo, false⟩] }
def CHK_CRCDATA_DATA : Fld := ⟨CHK_CRCDATA, 31, 0⟩
/-- `CHK_CRCDATAB`, at 0x0A22 + 0x4·n (16_data_integrity.md). -/
def CHK_CRCDATAB : Reg := { base := 0x0A22, stride := 0x4, count := 2, copies := false, dom := fun _ => 10, reset := fun _ => 0x00000000#32, fields := [⟨7, 0, .wo, false⟩] }
def CHK_CRCDATAB_DATA : Fld := ⟨CHK_CRCDATAB, 7, 0⟩
/-- `CHK_CRCRES`, at 0x0A23 + 0x4·n (16_data_integrity.md). -/
def CHK_CRCRES : Reg := { base := 0x0A23, stride := 0x4, count := 2, copies := false, dom := fun _ => 10, reset := fun _ => 0x00000000#32, fields := [⟨31, 0, .ro, false⟩] }
def CHK_CRCRES_CRC : Fld := ⟨CHK_CRCRES, 31, 0⟩
/-- `CHK_SJCTRL`, at 0x0A30 (16_data_integrity.md). -/
def CHK_SJCTRL : Reg := { base := 0x0A30, stride := 0x0, count := 1, copies := false, dom := fun _ => 10, reset := fun _ => 0x00000000#32, fields := [⟨9, 8, .rw, false⟩, ⟨5, 4, .rw, false⟩, ⟨1, 1, .wo, false⟩, ⟨0, 0, .wo, false⟩] }
def CHK_SJCTRL_KIND : Fld := ⟨CHK_SJCTRL, 9, 8⟩
def CHK_SJCTRL_JKIND : Fld := ⟨CHK_SJCTRL, 5, 4⟩
def CHK_SJCTRL_ABORT : Fld := ⟨CHK_SJCTRL, 1, 1⟩
def CHK_SJCTRL_GO : Fld := ⟨CHK_SJCTRL, 0, 0⟩
/-- `CHK_SJADDR`, at 0x0A31 (16_data_integrity.md). -/
def CHK_SJADDR : Reg := { base := 0x0A31, stride := 0x0, count := 1, copies := false, dom := fun _ => 10, reset := fun _ => 0x00000000#32, fields := [⟨31, 28, .rw, false⟩, ⟨23, 0, .rw, false⟩] }
def CHK_SJADDR_SPACE : Fld := ⟨CHK_SJADDR, 31, 28⟩
def CHK_SJADDR_WORD : Fld := ⟨CHK_SJADDR, 23, 0⟩
/-- `CHK_SJLEN`, at 0x0A32 (16_data_integrity.md). -/
def CHK_SJLEN : Reg := { base := 0x0A32, stride := 0x0, count := 1, copies := false, dom := fun _ => 10, reset := fun _ => 0x00000000#32, fields := [⟨23, 0, .rw, false⟩] }
def CHK_SJLEN_LEN : Fld := ⟨CHK_SJLEN, 23, 0⟩
/-- `CHK_SJEXP`, at 0x0A33 (16_data_integrity.md). -/
def CHK_SJEXP : Reg := { base := 0x0A33, stride := 0x0, count := 1, copies := false, dom := fun _ => 10, reset := fun _ => 0x00000000#32, fields := [⟨31, 0, .rw, false⟩] }
def CHK_SJEXP_VALUE : Fld := ⟨CHK_SJEXP, 31, 0⟩
/-- `CHK_SJPAT`, at 0x0A34 (16_data_integrity.md). -/
def CHK_SJPAT : Reg := { base := 0x0A34, stride := 0x0, count := 1, copies := false, dom := fun _ => 10, reset := fun _ => 0x00000000#32, fields := [⟨31, 0, .rw, false⟩] }
def CHK_SJPAT_VALUE : Fld := ⟨CHK_SJPAT, 31, 0⟩
/-- `CHK_SJSTAT`, at 0x0A35 (16_data_integrity.md). -/
def CHK_SJSTAT : Reg := { base := 0x0A35, stride := 0x0, count := 1, copies := false, dom := fun _ => 10, reset := fun _ => 0x00000000#32, fields := [⟨31, 29, .ro, false⟩, ⟨28, 28, .ro, false⟩, ⟨27, 27, .ro, false⟩, ⟨23, 16, .ro, false⟩, ⟨15, 0, .ro, false⟩] }
def CHK_SJSTAT_STATE : Fld := ⟨CHK_SJSTAT, 31, 29⟩
def CHK_SJSTAT_RESULT : Fld := ⟨CHK_SJSTAT, 28, 28⟩
def CHK_SJSTAT_UE : Fld := ⟨CHK_SJSTAT, 27, 27⟩
def CHK_SJSTAT_MASTER : Fld := ⟨CHK_SJSTAT, 23, 16⟩
def CHK_SJSTAT_CORR : Fld := ⟨CHK_SJSTAT, 15, 0⟩
/-- `CHK_SJRES`, at 0x0A36 (16_data_integrity.md). -/
def CHK_SJRES : Reg := { base := 0x0A36, stride := 0x0, count := 1, copies := false, dom := fun _ => 10, reset := fun _ => 0x00000000#32, fields := [⟨31, 0, .ro, false⟩] }
def CHK_SJRES_CRC : Fld := ⟨CHK_SJRES, 31, 0⟩
/-- `CHK_SJPOS`, at 0x0A37 (16_data_integrity.md). -/
def CHK_SJPOS : Reg := { base := 0x0A37, stride := 0x0, count := 1, copies := false, dom := fun _ => 10, reset := fun _ => 0x00000000#32, fields := [⟨23, 0, .ro, false⟩] }
def CHK_SJPOS_WORD : Fld := ⟨CHK_SJPOS, 23, 0⟩
/-- `CHK_ALV`, at 0x0A40 + 0x2·n (16_data_integrity.md). -/
def CHK_ALV : Reg := { base := 0x0A40, stride := 0x2, count := 8, copies := false, dom := fun _ => 10, reset := fun _ => 0x00000000#32, fields := [⟨31, 31, .rw, false⟩, ⟨19, 8, .rw, false⟩, ⟨3, 0, .rw, false⟩] }
def CHK_ALV_EN : Fld := ⟨CHK_ALV, 31, 31⟩
def CHK_ALV_TMO : Fld := ⟨CHK_ALV, 19, 8⟩
def CHK_ALV_VAL : Fld := ⟨CHK_ALV, 3, 0⟩
/-- `CHK_ALVSTAT`, at 0x0A41 + 0x2·n (16_data_integrity.md). -/
def CHK_ALVSTAT : Reg := { base := 0x0A41, stride := 0x2, count := 8, copies := false, dom := fun _ => 10, reset := fun _ => 0x00000000#32, fields := [⟨31, 16, .ro, false⟩, ⟨15, 0, .ro, false⟩] }
def CHK_ALVSTAT_SKIP : Fld := ⟨CHK_ALVSTAT, 31, 16⟩
def CHK_ALVSTAT_REPEAT : Fld := ⟨CHK_ALVSTAT, 15, 0⟩
/-- `CLK_XSTOP`, at 0x0120 + 0x1·n (16_data_integrity.md). -/
def CLK_XSTOP : Reg := { base := 0x0120, stride := 0x1, count := 5, copies := false, dom := fun _ => 0, reset := fun _ => 0x00000000#32, fields := [⟨31, 0, .ro, false⟩] }
def CLK_XSTOP_XING : Fld := ⟨CLK_XSTOP, 31, 0⟩
/-- `CLK_XOVR`, at 0x0128 + 0x1·n (16_data_integrity.md). -/
def CLK_XOVR : Reg := { base := 0x0128, stride := 0x1, count := 5, copies := false, dom := fun _ => 0, reset := fun _ => 0x00000000#32, fields := [⟨31, 0, .w1c, false⟩] }
def CLK_XOVR_XING : Fld := ⟨CLK_XOVR, 31, 0⟩
/-- `CLK_XRST`, at 0x0130 (16_data_integrity.md). -/
def CLK_XRST : Reg := { base := 0x0130, stride := 0x0, count := 1, copies := false, dom := fun _ => 0, reset := fun _ => 0x00000000#32, fields := [⟨31, 16, .key, false⟩, ⟨7, 0, .wo, false⟩] }
def CLK_XRST_KEY : Fld := ⟨CLK_XRST, 31, 16⟩
def CLK_XRST_XING : Fld := ⟨CLK_XRST, 7, 0⟩
/-- `WD_CTRL`, at 0x0800 + 0x20·n (17_watchdogs.md). -/
def WD_CTRL : Reg := { base := 0x0800, stride := 0x20, count := 8, copies := false, dom := fun _ => 0, reset := fun _ => 0x00000000#32, fields := [⟨31, 31, .rwl, false⟩, ⟨1, 1, .ro, false⟩, ⟨0, 0, .rw, true⟩] }
def WD_CTRL_LOCK : Fld := ⟨WD_CTRL, 31, 31⟩
def WD_CTRL_HWSTART : Fld := ⟨WD_CTRL, 1, 1⟩
def WD_CTRL_EN : Fld := ⟨WD_CTRL, 0, 0⟩
/-- `WD_CFG`, at 0x0801 + 0x20·n (17_watchdogs.md). -/
def WD_CFG : Reg := { base := 0x0801, stride := 0x20, count := 8, copies := false, dom := fun _ => 0, reset := fun _ => 0x000009C4#32, fields := [⟨25, 25, .rw, true⟩, ⟨24, 24, .rw, true⟩, ⟨23, 20, .rw, false⟩, ⟨19, 16, .rw, true⟩, ⟨15, 0, .rw, true⟩] }
def WD_CFG_CLKSEL : Fld := ⟨WD_CFG, 25, 25⟩
def WD_CFG_DUPACT : Fld := ⟨WD_CFG, 24, 24⟩
def WD_CFG_EWARN : Fld := ⟨WD_CFG, 23, 20⟩
def WD_CFG_CLOSE : Fld := ⟨WD_CFG, 19, 16⟩
def WD_CFG_PERIOD : Fld := ⟨WD_CFG, 15, 0⟩
/-- `WD_SLOTEN`, at 0x0802 + 0x20·n (17_watchdogs.md). -/
def WD_SLOTEN : Reg := { base := 0x0802, stride := 0x20, count := 8, copies := false, dom := fun _ => 0, reset := fun _ => 0x00000001#32, fields := [⟨15, 0, .rw, true⟩] }
def WD_SLOTEN_SLOTS : Fld := ⟨WD_SLOTEN, 15, 0⟩
/-- `WD_OWNER0`, at 0x0808 + 0x20·n (17_watchdogs.md). -/
def WD_OWNER0 : Reg := { base := 0x0808, stride := 0x20, count := 8, copies := false, dom := fun _ => 0, reset := fun _ => 0x3F3F3F3E#32, fields := [⟨7, 0, .rw, true⟩, ⟨15, 8, .rw, true⟩, ⟨23, 16, .rw, true⟩, ⟨31, 24, .rw, true⟩] }
def WD_OWNER0_OWNER0 : Fld := ⟨WD_OWNER0, 7, 0⟩
def WD_OWNER0_OWNER1 : Fld := ⟨WD_OWNER0, 15, 8⟩
def WD_OWNER0_OWNER2 : Fld := ⟨WD_OWNER0, 23, 16⟩
def WD_OWNER0_OWNER3 : Fld := ⟨WD_OWNER0, 31, 24⟩
/-- `WD_OWNER1`, at 0x0809 + 0x20·n (17_watchdogs.md). -/
def WD_OWNER1 : Reg := { base := 0x0809, stride := 0x20, count := 8, copies := false, dom := fun _ => 0, reset := fun _ => 0x3F3F3F3F#32, fields := [⟨7, 0, .rw, true⟩, ⟨15, 8, .rw, true⟩, ⟨23, 16, .rw, true⟩, ⟨31, 24, .rw, true⟩] }
def WD_OWNER1_OWNER0 : Fld := ⟨WD_OWNER1, 7, 0⟩
def WD_OWNER1_OWNER1 : Fld := ⟨WD_OWNER1, 15, 8⟩
def WD_OWNER1_OWNER2 : Fld := ⟨WD_OWNER1, 23, 16⟩
def WD_OWNER1_OWNER3 : Fld := ⟨WD_OWNER1, 31, 24⟩
/-- `WD_OWNER2`, at 0x080A + 0x20·n (17_watchdogs.md). -/
def WD_OWNER2 : Reg := { base := 0x080A, stride := 0x20, count := 8, copies := false, dom := fun _ => 0, reset := fun _ => 0x3F3F3F3F#32, fields := [⟨7, 0, .rw, true⟩, ⟨15, 8, .rw, true⟩, ⟨23, 16, .rw, true⟩, ⟨31, 24, .rw, true⟩] }
def WD_OWNER2_OWNER0 : Fld := ⟨WD_OWNER2, 7, 0⟩
def WD_OWNER2_OWNER1 : Fld := ⟨WD_OWNER2, 15, 8⟩
def WD_OWNER2_OWNER2 : Fld := ⟨WD_OWNER2, 23, 16⟩
def WD_OWNER2_OWNER3 : Fld := ⟨WD_OWNER2, 31, 24⟩
/-- `WD_OWNER3`, at 0x080B + 0x20·n (17_watchdogs.md). -/
def WD_OWNER3 : Reg := { base := 0x080B, stride := 0x20, count := 8, copies := false, dom := fun _ => 0, reset := fun _ => 0x3F3F3F3F#32, fields := [⟨7, 0, .rw, true⟩, ⟨15, 8, .rw, true⟩, ⟨23, 16, .rw, true⟩, ⟨31, 24, .rw, true⟩] }
def WD_OWNER3_OWNER0 : Fld := ⟨WD_OWNER3, 7, 0⟩
def WD_OWNER3_OWNER1 : Fld := ⟨WD_OWNER3, 15, 8⟩
def WD_OWNER3_OWNER2 : Fld := ⟨WD_OWNER3, 23, 16⟩
def WD_OWNER3_OWNER3 : Fld := ⟨WD_OWNER3, 31, 24⟩
/-- `WD_STAT`, at 0x0803 + 0x20·n (17_watchdogs.md). -/
def WD_STAT : Reg := { base := 0x0803, stride := 0x20, count := 8, copies := false, dom := fun _ => 0, reset := fun _ => 0x00000000#32, fields := [⟨31, 8, .ro, false⟩, ⟨4, 4, .ro, false⟩, ⟨3, 3, .w1c, false⟩, ⟨1, 0, .ro, false⟩] }
def WD_STAT_REMAIN : Fld := ⟨WD_STAT, 31, 8⟩
def WD_STAT_CLKINUSE : Fld := ⟨WD_STAT, 4, 4⟩
def WD_STAT_CLKFAIL : Fld := ⟨WD_STAT, 3, 3⟩
def WD_STAT_WINDOW : Fld := ⟨WD_STAT, 1, 0⟩
/-- `WD_CHECKED`, at 0x0804 + 0x20·n (17_watchdogs.md). -/
def WD_CHECKED : Reg := { base := 0x0804, stride := 0x20, count := 8, copies := false, dom := fun _ => 0, reset := fun _ => 0x00000000#32, fields := [⟨31, 16, .ro, false⟩, ⟨15, 0, .ro, false⟩] }
def WD_CHECKED_DUPMASK : Fld := ⟨WD_CHECKED, 31, 16⟩
def WD_CHECKED_DONE : Fld := ⟨WD_CHECKED, 15, 0⟩
/-- `WD_HKICK`, at 0x0805 + 0x20·n (17_watchdogs.md). -/
def WD_HKICK : Reg := { base := 0x0805, stride := 0x20, count := 8, copies := false, dom := fun _ => 0, reset := fun _ => 0x00000000#32, fields := [⟨3, 0, .wo, false⟩] }
def WD_HKICK_SLOT : Fld := ⟨WD_HKICK, 3, 0⟩
/-- `WD_SLSEL`, at 0x0812 + 0x20·n (17_watchdogs.md). -/
def WD_SLSEL : Reg := { base := 0x0812, stride := 0x20, count := 8, copies := false, dom := fun _ => 0, reset := fun _ => 0x00000000#32, fields := [⟨3, 0, .rw, false⟩] }
def WD_SLSEL_SLOT : Fld := ⟨WD_SLSEL, 3, 0⟩
/-- `WD_SLTIME`, at 0x0813 + 0x20·n (17_watchdogs.md). -/
def WD_SLTIME : Reg := { base := 0x0813, stride := 0x20, count := 8, copies := false, dom := fun _ => 0, reset := fun _ => 0x00000000#32, fields := [⟨31, 0, .ro, false⟩] }
def WD_SLTIME_TIME : Fld := ⟨WD_SLTIME, 31, 0⟩
/-- `WD_EVCAUSE`, at 0x080C + 0x20·n (17_watchdogs.md). -/
def WD_EVCAUSE : Reg := { base := 0x080C, stride := 0x20, count := 8, copies := false, dom := fun _ => 0, reset := fun _ => 0x00000000#32, fields := [⟨31, 31, .ro, false⟩, ⟨30, 30, .ro, false⟩, ⟨23, 16, .ro, false⟩, ⟨15, 12, .ro, false⟩, ⟨11, 8, .ro, false⟩, ⟨7, 7, .ro, false⟩, ⟨1, 0, .ro, false⟩] }
def WD_EVCAUSE_VALID : Fld := ⟨WD_EVCAUSE, 31, 31⟩
def WD_EVCAUSE_OVF : Fld := ⟨WD_EVCAUSE, 30, 30⟩
def WD_EVCAUSE_OWNER : Fld := ⟨WD_EVCAUSE, 23, 16⟩
def WD_EVCAUSE_DUPSLOT : Fld := ⟨WD_EVCAUSE, 15, 12⟩
def WD_EVCAUSE_SLOT : Fld := ⟨WD_EVCAUSE, 11, 8⟩
def WD_EVCAUSE_DUPV : Fld := ⟨WD_EVCAUSE, 7, 7⟩
def WD_EVCAUSE_CAUSE : Fld := ⟨WD_EVCAUSE, 1, 0⟩
/-- `WD_EVMISS`, at 0x080D + 0x20·n (17_watchdogs.md). -/
def WD_EVMISS : Reg := { base := 0x080D, stride := 0x20, count := 8, copies := false, dom := fun _ => 0, reset := fun _ => 0x00000000#32, fields := [⟨15, 0, .ro, false⟩] }
def WD_EVMISS_SLOTS : Fld := ⟨WD_EVMISS, 15, 0⟩
/-- `WD_EVPC`, at 0x080E + 0x20·n (17_watchdogs.md). -/
def WD_EVPC : Reg := { base := 0x080E, stride := 0x20, count := 8, copies := false, dom := fun _ => 0, reset := fun _ => 0x00000000#32, fields := [⟨31, 30, .ro, false⟩, ⟨15, 0, .ro, false⟩] }
def WD_EVPC_KIND : Fld := ⟨WD_EVPC, 31, 30⟩
def WD_EVPC_VALUE : Fld := ⟨WD_EVPC, 15, 0⟩
/-- `WD_EVSVC`, at 0x080F + 0x20·n (17_watchdogs.md). -/
def WD_EVSVC : Reg := { base := 0x080F, stride := 0x20, count := 8, copies := false, dom := fun _ => 0, reset := fun _ => 0x00000000#32, fields := [⟨31, 0, .ro, false⟩] }
def WD_EVSVC_TIME : Fld := ⟨WD_EVSVC, 31, 0⟩
/-- `WD_EVTIME`, at 0x0810 + 0x20·n (17_watchdogs.md). -/
def WD_EVTIME : Reg := { base := 0x0810, stride := 0x20, count := 8, copies := false, dom := fun _ => 0, reset := fun _ => 0x00000000#32, fields := [⟨31, 0, .ro, false⟩] }
def WD_EVTIME_TIME : Fld := ⟨WD_EVTIME, 31, 0⟩
/-- `WD_EXPCNT`, at 0x0811 + 0x20·n (17_watchdogs.md). -/
def WD_EXPCNT : Reg := { base := 0x0811, stride := 0x20, count := 8, copies := false, dom := fun _ => 0, reset := fun _ => 0x00000000#32, fields := [⟨31, 0, .ro, false⟩] }
def WD_EXPCNT_COUNT : Fld := ⟨WD_EXPCNT, 31, 0⟩
/-- `WD_CMD`, at 0x0814 + 0x20·n (17_watchdogs.md). -/
def WD_CMD : Reg := { base := 0x0814, stride := 0x20, count := 8, copies := false, dom := fun _ => 0, reset := fun _ => 0x00000000#32, fields := [⟨31, 16, .key, false⟩, ⟨1, 1, .wo, false⟩, ⟨0, 0, .wo, false⟩] }
def WD_CMD_KEY : Fld := ⟨WD_CMD, 31, 16⟩
def WD_CMD_CLRCNT : Fld := ⟨WD_CMD, 1, 1⟩
def WD_CMD_EVCLR : Fld := ⟨WD_CMD, 0, 0⟩
/-- `WD_EVT`, at 0x0806 + 0x20·n (17_watchdogs.md). -/
def WD_EVT : Reg := { base := 0x0806, stride := 0x20, count := 8, copies := false, dom := fun _ => 0, reset := fun _ => 0x00000000#32, fields := [⟨7, 7, .w1c, false⟩, ⟨6, 6, .w1c, false⟩, ⟨5, 5, .w1c, false⟩, ⟨4, 4, .w1c, false⟩, ⟨3, 3, .w1c, false⟩, ⟨2, 2, .w1c, false⟩, ⟨1, 1, .w1c, false⟩, ⟨0, 0, .w1c, false⟩] }
def WD_EVT_SATURATED : Fld := ⟨WD_EVT, 7, 7⟩
def WD_EVT_ABORTED : Fld := ⟨WD_EVT, 6, 6⟩
def WD_EVT_CLKMON : Fld := ⟨WD_EVT, 5, 5⟩
def WD_EVT_WRONGOWN : Fld := ⟨WD_EVT, 4, 4⟩
def WD_EVT_DUP : Fld := ⟨WD_EVT, 3, 3⟩
def WD_EVT_PREEXP : Fld := ⟨WD_EVT, 2, 2⟩
def WD_EVT_EXPIRED : Fld := ⟨WD_EVT, 1, 1⟩
def WD_EVT_SERVICE : Fld := ⟨WD_EVT, 0, 0⟩
/-- `WD_EVTEN`, at 0x0807 + 0x20·n (17_watchdogs.md). -/
def WD_EVTEN : Reg := { base := 0x0807, stride := 0x20, count := 8, copies := false, dom := fun _ => 0, reset := fun _ => 0x00000000#32, fields := [⟨7, 7, .rw, false⟩, ⟨6, 6, .rw, false⟩, ⟨5, 5, .rw, false⟩, ⟨4, 4, .rw, false⟩, ⟨3, 3, .rw, false⟩, ⟨2, 2, .rw, false⟩, ⟨1, 1, .rw, false⟩, ⟨0, 0, .rw, false⟩] }
def WD_EVTEN_SATURATED : Fld := ⟨WD_EVTEN, 7, 7⟩
def WD_EVTEN_ABORTED : Fld := ⟨WD_EVTEN, 6, 6⟩
def WD_EVTEN_CLKMON : Fld := ⟨WD_EVTEN, 5, 5⟩
def WD_EVTEN_WRONGOWN : Fld := ⟨WD_EVTEN, 4, 4⟩
def WD_EVTEN_DUP : Fld := ⟨WD_EVTEN, 3, 3⟩
def WD_EVTEN_PREEXP : Fld := ⟨WD_EVTEN, 2, 2⟩
def WD_EVTEN_EXPIRED : Fld := ⟨WD_EVTEN, 1, 1⟩
def WD_EVTEN_SERVICE : Fld := ⟨WD_EVTEN, 0, 0⟩
/-- `OTP_STAT`, at 0x0900 (18_otp.md). -/
def OTP_STAT : Reg := { base := 0x0900, stride := 0x0, count := 1, copies := false, dom := fun _ => 1, reset := fun _ => 0x00000000#32, fields := [⟨2, 2, .ro, false⟩, ⟨1, 1, .ro, false⟩, ⟨0, 0, .ro, false⟩] }
def OTP_STAT_VPPOK : Fld := ⟨OTP_STAT, 2, 2⟩
def OTP_STAT_LOADED : Fld := ⟨OTP_STAT, 1, 1⟩
def OTP_STAT_BUSY : Fld := ⟨OTP_STAT, 0, 0⟩
/-- `OTP_CMD`, at 0x0901 (18_otp.md). -/
def OTP_CMD : Reg := { base := 0x0901, stride := 0x0, count := 1, copies := false, dom := fun _ => 1, reset := fun _ => 0x00000000#32, fields := [⟨31, 16, .key, false⟩, ⟨4, 4, .wo, false⟩, ⟨3, 2, .wo, false⟩, ⟨1, 1, .wo, false⟩, ⟨0, 0, .wo, false⟩] }
def OTP_CMD_KEY : Fld := ⟨OTP_CMD, 31, 16⟩
def OTP_CMD_FORCE : Fld := ⟨OTP_CMD, 4, 4⟩
def OTP_CMD_OP : Fld := ⟨OTP_CMD, 3, 2⟩
def OTP_CMD_ABORT : Fld := ⟨OTP_CMD, 1, 1⟩
def OTP_CMD_GO : Fld := ⟨OTP_CMD, 0, 0⟩
/-- `OTP_PADDR`, at 0x0902 (18_otp.md). -/
def OTP_PADDR : Reg := { base := 0x0902, stride := 0x0, count := 1, copies := false, dom := fun _ => 1, reset := fun _ => 0x00000000#32, fields := [⟨11, 8, .rw, false⟩, ⟨6, 0, .rw, false⟩] }
def OTP_PADDR_REGION : Fld := ⟨OTP_PADDR, 11, 8⟩
def OTP_PADDR_WORD : Fld := ⟨OTP_PADDR, 6, 0⟩
/-- `OTP_PDATA`, at 0x0903 (18_otp.md). -/
def OTP_PDATA : Reg := { base := 0x0903, stride := 0x0, count := 1, copies := false, dom := fun _ => 1, reset := fun _ => 0x00000000#32, fields := [⟨31, 0, .rw, false⟩] }
def OTP_PDATA_DATA : Fld := ⟨OTP_PDATA, 31, 0⟩
/-- `OTP_PCFG`, at 0x0904 (18_otp.md). -/
def OTP_PCFG : Reg := { base := 0x0904, stride := 0x0, count := 1, copies := false, dom := fun _ => 1, reset := fun _ => 0x00000314#32, fields := [⟨9, 8, .rw, false⟩, ⟨5, 1, .rw, false⟩, ⟨0, 0, .rw, false⟩] }
def OTP_PCFG_RETRY : Fld := ⟨OTP_PCFG, 9, 8⟩
def OTP_PCFG_PULSE : Fld := ⟨OTP_PCFG, 5, 1⟩
def OTP_PCFG_VPPSRC : Fld := ⟨OTP_PCFG, 0, 0⟩
/-- `OTP_PRES`, at 0x0905 (18_otp.md). -/
def OTP_PRES : Reg := { base := 0x0905, stride := 0x0, count := 1, copies := false, dom := fun _ => 1, reset := fun _ => 0x00000000#32, fields := [⟨31, 29, .ro, false⟩, ⟨12, 8, .ro, false⟩, ⟨7, 0, .ro, false⟩] }
def OTP_PRES_RESULT : Fld := ⟨OTP_PRES, 31, 29⟩
def OTP_PRES_FAILBIT : Fld := ⟨OTP_PRES, 12, 8⟩
def OTP_PRES_PULSES : Fld := ⟨OTP_PRES, 7, 0⟩
/-- `OTP_RADDR`, at 0x0906 (18_otp.md). -/
def OTP_RADDR : Reg := { base := 0x0906, stride := 0x0, count := 1, copies := false, dom := fun _ => 1, reset := fun _ => 0x00000000#32, fields := [⟨31, 31, .rw, false⟩, ⟨30, 30, .rw, false⟩, ⟨11, 8, .rw, false⟩, ⟨6, 0, .rw, false⟩] }
def OTP_RADDR_ARRAY : Fld := ⟨OTP_RADDR, 31, 31⟩
def OTP_RADDR_MARGIN : Fld := ⟨OTP_RADDR, 30, 30⟩
def OTP_RADDR_REGION : Fld := ⟨OTP_RADDR, 11, 8⟩
def OTP_RADDR_WORD : Fld := ⟨OTP_RADDR, 6, 0⟩
/-- `OTP_RDATA`, at 0x0907 (18_otp.md). -/
def OTP_RDATA : Reg := { base := 0x0907, stride := 0x0, count := 1, copies := false, dom := fun _ => 1, reset := fun _ => 0x00000000#32, fields := [⟨31, 0, .ro, false⟩] }
def OTP_RDATA_DATA : Fld := ⟨OTP_RDATA, 31, 0⟩
/-- `OTP_RGNSTAT`, at 0x0908 (18_otp.md). -/
def OTP_RGNSTAT : Reg := { base := 0x0908, stride := 0x0, count := 1, copies := false, dom := fun _ => 1, reset := fun _ => 0x00000000#32, fields := [⟨31, 0, .ro, false⟩] }
def OTP_RGNSTAT_STATE : Fld := ⟨OTP_RGNSTAT, 31, 0⟩
/-- `OTP_PROVSTAT`, at 0x0909 (18_otp.md). -/
def OTP_PROVSTAT : Reg := { base := 0x0909, stride := 0x0, count := 1, copies := false, dom := fun _ => 1, reset := fun _ => 0xFFFF7FFF#32, fields := [⟨31, 16, .ro, false⟩, ⟨15, 0, .ro, false⟩] }
def OTP_PROVSTAT_RGN2 : Fld := ⟨OTP_PROVSTAT, 31, 16⟩
def OTP_PROVSTAT_RGN0 : Fld := ⟨OTP_PROVSTAT, 15, 0⟩
/-- `OTP_CMPL`, at 0x0910 + 0x1·n (18_otp.md). -/
def OTP_CMPL : Reg := { base := 0x0910, stride := 0x1, count := 16, copies := false, dom := fun _ => 1, reset := fun _ => 0x00000000#32, fields := [⟨31, 16, .ro, false⟩, ⟨15, 0, .ro, false⟩] }
def OTP_CMPL_MISMATCH : Fld := ⟨OTP_CMPL, 31, 16⟩
def OTP_CMPL_MISSING : Fld := ⟨OTP_CMPL, 15, 0⟩
/-- `OTP_EVT`, at 0x090A (18_otp.md). -/
def OTP_EVT : Reg := { base := 0x090A, stride := 0x0, count := 1, copies := false, dom := fun _ => 1, reset := fun _ => 0x00000000#32, fields := [⟨3, 3, .w1c, false⟩, ⟨2, 2, .w1c, false⟩, ⟨1, 1, .w1c, false⟩, ⟨0, 0, .w1c, false⟩] }
def OTP_EVT_ABORTED : Fld := ⟨OTP_EVT, 3, 3⟩
def OTP_EVT_CRIT : Fld := ⟨OTP_EVT, 2, 2⟩
def OTP_EVT_FAIL : Fld := ⟨OTP_EVT, 1, 1⟩
def OTP_EVT_DONE : Fld := ⟨OTP_EVT, 0, 0⟩
/-- `OTP_EVTEN`, at 0x090B (18_otp.md). -/
def OTP_EVTEN : Reg := { base := 0x090B, stride := 0x0, count := 1, copies := false, dom := fun _ => 1, reset := fun _ => 0x00000000#32, fields := [⟨3, 3, .rw, false⟩, ⟨2, 2, .rw, false⟩, ⟨1, 1, .rw, false⟩, ⟨0, 0, .rw, false⟩] }
def OTP_EVTEN_ABORTED : Fld := ⟨OTP_EVTEN, 3, 3⟩
def OTP_EVTEN_CRIT : Fld := ⟨OTP_EVTEN, 2, 2⟩
def OTP_EVTEN_FAIL : Fld := ⟨OTP_EVTEN, 1, 1⟩
def OTP_EVTEN_DONE : Fld := ⟨OTP_EVTEN, 0, 0⟩
/-- `OTP_SHSEL`, at 0x0920 (18_otp.md). -/
def OTP_SHSEL : Reg := { base := 0x0920, stride := 0x0, count := 1, copies := false, dom := fun _ => 1, reset := fun _ => 0x00000000#32, fields := [⟨4, 0, .rw, false⟩] }
def OTP_SHSEL_FIELD : Fld := ⟨OTP_SHSEL, 4, 0⟩
/-- `OTP_SHDATA`, at 0x0921 (18_otp.md). -/
def OTP_SHDATA : Reg := { base := 0x0921, stride := 0x0, count := 1, copies := false, dom := fun _ => 1, reset := fun _ => 0x00000000#32, fields := [⟨31, 0, .rw, true⟩] }
def OTP_SHDATA_VALUE : Fld := ⟨OTP_SHDATA, 31, 0⟩
/-- `OTP_SHCTRL`, at 0x0922 (18_otp.md). -/
def OTP_SHCTRL : Reg := { base := 0x0922, stride := 0x0, count := 1, copies := false, dom := fun _ => 1, reset := fun _ => 0x00000000#32, fields := [⟨1, 1, .wo, false⟩, ⟨0, 0, .wo, false⟩] }
def OTP_SHCTRL_RELALL : Fld := ⟨OTP_SHCTRL, 1, 1⟩
def OTP_SHCTRL_REL : Fld := ⟨OTP_SHCTRL, 0, 0⟩
/-- `OTP_SHMASK`, at 0x0923 (18_otp.md). -/
def OTP_SHMASK : Reg := { base := 0x0923, stride := 0x0, count := 1, copies := false, dom := fun _ => 1, reset := fun _ => 0x00000000#32, fields := [⟨20, 0, .ro, false⟩] }
def OTP_SHMASK_FIELDS : Fld := ⟨OTP_SHMASK, 20, 0⟩
/-- `PAT_CTRL`, at 0x0B00 (19_patina_log.md). -/
def PAT_CTRL : Reg := { base := 0x0B00, stride := 0x0, count := 1, copies := false, dom := fun _ => 10, reset := fun _ => 0x00000001#32, fields := [⟨27, 16, .rw, false⟩, ⟨2, 2, .rw, false⟩, ⟨1, 1, .rw, true⟩, ⟨0, 0, .rw, true⟩] }
def PAT_CTRL_WMARK : Fld := ⟨PAT_CTRL, 27, 16⟩
def PAT_CTRL_MARKALL : Fld := ⟨PAT_CTRL, 2, 2⟩
def PAT_CTRL_FULLSTOP : Fld := ⟨PAT_CTRL, 1, 1⟩
def PAT_CTRL_EN : Fld := ⟨PAT_CTRL, 0, 0⟩
/-- `PAT_STAT`, at 0x0B01 (19_patina_log.md). -/
def PAT_STAT : Reg := { base := 0x0B01, stride := 0x0, count := 1, copies := false, dom := fun _ => 10, reset := fun _ => 0x80000000#32, fields := [⟨31, 31, .ro, false⟩, ⟨30, 30, .ro, false⟩, ⟨29, 29, .ro, false⟩, ⟨28, 28, .ro, false⟩, ⟨12, 0, .ro, false⟩] }
def PAT_STAT_REBUILD : Fld := ⟨PAT_STAT, 31, 31⟩
def PAT_STAT_CLEARING : Fld := ⟨PAT_STAT, 30, 30⟩
def PAT_STAT_PEND : Fld := ⟨PAT_STAT, 29, 29⟩
def PAT_STAT_FULL : Fld := ⟨PAT_STAT, 28, 28⟩
def PAT_STAT_COUNT : Fld := ⟨PAT_STAT, 12, 0⟩
/-- `PAT_HEAD`, at 0x0B02 (19_patina_log.md). -/
def PAT_HEAD : Reg := { base := 0x0B02, stride := 0x0, count := 1, copies := false, dom := fun _ => 10, reset := fun _ => 0x00000000#32, fields := [⟨31, 16, .ro, false⟩, ⟨11, 0, .ro, false⟩] }
def PAT_HEAD_NEXTSEQ : Fld := ⟨PAT_HEAD, 31, 16⟩
def PAT_HEAD_HEAD : Fld := ⟨PAT_HEAD, 11, 0⟩
/-- `PAT_GEN`, at 0x0B03 (19_patina_log.md). -/
def PAT_GEN : Reg := { base := 0x0B03, stride := 0x0, count := 1, copies := false, dom := fun _ => 10, reset := fun _ => 0x00000000#32, fields := [⟨31, 0, .ro, false⟩] }
def PAT_GEN_GEN : Fld := ⟨PAT_GEN, 31, 0⟩
/-- `PAT_LOST`, at 0x0B04 (19_patina_log.md). -/
def PAT_LOST : Reg := { base := 0x0B04, stride := 0x0, count := 1, copies := false, dom := fun _ => 10, reset := fun _ => 0x00000000#32, fields := [⟨31, 0, .ro, false⟩] }
def PAT_LOST_COUNT : Fld := ⟨PAT_LOST, 31, 0⟩
/-- `PAT_NEW`, at 0x0B05 (19_patina_log.md). -/
def PAT_NEW : Reg := { base := 0x0B05, stride := 0x0, count := 1, copies := false, dom := fun _ => 10, reset := fun _ => 0x00000000#32, fields := [⟨12, 0, .ro, false⟩] }
def PAT_NEW_COUNT : Fld := ⟨PAT_NEW, 12, 0⟩
/-- `PAT_CMD`, at 0x0B06 (19_patina_log.md). -/
def PAT_CMD : Reg := { base := 0x0B06, stride := 0x0, count := 1, copies := false, dom := fun _ => 10, reset := fun _ => 0x00000000#32, fields := [⟨31, 16, .key, false⟩, ⟨2, 2, .wo, false⟩, ⟨1, 1, .wo, false⟩, ⟨0, 0, .wo, false⟩] }
def PAT_CMD_KEY : Fld := ⟨PAT_CMD, 31, 16⟩
def PAT_CMD_ACK : Fld := ⟨PAT_CMD, 2, 2⟩
def PAT_CMD_CLRCNT : Fld := ⟨PAT_CMD, 1, 1⟩
def PAT_CMD_CLR : Fld := ⟨PAT_CMD, 0, 0⟩
/-- `PAT_EVT`, at 0x0B07 (19_patina_log.md). -/
def PAT_EVT : Reg := { base := 0x0B07, stride := 0x0, count := 1, copies := false, dom := fun _ => 10, reset := fun _ => 0x00000000#32, fields := [⟨5, 5, .w1c, false⟩, ⟨4, 4, .w1c, false⟩, ⟨3, 3, .w1c, false⟩, ⟨2, 2, .w1c, false⟩, ⟨1, 1, .w1c, false⟩, ⟨0, 0, .w1c, false⟩] }
def PAT_EVT_SATURATED : Fld := ⟨PAT_EVT, 5, 5⟩
def PAT_EVT_ABORTED : Fld := ⟨PAT_EVT, 4, 4⟩
def PAT_EVT_WFAIL : Fld := ⟨PAT_EVT, 3, 3⟩
def PAT_EVT_CLEARED : Fld := ⟨PAT_EVT, 2, 2⟩
def PAT_EVT_LOST : Fld := ⟨PAT_EVT, 1, 1⟩
def PAT_EVT_WMARK : Fld := ⟨PAT_EVT, 0, 0⟩
/-- `PAT_EVTEN`, at 0x0B08 (19_patina_log.md). -/
def PAT_EVTEN : Reg := { base := 0x0B08, stride := 0x0, count := 1, copies := false, dom := fun _ => 10, reset := fun _ => 0x00000000#32, fields := [⟨5, 5, .rw, false⟩, ⟨4, 4, .rw, false⟩, ⟨3, 3, .rw, false⟩, ⟨2, 2, .rw, false⟩, ⟨1, 1, .rw, false⟩, ⟨0, 0, .rw, false⟩] }
def PAT_EVTEN_SATURATED : Fld := ⟨PAT_EVTEN, 5, 5⟩
def PAT_EVTEN_ABORTED : Fld := ⟨PAT_EVTEN, 4, 4⟩
def PAT_EVTEN_WFAIL : Fld := ⟨PAT_EVTEN, 3, 3⟩
def PAT_EVTEN_CLEARED : Fld := ⟨PAT_EVTEN, 2, 2⟩
def PAT_EVTEN_LOST : Fld := ⟨PAT_EVTEN, 1, 1⟩
def PAT_EVTEN_WMARK : Fld := ⟨PAT_EVTEN, 0, 0⟩
/-- `PAT_OFFIDX`, at 0x0B10 + 0x10000·n (19_patina_log.md). -/
def PAT_OFFIDX : Reg := { base := 0x0B10, stride := 0x10000, count := 64, copies := true, dom := fun _ => 10, reset := fun _ => 0x00000000#32, fields := [⟨31, 31, .rw, false⟩, ⟨11, 0, .rw, false⟩] }
def PAT_OFFIDX_AUTOINC : Fld := ⟨PAT_OFFIDX, 31, 31⟩
def PAT_OFFIDX_IDX : Fld := ⟨PAT_OFFIDX, 11, 0⟩
/-- `PAT_OFFSTAT`, at 0x0B11 + 0x10000·n (19_patina_log.md). -/
def PAT_OFFSTAT : Reg := { base := 0x0B11, stride := 0x10000, count := 64, copies := true, dom := fun _ => 10, reset := fun _ => 0x00000000#32, fields := [⟨31, 31, .ro, false⟩, ⟨30, 30, .ro, false⟩, ⟨11, 0, .ro, false⟩] }
def PAT_OFFSTAT_VALID : Fld := ⟨PAT_OFFSTAT, 31, 31⟩
def PAT_OFFSTAT_ECC : Fld := ⟨PAT_OFFSTAT, 30, 30⟩
def PAT_OFFSTAT_SNAPIDX : Fld := ⟨PAT_OFFSTAT, 11, 0⟩
/-- `PAT_OFFDATA0`, at 0x0B18 + 0x10000·n (19_patina_log.md). -/
def PAT_OFFDATA0 : Reg := { base := 0x0B18, stride := 0x10000, count := 64, copies := true, dom := fun _ => 10, reset := fun _ => 0x00000000#32, fields := [⟨31, 0, .ro, false⟩] }
def PAT_OFFDATA0_DATA : Fld := ⟨PAT_OFFDATA0, 31, 0⟩
/-- `PAT_OFFDATA1`, at 0x0B19 + 0x10000·n (19_patina_log.md). -/
def PAT_OFFDATA1 : Reg := { base := 0x0B19, stride := 0x10000, count := 64, copies := true, dom := fun _ => 10, reset := fun _ => 0x00000000#32, fields := [⟨31, 0, .ro, false⟩] }
def PAT_OFFDATA1_DATA : Fld := ⟨PAT_OFFDATA1, 31, 0⟩
/-- `PAT_OFFDATA2`, at 0x0B1A + 0x10000·n (19_patina_log.md). -/
def PAT_OFFDATA2 : Reg := { base := 0x0B1A, stride := 0x10000, count := 64, copies := true, dom := fun _ => 10, reset := fun _ => 0x00000000#32, fields := [⟨31, 0, .ro, false⟩] }
def PAT_OFFDATA2_DATA : Fld := ⟨PAT_OFFDATA2, 31, 0⟩
/-- `PAT_OFFDATA3`, at 0x0B1B + 0x10000·n (19_patina_log.md). -/
def PAT_OFFDATA3 : Reg := { base := 0x0B1B, stride := 0x10000, count := 64, copies := true, dom := fun _ => 10, reset := fun _ => 0x00000000#32, fields := [⟨31, 0, .ro, false⟩] }
def PAT_OFFDATA3_DATA : Fld := ⟨PAT_OFFDATA3, 31, 0⟩
/-- `PAT_OFFDATA4`, at 0x0B1C + 0x10000·n (19_patina_log.md). -/
def PAT_OFFDATA4 : Reg := { base := 0x0B1C, stride := 0x10000, count := 64, copies := true, dom := fun _ => 10, reset := fun _ => 0x00000000#32, fields := [⟨31, 0, .ro, false⟩] }
def PAT_OFFDATA4_DATA : Fld := ⟨PAT_OFFDATA4, 31, 0⟩
/-- `PAT_OFFDATA5`, at 0x0B1D + 0x10000·n (19_patina_log.md). -/
def PAT_OFFDATA5 : Reg := { base := 0x0B1D, stride := 0x10000, count := 64, copies := true, dom := fun _ => 10, reset := fun _ => 0x00000000#32, fields := [⟨31, 0, .ro, false⟩] }
def PAT_OFFDATA5_DATA : Fld := ⟨PAT_OFFDATA5, 31, 0⟩
/-- `PAT_OFFDATA6`, at 0x0B1E + 0x10000·n (19_patina_log.md). -/
def PAT_OFFDATA6 : Reg := { base := 0x0B1E, stride := 0x10000, count := 64, copies := true, dom := fun _ => 10, reset := fun _ => 0x00000000#32, fields := [⟨31, 0, .ro, false⟩] }
def PAT_OFFDATA6_DATA : Fld := ⟨PAT_OFFDATA6, 31, 0⟩
/-- `PAT_OFFDATA7`, at 0x0B1F + 0x10000·n (19_patina_log.md). -/
def PAT_OFFDATA7 : Reg := { base := 0x0B1F, stride := 0x10000, count := 64, copies := true, dom := fun _ => 10, reset := fun _ => 0x00000000#32, fields := [⟨31, 0, .ro, false⟩] }
def PAT_OFFDATA7_DATA : Fld := ⟨PAT_OFFDATA7, 31, 0⟩
end Sys2Proof.Machine
end

