-- ==== Sys2Proof/Machine/Status.lean ====
section
/-! DEFINITION. The status codes of R333, and the masters' numbers. -/
namespace Sys2Proof.Machine

/-- The statuses of R333. -/
inductive Status where
  | ok | noaddr | pdoff | pairerr | superseded | eccerr | busy | none | modedeny | illegal | keyerr | otpdeny
  | overruled | nocfg | outofrange | outofbound | railon | trackloop | maperr | nosupply | livebank | porton
  | engrun | spare | nolink | linkver | lxon | inuse | poolloop | baton | auxon | auxchg | notready | hot | thmon
  | needpair | violation | frozen | crcerr | frameerr | aliveerr | repeated | vererr | wait | cmderr
  deriving DecidableEq, Repr

/-- The code of a status (R333). -/
def Status.code : Status → Nat
  | .ok => 0x00 | .noaddr => 0x01 | .pdoff => 0x02 | .pairerr => 0x03 | .superseded => 0x04 | .eccerr => 0x05
  | .busy => 0x06 | .none => 0x07 | .modedeny => 0x10 | .illegal => 0x11 | .keyerr => 0x12 | .otpdeny => 0x13
  | .overruled => 0x14 | .nocfg => 0x15 | .outofrange => 0x16 | .outofbound => 0x17 | .railon => 0x18
  | .trackloop => 0x19 | .maperr => 0x1A | .nosupply => 0x1B | .livebank => 0x1C | .porton => 0x1D | .engrun => 0x1E
  | .spare => 0x1F | .nolink => 0x20 | .linkver => 0x21 | .lxon => 0x22 | .inuse => 0x23 | .poolloop => 0x24
  | .baton => 0x25 | .auxon => 0x26 | .auxchg => 0x27 | .notready => 0x28 | .hot => 0x29 | .thmon => 0x2A
  | .needpair => 0x2B | .violation => 0x30 | .frozen => 0x31 | .crcerr => 0x40 | .frameerr => 0x41
  | .aliveerr => 0x42 | .repeated => 0x43 | .vererr => 0x44 | .wait => 0x45 | .cmderr => 0x46

end Sys2Proof.Machine
end

