-- ==== Sys2Proof/Machine/State.lean ====
section
/-! DEFINITION. The state of the block as plain data, the reasons a step can stop, and the state after reset. -/
namespace Sys2Proof.Machine

/-! ## Shared records -/

/-- The parts of R1: the OLR7264, and the OLR7248 with fewer rails, phases and engines (R3). -/
inductive Part where
  | olr7264 | olr7248
  deriving DecidableEq, Repr

/-- An assertion of a fault source that FLT has not evaluated yet (R350): the source, the instance and the detail that
DATA0 carries, and DATA1. -/
structure FaultPost where
  src : Nat
  inst : Nat
  detail : Nat
  data1 : Word
  deriving DecidableEq, Repr

/-- A patina record on its way to the ring (R424, R426): its TYPE, its SRC byte and its twelve content bytes. -/
structure PatRecord where
  kind : Nat
  src : Nat
  time : Nat
  bytes : List Nat
  replay : Bool := false
  inj : Bool := false
  /-- The mode that a STARTUP record's FLAGS show: that of its point (R71). -/
  mode : Option Nat := none
  deriving DecidableEq, Repr

/-- What has happened to the check bits of a protected line (R366, R367, R368): one damaged symbol, or more. -/
inductive LineDamage where
  | none | one | many
  deriving DecidableEq, Repr

/-! ## Modes (02_modes.md) -/

/-- Who asked for a mode (R41): a hardware cause, a host port (0 HSPI0, 1 HSPI1, 2 SVC) or an engine. -/
inductive ModeSrc where
  | hw (cause : Nat)
  | host (port : Nat)
  | engine (e : Nat)
  deriving DecidableEq, Repr

/-- A mode request that the mode controller has not answered yet. -/
structure ModeReq where
  src : ModeSrc
  target : Nat
  sdend : Nat
  /-- The mode key that a host wrote with it (R43). -/
  key : Nat := 0
  /-- It was held through a transition, or lost an arbitration as a SHUTDOWN request (R41, R42). -/
  held : Bool := false
  deriving DecidableEq, Repr

/-- A transition in progress (R46): who asked, the mode left, the mode entered, and the tiers of domains still to be
powered, first tier first. `release` holds the domains still to be released once their units have drained. -/
structure Transition where
  req : ModeReq
  old : Nat
  target : Nat
  release : List Nat
  tiers : List (List Nat)
  deriving DecidableEq, Repr

/-- What the mode controller keeps beside its registers (R41, R42, R46–R50). -/
structure ModeH where
  /-- Requests waiting for the arbitration, oldest first. -/
  reqs : List ModeReq := []
  trans : Option Transition := none
  /-- The SHUTDOWN request whose end state stands (R48). -/
  shutdown : Option ModeReq := none
  /-- The deadline of R47 ended the down-sequence. -/
  deadline : Bool := false
  /-- The engine that marked a RESUME point not yet passed (R47). -/
  resumeBy : Option Nat := none
  /-- Optional domains removed by a write of OPT that still drain, and the tiers of those added that are being powered (R35). -/
  optRelease : List Nat := []
  optTiers : List (List Nat) := []
  /-- OPT of the target mode was written during the transition (R35). -/
  optDue : Bool := false
  /-- Wake events held while the die limit stands, as WAKESRC bits (R322). -/
  heldWakes : Nat := 0
  /-- The re-arm time runs (R47), or the device waits for its restart. -/
  rearm : Bool := false
  /-- The WAKE deadline counts (R49). -/
  wakeTimer : Bool := false
  /-- The MODE record held in PD0 until PD10 takes records (R46). -/
  heldRecord : Option PatRecord := none
  /-- The sub-second accumulators of the hour counters, in microseconds, by mode code (R50). -/
  hourAcc : List (Nat × Nat) := []
  /-- TBASE of the last change of a value that CHECK keeps a history of, by the key of `histKey` (R203). -/
  hist : List (Nat × Nat) := []
  deriving DecidableEq, Repr

/-! ## Budget (09_budget_policy.md) -/

/-- A claim of a program, a hardware consumer or a child pool on a pool (R221–R225): the requested level, the grant, the
part of the grant that is a clause reservation (R222), whether a part is pending, since when, whether its cause is SUBJ
(R224), and whether it was refused (R225). -/
structure Claim where
  level : Nat := 0
  grant : Nat := 0
  subj : Nat := 0
  /-- The increase was asked inside a clause, and the level the claim had before (R222). -/
  inClause : Bool := false
  base : Nat := 0
  pending : Bool := false
  since : Nat := 0
  causeSubj : Bool := false
  refused : Bool := false
  deriving DecidableEq, Repr

/-- The budget arbiter's claims, and its pinned-time counters (R219–R234). -/
structure BudH where
  /-- Program claims, program `p` on pool `k` at key `8 * p + k`. -/
  prog : List (Nat × Claim) := []
  /-- Hardware consumers 0–9. -/
  hw : List (Nat × Claim) := []
  /-- Child pools, by child. -/
  child : List (Nat × Claim) := []
  /-- Pinned milliseconds, rail `n` and quantity `q` at key `4 * n + q` (R233). -/
  pinMs : List (Nat × Nat) := []
  /-- The fraction of a millisecond carried, in nanoseconds. -/
  pinNs : List (Nat × Nat) := []
  /-- A pinned-time counter that has saturated (R13). -/
  pinSat : List (Nat × Bool) := []
  /-- The quantity is pinned now. -/
  pinned : List (Nat × Bool) := []
  /-- The pinned event has been raised in the present stretch. -/
  pinRaised : List (Nat × Bool) := []
  deriving DecidableEq, Repr

/-! ## Anticipation (06_anticipation.md) -/

/-- The four words of an Intent Table entry (R141). -/
structure Entry where
  w0 : Word := 0
  w1 : Word := 0
  w2 : Word := 0
  w3 : Word := 0
  deriving DecidableEq, Repr

/-- The answers a port drives (R129). -/
inductive Answer where
  | none | grant | defer | refuse
  deriving DecidableEq, Repr

/-- One code's answer in a published vector, with the snapshot it was computed from (R134, R137). -/
structure VecAns where
  ans : Answer := .refuse
  cause : Nat := 0
  short : Nat := 0
  bank : Nat := 0
  entry : Entry := {}
  deriving DecidableEq, Repr

/-- One buffer of a group's hold register (R135): the answers, port `i` of the group and code `c` at key `64 * i + c`,
the epoch and the ports' grant counts. -/
structure VecBuf where
  answers : List (Nat × VecAns) := []
  epoch : Nat := 0
  gcounts : List (Nat × Nat) := []
  /-- The last allowance reduction that this vector counts, by port of the group (R138). -/
  cuts : List (Nat × Nat) := []
  /-- The bank each port of the group answers from in this vector (R140). -/
  banks : List (Nat × Nat) := []
  /-- The ports of the group that held an open intent when the vector was computed (R129). -/
  opens : List Nat := []
  deriving DecidableEq, Repr

/-- A group of four ports (R127, R135). -/
structure GroupH where
  active : VecBuf := {}
  inactive : Option VecBuf := none
  epoch : Nat := 0
  deriving DecidableEq, Repr

/-- A beat in the capture FIFO of a port (R137). -/
structure Beat where
  release : Bool
  code : Nat
  scale : Nat
  ans : VecAns
  epoch : Nat
  deriving DecidableEq, Repr

/-- What an intent port keeps beside its registers. -/
structure PortH where
  fifo : List Beat := []
  /-- BUSY and the port's own grant count in CK_IPg (R136). -/
  busy : Bool := false
  gcount : Nat := 0
  /-- The code of an IPv2 request whose SCALE beat has not come yet (R131). -/
  first : Option Nat := none
  /-- The value driven on IACKn (R129). -/
  iack : Nat := 0
  /-- The BUDG of the code of the last DEFER (R152). -/
  asked : Nat := 0
  /-- The entry copied into the intent record, unscaled, with the BUDG reserved (R137, R142). -/
  entry : Entry := {}
  reserved : Nat := 0
  /-- The pool the reservation or the grant was drawn from. -/
  pool : Nat := 0
  /-- Allowance reductions not yet published, and published but not yet swapped in, and the number of the last reduction (R138). -/
  cut : Nat := 0
  cutSeq : Nat := 0
  /-- The reduction is one of a capacity cut, and what grants have drawn on it (R229). -/
  capCut : Bool := false
  drawn : Nat := 0
  /-- Banks that IPn_BANK no longer names and that no vector of the new bank has replaced yet (R140). -/
  oldBanks : List Nat := []
  deriving DecidableEq, Repr

/-! ## Rails (04_rail_regulation.md) -/

/-- Where a contribution stands (R143, R149; the codes of IPT_RSLOTn). -/
inductive TermPhase where
  | subj | confirmed | revoked
  deriving DecidableEq, Repr

/-- One contribution in a rail's slot (R143). The pre-bias is in 2^-10 µV and the feed-forward in µA, as they stand now. -/
structure Contrib where
  slot : Nat
  port : Nat
  /-- The contribution is that of the entry's rail B. -/
  second : Bool
  phase : TermPhase := .subj
  /-- The contribution has been applied at a loop update, and `ib` is its baseline (R144). -/
  applied : Bool := false
  ib : Int := 0
  met : Bool := false
  stepMA : Int := 0
  cfrac : Nat := 16
  pb : Int := 0
  ff : Int := 0
  /-- The feed-forward at the start of its ramp, and the ramp time in nanoseconds (UNWIND). -/
  ffFrom : Int := 0
  unwindNs : Nat := 1000
  phadd : Nat := 0
  shdly : Nat := 0
  /-- The armed phases wait for the end of SHDLY after a revocation (R148). -/
  armHeld : Bool := false
  deriving DecidableEq, Repr

/-- The clause term of a rail (R177): the engine whose clause it is, the pre-bias as it stands and the rate at which it
moves, the armed count, and whether the clause is still open. -/
structure ClauseTerm where
  eng : Nat
  phase : TermPhase := .subj
  pb : Int := 0
  /-- The pre-bias set by the last SETV and the count armed by the last PHASE ARM, applied at the next loop update. -/
  setPb : Option Int := none
  setArm : Option Nat := none
  /-- The target and the rate of the last SETV; at confirmation a SETV with them is due until it has reached the rail (R178). -/
  target : Nat := 0
  rate : Nat := 0
  hasTarget : Bool := false
  arm : Nat := 0
  armHeld : Bool := false
  /-- Phases that revoked clauses armed on the rail and that wait for CLSHDLY, with the engines of those clauses, oldest first. -/
  olds : List (Nat × Nat) := []
  deriving DecidableEq, Repr

/-- A set of compensator coefficients: the words COMP0–COMP3 (R81). -/
structure CompSet where
  c0 : Word := 0
  c1 : Word := 0
  c2 : Word := 0x1000
  c3 : Word := 0
  deriving DecidableEq, Repr

/-- What a rail loop keeps beside its registers (R73–R99). -/
structure RailH where
  /-- The slew generator's output, in 2^-10 µV (R83). -/
  gen : Nat := 0
  /-- The target of the move, its issuer, and the rate the command gave (0: RLn_SLEW). -/
  target : Nat := 0
  issuer : Nat := 0
  rate : Nat := 0
  /-- The rate in µV/µs of the move in progress and whether it goes up: the same at every update of the move (R83). -/
  move : Option (Nat × Bool) := none
  /-- The effective reference of the last update in µV, the code of the reference DAC (R77), and the mean error in quarter codes
  (R79). -/
  eff : Int := 0
  dac : Nat := 0
  err : Int := 0
  /-- VSET as the last loop update found it, and the generator's output as that update left it (R283); none before the first. -/
  vsetAt : Option Nat := none
  genAt : Option Nat := none
  /-- RLn_STAT.SUBJ as of the last loop update, which its samples carry (R292). -/
  subjAt : Bool := false
  /-- The compensator's state, in 2^-14 duty units (R79). -/
  i : Int := 0
  d : Int := 0
  w : Int := 0
  ePrev : Int := 0
  comp : CompSet := {}
  applyNext : Bool := false
  /-- The managed phase count of R88, and how long its add and shed conditions have held, in ns; `floorNs` is the same for the
  shed condition at PHFLOOR (R232). -/
  managed : Nat := 0
  addNs : Nat := 0
  shedNs : Nat := 0
  floorNs : Nat := 0
  /-- IRAIL of the last frames, newest first, at most four (R144). -/
  hist : List Int := []
  contribs : List Contrib := []
  clause : Option ClauseTerm := none
  /-- Balance trims by phase, in 2^-8 duty units (R91). -/
  trims : List (Nat × Int) := []
  /-- Interleave offsets by phase in ticks, and the periods the present move still takes (R90). -/
  offs : List (Nat × Int) := []
  offLeft : Nat := 0
  /-- DLYTRIM by phase as of the present period's start (R126). -/
  dly : List (Nat × Int) := []
  /-- The switching period that a PERIOD write replaces at the next period start (R90). -/
  period : Nat := 0x3200
  /-- The start of the present period in ticks, set by the first frame after the entry to SOFTSTART (R106). -/
  start : Option Nat := none
  /-- An active phase flagged a limited cycle in the present period, and the period's largest IRAIL (R92). -/
  limited : Bool := false
  peak : Option Int := none
  /-- The current-limit derate in force in the present period (R92, R320). -/
  derate : Nat := 0
  /-- The phases that carried 5 % of IRAIL / NACT in a frame of the present period, and for how many consecutive periods each
  other active phase has stayed below it (R94, cause OPEN). -/
  carried : List Nat := []
  openN : List (Nat × Nat) := []
  /-- An update has formed the reference by tracking since it was engaged (R86). -/
  tracking : Bool := false
  /-- The state that a DRAINING rail has left: its phases stay as in it (R73). -/
  left : Nat := 0
  /-- A safety action of R98 turned the rail OFF, and it has not been enabled since (R234). -/
  overOff : Bool := false
  deriving DecidableEq, Repr

/-! ## Engines and programs (07_engines.md, 08_instruction_set.md) -/

/-- A condition word of R200 with its value read at retire. -/
structure Cond where
  sel : Nat
  idx : Nat
  neg : Bool
  kind : Nat
  value : Word
  deriving DecidableEq, Repr

/-- What a waiting CHECK has seen of its selector (R203): the value at the last evaluation, since when it has stood, how often it has
changed since the first evaluation, and when that was. -/
structure Watch where
  value : Bool
  since : Nat
  changes : Nat
  start : Nat
  deriving DecidableEq, Repr

/-- What a WAITING engine waits for (R171), with its time and the TBASE value at retire (R199). -/
inductive Waiting where
  | time (us start : Nat)
  | cond (c : Cond) (label timeout start : Nat)
  | check (c : Cond) (code dwell timeout chlim pc : Nat) (watch : Watch)
  | sync (barrier gen label timeout start : Nat)
  deriving DecidableEq, Repr

/-- A signal on its way to a program (R173): the sending program, the receiving program, its number, its sequence, and the
sender's REPLAY. -/
structure SigMsg where
  src : Nat
  dst : Nat
  signo : Nat
  seq : Nat
  replay : Bool
  deriving DecidableEq, Repr

/-- The effect of an instruction that leaves the engine at retire, or is held in a clause until it confirms (R176), with
the operand values read at retire. -/
inductive Effect where
  | enr (rail : Nat)
  | disr (rail : Nat)
  | setv (rail target rate : Nat)
  | railField (rail off : Nat) (v : Word)
  | unfence (rail : Nat) (v : Word)
  | track (rail leader mode ratio : Nat)
  | brel (pool level : Nat)
  | breqLower (pool level : Nat)
  | stx (addr : Nat) (v : Word)
  | stShared (addr : Nat) (v : Word)
  | sig (prog n : Nat)
  | log (code : Nat) (a b : Word) (pc : Nat)
  | out (idx : Nat) (level : Bool)
  | intent (port code scale : Nat)
  | fence (kind index : Nat)
  | modeReq (target sdend : Nat)
  | modeResume
  | modePass
  /-- SIG and LOG as they leave the engine: with the sequence drawn (R173), with the record made (R215). -/
  | signal (m : SigMsg)
  | record (r : PatRecord)
  deriving DecidableEq, Repr

/-- The kinds of an armature transfer (R16). -/
inductive XferKind where
  | read | write | event
  deriving DecidableEq, Repr

/-- One armature transfer (R16, R18): the value and its complement travel as a pair, with the kind and a 4-bit sequence number of the
master. `act` is the effect that an engine's instruction other than STX works at the target; none for the write of a register word. -/
structure Transfer where
  master : Nat
  addr : Nat
  value : Word
  comp : Word
  kind : XferKind := .write
  seq : Nat := 0
  act : Option Effect := none
  deriving DecidableEq, Repr

/-- An open clause (R175): its condition, its revocation label, its window in µs, and the rails it touches. -/
structure Clause where
  cond : Cond
  label : Nat
  window : Nat
  opened : Nat
  rails : List Nat := []
  deriving DecidableEq, Repr

/-- A status on its way back to an engine for a posted instruction (R184, R196): the status, the freeze cause if the
target found a violation, and the word address. -/
structure PostedStatus where
  status : Status
  freeze : Nat
  addr : Nat
  deriving DecidableEq, Repr

/-- A checkpoint copy in progress (R181): the program, the frame words 0x100–0x12E captured at retire, and the lines of the
private window to copy. -/
structure CkptCopy where
  prog : Nat
  frame : List Word
  lines : Nat
  deriving DecidableEq, Repr

/-- A restore in progress on an engine (R182, R185): the program, the engine it came from, and whether the comparator
self-check is still running. -/
structure Restore where
  prog : Nat
  src : Nat
  checking : Bool
  inPlace : Bool
  deriving DecidableEq, Repr

/-- What an engine keeps beside its registers (R165, R171–R186). -/
structure EngH where
  /-- The return stack, top first, at most eight entries. -/
  stack : List Nat := []
  wait : Option Waiting := none
  clause : Option Clause := none
  held : List Effect := []
  /-- Held effects of a confirmed clause that have not left yet (R178): they leave before any later effect. -/
  issue : List Effect := []
  /-- The hop that finds the pair of the read transfer in progress mismatched (R17). -/
  badRead : Option Nat := none
  posted : List PostedStatus := []
  ckpt : Option CkptCopy := none
  restore : Option Restore := none
  /-- Instructions still to retire before REPLAY clears (R183). -/
  replayLeft : Nat := 0
  /-- The engine's registers SAT state (R13): NCONF, NREVK saturated. -/
  satConf : Bool := false
  satRevk : Bool := false
  deriving DecidableEq, Repr

/-- What belongs to a program and moves with it (R163). -/
structure ProgH where
  /-- Lines of the private window written since the last CKPT, one bit each (R181). -/
  dirty : Nat := 0xFFFFFFFF
  /-- Signal sequence counters sent toward programs, and the last sequence accepted from programs (R173). -/
  sigTx : List (Nat × Nat) := []
  sigRx : List (Nat × Nat) := []
  /-- The program's engine is fenced and its migration has not succeeded yet (R174). -/
  awaiting : Bool := false
  /-- RETIRED at the fence (R183). -/
  retiredAtFence : Nat := 0
  deriving DecidableEq, Repr

/-- The programs' map and rights (R21, R64, R163). -/
structure ProgMap where
  /-- Owner and delegate program of each rail; 0xFF none. -/
  owner : List (Nat × Nat) := []
  delegate : List (Nat × Nat) := []
  /-- The engines the image lists as spares, and those it runs (R59). -/
  spareMask : Nat := 0
  runMask : Nat := 0
  deriving DecidableEq, Repr

/-! ## Patina log (19_patina_log.md) -/

/-- What the patina log keeps beside its registers and its RAM (R427–R433). -/
structure PatH where
  /-- The record queue, oldest first, at most eight (R429). -/
  queue : List PatRecord := []
  /-- Records dropped since the last record written. -/
  dropped : Nat := 0
  /-- The next record written carries the LOST flag. -/
  lostFlag : Bool := false
  /-- The master whose clear runs (R431). -/
  clearBy : Nat := 0
  /-- The slot of a FORM 1 record that awaits its mark, and the mark to be written. -/
  mark : Option Nat := none
  /-- NEW has reached WMARK and the event has been raised (R430). -/
  wmarkDone : Bool := false
  /-- PAT_LOST has saturated (R13). -/
  satLost : Bool := false
  deriving DecidableEq, Repr

/-! ## Faults (15_faults.md) -/

/-- What FLT keeps beside its registers. -/
structure FltH where
  /-- Assertions not yet evaluated, oldest first (R350). -/
  due : List FaultPost := []
  /-- Recorded fences: rail loops, and phases with their cause (R97). -/
  railF : List (Nat × Bool) := []
  phF : List (Nat × Nat) := []
  /-- Fences of LX modules and of AUX regulators, until a chip reset or an unfence (R256, R305). -/
  lxF : List (Nat × Bool) := []
  auxF : List (Nat × Bool) := []
  /-- The kinds of HKR_AUX that hold now for each AUX regulator, bit `k` for kind `k` (R304, R350). -/
  auxK : List (Nat × Nat) := []
  /-- The engines fenced since the last chip reset, one bit each (R171, R180). -/
  engF : Nat := 0
  /-- Conditions that hold now, source `s` and instance `i` at key `65536 * s + i` (R350). -/
  level : List (Nat × Bool) := []
  /-- A chip reset reaction has been given and has not taken effect yet (R355): the source. -/
  chipReset : Option Nat := none
  /-- Since when the error pair shows a fault, in TBASE µs (R357). -/
  epSince : Nat := 0
  /-- The detail and DATA1 with which a lasting condition last asserted, by the key of `level` (R360). -/
  data : List (Nat × Nat × Word) := []
  /-- The armed injection (R362): source, kind, instance, record only. -/
  armed : Option (Nat × Nat × Nat × Bool) := none
  /-- Injected assertions not yet evaluated (R363). -/
  injDue : List FaultPost := []
  /-- A ball of the error pair has been reported wrong in the present microsecond (R356). -/
  epSeen : Bool := false
  /-- ERRIN_N is low (R358). -/
  errin : Bool := false
  deriving DecidableEq, Repr

/-! ## Supervision and telemetry (12_supervision_telemetry.md) -/

/-- A telemetry channel (R293, R294): the sum and the count of the non-subjunctive samples of the present window and of
the present microsecond, the committed value, whether it is held, and the peak. -/
structure TelCh where
  sum : Int := 0
  n : Nat := 0
  usSum : Int := 0
  usN : Nat := 0
  value : Int := 0
  held : Bool := true
  peak : Option Int := none
  deriving DecidableEq, Repr

/-- A housekeeping converter (R297, R298): a trigger whose scan has not begun, the channels still to convert, and the
consecutive scans whose reference reading was out of range. -/
structure HadcH where
  trig : Bool := false
  scan : List Nat := []
  refBad : Nat := 0
  deriving DecidableEq, Repr

/-- What the supervisors keep beside their registers: the event counters and their SAT state (R291). -/
structure SupH where
  /-- Counter `8 * n + k` of rail `n`, and whether it has saturated. -/
  cnt : List (Nat × Nat) := []
  sat : List (Nat × Bool) := []
  /-- TBASE of the last deglitched transition of a comparator, quantity `q` of rail `n` at key `4 * n + q` (R286). -/
  since : List (Nat × Nat) := []
  /-- Consecutive conversions that agree with the other state of a general supervisor (R287). -/
  gsRun : List (Nat × Nat) := []
  /-- The threshold that general supervisor `k` crossed last is HI (R287), one bit each. -/
  gsHi : Nat := 0
  /-- TBASE at the start of the stretch of a reset output (R288). -/
  rstT : List (Nat × Nat) := []
  /-- Telemetry channels, kind `k` and index `i` at key `64 * k + i`. -/
  tel : List (Nat × TelCh) := []
  /-- The window exponent in force of a class of channels, and TBASE at the end of its last window (R293). -/
  telN : List (Nat × Nat) := []
  telAt : List (Nat × Nat) := []
  hadc : List (Nat × HadcH) := []
  /-- The reset outputs whose RSTREL step has executed in this stay in PLINTH, one bit each (R289). -/
  plRel : Nat := 0
  deriving DecidableEq, Repr

/-! ## Pins and supplies (20_package_pins.md) -/

/-- Levels at the balls that registers do not hold. -/
structure PinsH where
  /-- The class of each VDDIPg after its filter (R447): 0 absent, 1 1.8 V, 2 3.3 V. -/
  vddip : List (Nat × Nat) := []
  /-- The battery disconnect as the ship latch holds it: true closed (R260). -/
  bdis : Bool := true
  /-- ASSIST_EN is driven high (R278). -/
  assistEn : Bool := false
  /-- WAKE_BTN and SRCDET are high (R51). -/
  wakeBtn : Bool := false
  srcdet : Bool := false
  /-- The ship latch is armed and its 20 ms run; it holds PRE off (R277). -/
  armed : Bool := false
  preOff : Bool := false
  /-- IREQn at the last ICLKg edge, one bit each (R200). -/
  ireq : Nat := 0
  /-- PREIN stands below the input-loss threshold (R47, R200). -/
  inputLow : Bool := false
  deriving DecidableEq, Repr

/-! ## Links and the link converter (05_fenxo_link.md, 10_link_converter.md) -/

/-- A command on its way to a stage or waiting for its echo (R108): the code, the argument and the resends made. -/
structure LinkCmd where
  code : Nat
  arg : Nat
  resends : Nat := 0
  /-- The window of the frame before which it fell due (R108). -/
  due : Nat := 0
  deriving DecidableEq, Repr

/-- An edge fixed for a bridge frame (R240): its tick, its leg (0 A, 1 B) and its level. -/
structure BridgeEdge where
  tick : Int
  leg : Nat
  level : Bool
  deriving DecidableEq, Repr

/-- What one of the 72 links keeps beside its registers (R101–R125): links 0–63 are PH0–PH63, links 64–71 LXA0–LXB3. -/
structure LinkH where
  /-- The SEQ of the next downstream frame, and the reference of the upstream check (R104, R114). -/
  txSeq : Nat := 0
  rxRef : Option Nat := none
  /-- The frame last sent (R104), and whether link-reset sets follow (R116). -/
  frame : BitVec 64 := 0
  resets : Bool := false
  /-- Frames with DRV = 0b00 still to send, with CMD FENCE after a loss (R116) and without in a drain (R125). -/
  fencing : Nat := 0
  draining : Nat := 0
  /-- Commands that have fallen due, and those sent and not yet echoed, oldest first (R108). -/
  cmds : List LinkCmd := []
  sent : List LinkCmd := []
  /-- Consecutive bad frames, consecutive good frames with DNERR, and bad frames in the present 1 ms window (R115). -/
  bads : Nat := 0
  dns : Nat := 0
  winBad : Nat := 0
  /-- Sets or frames counted toward the present training step, the CAP set last seen, and the RTT echoes (R118). -/
  count : Nat := 0
  cap : Option (Nat × Nat × Nat × Nat × Nat) := none
  rtts : Nat := 0
  /-- The DSEQ lag seen in SETUP (R118), and the version of the training before (R126). -/
  lag : Option Nat := none
  prevVer : Nat := 0
  /-- The version chosen at CAPS, in force from UP, and FXCTRL.VMAX as the training began (R120, R126). -/
  ver : Nat := 0
  vmax : Nat := 3
  /-- An attempt has failed and a retry is due (R121). -/
  retry : Bool := false
  /-- The window that the last frame addressed, as a count of grid boundaries, and a frame has gone out since training reached SETUP
  (R102). -/
  window : Nat := 0
  framed : Bool := false
  /-- The rising edge of the pulse in progress, those placed after it before its falling edge, and the period start whose rising edge
  has been placed (R106). -/
  rise : Option Nat := none
  later : List Nat := []
  placed : Option Nat := none
  /-- The last frame drove the stage, and the tick at which the phase's present switching period ends (R89). -/
  drv : Bool := false
  till : Nat := 0
  /-- The code of the last IPV taken, the consecutive periods whose ripple missed the model's, and an out-of-range code in the last
  good frame (R94, R111). -/
  ipv : Option Nat := none
  sense : Nat := 0
  range : Bool := false
  /-- Edges fixed and not yet placed in a frame, for a bridge link (R240). -/
  edges : List BridgeEdge := []
  /-- The tick of the boundary up to which the bridge of a module that has stopped is still driven (R248). -/
  driveTo : Option Int := none
  /-- The good bridge frames of the last half periods, newest first (R243): the window, ICUR in mA, and VDC in µV where it carried it. -/
  means : List (Nat × Int × Option Int) := []
  deriving DecidableEq, Repr

/-- What a module of the link converter keeps beside its registers (R240–R256). -/
structure LxH where
  /-- The reference in µV, and its movement's target (R245). -/
  vref : Int := 0
  moving : Bool := false
  /-- The voltage and current integrators, in 2^-12 thousandths of their output's unit (R244). -/
  iv : Int := 0
  ii : Int := 0
  /-- Φ in force and the second half of a change of Φ (R241). -/
  phi : Int := 0
  phiHalf : Int := 0
  s1e : Nat := 0
  s2e : Nat := 0
  /-- The source bridge's width in passive receive (R247). -/
  w : Int := 0
  /-- The interleave offset, and the boundaries its movement still takes (R251). -/
  off : Int := 0
  offLeft : Nat := 0
  offGoal : Int := 0
  /-- The tick of the next boundary without its offset, and its parity h (R240). -/
  boundary : Option Int := none
  odd : Bool := false
  /-- Half periods run in the present START (R248). -/
  halves : Nat := 0
  /-- The configuration written in REVERSING or RUN that takes effect at zero (R250). -/
  config : Option Word := none
  /-- A restart request held in STOPPING (R249). -/
  restart : Bool := false
  /-- The CHG override's voltage target and current term (R246). -/
  chgV : Option Int := none
  chgI : Option Int := none
  /-- The demand of the voltage loop this module runs, for its group (R252). -/
  demand : Int := 0
  /-- The sides that have fallen below their source-low threshold and not risen 2 % above it since (R247). -/
  hvLow : Bool := false
  lvLow : Bool := false
  /-- vhv has come within PCBAND of VTGT since the START that began the precharge (R253). -/
  banded : Bool := false
  deriving DecidableEq, Repr

/-! ## Start-up (03_start_up.md) -/

/-- What start-up keeps beside its registers (R51–R72). -/
structure BootH where
  /-- A failed start waits for its choice (R67): the choice is PLINTH (true) or a restart (false). -/
  failing : Option Bool := none
  /-- Program start has been reached since the last start began (R59). -/
  started : Bool := false
  /-- The reason of a failed start that has not been acted on yet (R66). -/
  failDue : Option Nat := none
  /-- The ring of start-up records in PD0 retention, newest first, at most 64, and its own sequence (R71). -/
  ring : List (List Nat) := []
  ringSeq : Nat := 0
  /-- TBASE at the start of this WAKE, the times in ms at which its steps 4–9 were reached, and the mode before it (R71). -/
  wakeStart : Nat := 0
  stepMs : List (Nat × Nat) := []
  before : Nat := 2
  /-- The slots tried in this start with their failure reasons, first tried first: 0 A, 1 B, 2 the host's stream (R61). -/
  tried : List (Nat × Nat) := []
  /-- The image loaded: its slot and its header's 512 bytes (R59). -/
  image : Option (Nat × List Byte) := none
  /-- The loader takes the host's stream (R63), and its words so far, newest first. -/
  hostReq : Bool := false
  hostWords : List Word := []
  /-- SYS_QSPIADR and SYS_QSPIDAT (R65). -/
  qspiAdr : Word := 0
  qspiDat : Word := 0
  /-- The plinth sequencer runs; and what its present step waits for: 1 a WAIT, 2 a CHECKPG (R69). -/
  plRun : Bool := false
  plWait : Nat := 0
  /-- The next step of the plinth sequence. -/
  plNext : Nat := 0
  /-- The choice of R67 was PLINTH and a chip reset ended its wait: this start enters PLINTH after step 3. -/
  carry : Bool := false
  deriving DecidableEq, Repr


/-! ## Charging (11_charge_path.md) -/

/-- What CHG keeps beside its registers (R259–R280): the BATM path (`b…`), the BATH path (`h…`) and the assist session (`a…`). -/
structure ChgH where
  /-- The state that a suspended path resumes (R262). -/
  bOld : Nat := 0
  hOld : Nat := 0
  /-- A stop under R267 is recorded, and the recharge level has been seen for 10 s since. -/
  bStop : Bool := false
  bLow : Bool := false
  hStop : Bool := false
  hLow : Bool := false
  /-- The BATM disconnect is to be opened after a removal (R271). -/
  opening : Bool := false
  /-- Differences vlv − vbat and vlv − vas of the last computations, newest first, at most 100 (R264, R279). -/
  dvB : List Int := []
  dvA : List Int := []
  /-- Consecutive computations with the current below 2 % of the limit (R271). -/
  lowB : Nat := 0
  lowH : Nat := 0
  lowA : Nat := 0
  /-- The limit of the BATH path in mA, AUX3's input shortfall, and the last low-voltage mean (R263, R268). -/
  ilimH : Nat := 0
  short : Bool := false
  vlv : Int := 0
  /-- FAST: the peak of the 1 s means, consecutive means below it, the temperatures of the last 60 s newest first, consecutive
  seconds of fast rise, and the seconds since the entry to FAST (R270). -/
  hPeak : Int := 0
  hBelow : Nat := 0
  hTemps : List Int := []
  hRise : Nat := 0
  hSecs : Nat := 0
  /-- The assist session is in the CV phase of CHARGE (R279). -/
  aCv : Bool := false
  /-- No source has been there for 10 ms, and none has come since (R262, R268). -/
  noSrcB : Bool := false
  noSrcH : Bool := false
  /-- The cause that has acted on BATM, BATH or the session in the present computation: its rank, and the state before it (R273). -/
  causeB : Option (Nat × Nat) := none
  causeH : Option (Nat × Nat) := none
  causeA : Option (Nat × Nat) := none
  deriving DecidableEq, Repr


/-! ## Thermal maquette (13_thermal.md) -/

/-- What the maquette keeps beside its registers (R309–R318), by node. -/
structure ThmH where
  /-- The model temperature in 2^-20 of 0.01 °C; none for a node that has not started. -/
  temp : List (Nat × Option Int) := []
  /-- TN of the last update in 0.01 °C. -/
  tn : List (Nat × Option Int) := []
  /-- A good TEMP value has arrived since the last update (R314). -/
  fresh : List (Nat × Bool) := []
  /-- The sum of the loss samples since the last update in pW, and their count (R312). -/
  loss : List (Nat × Nat) := []
  lossN : List (Nat × Nat) := []
  /-- Consecutive updates with the reading out of range; on-die sensor `t` at key 100 + t (R314). -/
  oor : List (Nat × Nat) := []
  /-- Consecutive updates of the two cross-check conditions; on-die sensor `t` of R316 at key 100 + t. -/
  xc : List (Nat × Nat) := []
  xm : List (Nat × Nat) := []
  /-- The levels that are entered, level `k` in bit `k - 1` (R318). -/
  lvl : List (Nat × Nat) := []
  /-- The node has been loaded with its first valid sensor reading (R317). -/
  loaded : List (Nat × Bool) := []
  /-- MODELDEV has been raised in the present episode of a node (R315). -/
  dev : List (Nat × Bool) := []
  /-- On-die sensors marked broken, the die node's own mark, and the sensors' last readings (R315, R316). -/
  tsBrk : Nat := 0
  dieBrk : Bool := false
  ts : List (Nat × Int) := []
  /-- The period stretch of each throttled rail, in ticks (R320). -/
  stretch : List (Nat × Nat) := []
  deriving DecidableEq, Repr


/-! ## Data integrity (16_data_integrity.md) -/

/-- What a job has gathered (R379): the CRC, uncorrectable lines, and corrected lines. -/
structure ScanAcc where
  crc : Nat := 0
  ue : Bool := false
  corr : Nat := 0
  deriving DecidableEq, Repr

/-- A scan job as GO captured it (R377, R378), with the lines (in space 6, the words) that it has passed and what it has gathered. -/
structure ScanJob where
  space : Nat
  word : Nat
  len : Nat
  jkind : Nat
  kind : Nat
  passed : Nat := 0
  acc : ScanAcc := {}
  deriving DecidableEq, Repr

/-- The value half of a split pair that waits for its complement half (R373). -/
structure SplitHalf where
  addr : Nat
  master : Nat
  value : Word
  deriving DecidableEq, Repr

/-- What the core side of a rail loop's or LX module's crossing last received before the crossing shut (R383): the level of the
interrupt line, and the raw values by channel, channel `i` of kind `k` at key `64 * k + i`. -/
structure XHold where
  line : Bool
  raw : List (Nat × (Int × Bool)) := []
  deriving DecidableEq, Repr

/-- What CHK, the pair checkers and the crossings keep beside their registers. -/
structure ChkH where
  /-- The next line that the scrub reads: its RAM and its number (R371). -/
  scrubRam : Nat := 0
  scrubLine : Nat := 0
  job : Option ScanJob := none
  /-- The running state of each CRC unit (R376). -/
  crc : List (Nat × Nat) := []
  /-- Alive checkers whose next write is the first after their enable, one bit each (R381). -/
  alvOpen : Nat := 0
  split : List SplitHalf := []
  /-- Masters told SUPERSEDED for a value half whose complement half is still to come, with the word (R373). -/
  late : List (Nat × Nat) := []
  /-- The status that each hardware master last received (R17, R19, R373). -/
  told : List (Nat × Status) := []
  /-- Crossings whose paired reset is in progress (R385). -/
  xrst : List Nat := []
  /-- What the core side of a shut crossing holds (R383), and the entries that wait in the FIFO of an open one while CK_CORE stands
  (R26, R384), by crossing. -/
  held : List (Nat × XHold) := []
  fifo : List (Nat × Nat) := []
  deriving DecidableEq, Repr



/-! ## One-time-programmable memory (18_otp.md) -/

/-- A burn or a finalisation in progress (R414, R420): the region, the bits still to be judged as (word, bit) in their order,
the attempts made at the first of them, whether the pump is charged, and whether it ends after the pulse in progress. -/
structure OtpCmd where
  region : Nat
  todo : List (Nat × Nat)
  tries : Nat := 0
  charged : Bool := false
  ending : Bool := false
  deriving DecidableEq, Repr

/-- What the OTP controller keeps beside its registers and its arrays. -/
structure OtpH where
  cmd : Option OtpCmd := none
  /-- Bits that have failed their last verify, bit `b` of word `w` of region `r` at key `4096 * r + 32 * w + b` (R414, R416). -/
  weak : List (Nat × Bool) := []
  /-- Words of regions 0–2 as step 3 delivered them, word `w` of region `r` at key `128 * r + w` (R405, R406). -/
  snap : List (Nat × Word) := []
  /-- The TRIM values as step 3 delivered them, by field (R405). -/
  trim : List (Nat × Word) := []
  /-- The delivered fields whose pair a consumer has found to fail, by their number in OTP_CRIT (R405). -/
  failed : List (Nat × Bool) := []
  /-- Bits whose verify a reset cut short, as at `weak`: the next command that names their word checks them again (R416). -/
  cut : List (Nat × Bool) := []
  /-- PROVDIS is in effect (R418). -/
  provdis : Bool := false
  /-- Shadow overrides by TRIM field (R422). -/
  shadow : List (Nat × Word) := []
  deriving DecidableEq, Repr



/-! ## Watchdogs (17_watchdogs.md) -/

/-- What the next tick of an instance brings (R389, R396, R400): nothing new, the SERVICE of the period and a fresh one, or a fresh one. -/
inductive WdDue where
  | nothing | service | fresh
  deriving DecidableEq, Repr

/-- What a watchdog instance keeps beside its registers: the words that its running period began with (R390), whether CLKSEL
has been written since a monitor trip, whether one stands and whether both clocks are lost (R399), whether PREEXP has been set in the period (R391), a boot check-in held for the
open window (R393), the slots' last check-in times (R401), and the SAT state of EXPCNT. -/
structure WdH where
  /-- What the end of the present tick brings (R389). -/
  due : WdDue := .nothing
  cfg : Word := 0x9C4
  slots : Nat := 1
  owners : List (Nat × Nat) := []
  clkWritten : Bool := false
  tripped : Bool := false
  lost : Bool := false
  warned : Bool := false
  bootHeld : Bool := false
  times : List (Nat × Nat) := []
  sat : Bool := false
  deriving DecidableEq, Repr

/-! ## Hosts and interrupts (14_host_interrupts.md) -/

/-- A response frame before its CRC (R327). -/
structure HostResp where
  status : Status := .none
  addr : Nat := 0
  data : Word := 0
  alive : Nat := 0
  flags : Nat := 0
  crc : Nat := 0
  deriving DecidableEq, Repr

/-- What a host port keeps beside its registers (R324–R341): the address of the last request it accepted (R401). -/
structure HostH where
  lastAddr : Nat := 0
  /-- The next frame may carry any ALIVE (R328). -/
  aliveOpen : Bool := true
  /-- The value half that a WRPV holds, with its address (R330). -/
  hold : Option (Nat × Word) := none
  /-- The response that the next frame carries, and the one that the last frame carried (R327, R331). -/
  resp : HostResp := {}
  sent : HostResp := {}
  deriving DecidableEq, Repr

/-! ## Interrupts (14_host_interrupts.md) -/

/-- What INTC keeps beside its registers: each target's stack of (source, priority), top first, at most 16 (R344), and the
line of MODE_CHANGE, source 188. -/
structure IntcH where
  stk : List (Nat × List (Nat × Nat)) := []
  /-- By how much the complement half of the entry at depth `d` of target `t`'s stack, bottom 0, differs from the complement of its value, at
  key `16 * t + d` (R345). -/
  stkPairs : List (Nat × Nat) := []
  modeLine : Bool := false
  /-- INTC drains with PD7: routing has stopped, and its balls are released (R348). -/
  stopped : Bool := false
  deriving DecidableEq, Repr

/-! ## Test port (20_package_pins.md) -/

/-- The instructions of the test port (R453). -/
inductive TapInstr where
  | idcode | bypass | samplePreload | extest
  deriving DecidableEq, Repr

/-- The test port (R453): TRST_N held low, Test-Logic-Reset, the instruction, the selected data register's contents, and the
boundary chain's update latches. -/
structure TapH where
  trst : Bool := false
  reset : Bool := true
  instr : TapInstr := .idcode
  dr : List Bool := []
  latch : List Bool := []
  deriving DecidableEq, Repr

/-! ## The state -/

/-- Why a step can stop with a fault: no command of this model stops so. Every operand names an instance by its type, and every
violation that the spec describes is a next state. -/
inductive Fault where
  /-- Raised by no command and by no step: it stands for the fault that the interface's answer type asks for. Safe: nothing stops
  here. -/
  | noCommandFaults
  deriving DecidableEq, Repr

/-- Why a command has no meaning. -/
inductive Refusal where
  /-- Raised by `exec` for a command whose meaning has not been written: the command's mnemonic. Safe: the model stops. -/
  | notModelled (mnemonic : String)
  deriving DecidableEq, Repr

/-- The state of the block: every register word, every RAM, and what its units keep beside their registers; and the
commands that wait, first in first out. -/
structure State where
  /-- The part that the device is (R1, R3). -/
  part : Part := .olr7264
  /-- Register words by key (`Reg.addr`), each as the exclusive-or with its reset value, so that a register at its reset
  value is not listed. -/
  regs : List (Nat × Word) := []
  /-- Damage of a complement-paired word, by key (R372): how its stored value half differs from `regs`, which holds the last value whose pair
  checked, and how its complement half differs from the complement of that stored half. -/
  pairs : List (Nat × Word × Word) := []
  /-- The addressed RAMs as bytes, each RAM in its own region (`Ram`). -/
  mem : List Host.Cell := []
  /-- Damage of protected lines, by the line's first byte address divided by 32 (R366). -/
  lines : List (Nat × LineDamage) := []
  /-- TBASE (R28). -/
  tbase : Nat := 0
  /-- Counts the free values drawn (assumption log entry 2): the model's own field, not the spec's. -/
  freeCtr : Nat := 0
  /-- The armature's queues: transfers in issue order (R18). -/
  armq : List Transfer := []
  /-- The sequence number of each master's next transfer, by master (R16). -/
  armSeq : List (Nat × Nat) := []
  mode : ModeH := {}
  bud : BudH := {}
  groups : List (Nat × GroupH) := []
  ports : List (Nat × PortH) := []
  rails : List (Nat × RailH) := []
  engs : List (Nat × EngH) := []
  progs : List (Nat × ProgH) := []
  pmap : ProgMap := {}
  /-- Signals not yet delivered, oldest first (R173). -/
  sigs : List SigMsg := []
  pat : PatH := {}
  flt : FltH := {}
  sup : SupH := {}
  pins : PinsH := {}
  links : List (Nat × LinkH) := []
  lx : List (Nat × LxH) := []
  boot : BootH := {}
  chg : ChgH := {}
  thm : ThmH := {}
  chk : ChkH := {}
  otp : OtpH := {}
  wds : List (Nat × WdH) := []
  /-- WDSTART as PD0 keeps it (R397). -/
  wdStart : Nat := 0
  hosts : List (Nat × HostH) := []
  intc : IntcH := {}
  tap : TapH := {}
  /-- The commands that wait, first in first out. -/
  pending : List Instr := []
  deriving DecidableEq, Repr

/-- The machine right after reset: the power-up of PD0, with every register at its reset value and MODE_CHANGE raised by the entry to
WAKE (R46). -/
def State.reset : State :=
  { intc := { modeLine := true }
    mode := { trans := some { req := { src := .hw 8, target := 2, sdend := 0 }, old := 2, target := 2, release := [], tiers := [] }
              heldRecord := some { kind := 1, src := 0x40, time := 0, bytes := [2, 2, 0x22, 0, 0, 8] } } }

end Sys2Proof.Machine
end

