-- ==== Sys2Proof/Machine/Ops.lean ====
section
/-! DEFINITION. The named operations every meaning is built from: register words and their fields, the RAMs, the records
of the instances, events and counters, the posting of faults, patina records and mode requests. -/
namespace Sys2Proof.Machine

/-- The answer of a meaning. -/
abbrev Out := Host.Outcome State Fault Refusal

/-! ## Register words -/

/-- The word of instance `n` of register `r`. -/
def State.reg (s : State) (r : Reg) (n : Nat := 0) : Word := cellGet 0 s.regs (r.addr n) ^^^ r.reset n

/-- Register `r` of instance `n` set to `w`. -/
def State.setReg (s : State) (r : Reg) (w : Word) (n : Nat := 0) : State :=
  { s with regs := cellSet 0 s.regs (r.addr n) (w ^^^ r.reset n) }

/-- The value of a field. -/
def State.fld (s : State) (f : Fld) (n : Nat := 0) : Nat := Word.bits (s.reg f.reg n) f.hi f.lo

/-- A field set, the word's other bits kept. -/
def State.setFld (s : State) (f : Fld) (v : Nat) (n : Nat := 0) : State :=
  s.setReg f.reg (Word.setBits (s.reg f.reg n) f.hi f.lo v) n

/-- A one-bit field as a Boolean. -/
def State.flag (s : State) (f : Fld) (n : Nat := 0) : Bool := s.fld f n != 0

/-- A one-bit field set from a Boolean. -/
def State.setFlag (s : State) (f : Fld) (b : Bool) (n : Nat := 0) : State := s.setFld f b.toNat n

/-- A field read as a signed number. -/
def State.sfld (s : State) (f : Fld) (n : Nat := 0) : Int := signed (f.hi + 1 - f.lo) (s.fld f n)

/-- A field set to a signed number. -/
def State.setSfld (s : State) (f : Fld) (v : Int) (n : Nat := 0) : State :=
  s.setFld f (BitVec.ofInt (f.hi + 1 - f.lo) v).toNat n

/-- Bit `k` of a mask field. -/
def State.fbit (s : State) (f : Fld) (k : Nat) (n : Nat := 0) : Bool := (s.fld f n).testBit k

/-- Bit `k` of a mask field set or cleared. -/
def State.setFbit (s : State) (f : Fld) (k : Nat) (b : Bool) (n : Nat := 0) : State :=
  s.setFld f (if b then s.fld f n ||| (1 <<< k) else (s.fld f n) - (if s.fbit f k n then 1 <<< k else 0)) n

/-- An event bit set (W1C). -/
def State.event (s : State) (f : Fld) (n : Nat := 0) : State := s.setFld f 1 n

/-- A counter field that stops at `top` counts one. -/
def State.countTo (s : State) (f : Fld) (top : Nat) (n : Nat := 0) : State :=
  if s.fld f n < top then s.setFld f (s.fld f n + 1) n else s

/-- A register returned to its reset value. -/
def State.resetReg (s : State) (r : Reg) (n : Nat := 0) : State :=
  { s with regs := cellErase s.regs (r.addr n) }

/-- What a write of `w` leaves in a field's bits (R11): RW and RWL take the bits written (a governing lock is judged before),
W1C clears the bits written 1, and RO, WO, RC and key fields keep theirs. -/
def FieldRow.write (f : FieldRow) (old w acc : Word) : Word :=
  match f.acc with
  | .rw | .rwl => Word.setBits acc f.hi f.lo (Word.bits w f.hi f.lo)
  | .w1c => Word.setBits acc f.hi f.lo (Word.bits (old &&& ~~~w) f.hi f.lo)
  | .ro | .wo | .rc | .key => acc

/-- The word that a plain write leaves: each field by its access code, reserved bits kept (R9, R11). -/
def writeFields (fs : List FieldRow) (old w : Word) : Word := fs.foldl (fun acc f => f.write old w acc) old

/-- A plain write of a register word: each field by its access code, and no effect beyond. -/
def State.plainWrite (s : State) (r : Reg) (w : Word) (n : Nat := 0) : State :=
  s.setReg r (writeFields r.fields (s.reg r n) w) n

/-- Whether instance `n` of register `r` stands at address `a` of the host map, for a register without copies. -/
def Reg.atAddr (r : Reg) (a : Nat) : Option Nat :=
  if r.copies then (if a = r.base then some 0 else none)
  else if a < r.base then none
  else if r.stride = 0 ∨ 0x10000 ≤ r.stride then (if a = r.base then some 0 else none)
  else if (a - r.base) % r.stride = 0 ∧ (a - r.base) / r.stride < r.count then some ((a - r.base) / r.stride) else none

/-! ## The RAMs -/

/-- The first byte of each RAM in `State.mem`: the program store, the data RAM, the Intent Table, the patina log, the
checkpoint RAM, the retention RAM, and the CONFIG array of the OTP. -/
def psBase : Nat := 0x00000
def drBase : Nat := 0x40000
def itBase : Nat := 0x50000
def patBase : Nat := 0x70000
def ckBase : Nat := 0x90000
def retBase : Nat := 0xA8000
def otpConfigBase : Nat := 0xB0000

/-- What a byte of RAM that nothing has written reads as (assumption log entry 4). -/
def memDefault : Byte := 0

/-- The form of `State.mem`: addresses strictly rising, and no entry equal to what an unlisted address reads as. -/
abbrev Memory.wf (m : List Host.Cell) : Prop := cellWf memDefault m = true

/-- The byte at `a`. -/
def State.byte (s : State) (a : Nat) : Byte := cellGet memDefault s.mem a

/-- A byte written. -/
def State.setByte (s : State) (a : Nat) (b : Byte) : State := { s with mem := cellSet memDefault s.mem a b }

/-- Bytes written at rising addresses. -/
def State.setBytes (s : State) (a : Nat) : List Byte → State
  | [] => s
  | b :: t => State.setBytes (s.setByte a b) (a + 1) t

/-- The word whose four bytes, lowest first, stand from byte `4 * i` of the RAM at `base` (R8). -/
def State.word (s : State) (base i : Nat) : Word :=
  let a := base + 4 * i
  BitVec.ofNat 32 ((s.byte a).toNat + 256 * (s.byte (a + 1)).toNat + 65536 * (s.byte (a + 2)).toNat
    + 16777216 * (s.byte (a + 3)).toNat)

/-- The four bytes of a word, lowest first. -/
def wordBytes (w : Word) : List Byte :=
  [BitVec.ofNat 8 w.toNat, BitVec.ofNat 8 (w.toNat >>> 8), BitVec.ofNat 8 (w.toNat >>> 16), BitVec.ofNat 8 (w.toNat >>> 24)]

/-- Word `i` of the RAM at `base` written. -/
def State.setWord (s : State) (base i : Nat) (w : Word) : State := s.setBytes (base + 4 * i) (wordBytes w)

/-- Words written at rising indexes. -/
def State.setWords (s : State) (base i : Nat) : List Word → State
  | [] => s
  | w :: t => State.setWords (s.setWord base i w) base (i + 1) t

/-- `k` words from index `i` of the RAM at `base`. -/
def State.words (s : State) (base i : Nat) : Nat → List Word
  | 0 => []
  | k + 1 => s.word base i :: State.words s base (i + 1) k

/-- `k` zero bytes written from `a`. -/
def State.zeroBytes (s : State) (a k : Nat) : State :=
  { s with mem := cellKeep (fun x => decide (x < a) || decide (a + k ≤ x)) s.mem }

/-- The `k` bytes from `a` become `l`, zero where `l` is shorter. -/
def State.fillBytes (s : State) (a k : Nat) (l : List Byte) : State :=
  { s with mem := s.mem.filter (fun c => decide (c.1 < a))
      ++ (((l.take k).zipIdx a).map (fun x => (x.2, x.1))).filter (fun c => c.2 != memDefault)
      ++ s.mem.filter (fun c => decide (a + k ≤ c.1)) }

/-! ## The instances' records -/

def State.rail (s : State) (n : Nat) : RailH := cellGet {} s.rails n
def State.setRail (s : State) (n : Nat) (r : RailH) : State := { s with rails := cellSet {} s.rails n r }
def State.eng (s : State) (e : Nat) : EngH := cellGet {} s.engs e
def State.setEng (s : State) (e : Nat) (h : EngH) : State := { s with engs := cellSet {} s.engs e h }
def State.prog (s : State) (p : Nat) : ProgH := cellGet {} s.progs p
def State.setProg (s : State) (p : Nat) (h : ProgH) : State := { s with progs := cellSet {} s.progs p h }
def State.port (s : State) (n : Nat) : PortH := cellGet {} s.ports n
def State.setPort (s : State) (n : Nat) (h : PortH) : State := { s with ports := cellSet {} s.ports n h }
def State.group (s : State) (g : Nat) : GroupH := cellGet {} s.groups g
def State.setGroup (s : State) (g : Nat) (h : GroupH) : State := { s with groups := cellSet {} s.groups g h }

/-! ## Parts, domains and modes -/

/-- The rails of the part (R1, R3). -/
def State.railPresent (s : State) (n : Nat) : Bool := decide (n < match s.part with | .olr7264 => 32 | .olr7248 => 24)

/-- The phases of the part. -/
def State.phPresent (s : State) (n : Nat) : Bool := decide (n < match s.part with | .olr7264 => 64 | .olr7248 => 48)

/-- The engines of the part: on the OLR7248, E0–E23 and E36–E47. -/
def State.engPresent (s : State) (n : Nat) : Bool :=
  match s.part with
  | .olr7264 => decide (n < 48)
  | .olr7248 => decide (n < 24) || (decide (36 ≤ n) && decide (n < 48))

/-- The mode codes of R33. -/
def modeShip : Nat := 0
def modeDormant : Nat := 1
def modeWake : Nat := 2
def modePlinth : Nat := 3
def modeStandby : Nat := 4
def modeRun : Nat := 5
def modeCharge : Nat := 6
def modeAssist : Nat := 7
def modeDegraded : Nat := 8
def modeService : Nat := 9
def modeProvision : Nat := 10
def modeShutdown : Nat := 11

/-- The present mode. -/
def State.cur (s : State) : Nat := s.fld SYS_MODECUR_CUR

/-- A domain is powered and released (R22, R24); in DEGRADED a domain whose switch failed counts as unpowered (R35). -/
def State.powered (s : State) (d : Nat) : Bool :=
  s.fbit PDC_STAT_ON d && !(s.cur == modeDegraded && s.fbit PDC_STAT_SWFAULT d)

/-- Anticipation is live in the mode (R36). -/
def anticipationLive (m : Nat) : Bool := m == modeRun || m == modeCharge || m == modeDegraded

/-- A failed start falls due with its reason (R66): the first cause of an attempt stands. -/
def failDue (s : State) (reason : Nat) : State :=
  if s.boot.failDue.isSome || s.boot.failing.isSome then s else { s with boot := { s.boot with failDue := some reason } }

/-- The mode that anticipation acts by: from the start of a change to a mode where it is not live, and of one from RUN or CHARGE to
DEGRADED, that mode (R39, R158). -/
def State.anticMode (s : State) : Nat :=
  match s.mode.trans with
  | some t =>
    if !anticipationLive t.target || (t.target == modeDegraded && (t.old == modeRun || t.old == modeCharge)) then t.target else s.cur
  | none => s.cur

/-- Rails may be enabled in the mode (R36). -/
def railEnableMode (m : Nat) : Bool :=
  m == modeWake || (decide (modeStandby ≤ m) && decide (m ≤ modeService))

/-- A command acts only while domain `d` is powered (R24): the state it would give, otherwise the state as it is. -/
def State.on (s : State) (d : Nat) (t : State) : Out := .next (if s.powered d then t else s)

/-! ## The history of condition selectors (R200, R203) -/

/-- The keys of the values whose changes are kept: MODE(m), PIN(p), RSTATE(rail, code), and PG, UV and OV of a rail. -/
def histMode (m : Nat) : Nat := m
def histPin (p : Nat) : Nat := 0x100 + p
def histRail (n code : Nat) : Nat := 0x200 + 16 * n + min code 15
def histComp (n q : Nat) : Nat := 0x400 + 4 * n + q

/-- The key of a condition's selector where the History column of R200 says Yes. -/
def histKey (c : Cond) : Option Nat :=
  match c.sel with
  | 0x01 => some (histComp c.idx 2)
  | 0x02 => some (histComp c.idx 0)
  | 0x03 => some (histComp c.idx 1)
  | 0x0B => some (histPin c.idx)
  | 0x0C => some (histMode c.idx)
  | 0x12 => some (histRail c.idx c.value.toNat)
  | _ => none

/-- A program time of `t` µs that began at `start` is over (R199): `t` whole microseconds have passed since the first TBASE increment
after it; a time of zero is over at once. -/
def timeOver (now start t : Nat) : Bool := t == 0 || decide (start + t < now)

/-- A change of the selector's value at the present time (R203): it counts as a transition within the timeout. -/
def Watch.change (x : Watch) (now timeout : Nat) : Watch :=
  { x with value := !x.value, since := now, changes := if timeOver now x.start timeout then x.changes else x.changes + 1 }

/-- The value of key `k` changes (R203): the time is kept, and every CHECK that waits on it counts the transition. -/
def State.noteHist (s : State) (k : Nat) : State :=
  let s := { s with mode := { s.mode with hist := cellSet 0 s.mode.hist k s.tbase } }
  (List.range 48).foldl (fun s e =>
    let h := cellGet {} s.engs e
    match h.wait with
    | some (.check c code dwell timeout lim pc x) =>
      if histKey c = some k ∧ timeout ≠ 0 then
        { s with engs := cellSet {} s.engs e { h with wait := some (.check c code dwell timeout lim pc (x.change s.tbase timeout)) } }
      else s
    | _ => s) s

/-- The values of the keys change where `b` says so. -/
def State.noteIf (s : State) (b : Bool) (k : Nat) : State := if b then s.noteHist k else s

/-- The mode m of which MODE(m) is true (R200). -/
def State.modeShown (s : State) : Option Nat := if s.flag SYS_MODE_TRANS then none else some s.cur

/-- The mode registers have gone from those of `s` to those of `t`. -/
def State.noteMode (s t : State) : State :=
  if s.modeShown = t.modeShown then t
  else
    let t := match s.modeShown with | some m => t.noteHist (histMode m) | none => t
    match t.modeShown with | some m => t.noteHist (histMode m) | none => t

/-- WAKE_BTN and SRCDET take their levels. -/
def State.setWakePins (s : State) (btn src : Bool) : State :=
  let t := { s with pins := { s.pins with wakeBtn := btn, srcdet := src } }
  (t.noteIf (s.pins.wakeBtn != btn) (histPin 0)).noteIf (s.pins.srcdet != src) (histPin 1)

/-- ERRIN_N is low, or high. -/
def State.setErrin (s : State) (b : Bool) : State :=
  ({ s with flt := { s.flt with errin := b } }).noteIf (s.flt.errin != b) (histPin 2)

/-- The domain of a rail's logic (R22). -/
def railDomain (n : Nat) : Nat := if n < 16 then 4 else 5

/-- The domain of an engine. -/
def engDomain (e : Nat) : Nat := if e < 24 then 2 else 3

/-- The masters' numbers: engines 0–47, then as `RLn_VSTAT.SUPMST`. -/
def masterHost (p : Nat) : Nat := 0x30 + p
def masterAntic : Nat := 0x33
def masterBud : Nat := 0x34
def masterLx : Nat := 0x35
def masterChg : Nat := 0x36
def masterFlt : Nat := 0x37
def masterScan : Nat := 0x38
def masterPlinth : Nat := 0x39

/-! ## Posting -/

/-- A fault source's condition becomes true: the assertion waits for FLT (R350). -/
def State.postFault (s : State) (src inst detail : Nat) (data1 : Word) : State :=
  { s with flt := { s.flt with due := s.flt.due ++ [⟨src, inst, detail, data1⟩] } }

/-- A mode request reaches the mode controller. A newer request of one rank replaces the older while a transition runs
(R42); the ranks are the hardware causes, each host port and each engine. -/
def State.postMode (s : State) (r : ModeReq) : State :=
  { s with mode := { s.mode with reqs := s.mode.reqs ++ [r] } }

/-- A hardware cause requests its target (the hardware mode requests of R40). -/
def State.postCause (s : State) (cause target : Nat) : State := s.postMode { src := .hw cause, target := target, sdend := 0 }

/-- A record is dropped and counted (R429). -/
def State.dropRecord (s : State) : State :=
  let s := { s with pat := { s.pat with dropped := s.pat.dropped + 1, lostFlag := true } }
  let s := s.event PAT_EVT_LOST
  if s.fld PAT_LOST_COUNT < 0xFFFFFFFF then
    let s := s.countTo PAT_LOST_COUNT 0xFFFFFFFF
    if s.fld PAT_LOST_COUNT = 0xFFFFFFFF then
      { s.event PAT_EVT_SATURATED with pat := { s.pat with satLost := true } } else s
  else s

/-- A patina record is offered to the queue of eight (R429): nothing while PAT_CTRL.EN = 0; dropped and counted when the
queue is full. While PD10 is unpowered there is no unit to take it. -/
def State.postRecord (s : State) (r : PatRecord) : State :=
  if !s.powered 10 || !s.flag PAT_CTRL_EN then s
  else if s.pat.queue.length < 8 then { s with pat := { s.pat with queue := s.pat.queue ++ [r] } }
  else
    s.dropRecord

/-- The condition of a source that lasts: its instance's level becomes `b`, and the source asserts on the rising edge (R350). -/
def State.setLevel (s : State) (src inst detail : Nat) (data1 : Word) (b : Bool) : State :=
  let k := 65536 * src + inst
  let was := cellGet false s.flt.level k
  let s := { s with flt := { s.flt with level := cellSet false s.flt.level k b } }
  if b && !was then
    { s with flt := { s.flt with data := cellSet (0, 0) s.flt.data k (detail, data1) } }.postFault src inst detail data1
  else s

/-! ## Injection at the next item (R361–R364) -/

/-- TBASE bits [31:0]. -/
def State.tbaseLo (s : State) : Nat := s.tbase % 2 ^ 32

/-- DATA0 of an assertion (R350). -/
def faultData0 (f : FaultPost) : Word := wordOf (f.inst % 65536 + 65536 * f.detail)

/-- The injection armed for source `src` and instance `inst`, if there is one: whether it is record only (R364). -/
def State.injects (s : State) (src inst : Nat) : Option Bool :=
  match s.flt.armed with
  | some (a, _, i, r) => if a = src ∧ i = inst then some r else none
  | none => none

/-- The armed injection has fired as `f` (R363): INJSTAT, INJTIME and INJDATA. -/
def State.injectShown (s : State) (f : FaultPost) : State :=
  let t := { s.setFld FLT_INJSTAT_STATE 2 with flt := { s.flt with armed := none } }
  (t.setReg FLT_INJTIME (wordOf s.tbaseLo)).setReg FLT_INJDATA (faultData0 f)

/-- A firing with REC = 1 reaches FLT only: the record of it and the sticky bit (R364). -/
def State.injectRecord (s : State) (f : FaultPost) : State :=
  (s.injectShown f).setFbit FLT_STS_SRCS (f.src % 32) true (f.src / 32)

/-- An item that the detector of `f` checks next (R361): an armed injection damages it, or with REC = 1 leaves it and is recorded. -/
def State.injectItem (s : State) (f : FaultPost) (damage : State → State) : State :=
  match s.injects f.src f.inst with
  | some true => s.injectRecord f
  | some false => damage s
  | none => s

/-- The check of an item has led from `s` to `t`: what it asserted for an injection that was armed is the injected assertion (R363). -/
def State.injectTake (s t : State) (src inst : Nat) : State :=
  if s.injects src inst = some false then
    match (t.flt.due.drop s.flt.due.length).find? (fun f => f.src == src && f.inst == inst) with
    | some f =>
      let u := t.injectShown f
      { u with flt := { u.flt with due := t.flt.due.take s.flt.due.length ++ (t.flt.due.drop s.flt.due.length).erase f
                                   injDue := t.flt.injDue ++ [f] } }
    | none => t
  else t

/-- Register writes by the host ports are open but for the words that R70 leaves in PLINTH: not in the hold of R55, and not in PLINTH. -/
def State.writesOpen (s : State) : Bool := !s.flag SYS_BOOTSTAT_OTPHOLD && s.cur != modePlinth
/-- A command that is a register write acts where such writes are open (R55, R70). -/
def State.ifWritable (s t : State) : State := if s.writesOpen then t else s

/-- Crossing `x` is in TIMEOUT (R382, R383): its bit in CLK_XSTOPw. -/
def State.stopped (s : State) (x : Nat) : Bool := s.fbit CLK_XSTOP_XING (x % 32) (x / 32)
/-- The paired reset of crossing `x` is in progress, or the crossing is in TIMEOUT: transfers are discarded (R26, R383, R385). -/
def crossingShut (s : State) (x : Nat) : Bool := s.stopped x || s.chk.xrst.contains x
/-- What the core side of crossing `x` holds while the crossing is shut (R383). -/
def xHeld (s : State) (x : Nat) : Option XHold := if crossingShut s x then cellGet none (s.chk.held.map (fun y => (y.1, some y.2))) x else none
/-- The core PLL locks: CK_CORE runs, and what waited in the FIFOs of the open crossings is taken (R26, R28). -/
def State.coreLocked (s : State) : State :=
  let t := (s.setFlag CLK_STAT_CORELOCK true).setLevel 361 0 0 0 false
  { t with chk := { t.chk with fifo := [] } }
/-- A transfer reaches the loop of rail `n`: its domain is powered and its crossing open (R24, R26). -/
def State.railOpen (s : State) (n : Nat) : Bool := s.powered (railDomain n) && !crossingShut s (4 + n)
def State.setStopped (s : State) (x : Nat) (b : Bool) : State := s.setFbit CLK_XSTOP_XING (x % 32) b (x / 32)

/-- The overrun bit of crossing `x` (R384). -/
def State.setOverrun (s : State) (x : Nat) (b : Bool) : State := s.setFbit CLK_XOVR_XING (x % 32) b (x / 32)

/-- The bytes of a number, lowest first. -/
def natBytes : Nat → Nat → List Nat
  | 0, _ => []
  | k + 1, v => v % 256 :: natBytes k (v / 256)

/-- A free value is drawn: the opaque constant at the counter, and the counter advanced. -/
def State.free (s : State) : Word × State := (Config.freeWord s.freeCtr, { s with freeCtr := s.freeCtr + 1 })


/-- A signed number clamped to bounds. -/
def clampInt (v lo hi : Int) : Int := if v < lo then lo else if hi < v then hi else v

/-- Division rounded to nearest, halves away from zero (R477). -/
def divRound (a b : Int) : Int :=
  if b = 0 then 0 else
    let n := a.natAbs
    let m := b.natAbs
    let q : Int := Int.ofNat ((2 * n + m) / (2 * m))
    if (a < 0) != (b < 0) then -q else q

/-- Division truncated toward zero. -/
def divTrunc (a b : Int) : Int := Int.tdiv a b

/-- The least natural number at or above `a / b`. -/
def ceilDiv (a b : Nat) : Nat := if b = 0 then 0 else (a + b - 1) / b

end Sys2Proof.Machine
end

