-- ==== Sys2Proof/Machine/SupBase.lean ====
section
/-! DEFINITION. What the rails, links and converters tell the supervisors (12_supervision_telemetry.md): the event counters
(R291), the samples of telemetry (R293), the reset outputs (R288–R290), and a rail's comparators as it leaves REGULATE. -/
namespace Sys2Proof.Machine

/-- Rail event counter `k` of rail `n` counts (R291, R13). The counters are in PD11. -/
def supCount (s : State) (n k : Nat) : State :=
  if !s.powered 11 then s
  else
    let i := 8 * n + k
    let c := cellGet 0 s.sup.cnt i
    if c < 0xFFFFFFFF then
      let s := { s with sup := { s.sup with cnt := cellSet 0 s.sup.cnt i (c + 1) } }
      if c + 1 = 0xFFFFFFFF then
        { s.setFbit SUP_CNTEVT_RAILS n true with sup := { s.sup with sat := cellSet false s.sup.sat i true } }
      else s
    else s

/-! ## Telemetry samples -/

/-- The unit of the stored samples: rail power is kept as voltage × current in nW (R293), every other kind in its own. -/
def telUnit (kind : Nat) : Int := if kind = 2 then 1000000 else 1

def State.tel (s : State) (kind i : Nat) : TelCh := cellGet {} s.sup.tel (64 * kind + i)
def State.setTel (s : State) (kind i : Nat) (c : TelCh) : State :=
  { s with sup := { s.sup with tel := cellSet {} s.sup.tel (64 * kind + i) c } }

/-- A sample of a channel enters the present window and the present microsecond unless it is subjunctive (R293, R294). The
committed telemetry is in PD11. -/
def telSample (s : State) (kind i : Nat) (v : Int) (subj : Bool) : State :=
  if subj || !s.powered 11 then s
  else
    let c := s.tel kind i
    s.setTel kind i { c with sum := c.sum + v, n := c.n + 1, usSum := c.usSum + v, usN := c.usN + 1 }

/-- A channel's microsecond ends: the peak takes its mean (R294). -/
def TelCh.endUs (kind : Nat) (c : TelCh) : TelCh :=
  if c.usN = 0 then c
  else
    let m := divTrunc c.usSum (c.usN * telUnit kind)
    { c with usSum := 0, usN := 0, peak := some (match c.peak with | some p => max p m | none => m) }

/-- A channel's window closes on its samples; with none it holds (R293). -/
def TelCh.endWindow (kind : Nat) (c : TelCh) : TelCh :=
  if c.n = 0 then { c with held := true }
  else { c with value := divTrunc c.sum (c.n * telUnit kind), held := false, sum := 0, n := 0 }

/-! ## What the maquette takes from frames (R312, R314) -/

/-- A good TEMP value of link `l` has arrived in an update interval of a running maquette (R314). -/
def thmFresh (s : State) (l : Nat) : State :=
  if s.powered 11 ∧ s.flag THM_CTRL_EN then { s with thm := { s.thm with fresh := cellSet false s.thm.fresh l true } } else s

/-- A loss sample of node `i` in pW enters the present update interval (R312). -/
def thmLoss (s : State) (i p : Nat) : State :=
  if s.powered 11 ∧ s.flag THM_CTRL_EN then
    { s with thm := { s.thm with loss := cellSet 0 s.thm.loss i (cellGet 0 s.thm.loss i + p),
                                 lossN := cellSet 0 s.thm.lossN i (cellGet 0 s.thm.lossN i + 1) } }
  else s

/-- The loss of profile `p` in pW for a current in mA, a voltage in µV and a period in ticks of 10.24 GHz (R312). -/
def lossOf (s : State) (p i v per : Nat) : Nat :=
  s.fld THM_LP0_K0 p * 1000000000 + s.fld THM_LP0_K1 p * i * 1000000 + s.fld THM_LP1_K2 p * i * i
    + (if per = 0 then 0 else s.fld THM_LP1_KS p * v * i * 1024 / (per * 10))

/-! ## Reset outputs (R288–R290) -/

/-- The first source of output `j` that is not good (R288): PG of a rail, a general supervisor, an AUX regulator, the program
term; by its cause code. -/
def rstoBad (s : State) (j : Nat) : Option Nat :=
  match (List.range 32).find? (fun n => s.fbit RSTO_RMASK_RAILS n j && !s.fbit SUP_STAT_RAILS n 2) with
  | some n => some n
  | none =>
    match (List.range 16).find? (fun k => s.fbit RSTO_SMASK_GS k j && !(s.flag GS_CFG_EN k && !s.fbit SUP_GSSTAT_GS k)) with
    | some k => some (0x20 + k)
    | none =>
      match (List.range 4).find? (fun a => s.fbit RSTO_SMASK_AUX a j && !s.fbit HKR_STAT_AUXPG a) with
      | some a => some (0x30 + a)
      | none => if s.flag RSTO_CFG_PROGEN j && !s.flag RSTO_CFG_TERM j then some 0x40 else none

/-- A domain that a selected source of output `j` needs is unpowered (R23, R289). -/
def rstoUnpowered (s : State) (j : Nat) : Bool :=
  let needs6 := s.fld RSTO_RMASK_RAILS j != 0 || s.fld RSTO_SMASK_GS j != 0
  (needs6 && !s.powered 6)
    || (s.fld RSTO_RMASK_RAILS j % 0x10000 != 0 && !s.powered 4)
    || (s.fld RSTO_RMASK_RAILS j / 0x10000 != 0 && !s.powered 5)

/-- Output `j` takes its level, and no stretch runs. -/
def rstoSet (s : State) (j : Nat) (b : Bool) : State :=
  ((s.setFlag RSTO_STAT_LEVEL b j).setFlag RSTO_STAT_STRETCHING false j).noteIf (s.flag RSTO_STAT_LEVEL j != b) (histPin (8 + j))

/-- Output `j` is driven low, with its cause. -/
def rstoLow (s : State) (j cause : Nat) : State := (rstoSet s j false).setFld RSTO_STAT_CAUSE cause j

/-- One output follows its overrides and sources (R288, R289). In SHIP it is undriven. -/
def rstoOne (s : State) (hold : Bool) (j : Nat) : State :=
  if s.cur = modeShip then s
  else if hold then rstoLow s j 0x42
  else if s.cur = modePlinth then
    if s.sup.plRel.testBit j then rstoSet s j true
    else rstoLow s j 0x43
  else if s.cur = modeDormant ∨ rstoUnpowered s j then rstoLow s j 0x41
  else match rstoBad s j with
    | some c =>
      let fresh := s.flag RSTO_STAT_LEVEL j || s.flag RSTO_STAT_STRETCHING j || decide (0x41 ≤ s.fld RSTO_STAT_CAUSE j)
      rstoLow s j (if fresh then c else s.fld RSTO_STAT_CAUSE j)
    | none =>
      if s.flag RSTO_STAT_LEVEL j || s.flag RSTO_STAT_STRETCHING j then s
      else { s.setFlag RSTO_STAT_STRETCHING true j with sup := { s.sup with rstT := cellSet 0 s.sup.rstT j s.tbase } }

/-- Every output follows its overrides and sources. The hold is that of R55 or of a failed start (R67). -/
def rstoUpdate (s : State) : State :=
  let hold := s.flag SYS_BOOTSTAT_OTPHOLD || s.boot.failing.isSome
  (List.range 8).foldl (fun s j => rstoOne s hold j) s

/-! ## Comparators -/

/-- The state of comparator `q` (0 UV, 1 OV, 2 PG, 3 EW) of rail `n` changes: the status, the time kept (R286), and for PG the
counter and its loss event (R286, R300). -/
def compSet (s : State) (n q : Nat) (b : Bool) : State :=
  if s.fbit SUP_STAT_RAILS n q = b then s
  else
    let s := s.setFbit SUP_STAT_RAILS n b q
    let s := { s with sup := { s.sup with since := cellSet 0 s.sup.since (4 * n + q) s.tbase } }.noteHist (histComp n q)
    if q = 2 then
      let s := supCount s n 2
      rstoUpdate (if b then s else s.setFbit SUP_EVT_RAILS n true 2)
    else s

/-- The fault source of comparator `q` of rail `n`. -/
def compSource (n q : Nat) : Nat := if q = 0 then n else if q = 1 then 32 + n else 326

/-- Comparator `q` of rail `n` reads deasserted, and the condition of its fault source ends (R284, R285). -/
def compEnd (s : State) (n q : Nat) : State := (compSet s n q false).setLevel (compSource n q) n 0 0 false

/-- A rail that leaves REGULATE: UV and EW read deasserted and PG false in the same sample (R284). -/
def supLeave (s : State) (n : Nat) : State := compSet (compEnd (compEnd s n 0) n 3) n 2 false

end Sys2Proof.Machine
end

