-- ==== Sys2Proof/Machine/Budget.lean ====
section
/-! DEFINITION. The budget arbiter (09_budget_policy.md): the pools' figures, claims and their service, capacity cuts,
the return of headroom, measured use and pinned time. -/
namespace Sys2Proof.Machine

def State.progClaim (s : State) (p k : Nat) : Claim := cellGet {} s.bud.prog (8 * p + k)
def State.setProgClaim (s : State) (p k : Nat) (c : Claim) : State :=
  { s with bud := { s.bud with prog := cellSet {} s.bud.prog (8 * p + k) c } }
def State.hwClaim (s : State) (c : Nat) : Claim := cellGet {} s.bud.hw c
def State.setHwClaim (s : State) (c : Nat) (x : Claim) : State :=
  { s with bud := { s.bud with hw := cellSet {} s.bud.hw c x } }
def State.childClaim (s : State) (k : Nat) : Claim := cellGet {} s.bud.child k
def State.setChildClaim (s : State) (k : Nat) (x : Claim) : State :=
  { s with bud := { s.bud with child := cellSet {} s.bud.child k x } }

/-- A sum over the numbers below `n`. -/
def sumTo (n : Nat) (f : Nat → Nat) : Nat := (List.range n).foldl (fun a i => a + f i) 0

/-- The parent of pool `k`, none for a root (R220). -/
def poolParent (s : State) (k : Nat) : Option Nat :=
  let p := s.fld BUD_PCFG_PARENT k
  if p < 8 then some p else none

/-- CAPEFF of R219. -/
def poolCapEff (s : State) (k : Nat) : Nat :=
  match poolParent s k with
  | some _ => min (s.fld BUD_PCFG_CAP k) (s.childClaim k).grant
  | none => s.fld BUD_PCFG_CAP k

/-- GRANTED of R219: programs, hardware consumers, child pools, and ports whose intents have confirmed. -/
def poolGranted (s : State) (k : Nat) : Nat :=
  s.bud.prog.foldl (fun a kv => if kv.1 % 8 = k then a + (kv.2.grant - kv.2.subj) else a) 0
    + sumTo 10 (fun c => if s.fld BUD_HWREQ_POOL c = k then (s.hwClaim c).grant else 0)
    + sumTo 8 (fun j => if poolParent s j = some k then (s.childClaim j).grant else 0)
    + sumTo 16 (fun n => if s.fld IP_OPEN_STATE n = 2 ∧ (s.port n).pool = k then (s.port n).reserved else 0)

/-- ALLOWED of R219; a reduction still waiting for its vector counts (R229). -/
def poolAllowed (s : State) (k : Nat) : Nat :=
  sumTo 16 (fun n => if s.fld IP_CTRL_POOL n = k then s.fld IP_ALLOW_ALLOW n + (s.port n).cut else 0)

/-- The port part of RESERVED. -/
def poolPortReserved (s : State) (k : Nat) : Nat :=
  sumTo 16 (fun n => if s.fld IP_OPEN_STATE n = 1 ∧ (s.port n).pool = k then (s.port n).reserved else 0)

/-- RESERVED of R219: open intents and program clauses. -/
def poolReserved (s : State) (k : Nat) : Nat :=
  poolPortReserved s k + s.bud.prog.foldl (fun a kv => if kv.1 % 8 = k then a + kv.2.subj else a) 0

/-- FREE of R219. -/
def poolFree (s : State) (k : Nat) : Int :=
  (poolCapEff s k : Int) - poolGranted s k - poolAllowed s k - poolReserved s k

/-- The allowance reductions of pool `k` that wait for their vector swap (R138). -/
def poolCutPend (s : State) (k : Nat) : Nat :=
  sumTo 16 (fun n => if s.fld IP_CTRL_POOL n = k then (s.port n).cut else 0)

/-- An allowance cut of R229 awaits its vector swap in pool `k`: CUTPEND. -/
def poolCapPend (s : State) (k : Nat) : Bool :=
  (List.range 16).any (fun n => s.fld IP_CTRL_POOL n == k && (s.port n).capCut)

/-- What grants have drawn on the pending capacity cuts of pool `k`: excess that waits for the last of them (R229). -/
def poolDrawn (s : State) (k : Nat) : Nat :=
  sumTo 16 (fun n => if s.fld IP_CTRL_POOL n = k then (s.port n).drawn else 0)

/-- The committed view of R219: GRANTED + ALLOWED + the port part of RESERVED. -/
def poolCommitted (s : State) (k : Nat) : Nat := poolGranted s k + poolAllowed s k + poolPortReserved s k

/-- The depth of pool `k` in the cascade, root 0. -/
def poolDepth (s : State) : Nat → Nat → Nat
  | 0, _ => 0
  | fuel + 1, k => match poolParent s k with
    | some p => poolDepth s fuel p + 1
    | none => 0

/-- Port `n` draws an allowance: it is not DISABLED, and anticipation is live in the mode (R227, R228). -/
def portRefills (s : State) (n : Nat) : Bool :=
  anticipationLive s.anticMode && s.fld IP_STAT_PSTATE n != 0 && s.fld IP_STAT_PSTATE n != 4

/-- What the allowance of port `n` asks for: the refill of R227. -/
def refillShort (s : State) (n : Nat) : Nat := if portRefills s n then s.fld BUD_IPCFG_ALMAX n - s.fld IP_ALLOW_ALLOW n else 0

/-- The pending shortfalls of pool `k` (R221, R235): programs, hardware consumers, child pools and allowance refills. -/
def poolPending (s : State) (k : Nat) : Nat :=
  s.bud.prog.foldl (fun a kv => if kv.1 % 8 = k ∧ kv.2.pending then a + (kv.2.level - kv.2.grant) else a) 0
    + sumTo 10 (fun c => let x := s.hwClaim c
        if s.fld BUD_HWREQ_POOL c = k ∧ x.pending then x.level - x.grant else 0)
    + sumTo 8 (fun j => let x := s.childClaim j
        if poolParent s j = some k ∧ x.pending then x.level - x.grant else 0)
    + sumTo 16 (fun n => if s.fld IP_CTRL_POOL n = k then refillShort s n else 0)

/-- A claim takes `t` more: in a clause, what exceeds the level before the clause is a reservation (R222). -/
def Claim.take (c : Claim) (t : Nat) : Claim :=
  { c with grant := c.grant + t, subj := if c.inClause then c.subj + (t - (c.base - (c.grant - c.subj))) else c.subj,
           pending := c.pending && decide (c.grant + t < c.level) }

/-- A claim set to a level (R222–R225): a lower level releases the difference at once, and any request is a new claim. -/
def Claim.request (c : Claim) (level now : Nat) : Claim :=
  { c with level := level, grant := min c.grant level, subj := min c.subj level, refused := false, since := now,
           pending := decide (c.grant < level) }

/-- The shortfall of a claim. -/
def Claim.short (c : Claim) : Nat := c.level - c.grant

/-! ## Allowances -/

/-- A reduction of port `n`'s allowance must wait for a vector swap (R138): the group has a port answering on its balls, and
ICLKg runs. -/
def reductionWaits (s : State) (n : Nat) : Bool :=
  let g := n / 4
  s.flag IPT_GRP_CLKOK g &&
    (List.range 4).any (fun i => let p := 4 * g + i
      (s.fld IP_STAT_PSTATE p == 1 || s.fld IP_STAT_PSTATE p == 2) && !s.flag IP_CTRL_SRC p)

/-- Port `n`'s allowance reduced by `t` under the two phases of R138. -/
def reduceAllowance (s : State) (n t : Nat) : State :=
  let s' := s.setFld IP_ALLOW_ALLOW (s.fld IP_ALLOW_ALLOW n - t) n
  if reductionWaits s n then s'.setPort n { s'.port n with cut := (s'.port n).cut + t, cutSeq := (s'.port n).cutSeq + 1 } else s'

/-! ## Capacity cuts (R229) -/

/-- The excess of pool `k` that neither a pending reduction covers nor the end of the last one will cut. -/
def poolExcess (s : State) (k : Nat) : Nat :=
  (poolGranted s k + poolAllowed s k + poolReserved s k) - poolCapEff s k - poolCutPend s k - poolDrawn s k

/-- The pending reduction of port `n` is one of a capacity cut. -/
def markCapCut (s : State) (n : Nat) : State := s.setPort n { s.port n with capCut := true }

/-- Where the claims on pool `k` exceed its capacity, the reductions that already wait belong to the capacity cut (R229). -/
def claimReductions (s : State) (k : Nat) : State :=
  if poolFree s k < 0 then
    (List.range 16).foldl (fun s n => if s.fld IP_CTRL_POOL n = k ∧ (s.port n).cut ≠ 0 then markCapCut s n else s) s
  else s

/-- Cut step 1: unspent allowances, highest port first. -/
def cutAllowances (k : Nat) : Nat → State → Nat → State × Nat
  | 0, s, x => (s, x)
  | n + 1, s, x =>
    let t := if s.fld IP_CTRL_POOL n = k then min (s.fld IP_ALLOW_ALLOW n) x else 0
    let u := reduceAllowance s n t
    cutAllowances k n (if t = 0 then s else if (u.port n).cut ≠ 0 then markCapCut u n else u) (x - t)

/-- A grant falls by `t`: the cut part is a pending claim of cause SHORT, which has pended since the claim's arrival where it pended before
(R225), and GRANTCUT sets. -/
def Claim.cut (c : Claim) (t now : Nat) : Claim :=
  { c with grant := c.grant - t, pending := true, causeSubj := false, refused := false, since := if c.pending then c.since else now }

/-- Cut step 2: program grants, highest program first. -/
def cutProgs (k : Nat) : Nat → State → Nat → State × Nat
  | 0, s, x => (s, x)
  | p + 1, s, x =>
    let c := s.progClaim p k
    let t := min (c.grant - c.subj) x
    cutProgs k p (if t = 0 then s else (s.setProgClaim p k (c.cut t s.tbase)).event BUD_EVT_GRANTCUT) (x - t)

/-- Cut step 3: hardware consumer grants, highest index first. -/
def cutHw (k : Nat) : Nat → State → Nat → State × Nat
  | 0, s, x => (s, x)
  | i + 1, s, x =>
    let c := s.hwClaim i
    let t := if s.fld BUD_HWREQ_POOL i = k then min c.grant x else 0
    cutHw k i (if t = 0 then s else (s.setHwClaim i (c.cut t s.tbase)).event BUD_EVT_GRANTCUT) (x - t)

/-- Cut step 4: child pool grants, highest pool first; the children cut are listed. -/
def cutChildren (k : Nat) : Nat → State → Nat → List Nat → State × Nat × List Nat
  | 0, s, x, l => (s, x, l)
  | j + 1, s, x, l =>
    let c := s.childClaim j
    let t := if poolParent s j = some k then min c.grant x else 0
    if t = 0 then cutChildren k j s x l
    else cutChildren k j (s.setChildClaim j (c.cut t s.tbase)) (x - t) (j :: l)

/-- The excess of pool `k` has gone (R229): OVERCOMMIT and the level of its fault end. -/
def endOvercommit (s : State) (k : Nat) : State := (s.setFlag BUD_PSTAT_OVERCOMMIT false k).setLevel 344 k 0 0 false

/-- The excess that reservations and confirmed intents leave: OVERCOMMIT, whose fault lasts as long as it (R229, R350). -/
def markOvercommit (s : State) (k x : Nat) : State :=
  if x = 0 then endOvercommit s k
  else if s.flag BUD_PSTAT_OVERCOMMIT k then s
  else ((s.setFlag BUD_PSTAT_OVERCOMMIT true k).setFbit BUD_EVT_OVERCOMMIT k true).setLevel 344 k 0 (wordOf x) true

/-- Steps 2–4 of R229 for the excess `x` of pool `k`, and the children whose grants were cut. -/
def cutGrants (k : Nat) (s : State) (x : Nat) : State × List Nat :=
  let (s, x) := cutProgs k 48 s x
  let (s, x) := cutHw k 10 s x
  let (s, x, l) := cutChildren k 8 s x []
  (markOvercommit s k x, l)

/-- The capacity cut of pool `k` and of its children, to the depth of R220: the whole excess is assigned in one cycle, and only the
allowances wait for their vectors. -/
def poolCut : Nat → Nat → State → State
  | 0, _, s => s
  | fuel + 1, k, s =>
    let s := claimReductions s k
    let (s, x) := cutAllowances k 16 s (poolExcess s k)
    let (s, l) := cutGrants k s x
    l.foldl (fun t j => poolCut fuel j t) s

/-- The last pending capacity cut of pool `k` has cleared: nothing of its excess waits any longer. -/
def clearDrawn (s : State) (k : Nat) : State :=
  (List.range 16).foldl (fun s n => if s.fld IP_CTRL_POOL n = k ∧ (s.port n).drawn ≠ 0 then s.setPort n { s.port n with drawn := 0 } else s) s

/-- What is left of the excess of pool `k` once its last pending capacity cut has cleared: cut in steps 2–4 (R229). -/
def poolCutRest (k : Nat) (s : State) : State :=
  if poolCapPend s k then s
  else
    let s := clearDrawn s k
    let (s, l) := cutGrants k s (poolExcess s k)
    l.foldl (fun t j => poolCut 4 j t) s

/-! ## Service (R223) -/

/-- The FREE that claims may take: none while a capacity cut or an overcommitment is pending (R229). -/
def poolServable (s : State) (k : Nat) : Nat :=
  if poolCapPend s k ∨ s.flag BUD_PSTAT_OVERCOMMIT k then 0 else (poolFree s k).toNat

/-- The claims of pool `k` served in the rank order of R221: child pools, allowance refills, hardware consumers,
programs; each takes the lesser of its shortfall and what is left. -/
def poolServe (s : State) (k : Nat) : State :=
  let s := (List.range 8).foldl (fun s j =>
    let c := s.childClaim j
    if poolParent s j = some k ∧ c.pending then s.setChildClaim j (c.take (min c.short (poolServable s k))) else s) s
  let s := (List.range 16).foldl (fun s n =>
    if s.fld IP_CTRL_POOL n = k then
      let t := min (refillShort s n) (poolServable s k)
      if t = 0 then s else s.setFld IP_ALLOW_ALLOW (s.fld IP_ALLOW_ALLOW n + t) n
    else s) s
  let s := (List.range 10).foldl (fun s i =>
    let c := s.hwClaim i
    if s.fld BUD_HWREQ_POOL i = k ∧ c.pending then s.setHwClaim i (c.take (min c.short (poolServable s k))) else s) s
  (List.range 48).foldl (fun s p =>
    let c := s.progClaim p k
    if c.pending then s.setProgClaim p k (c.take (min c.short (poolServable s k))) else s) s

/-- The cause of every pending claim of pool `k` judged again (R224). -/
def poolCauses (s : State) (k : Nat) : State :=
  let room := (poolFree s k + poolReserved s k).toNat
  let s := (List.range 10).foldl (fun s i =>
    let c := s.hwClaim i
    if s.fld BUD_HWREQ_POOL i = k ∧ c.pending then s.setHwClaim i { c with causeSubj := decide (c.short ≤ room) } else s) s
  let s := (List.range 8).foldl (fun s j =>
    let c := s.childClaim j
    if poolParent s j = some k ∧ c.pending then s.setChildClaim j { c with causeSubj := decide (c.short ≤ room) } else s) s
  (List.range 48).foldl (fun s p =>
    let c := s.progClaim p k
    if c.pending then s.setProgClaim p k { c with causeSubj := decide (c.short ≤ room) } else s) s

/-- One arbitration of pool `k` (R223): releases have been applied as they arrived, then capacity, then service. -/
def poolArbitrate (s : State) (k : Nat) : State := poolCauses (poolServe (poolCut 4 k s) k) k

/-! ## Returned headroom (R152, R226) -/

/-- The first step of R226: each port whose last answer was a DEFER of cause BUDGET_SUBJ on the pool, and which has made no
request since, has its allowance raised by up to what it now lacks of the deferred code's BUDG. -/
def refundPorts (k : Nat) : List Nat → State → Nat → State × Nat
  | [], s, h => (s, h)
  | n :: l, s, h =>
    if s.fld IP_CTRL_POOL n = k ∧ s.flag IP_STAT_REFPEND n ∧ s.fld IP_STAT_LASTDEF n = 5 then
      let short := min (s.port n).asked (s.fld BUD_IPCFG_ALMAX n) - s.fld IP_ALLOW_ALLOW n
      let t := min h short
      if t = 0 then refundPorts k l s h
      else
        let s := s.setFld IP_ALLOW_ALLOW (s.fld IP_ALLOW_ALLOW n + t) n
        let s := if t = short then s.setFlag IP_STAT_REFPEND false n else s
        refundPorts k l ((s.event IP_EVT_REFUND n).countTo IPT_REFUND_COUNT 0xFFFFFFFF) (h - t)
    else refundPorts k l s h

/-- The second step of R226: pending claims of cause SUBJ, in rank order. -/
def refundClaims (k : Nat) (s : State) (h : Nat) : State × Nat :=
  let a := (List.range 8).foldl (fun (a : State × Nat) j =>
    let c := a.1.childClaim j
    if poolParent a.1 j = some k ∧ c.pending ∧ c.causeSubj then
      (a.1.setChildClaim j (c.take (min c.short a.2)), a.2 - min c.short a.2) else a) (s, h)
  let a := (List.range 10).foldl (fun (a : State × Nat) i =>
    let c := a.1.hwClaim i
    if a.1.fld BUD_HWREQ_POOL i = k ∧ c.pending ∧ c.causeSubj then
      (a.1.setHwClaim i (c.take (min c.short a.2)), a.2 - min c.short a.2) else a) a
  (List.range 48).foldl (fun (a : State × Nat) p =>
    let c := a.1.progClaim p k
    if c.pending ∧ c.causeSubj then
      (a.1.setProgClaim p k (c.take (min c.short a.2)), a.2 - min c.short a.2) else a) a

/-- OVERCOMMIT clears when the excess has gone (R229). -/
def clearOvercommit (s : State) (k : Nat) : State := if 0 ≤ poolFree s k then endOvercommit s k else s

/-- The headroom `h` of a revoked reservation on pool `k` offered in the order of R226, as far as the pool has FREE for claims
(R219, R229); `port` is the port whose intent was revoked, none for a program clause. -/
def returnHeadroom (s : State) (k h : Nat) (port : Option Nat) : State :=
  let s := clearOvercommit s k
  let h := min h (poolServable s k)
  let (s, h) := refundPorts k (List.range 16) s h
  let (s, h) := refundClaims k s h
  match port with
  | none => s
  | some n =>
    let t := min h (s.fld BUD_IPCFG_ALMAX n - s.fld IP_ALLOW_ALLOW n)
    if t = 0 then s else s.setFld IP_ALLOW_ALLOW (s.fld IP_ALLOW_ALLOW n + t) n

/-! ## Pinned time (R233) -/

/-- The present pinned state of quantity `q` of rail `n` and `ns` nanoseconds of it counted. -/
def pinCount (s : State) (n q : Nat) (pin : Bool) (ns : Nat) : State :=
  let k := 4 * n + q
  let b := s.bud
  if pin then
    let t := cellGet 0 b.pinNs k + ns
    let ms := cellGet 0 b.pinMs k + t / 1000000
    let sat := decide (0xFFFFFFFF ≤ ms)
    let b' := { b with pinned := cellSet false b.pinned k true, pinNs := cellSet 0 b.pinNs k (t % 1000000),
                       pinMs := cellSet 0 b.pinMs k (min ms 0xFFFFFFFF),
                       pinSat := if sat then cellSet false b.pinSat k true else b.pinSat }
    let s' := { s with bud := b' }
    if sat && !cellGet false b.pinSat k then s'.event BUD_EVT_PINSAT else s'
  else { s with bud := { b with pinned := cellSet false b.pinned k false, pinRaised := cellSet false b.pinRaised k false } }

/-! ## Register writes -/

/-- PARENT of pool `k` set to `p` makes a cycle, names the pool, or makes a chain deeper than four pools (R220). -/
def poolLoops (s : State) (k p : Nat) : Bool :=
  let t := s.setFld BUD_PCFG_PARENT p k
  decide (p < 8) && (decide (p = k) || (List.range 8).any (fun j => decide (4 ≤ poolDepth t 8 j)))

/-- A write of BUD_PkCFG (R220, R235): CAP, a new claim level in the parent, and PARENT. -/
def writeCap (s : State) (k : Nat) (w : Word) : State × Status :=
  let p := Word.bits w 27 24
  let cap := Word.bits w 19 0
  let oldP := s.fld BUD_PCFG_PARENT k
  if p ≠ oldP ∧ s.flag BUD_CFG_LOCK then (s, .violation)
  else if 8 ≤ p ∧ p ≤ 14 then (s, .illegal)
  else if p ≠ oldP ∧ (s.fld BUD_PCFG_CAP k ≠ 0 ∨ poolGranted s k ≠ 0 ∨ poolAllowed s k ≠ 0 ∨ poolReserved s k ≠ 0) then
    (s, .inuse)
  else if p ≠ oldP ∧ poolLoops s k p then (s, .poolloop)
  else
    let s := (s.setFld BUD_PCFG_PARENT p k).setFld BUD_PCFG_CAP cap k
    let s := if p < 8 then s.setChildClaim k ((s.childClaim k).request cap s.tbase) else s.setChildClaim k {}
    (poolCut 4 k s, .ok)

/-- A write of BUD_HWREQc (R221, R235). -/
def writeHwReq (s : State) (c : Nat) (w : Word) : State × Status :=
  let pool := Word.bits w 26 24
  let level := Word.bits w 19 0
  let x := s.hwClaim c
  if pool ≠ s.fld BUD_HWREQ_POOL c ∧ (x.level ≠ 0 ∨ x.grant ≠ 0) then (s, .inuse)
  else
    let s := (s.setFld BUD_HWREQ_POOL pool c).setFld BUD_HWREQ_LEVEL level c
    (s.setHwClaim c (x.request level s.tbase), .ok)

/-- The engine that runs program `p`, if any (R163). -/
def State.engineOf (s : State) (p : Nat) : Option Nat :=
  (List.range 48).find? (fun e => s.engPresent e && s.fld ENG_STAT_PROG e == p)

/-- The engine that runs program `p` is RUNNING, WAITING or RESTORING (R167, R235). -/
def progActive (s : State) (p : Nat) : Bool :=
  match s.engineOf p with
  | some e => let st := s.fld ENG_STAT_STATE e
      st == 1 || st == 2 || st == 5
  | none => false

/-- A host write of BUD_PREQ (R222, R235): the level of the selected program on the selected pool, refused with ENGRUN
while the engine that runs the program is active. -/
def writePreq (s : State) (w : Word) : State × Status :=
  let p := s.fld BUD_PSEL_PROG
  let k := s.fld BUD_PSEL_POOL
  if progActive s p then (s, .engrun)
  else (s.setProgClaim p k ((s.progClaim p k).request (Word.bits w 19 0) s.tbase), .ok)

/-- A write of BUD_IPCFGn.ALMAX (R227, R228): a value below the present allowance starts a reduction under R138. -/
def writeAlmax (s : State) (n : Nat) (w : Word) : State × Status :=
  let v := Word.bits w 19 0
  let a := s.fld IP_ALLOW_ALLOW n
  let s := s.setFld BUD_IPCFG_ALMAX v n
  (if v < a then reduceAllowance s n (a - v) else s, .ok)

/-! ## The commands -/

/-- POOL_ARBITRATION (R223). -/
def execPoolArbitration (k : Fin 8) (s : State) : Out := s.on 4 (poolArbitrate s k)

/-- The pending reduction of port `n` is complete (R138, R229): the vector in place counts it, or no wait is asked. It leaves
ALLOWED; when it was the pool's last capacity cut, what is left of the excess is cut from the other claims. -/
def reductionComplete (s : State) (n : Nat) : State :=
  let done := !reductionWaits s n || decide ((s.port n).cutSeq ≤ cellGet 0 (s.group (n / 4)).active.cuts (n % 4))
  let h := s.port n
  if done && (decide (h.cut ≠ 0) || h.capCut) then
    let s := s.setPort n { h with cut := 0, capCut := false }
    if h.capCut then poolCutRest (s.fld IP_CTRL_POOL n) s else s
  else s

/-- ALLOWANCE_REDUCTION_COMPLETE (R138). -/
def execAllowanceReductionComplete (n : Fin 16) (s : State) : Out := s.on 4 (reductionComplete s n)

/-- The claim of CLAIM_REFUSAL is refused now (R225): pending for PENDTMO, with cause SHORT. -/
def Claim.due (c : Claim) (s : State) : Bool :=
  c.pending && !c.causeSubj && decide (100 * s.fld BUD_CFG_PENDTMO ≤ s.tbase - c.since)

/-- The claim of CLAIM_REFUSAL after its refusal (R225): the grant keeps what was met. -/
def Claim.refuse (c : Claim) : Claim := { c with pending := false, refused := true }

/-- CLAIM_REFUSAL (R225) of a program's claim on pool `k`, or of hardware consumer `c`. With PENDTMO = 0 nothing is refused. -/
def execClaimRefusal (hw : Bool) (idx : Fin 48) (k : Fin 8) (s : State) : Out :=
  if s.fld BUD_CFG_PENDTMO = 0 then .next s
  else if hw then
    let c := s.hwClaim idx
    if c.due s then .next ((s.setHwClaim idx c.refuse).event BUD_EVT_REFUSED) else .next s
  else
    let c := s.progClaim idx k
    if c.due s then .next ((s.setProgClaim idx k c.refuse).event BUD_EVT_REFUSED) else .next s

/-- OVERLOAD (R231): MEAS has exceeded CAPEFF × 250 mW for OVLPERS. -/
def execOverload (k : Fin 8) (s : State) : Out :=
  let lim := poolCapEff s k * 250
  let m := s.fld BUD_PMEAS_MEAS k
  if s.fld BUD_CFG_OVLPERS = 0 ∨ m ≤ lim ∨ s.flag BUD_PSTAT_OVERLOAD k then .next s
  else .next (((s.setFlag BUD_PSTAT_OVERLOAD true k).setFbit BUD_EVT_OVERLOAD k true).setLevel 345 k 0 (wordOf (m - lim)) true)

/-- PINNED_EVENT (R233): quantity `q` of rail `n` has stayed pinned for BUD_PINPERS of its kind. -/
def execPinnedEvent (n : Fin 32) (q : Fin 4) (s : State) : Out :=
  let k := 4 * n.val + q.val
  let pers := (s.fld ⟨BUD_PINPERS, 8 * q.val + 7, 8 * q.val⟩)
  if pers = 0 ∨ !cellGet false s.bud.pinned k ∨ cellGet false s.bud.pinRaised k then .next s
  else
    let s := s.setFbit BUD_PINEVT_RAILS n true q
    .next { s with bud := { s.bud with pinRaised := cellSet false s.bud.pinRaised k true } }

/-- PINSEL_CLR (R233, R13): the selected pinned-time counter and its SAT clear. -/
def pinselClear (s : State) (n q : Nat) : State :=
  let k := 4 * n + q
  { s with bud := { s.bud with pinMs := cellErase s.bud.pinMs k, pinNs := cellErase s.bud.pinNs k,
                               pinSat := cellErase s.bud.pinSat k } }

/-- PINSEL_CLR: the counter selected in BUD_PINSEL. -/
def execPinselClr (s : State) : Out := s.on 4 (s.ifWritable (pinselClear s (s.fld BUD_PINSEL_RAIL) (s.fld BUD_PINSEL_QTY)))

/-- CAP_WRITE (R220). -/
def execCapWrite (k : Fin 8) (w : Word) (s : State) : Out := s.on 4 (s.ifWritable (writeCap s k w).1)

/-- HWREQ_WRITE (R221). -/
def execHwreqWrite (c : Fin 10) (w : Word) (s : State) : Out := s.on 4 (s.ifWritable (writeHwReq s c w).1)

/-- PREQ_WRITE (R222). -/
def execPreqWrite (w : Word) (s : State) : Out := s.on 4 (s.ifWritable (writePreq s w).1)

/-- ALMAX_WRITE (R228). -/
def execAlmaxWrite (n : Fin 16) (w : Word) (s : State) : Out := s.on 4 (s.ifWritable (writeAlmax s n w).1)

end Sys2Proof.Machine
end

