-- ==== Sys2Proof/Machine/LinkBase.lean ====
section
/-! DEFINITION. What rails and modules share of a Fenxo link (05_fenxo_link.md): the check codes, the link's record, and the
commands that fall due on it (R108). -/
namespace Sys2Proof.Machine

def State.link (s : State) (l : Nat) : LinkH := cellGet {} s.links l
def State.setLink (s : State) (l : Nat) (h : LinkH) : State := { s with links := cellSet {} s.links l h }

/-- The domain of link `l` (R22): the phases' links with their fabric, the eight LX links in PD9. -/
def linkDomain (l : Nat) : Nat := if l < 32 then 4 else if l < 64 then 5 else 9

/-- The states of a link (R126). -/
def lsDown : Nat := 0
def lsAlign : Nat := 1
def lsCaps : Nat := 2
def lsRate : Nat := 3
def lsRtt : Nat := 4
def lsSetup : Nat := 5
def lsUp : Nat := 6
def lsLost : Nat := 7
def lsFailed : Nat := 8

/-- LSTATE of link `l`. -/
def lstate (s : State) (l : Nat) : Nat := s.fld PH_FXSTAT_LSTATE l

/-- One bit through a CRC register of `w` bits, most significant bit first (R113, R375). -/
def crcBit (w : Nat) (poly : Nat) (acc : Nat) (b : Bool) : Nat :=
  let top := acc.testBit (w - 1) != b
  let sh := (acc * 2) % 2 ^ w
  if top then sh ^^^ poly else sh

/-- A CRC over the bits of `v` from bit `k - 1` down to bit 0. -/
def crcBits (w poly : Nat) : Nat → Nat → Nat → Nat
  | 0, _, acc => acc
  | k + 1, v, acc => crcBits w poly k v (crcBit w poly acc (v.testBit k))

/-- CRC-16-CCITT over the low `k` bits of `v`, most significant first (R113). -/
def crc16 (k v : Nat) : Nat := crcBits 16 0x1021 k v 0xFFFF

/-- CRC-8 SAE J1850 over the low `k` bits of `v`, most significant first (R113). -/
def crc8 (k v : Nat) : Nat := (crcBits 8 0x1D k v 0xFF) ^^^ 0xFF

/-- The command codes of R107 and R238. -/
def cmdSetlim : Nat := 1
def cmdFence : Nat := 2
def cmdUnfence : Nat := 3
def cmdSink : Nat := 4
def cmdClrflt : Nat := 5
def cmdSetdt : Nat := 6

/-- The place of a command among those that fall due in the same frame (R108, R238). -/
def cmdRank (code : Nat) : Nat :=
  if code = cmdSetlim then 0 else if code = cmdSink then 1 else if code = cmdFence then 2 else if code = cmdUnfence then 3
  else if code = cmdClrflt then 4 else 5

/-- The commands waiting, with `c` behind those that fell due before it: earlier frames first, then the order of R108. -/
def dueCmd (c : LinkCmd) : List LinkCmd → List LinkCmd
  | [] => [c]
  | x :: t => if x.due = c.due ∧ cmdRank c.code < cmdRank x.code then c :: x :: t else x :: dueCmd c t

/-- A command falls due on link `l`: queued in SETUP and UP only (R108). -/
def queueCmd (s : State) (l code arg : Nat) : State :=
  if lstate s l = lsUp ∨ lstate s l = lsSetup then
    let h := s.link l
    s.setLink l { h with cmds := dueCmd { code := code, arg := arg, due := h.window } h.cmds }
  else s

/-- A command falls due only while LSTATE is UP (R108). -/
def sendCmd (s : State) (l code arg : Nat) : State := if lstate s l = lsUp then queueCmd s l code arg else s

/-- Counter fields of a link count and saturate with their SAT bits (R13, R126). -/
def linkCount (s : State) (l : Nat) (f sat : Fld) : State :=
  if s.fld f l < 0xFFFFFFFF then
    let s := s.setFld f (s.fld f l + 1) l
    if s.fld f l = 0xFFFFFFFF then (s.setFlag sat true l).event PH_EVT_SATURATED l else s
  else s

end Sys2Proof.Machine
end

