-- ==== Sys2Proof/Machine/Terms.lean ====
section
/-! DEFINITION. A rail's phases in service and its live terms (R87, R88, R143), and what ends an announced intent or a
program clause: confirmation, revocation and release (R146–R149, R178, R179). -/
namespace Sys2Proof.Machine

/-! ## Phases of a rail -/

/-- The rail states of R73. -/
def rsOff : Nat := 0
def rsSoftstart : Nat := 1
def rsRegulate : Nat := 2
def rsStopping : Nat := 3
def rsHiccupOff : Nat := 4
def rsLatched : Nat := 5
def rsDraining : Nat := 6
def rsFenced : Nat := 7

/-- The state of a rail. -/
def railState (s : State) (n : Nat) : Nat := s.fld RL_STAT_STATE n

/-- The phases the rail's map names, in map order (R87): bit `j` stands for PH `j`, or PH `32 + j` from RL16. -/
def railPhases (s : State) (n : Nat) : List Nat :=
  let m := s.fld RL_PMAP_PMAP n
  let b := if n < 16 then 0 else 32
  ((List.range 32).filter (fun j => m.testBit j)).map (fun j => b + j)

/-- A phase is in service (R87, R95, R97): no recorded fence, and its link has completed training. -/
def phInService (s : State) (ph : Nat) : Bool :=
  cellGet 0 s.flt.phF ph == 0 && s.fld PH_FXSTAT_LSTATE ph == 6

/-- The rail's phases in service, in map order. -/
def railService (s : State) (n : Nat) : List Nat := (railPhases s n).filter (phInService s)

/-- NSVC and NMAP of R92. -/
def railNsvc (s : State) (n : Nat) : Nat := (railService s n).length
def railNmap (s : State) (n : Nat) : Nat := (railPhases s n).length

/-- The phases armed by contributions and by the clause term (R143, R177). -/
def railArmed (s : State) (n : Nat) : Nat :=
  let r := s.rail n
  r.contribs.foldl (fun a c => a + (if c.applied then c.phadd else 0)) 0
    + (match r.clause with | some t => t.olds.foldl (fun a x => a + x.2) t.arm | none => 0)

/-- The state that the rail's phases follow: a DRAINING rail leaves them as in the state it left (R73). -/
def railPhaseState (s : State) (n : Nat) : Nat := if railState s n = rsDraining then (s.rail n).left else railState s n

/-- The rail's phases are switching (R73). -/
def railRuns (s : State) (n : Nat) : Bool :=
  let st := railPhaseState s n
  st == rsSoftstart || st == rsRegulate || st == rsStopping

/-- NACT of R88 and R143. -/
def railNact (s : State) (n : Nat) : Nat :=
  if railRuns s n then
    min (railNsvc s n) (min (s.fld RL_PHBND_PHCEIL n) ((s.rail n).managed + railArmed s n))
  else 0

/-- The rail that maps a phase, if any (R87). -/
def railOfPhase (s : State) (ph : Nat) : Option Nat :=
  (List.range 32).find? (fun n => (railPhases s n).contains ph)

/-- RLn_STAT.SUBJ: a live pre-bias, feed-forward or arming is present (R143, R177). -/
def railSubj (s : State) (n : Nat) : Bool :=
  let r := s.rail n
  !r.contribs.isEmpty || (match r.clause with | some _ => true | none => false)

/-- PBLIVE of R143 in 2^-10 µV: the contributions and the clause term, saturated at ±63 mV. -/
def railPb (s : State) (n : Nat) : Int :=
  let r := s.rail n
  clampInt (r.contribs.foldl (fun a c => a + (if c.applied then c.pb else 0)) 0
    + (match r.clause with | some t => t.pb | none => 0)) (-63000 * 1024) (63000 * 1024)

/-- FFLIVE of R143 in µA. -/
def railFf (s : State) (n : Nat) : Int :=
  (s.rail n).contribs.foldl (fun a c => a + (if c.applied then c.ff else 0)) 0

/-! ## Entries of the Intent Table (R141, R142) -/

def Entry.valid (e : Entry) : Bool := Word.bit e.w0 31
def Entry.ben (e : Entry) : Bool := Word.bit e.w0 30
def Entry.cfrac (e : Entry) : Nat := let c := Word.bits e.w0 29 26
  if c = 0 then 16 else c
def Entry.cwin (e : Entry) : Nat := min 1000 (max 1 (Word.bits e.w0 25 16))
def Entry.unwindNs (e : Entry) : Nat := 500 * max 2 (Word.bits e.w0 15 8)
def Entry.shdly (e : Entry) : Nat := Word.bits e.w0 7 0
def Entry.budg (e : Entry) : Nat := Word.bits e.w1 31 12
/-- The rail word of rail A, or of rail B. -/
def Entry.rw (e : Entry) (second : Bool) : Word := if second then e.w3 else e.w2
def Entry.railIdx (e : Entry) (second : Bool) : Nat := Word.bits (e.rw second) 31 27
def Entry.pb (e : Entry) (second : Bool) : Int := signed 7 (Word.bits (e.rw second) 26 20)
def Entry.phadd (e : Entry) (second : Bool) : Nat := Word.bits (e.rw second) 19 15
def Entry.step (e : Entry) (second : Bool) : Int := signed 10 (Word.bits (e.rw second) 14 5)
def Entry.ffrac (e : Entry) (second : Bool) : Nat := min 16 (Word.bits (e.rw second) 4 0)
/-- The rails an entry names, rail B only with BEN. -/
def Entry.rails (e : Entry) : List Nat := if e.ben then [e.railIdx false, e.railIdx true] else [e.railIdx false]

/-- The scaling of R142: toward zero for PB, STEP and BUDG, upward for PHADD. -/
def scaleInt (v : Int) (scale : Nat) : Int := divTrunc (v * (scale + 1)) 64
def scaleNat (v scale : Nat) : Nat := v * (scale + 1) / 64
def scaleUp (v scale : Nat) : Nat := ceilDiv (v * (scale + 1)) 64

/-! ## The end of an intent -/

/-- The slot of a contribution whose effects have all ended is free (R146, R148): its ramps are over and its phases disarmed. -/
def Contrib.over (c : Contrib) : Bool :=
  c.phase != .subj && c.pb == 0 && c.ff == 0 && !c.armHeld

/-- The finished contributions leave their slots. -/
def freeSlots (s : State) (n : Nat) : State :=
  s.setRail n { s.rail n with contribs := (s.rail n).contribs.filter (fun c => !c.over) }

/-- The contributions of port `p` on rail `n` begin to unwind after a revocation (R148): on a rail in REGULATE the ramps
start and the armed phases wait for SHDLY; elsewhere, or before the contribution was applied, it is cleared at once. -/
def unwindContribs (s : State) (p n : Nat) : State :=
  let r := s.rail n
  let reg := railState s n == rsRegulate
  let cs := (r.contribs.filter (fun c => !(c.port == p && c.phase == .subj && (!reg || !c.applied)))).map (fun c =>
    if c.port = p ∧ c.phase = .subj then
      { c with phase := .revoked, ffFrom := c.ff, armHeld := decide (c.phadd ≠ 0) } else c)
  freeSlots (s.setRail n { r with contribs := cs }) n

/-- The patina record of an intent (R151, TYPE 0x04): offered when IPn_CTRL.LOG is set. -/
def logIntent (s : State) (p outcome : Nat) : State :=
  if s.flag IP_CTRL_LOG p then
    let e := (s.port p).entry
    let us := (s.tbaseLo + 2 ^ 32 - s.fld IP_OPENT_TGRANT p) % 2 ^ 32
    let bytes := [p, s.fld IP_OPEN_CODE p, s.fld IP_OPEN_BANK p, s.fld IP_OPEN_SCALE p, outcome, e.railIdx false,
      if e.ben then e.railIdx true else 0xFF] ++ natBytes 4 us
    s.postRecord { kind := 4, src := 0x42, time := s.tbase, bytes := bytes }
  else s

/-- One of the port's counters counts (R13): it stops at its top, and SATURATED sets once. -/
def portCount (s : State) (f : Fld) (p : Nat) : State :=
  if s.fld f p < 0xFFFFFFFF then
    let s := s.setFld f (s.fld f p + 1) p
    if s.fld f p = 0xFFFFFFFF then s.event IP_EVT_SATURATED p else s
  else s

/-- Revocation of a SUBJ intent (R147, R148): the reservation returns first, the record goes to FREE, its contributions
unwind, and only then the external traces appear (R151). -/
def revokeIntent (s : State) (p reason : Nat) : State :=
  if s.fld IP_OPEN_STATE p ≠ 1 then s
  else
    let h := s.port p
    let s := s.setFld IP_OPEN_STATE 0 p
    let s := s.setPort p { h with reserved := 0 }
    let s := returnHeadroom s h.pool h.reserved (some p)
    let s := h.entry.rails.foldl (fun s n => unwindContribs s p n) s
    let s := portCount ((s.setFld IP_REVRSN_REASON reason p).event IP_EVT_REVOKED p) IP_NREVK_COUNT p
    logIntent s p reason

/-- A confirmed intent's grant returns to the pool and the record is freed (R149). -/
def releaseIntent (s : State) (p : Nat) : State :=
  if s.fld IP_OPEN_STATE p ≠ 2 then s
  else (s.setFld IP_OPEN_STATE 0 p).setPort p { s.port p with reserved := 0 }

/-- Confirmation at one rail (R146): the contributions of port `p` become indicative; the managed count becomes NACT less
the phases still armed by others. -/
def confirmContribs (s : State) (p n : Nat) : State :=
  let r := s.rail n
  let nact := railNact s n
  let cs := r.contribs.map (fun c =>
    if c.port = p ∧ c.phase = .subj then { c with phase := .confirmed, ffFrom := c.ff, phadd := 0, armHeld := false } else c)
  let s' := s.setRail n { r with contribs := cs }
  freeSlots (s'.setRail n { s'.rail n with managed := nact - railArmed s' n }) n

/-- The microseconds since the GRANT of port `p`'s intent was processed (R145). -/
def intentAge (s : State) (p : Nat) : Nat := (s.tbaseLo + 2 ^ 32 - s.fld IP_OPENT_TGRANT p) % 2 ^ 32

/-- Confirmation of an intent (R146): the reservation becomes a grant, the record goes to CONF. -/
def confirmIntent (s : State) (p : Nat) : State :=
  if s.fld IP_OPEN_STATE p ≠ 1 then s
  else
    let s := s.setFld IP_OPEN_STATE 2 p
    let s := (s.port p).entry.rails.foldl (fun s n => confirmContribs s p n) s
    logIntent (portCount (s.event IP_EVT_CONFIRMED p) IP_NCONF_COUNT p) p 0

/-! ## The end of a clause -/

/-- The program engine `e` runs; 0x3F none. -/
def progOf (s : State) (e : Nat) : Nat := s.fld ENG_STAT_PROG e

/-- One clause counter counts and saturates (R13). -/
def engCount (s : State) (f : Fld) (e : Nat) (conf : Bool) : State :=
  if s.fld f e < 0xFFFFFFFF then
    let s := s.setFld f (s.fld f e + 1) e
    if s.fld f e = 0xFFFFFFFF then
      let h := s.eng e
      (s.setEng e (if conf then { h with satConf := true } else { h with satRevk := true })).event ENG_EVT_SATURATED e
    else s
  else s

/-- The reservation of a clause on one pool returns (R179, R226): the level is the one before the clause. -/
def unreserve (s : State) (p k : Nat) : State :=
  let c := s.progClaim p k
  if c.inClause then
    let s := s.setProgClaim p k { c with grant := c.grant - c.subj, subj := 0, inClause := false, level := c.base,
                                         pending := decide (c.grant - c.subj < c.base) && c.pending && !c.refused }
    returnHeadroom s k c.subj none
  else s

/-- The clause terms of engine `e` on rail `n` begin to unwind (R179): in REGULATE the pre-bias slews back at the rail's
rates and the armed phases wait for CLSHDLY; elsewhere the term is cleared. -/
def unwindClause (s : State) (e n : Nat) : State :=
  let r := s.rail n
  match r.clause with
  | some t =>
    if t.eng = e ∧ t.phase = .subj then
      if railState s n = rsRegulate ∧ ¬(t.pb = 0 ∧ t.arm = 0 ∧ t.olds = []) then
        s.setRail n { r with clause := some { t with phase := .revoked, setPb := none, setArm := none, hasTarget := false, rate := 0,
                                                     armHeld := decide (t.arm ≠ 0) } }
      else s.setRail n { r with clause := none }
    else s
  | none => s

/-- Revocation of the open clause of engine `e` (R179). With `branch` the engine branches to the label, which discards a wait in
progress. -/
def revokeClause (s : State) (e reason : Nat) (branch : Bool) : State :=
  match (s.eng e).clause with
  | none => s
  | some c =>
    let s := c.rails.foldl (fun s n => unwindClause s e n) s
    let s := (List.range 8).foldl (fun s k => unreserve s (progOf s e) k) s
    let s := s.setEng e { s.eng e with clause := none, held := [] }
    let s := ((s.setFld ENG_CLAUSE_STATE 0 e).setFld ENG_CLAUSE_LASTRSN reason e).setFld ENG_CLAUSE_HELD 0 e
    let s := engCount (s.event ENG_EVT_REVOKED e) ENG_NREVK_COUNT e false
    if branch then
      let s := s.setEng e { s.eng e with wait := none }
      let s := s.setFld ENG_PC_PC c.label e
      if s.fld ENG_STAT_STATE e = 2 then s.setFld ENG_STAT_STATE 1 e else s
    else s

/-! ## A rail leaves REGULATE -/

/-- The intents and clauses on rail `n` end because the rail did: `ireason` is the intents' reason (R147) and `creason` the
clauses' (R179). The rail's own terms are cleared at once (R148, R93). The rail's state has been set before. -/
def railTermsEnd (s : State) (n ireason creason : Nat) : State :=
  let s := (List.range 16).foldl (fun s p =>
    if s.fld IP_OPEN_STATE p = 1 ∧ (s.port p).entry.rails.contains n then revokeIntent s p ireason else s) s
  let s := (List.range 48).foldl (fun s e =>
    match (s.eng e).clause with
    | some c => if c.rails.contains n then revokeClause s e creason true else s
    | none => s) s
  s.setRail n { s.rail n with contribs := [], clause := none }

end Sys2Proof.Machine
end

