-- ==== Sys2Proof/Machine/Rail.lean ====
section
/-! DEFINITION. The rail loops (04_rail_regulation.md): the rail states, the slew generator, tracking, the compensator, the
phase manager, current limit and hiccup, phase fencing, and the writes of the RLn registers. -/
namespace Sys2Proof.Machine

/-! ## Shared operations -/

/-- The rail's state permits reverse current (R73): in REGULATE and STOPPING, and in SOFTSTART with SINKEN = 1. -/
def railSinks (s : State) (n : Nat) : Bool :=
  let st := railPhaseState s n
  st == rsRegulate || st == rsStopping || (st == rsSoftstart && s.flag RL_CTRL_SINKEN n)

/-- The permission to sink differs between `s` and `t`: SINK goes to the phases of the rail in `t` (R108). -/
def sendSink (s t : State) (n : Nat) : State :=
  if railSinks t n == railSinks s n then t
  else (railPhases t n).foldl (fun u ph => sendCmd u ph cmdSink (railSinks t n).toNat) t

/-- The rail's state set; RLn_CTRL.EN reads 1 in every state but OFF, LATCHED and FENCED (R100). A change of the permission to
sink sends SINK to the stages (R108), and a rail that leaves REGULATE disarms its comparators (R284). -/
def setRailState (s : State) (n st : Nat) : State :=
  let t := (s.setFld RL_STAT_STATE st n).setFlag RL_CTRL_EN (st != rsOff && st != rsLatched && st != rsFenced) n
  let t := if railState s n = rsRegulate ∧ st ≠ rsRegulate then supLeave t n else t
  sendSink s (if railState s n = st then t else (t.noteHist (histRail n (railState s n))).noteHist (histRail n st)) n

/-- The divider ratio of R78. -/
def railRatio (s : State) (n : Nat) : Nat :=
  match s.fld RL_CTRL_DIV n with
  | 0 => 1 | 1 => 2 | 2 => 4 | 3 => 8 | _ => 10

/-- The maximum output of the present DIV in µV (R78). -/
def railMax (s : State) (n : Nat) : Nat := 65535 * 25 * railRatio s n

/-- The effective ceiling (R78). -/
def railCeil (s : State) (n : Nat) : Nat := min (s.fld RL_VCEIL_VCEIL n) (railMax s n)

/-- A node of the maquette is at SHUTDOWN (R318): its bit in THM_LVL2. -/
def nodeShutdown (s : State) (node : Nat) : Bool := s.fbit THM_LVL_NODES (node % 32) (6 + node / 32)

/-- A phase of the rail's map is at SHUTDOWN (R321). -/
def railHot (s : State) (n : Nat) : Bool := (railPhases s n).any (fun ph => nodeShutdown s ph)

/-- The rail's phases go high-impedance and its reference to 0, in state `st`: OFF, HICCUP_OFF, LATCHED or FENCED (R73). The
hiccup count starts again with the phases (assumption log entry 132), and nothing of the rail is pinned (R233). -/
def railStop (s : State) (n st : Nat) : State :=
  let s := setRailState s n st
  let s := s.setRail n { s.rail n with gen := 0, target := 0, managed := 0, addNs := 0, shedNs := 0, floorNs := 0, hist := [],
                                       limited := false, peak := none, carried := [], openN := [], eff := 0, dac := 0, err := 0,
                                       tracking := false, subjAt := false, move := none, genAt := none, overOff := false }
  let s := (List.range 4).foldl (fun s q => pinCount s n q false 0) s
  let s := (s.setFlag RL_STAT_SLEWING false n).setFld RL_HSTAT_COUNT 0 n
  ((((s.setFld RL_VREF_VREF 0 n).setFld RL_DUTY_D 0 n).setFld RL_IRAIL_IRAIL 0 n).setFld RL_PBLIVE_PBLIVE 0 n).setFld
    RL_FFLIVE_FFLIVE 0 n

/-- The rail leaves its state for `st`, and the intents and clauses on it end (R147, R148, R179). -/
def railLeave (s : State) (n st ireason creason : Nat) : State :=
  let was := railState s n
  let s := railStop s n st
  if was = rsRegulate ∨ railSubj s n then railTermsEnd s n ireason creason else s

/-- A safety action turns the rail OFF (R98): BUD_OVR shows it until the rail is enabled again (R234). -/
def railSafeOff (s : State) (n ireason creason : Nat) : State :=
  let s := railLeave s n rsOff ireason creason
  s.setRail n { s.rail n with overOff := true }

/-- The last in-service phase is fenced: the rail goes OFF with NOPHASE (R73). -/
def railNoPhase (s : State) (n : Nat) : State :=
  ((railSafeOff s n 4 4).event RL_EVT_NOPHASE n).postFault 324 n 0 0

/-- A phase fence is recorded and reported (R95, R97): FLT keeps it by PH index, RLn_FENCE shows it, PHFENCE sets, the
source of the cause asserts, and the fence counts. -/
def recordPhaseFence (s : State) (n ph cause : Nat) : State :=
  let s := sendCmd { s with flt := { s.flt with phF := cellSet 0 s.flt.phF ph cause } } ph cmdFence 0
  let s := ((s.setFld RL_FENCE_CAUSE cause n).setFld RL_FENCE_PHASE ph n).countTo RL_FENCE_COUNT 0xFFFF n
  let s := supCount (s.event RL_EVT_PHFENCE n) n 5
  let src := if cause = 1 then 96 else if cause ≤ 3 then 128 else 160
  let s := s.postFault (src + n) ph cause (wordOf n)
  let s := (s.countTo FLT_FENCECNT_COUNT 0xFFFFFFFF).event FLT_STAT_FENCEEV
  if s.flag SYS_MODECFG_FENCEDEG then s.postCause 3 modeDegraded else s

/-- ILIMEFF of R92: the derate in force in the present period, within DERMAX. The quotient is truncated (assumption log entry
133). -/
def railIlimEff (s : State) (n : Nat) : Nat :=
  s.fld RL_ILIM_ILIM n * railNsvc s n * (256 - min (s.rail n).derate (s.fld RL_DERMAX_DERMAX n)) / (256 * max 1 (railNmap s n))

/-- A phase whose link has trained to FXL1 on a rail that is not OFF and keeps the 20 MHz loop rate is fenced with cause LINKVER (R82,
R120), whether or not the phase stood fenced before (assumption log entry 155). -/
def linkVerFence (s : State) (n ph : Nat) : State :=
  if railState s n = rsOff ∨ s.flag RL_STAT_RATE n ∨ !(railPhases s n).contains ph ∨ cellGet 0 s.flt.phF ph = 5 then s
  else
    let was := railNsvc s n
    let s := recordPhaseFence s n ph 5
    if was ≠ 0 ∧ railNsvc s n = 0 ∧ railState s n ≠ rsLatched ∧ railState s n ≠ rsFenced then railNoPhase s n
    else s.setRail n { s.rail n with managed := min (s.rail n).managed (railNsvc s n) }

/-- A phase of an enabled rail is fenced (R94, R95): out of service, with NACT kept from the next phase in map order where
there is one; the last phase turns the rail OFF. -/
def phaseFence (s : State) (n ph cause : Nat) : State :=
  let st := railState s n
  if (st = rsOff ∨ st = rsLatched ∨ st = rsFenced) ∨ !phInService s ph ∨ !(railPhases s n).contains ph then s
  else
    let s := recordPhaseFence s n ph cause
    if railNsvc s n = 0 then railNoPhase s n
    else s.setRail n { s.rail n with managed := min (s.rail n).managed (railNsvc s n) }

/-- The phases of the map whose links are not up are fenced with cause LINK as the rail enters SOFTSTART (R87, R122). -/
def fenceUntrained (s : State) (n : Nat) : State :=
  (railPhases s n).foldl (fun s ph =>
    if cellGet 0 s.flt.phF ph = 0 ∧ s.fld PH_FXSTAT_LSTATE ph ≠ 6 then recordPhaseFence s n ph 4 else s) s

/-- The switching period in force from the next period start (R90, R98, R320): PERIOD with the throttle's stretch, within its
bounds. -/
def periodInForce (s : State) (n : Nat) : Nat :=
  max (s.fld RL_PERMIN_PERMIN n) (min (s.fld RL_PERMAX_PERMAX n) (s.fld RL_PERIOD_PERIOD n + cellGet 0 s.thm.stretch n))

/-- The fields of the shadow set (R81): FFGAIN is all of COMP3 that it holds. -/
def compShadow (s : State) (n : Nat) : CompSet :=
  ⟨s.reg RL_COMP0 n, s.reg RL_COMP1 n, s.reg RL_COMP2 n, wordOf (65536 * s.fld RL_COMP3_FFGAIN n)⟩

/-- PEND of R100: the shadow set differs from the active set. -/
def compPend (s : State) (n : Nat) : State := s.setFlag RL_COMP3_PEND (compShadow s n != (s.rail n).comp) n

/-- The shadow set takes effect as a whole (R81). -/
def compTake (s : State) (n : Nat) : State :=
  compPend (s.setRail n { s.rail n with comp := compShadow s n, applyNext := false }) n

/-- Entry to SOFTSTART (R73, R81, R82, R88): from STOPPING the generator and the compensator go on; otherwise both start
from zero. The loop rate is set as the rail leaves OFF. `restart` is a hiccup restart, which keeps the retry count. -/
def railStart (s : State) (n : Nat) (restart : Bool) : State :=
  let was := railState s n
  let stopping := was == rsStopping
  let s := setRailState (fenceUntrained s n) n rsSoftstart
  let s := supCount s n 7
  if railNsvc s n = 0 then railNoPhase s n
  else
    let s := if restart then s else compTake s n
    let r := s.rail n
    let r := { r with start := none, offs := [], offLeft := 0, target := s.fld RL_VSET_VSET n, rate := 0, move := none, shedNs := 0, addNs := 0,
                      overOff := false, floorNs := 0, managed := min (s.fld RL_PHBND_PHCEIL n) (railNsvc s n), period := periodInForce s n }
    let r := if stopping then r else { r with gen := 0, i := 0, d := 0, w := 0, ePrev := 0, trims := [] }
    let s := s.setRail n r
    let slow := (railService s n).any (fun ph => s.fld PH_FXSTAT_VER ph == 1)
    let s := if was = rsOff then s.setFlag RL_STAT_RATE slow n else s
    let s := s.setFlag RL_STAT_SLEWING true n
    if restart then s else s.setFld RL_HSTAT_RETRIES 0 n

/-- ENR, or EN written 1 (R73, R74, R75, R321), given whether the mode permits it. -/
def railEnableIf (s : State) (n : Nat) (permitted : Bool) : State × Status :=
  let st := railState s n
  if !permitted then (s, .modedeny)
  else if st = rsFenced then (s, .illegal)
  else if st = rsDraining then (s, .railon)
  else if st = rsSoftstart ∨ st = rsRegulate ∨ st = rsHiccupOff then (s, .ok)
  else if s.fld RL_PMAP_PMAP n = 0 ∨ s.fld RL_ILIM_ILIM n = 0 ∨ s.fld RL_VSET_VSET n < s.fld RL_VFLOOR_VFLOOR n
      ∨ railCeil s n < s.fld RL_VSET_VSET n then (s, .nocfg)
  else if railHot s n then (s, .hot)
  else if !s.powered 6 then ((setRailState s n rsOff).postFault 325 n 0 0, .ok)
  else (railStart s n false, .ok)

/-- ENR, or EN written 1, in the modes of R36. -/
def railEnable (s : State) (n : Nat) : State × Status := railEnableIf s n (railEnableMode s.cur)

/-- The move in progress is superseded: SUPMST shows who commanded it (R84). -/
def supersede (s : State) (n : Nat) : State :=
  if s.flag RL_STAT_SLEWING n then (s.setFld RL_VSTAT_SUPMST (s.rail n).issuer n).event RL_EVT_SUPERSEDED n else s

/-- DISR, or EN written 0 (R73, R75, R84). -/
def railDisable (s : State) (n : Nat) : State × Status :=
  let st := railState s n
  if st = rsHiccupOff ∨ st = rsLatched then (railLeave s n rsOff 4 4, .ok)
  else if st = rsSoftstart ∨ st = rsRegulate ∨ st = rsStopping then
    if s.flag RL_CTRL_STOPMODE n then
      if st = rsStopping then (s, .ok)
      else
        let s := setRailState (supersede s n) n rsStopping
        let s := s.setRail n { s.rail n with target := 0, rate := 0, move := none }
        (railTermsEnd (s.setFlag RL_STAT_SLEWING true n) n 4 4, .ok)
    else (railLeave s n rsOff 4 4, .ok)
  else (s, .ok)

/-- The rate of a move in µV/µs (R83): the command's operand, or RLn_SLEW's for the direction; 0 acts as 1. -/
def moveRate (s : State) (n rate : Nat) (up : Bool) : Nat :=
  max 1 (if rate ≠ 0 then rate else if up then s.fld RL_SLEW_UP n else s.fld RL_SLEW_DOWN n)

/-- The rate of the rail's present move in direction `up`: that with which it began, or the rate of a move that begins (R83). -/
def moveNow (s : State) (n : Nat) (up : Bool) : Nat :=
  match (s.rail n).move with
  | some (m, u) => if u = up then m else moveRate s n (s.rail n).rate up
  | none => moveRate s n (s.rail n).rate up

/-- A new target for the committed voltage (R78, R83, R84, R75): `rate` 0 uses RLn_SLEW; `m` is the issuer. -/
def railSetTarget (s : State) (n v rate m : Nat) : State × Status :=
  let r := s.rail n
  let st := railState s n
  if railMax s n < v then (s, .outofrange)
  else if v < s.fld RL_VFLOOR_VFLOOR n ∨ s.fld RL_VCEIL_VCEIL n < v then (s, .outofbound)
  else
    if st = rsSoftstart ∨ st = rsRegulate then
      let up := decide (r.gen < v * 1024)
      if r.target = v ∧ (!s.flag RL_STAT_SLEWING n ∨ moveNow s n up = moveRate s n rate up) then
        (s.setFld RL_VSET_VSET v n, .ok)
      else
        let s := (supersede s n).setFld RL_VSET_VSET v n
        let s := s.setRail n { r with target := v, rate := rate, issuer := m, move := some (moveRate s n rate up, up) }
        if r.gen = v * 1024 ∧ st = rsRegulate then ((s.setFlag RL_STAT_SLEWING false n).event RL_EVT_SLEWDONE n, .ok)
        else (s.setFlag RL_STAT_SLEWING true n, .ok)
    else ((s.setFld RL_VSET_VSET v n).setRail n { r with issuer := m }, .ok)

/-! ## The loop update (R76–R85, R144–R146) -/

/-- The error ADC of R76: a difference in µV at the sense balls to its code, halves upward, and whether it is sat-range. -/
def adcCode (diff : Int) : Int × Bool :=
  let k := Int.fdiv (diff + 250) 500
  (clampInt k (-256) 255, decide (k < -256) || decide (255 < k))

/-- The period of a loop update in ns (R82). -/
def loopNs (s : State) (n : Nat) : Nat := if s.flag RL_STAT_RATE n then 100 else 50

/-- The generator's step per update in 2^-10 µV for a rate in µV/µs, truncated (R83). -/
def slewStep (rate ns : Nat) : Nat := max 1 rate * ns * 1024 / 1000

/-- A value moved toward a target by at most a step. -/
def moveToward (v t step : Int) : Int := if v < t then min t (v + step) else max t (v - step)

/-- The slew generator's update (R83, R98): but in STOPPING the target is held within the bounds. The step is the same at every update
of a move. -/
def stepGenerator (s : State) (n : Nat) : State :=
  let r := s.rail n
  let st := railState s n
  let t := if st = rsStopping then 0 else max (s.fld RL_VFLOOR_VFLOOR n) (min (railCeil s n) r.target)
  let goal := t * 1024
  let up := decide (r.gen < goal)
  let rate := moveNow s n up
  let gen := (moveToward r.gen goal (slewStep rate (loopNs s n))).toNat
  let s := s.setRail n { r with gen := gen, move := if gen = goal then none else some (rate, up) }
  if gen = goal ∧ s.flag RL_STAT_SLEWING n then
    let s := (s.setFlag RL_STAT_SLEWING false n).event RL_EVT_SLEWDONE n
    if st = rsSoftstart then setRailState s n rsRegulate else s
  else if gen ≠ goal then s.setFlag RL_STAT_SLEWING true n
  else s

/-- The indicative reference in 2^-10 µV (R77, R85), and the rail after a leader was lost. -/
def indicative (s : State) (n : Nat) : State × Nat :=
  let r := s.rail n
  let mode := s.fld RL_TRACK_MODE n
  let l := s.fld RL_TRACK_LEADER n
  if mode = 0 ∨ 32 ≤ l then (s, r.gen)
  else if railState s l = rsFenced ∨ !s.railPresent l then
    let held := if r.tracking then s.fld RL_VREF_VREF n * 1024 else r.gen
    let s := s.setRail n { r with gen := held, tracking := false, move := none }
    (((s.setFld RL_TRACK_MODE 0 n).setFlag RL_STAT_TRK false n).event RL_EVT_TRKLOST n, held)
  else
    let lead := s.fld RL_VREF_VREF l * 1024
    let t := if mode = 1 then lead else lead * s.fld RL_TRACK_RATIO n / 16384
    (s.setRail n { r with tracking := true }, min r.gen t)

/-- The mean of IRAIL sat the frames kept (R144). -/
def meanCurrent (h : List Int) : Int := if h.isEmpty then 0 else divTrunc (h.foldl (· + ·) 0) h.length

/-- One contribution at a loop update: applied whole with its baseline when new (R144); its ramps moved when it unwinds
(R146, R148); its condition judged while it is subjunctive (R145). -/
def Contrib.update (c : Contrib) (im : Int) (up down ns : Nat) : Contrib :=
  if !c.applied then { c with applied := true, ib := im }
  else match c.phase with
    | .subj =>
      { c with met := c.met || (if 0 < c.stepMA then decide (c.cfrac * c.stepMA ≤ 16 * (im - c.ib))
                                else decide (c.stepMA < 0) && decide (16 * (im - c.ib) ≤ c.cfrac * c.stepMA)) }
    | _ => { c with pb := moveToward c.pb 0 (slewStep (if 0 < c.pb then down else up) ns),
                    ff := moveToward c.ff 0 ((c.ffFrom.natAbs * ns + c.unwindNs - 1) / c.unwindNs : Nat) }

/-- The pre-bias of a clause term falls toward zero: at the rate of the confirmed SETV, or at the rail's rates (R178, R179). -/
def ClauseTerm.fall (t : ClauseTerm) (rate up down ns : Nat) : Int :=
  moveToward t.pb 0 (slewStep (if rate ≠ 0 then rate else if 0 < t.pb then down else up) ns)

/-- The clause term at a loop update (R177–R179): an open clause's SETV and PHASE ARM apply whole; a pre-bias that a revoked clause left
goes on falling until a SETV replaces it; after confirmation the pre-bias stands while its SETV is still on its way (`due`). -/
def ClauseTerm.update (t : ClauseTerm) (due : Bool) (up down ns : Nat) : ClauseTerm :=
  match t.phase with
  | .subj =>
    let t := { t with arm := t.setArm.getD t.arm, setArm := none }
    match t.setPb with
    | some p => { t with pb := p, setPb := none }
    | none => if t.hasTarget then t else { t with pb := t.fall 0 up down ns }
  | .confirmed => if due then t else { t with pb := t.fall t.rate up down ns }
  | .revoked => { t with pb := t.fall 0 up down ns }

/-- The SETV of the confirmed clause term `t` of rail `n` has not reached the rail: it waits to leave its engine, or is on its way
(R178). -/
def setvDue (s : State) (n : Nat) (t : ClauseTerm) : Bool :=
  t.hasTarget && ((s.eng t.eng).issue.any (· == .setv n t.target t.rate)
    || s.armq.any (fun x => x.master == t.eng && x.act == some (.setv n t.target t.rate)))

/-- Nothing of a clause term is left: its pre-bias has fallen to zero and its phases are disarmed. -/
def ClauseTerm.over (t : ClauseTerm) : Bool := t.phase != .subj && t.pb == 0 && !t.armHeld && t.olds.isEmpty

/-- The intent of port `p` confirms (R145): every rail of the entry with a scaled STEP carries a contribution that has met its condition;
without such a rail, every rail carries its contribution, applied. A contribution that a shut crossing discarded does neither. All this
is within CWIN. -/
def intentMet (s : State) (p : Nat) : Bool :=
  let e := (s.port p).entry
  let sides := if e.ben then [false, true] else [false]
  let steps := sides.filter (fun b => scaleInt (e.step b) (s.fld IP_OPEN_SCALE p) != 0)
  let here (b : Bool) (f : Contrib → Bool) :=
    (s.rail (e.railIdx b)).contribs.any (fun c => c.port == p && c.phase == .subj && c.second == b && f c)
  decide (intentAge s p ≤ e.cwin) &&
    (if steps.isEmpty then sides.all (here · (·.applied)) else steps.all (here · (·.met)))

/-- The contributions and the clause term of the rail move, and the intents they complete confirm. -/
def updateTerms (s : State) (n : Nat) (im : Int) : State :=
  let r := s.rail n
  let up := s.fld RL_SLEW_UP n
  let down := s.fld RL_SLEW_DOWN n
  let ns := loopNs s n
  let arming := match r.clause with
    | some t => t.phase == .subj && decide (t.arm < t.setArm.getD 0)
    | none => false
  let fresh := arming || r.contribs.any (fun c => !c.applied && decide (c.phadd ≠ 0))
  let cs := r.contribs.map (fun c => c.update im up down ns)
  let cl := match r.clause with
    | some t => let t := t.update (setvDue s n t) up down ns
                if t.over then none else some t
    | none => none
  let s := s.setRail n { r with contribs := cs, clause := cl, shedNs := if fresh then 0 else r.shedNs }
  let s := cs.foldl (fun s c =>
    let s := if c.applied && c.phase == .subj && !c.second then s.setSfld IP_BASE_IB c.ib c.port else s
    if c.met && c.phase == .subj then s.setFlag (if c.second then IP_OPEN_METB else IP_OPEN_META) true c.port else s) s
  let s := cs.foldl (fun s c => if c.phase == .subj && intentMet s c.port then confirmIntent s c.port else s) s
  freeSlots s n

/-- The compensator's state is kept at 32 bits (R79). -/
def sat32 (v : Int) : Int := clampInt v (-2147483648) 2147483647

/-- One compensator update (R79) for the mean error `e` in quarter codes, the effective reference and the input voltage in
µV and the feed-forward in µA. Duty state is in 2^-14 units (assumption log entry 7). The duty is returned in units. -/
def compensate (r : RailH) (e : Int) (eff vin ff : Int) (dmin dmax dLast : Int) (q : Int) : RailH × Int :=
  let kp := signed 16 (Word.bits r.comp.c0 31 16)
  let ki := signed 16 (Word.bits r.comp.c0 15 0)
  let kd := signed 16 (Word.bits r.comp.c1 31 16)
  let a1 : Int := Word.bits r.comp.c1 15 0
  let a2 : Int := Word.bits r.comp.c2 31 16
  let isat : Int := (Word.bits r.comp.c2 15 0 : Int) * 16384
  let ffg : Int := Word.bits r.comp.c3 31 16
  let di := ki * e
  let deeper := (decide (dLast = dmax) && decide (0 < di)) || (decide (dLast = dmin) && decide (di < 0))
  let i := sat32 (clampInt (if deeper then r.i else r.i + di) (-isat) isat)
  let d := sat32 (divTrunc (a1 * r.d) 65536 + kd * (e - r.ePrev) * 16)
  let u := kp * e * 16 + i + d
  let w := sat32 (divTrunc (a2 * r.w + (65536 - a2) * u) 65536)
  let feed := if vin = 0 then q else divTrunc (eff * 65536) vin
  let duty := clampInt (feed + divRound (w + divTrunc (ffg * ff * 64) 1000000) 16384) dmin dmax
  ({ r with i := i, d := d, w := w, ePrev := e }, duty)

/-- The mean stage input voltage of the phases in service in µV (R79). -/
def railVin (s : State) (n : Nat) : Nat :=
  let l := railService s n
  if l.isEmpty then 0 else (l.foldl (fun a ph => a + s.fld PH_TELV_VIN ph) 0) / l.length

/-- IRAIL: the sum of the in-service phase currents of the last frame, in mA (R88). -/
def railCurrent (s : State) (n : Nat) : Int := (railService s n).foldl (fun a ph => a + s.sfld PH_TELI_ICUR ph) 0

/-- A managed count within the bounds of R88: at most NSVC and PHCEIL, at least PHFLOOR where NSVC allows it. -/
def phaseBound (s : State) (n m : Nat) : Nat :=
  min (railNsvc s n) (max (s.fld RL_PHBND_PHFLOOR n) (min (s.fld RL_PHBND_PHCEIL n) m))

/-- The phase manager at a loop update (R88, R98): the managed count moves onto its bounds, or with management off to the lesser of
PHCEIL and NSVC, and the add and shed conditions persist. -/
def managePhases (s : State) (n : Nat) (irail : Int) : State :=
  let r := s.rail n
  let ns := loopNs s n
  let addth := s.fld RL_PHTH_ADDTH n
  let m := phaseBound s n (if addth = 0 then 32 else r.managed)
  let add := decide (addth ≠ 0) && decide ((addth * 10 * m : Int) < irail)
  let shed := decide (addth ≠ 0) && decide (1 < m) && decide (irail < (s.fld RL_PHTH_SHEDTH n * 10 * (m - 1) : Nat))
  let above := decide (s.fld RL_PHBND_PHFLOOR n < m)
  let was := min r.managed (railNsvc s n)
  let s := s.setRail n { r with managed := m, addNs := if add then r.addNs + ns else 0,
                                shedNs := if shed && above then r.shedNs + ns else 0,
                                floorNs := if shed && !above then r.floorNs + ns else 0 }
  if was < m then s.event RL_EVT_PHADD n else if m < was then s.event RL_EVT_PHSHED n else s

/-- The managed count is pinned on a bound (R232 q = 1, R233): R88 would add a phase at PHCEIL, or shed one at PHFLOOR, its
condition having held for ADDDLY or SHEDDLY. A count that a fence took below PHFLOOR is not pinned (R234). -/
def managedPinned (s : State) (n : Nat) : Bool :=
  let r := s.rail n
  (decide (r.addNs ≠ 0) && decide (s.fld RL_PHDLY_ADDDLY n * 50 ≤ r.addNs) && decide (r.managed = s.fld RL_PHBND_PHCEIL n)
      && decide (s.fld RL_PHBND_PHCEIL n ≤ railNsvc s n))
    || (decide (r.floorNs ≠ 0) && decide (s.fld RL_PHDLY_SHEDDLY n * 1000 ≤ r.floorNs)
      && decide (s.fld RL_PHBND_PHFLOOR n ≤ railNsvc s n))

/-- The rail's active phases (R88): the lowest map positions in service. -/
def railActive (s : State) (n : Nat) : List Nat := (railService s n).take (railNact s n)

/-- BUD_OVR of rail `n` (R234): a safety action of R98 holds a quantity outside its bounds. Fences leave fewer phases than PHFLOOR
while the rail runs; after a hiccup trip, a rail fence, the fence of the last phase or a turn-off neither the phase count nor the
reference keeps its floor (assumption log entry 136). -/
def railOverridden (s : State) (n : Nat) : Bool :=
  let st := railState s n
  let floor := s.fld RL_PHBND_PHFLOOR n
  (railRuns s n && decide (railNsvc s n < floor))
    || ((st == rsHiccupOff || st == rsLatched || st == rsFenced || (st == rsOff && (s.rail n).overOff)) && (decide (0 < floor) || decide (0 < s.fld RL_VFLOOR_VFLOOR n)))

/-- The values of the present frame: the currents, their mean, and the samples' mean error (R76, R79, R144). Without samples the
error of the last frame stands. -/
def frameInputs (s : State) (n : Nat) (diffs : List Int) : State × Int × Int :=
  let irail := railCurrent s n
  let r := s.rail n
  let hist := (irail :: r.hist).take 4
  let codes := diffs.map adcCode
  let sum := codes.foldl (fun a c => a + c.1) 0
  let e := if diffs.isEmpty then r.err else divTrunc (sum * 4) diffs.length
  let nact := railNact s n
  let carried := (railActive s n).filter (fun ph => decide (irail ≤ s.sfld PH_TELI_ICUR ph * (20 * nact : Nat)))
  let s := s.setRail n { r with hist := hist, err := e, peak := some (match r.peak with | some p => max p irail | none => irail),
                                carried := carried ++ r.carried.filter (fun ph => !carried.contains ph) }
  let s := if codes.any (fun c => c.2) then s.event RL_EVT_OVRANGE n else s
  let s := match codes.getLast? with
    | some c => (s.setFlag RL_ERR_OR c.2 n).setSfld RL_ERR_CODE c.1 n
    | none => s
  (s.setSfld RL_IRAIL_IRAIL irail n, irail, e)

/-- The raw output voltage of R200 in µV: the effective reference less the error that the ADC shows; zero while the rail is OFF. -/
def railRawV (s : State) (n : Nat) : Int :=
  if railState s n = rsOff then 0 else (s.rail n).eff - divTrunc ((s.rail n).err * 500 * (railRatio s n : Nat)) 4

/-- What the fabric sends to the core through crossing `x` (R26, R384): nothing while the crossing is shut; while CK_CORE stands it waits
in the FIFO of 8, and the first that finds the FIFO full is dropped with the overrun (assumption log entry 156). The Boolean says that
the core has it. -/
def toCore (s : State) (x : Nat) : State × Bool :=
  if crossingShut s x then (s, false)
  else if s.flag CLK_STAT_CORELOCK then (s, true)
  else if cellGet 0 s.chk.fifo x < 8 then
    ({ s with chk := { s.chk with fifo := cellSet 0 s.chk.fifo x (cellGet 0 s.chk.fifo x + 1) } }, true)
  else ((s.setOverrun x true).setLevel 360 x 2 0 true, false)

/-- The samples of a loop update (R292, R293): the rail's voltage, current and power, and the current, input voltage and temperature
of each phase of its map, with the rail's SUBJ of this update. A shut or overrun crossing discards them (R383, R384). -/
def telRail (s : State) (n : Nat) (irail : Int) : State :=
  let v := railRawV s n
  let subj := railSubj s n
  let s := s.setRail n { s.rail n with subjAt := subj }
  let (s, open') := toCore s (4 + n)
  if !open' then s else
  let s := telSample (telSample (telSample s 0 n v subj) 1 n irail subj) 2 n (v * irail) subj
  (railPhases s n).foldl (fun s l => telSample (telSample (telSample s 3 l (s.sfld PH_TELI_ICUR l) subj) 4 l (s.fld PH_TELV_VIN l) subj)
    5 l (s.sfld PH_TELT_TEMP l) subj) s

/-- The pre-bias of the confirmed, unwinding parts, in 2^-10 µV (R233). -/
def confirmedPb (s : State) (n : Nat) : Int :=
  let r := s.rail n
  r.contribs.foldl (fun a c => if c.phase == .confirmed then a + c.pb else a)
    (match r.clause with | some t => if t.phase == .confirmed then t.pb else 0 | none => 0)

/-- One loop update of an enabled rail, in the order of R77 and R79. -/
def loopUpdate (s : State) (n : Nat) (diffs : List Int) : State :=
  let (s, irail, e) := frameInputs s n diffs
  let s := if (s.rail n).applyNext then compTake s n else s
  let s := stepGenerator s n
  let (s, ind) := indicative s n
  let s := updateTerms (s.setFld RL_VREF_VREF (ind / 1024) n) n (meanCurrent (s.rail n).hist)
  let lo : Int := s.fld RL_VFLOOR_VFLOOR n * 1024
  let hi : Int := railCeil s n * 1024
  let eff := clampInt (ind + railPb s n) lo hi
  let conf : Int := ind + confirmedPb s n
  let s := pinCount s n 0 (railState s n == rsRegulate && (decide (conf < lo) || decide (hi < conf))) (loopNs s n)
  let vin := railVin s n
  let (q, s) := if vin = 0 then s.free else (0, s)
  let (r, duty) := compensate (s.rail n) e (divTrunc eff 1024) vin (railFf s n) (s.fld RL_DLIM_DMIN n) (s.fld RL_DLIM_DMAX n)
    (s.fld RL_DUTY_D n) (q.toNat % 65536 : Nat)
  let s := s.setRail n { r with eff := divTrunc eff 1024, vsetAt := some (s.fld RL_VSET_VSET n), genAt := some r.gen,
                                dac := (clampInt (divRound eff (25600 * railRatio s n : Nat)) 0 65535).toNat }
  let s := ((s.setSfld RL_DUTY_D duty n).setFld RL_VIN_VIN vin n).setSfld RL_PBLIVE_PBLIVE (divTrunc (railPb s n) 1024) n
  let s := telRail (s.setSfld RL_FFLIVE_FFLIVE (divTrunc (railFf s n) 1000) n) n irail
  let s := managePhases s n irail
  let s := pinCount s n 1 (managedPinned s n) (loopNs s n)
  if railState s n = rsStopping ∧ ind = 0 then railLeave s n rsOff 4 4 else s

/-- LOOP_UPDATE (R79): the frame's error samples are given as differences between the divided reference and the sense balls,
in µV; those that the shut crossing of the rail's error ADC discards are missing (R26, R383). A rail that is not switching keeps
its reference. With PD6 unpowered an enabled rail goes OFF (R73). -/
def execLoopUpdate (n : Fin 32) (diffs : List Int) (s : State) : Out :=
  let st := railState s n
  if !s.powered (railDomain n) ∨ !s.railPresent n then .next s
  else if st = rsSoftstart ∨ st = rsRegulate ∨ st = rsStopping then
    if !s.powered 6 then .next ((railLeave s n rsOff 4 4).postFault 325 n 0 0) 
    else .next (loopUpdate s n (if crossingShut s (112 + n) then [] else diffs))
  else .next s

/-! ## The switching period (R90–R93) -/

/-- The balance trims of the active phases (R91), in 2^-8 duty units: the correction of a period loses its fraction toward zero
(assumption log entry 7). -/
def balance (s : State) (n : Nat) : State :=
  let nact := railNact s n
  let act := railActive s n
  let g : Int := s.fld RL_BAL_BALGAIN n
  let lim : Int := s.fld RL_BAL_TRIMLIM n * 256
  let irail := s.sfld RL_IRAIL_IRAIL n
  let r := s.rail n
  let trims := act.foldl (fun t ph =>
    let i := s.sfld PH_TELI_ICUR ph
    let v := cellGet 0 r.trims ph + divTrunc (g * (irail - i * nact)) (1000 * max 1 nact)
    cellSet 0 t ph (clampInt v (-lim) lim)) []
  s.setRail n { r with trims := trims }

/-- The interleave slot of each active phase in ticks (R90): round(k × PERIOD / NACT) for slot k. -/
def slots (s : State) (n : Nat) : List (Nat × Int) :=
  let act := railActive s n
  act.zipIdx.map (fun x => (x.1, divRound ((x.2 * (s.rail n).period : Nat) : Int) act.length))

/-- The offset of phase `ph` in the present period (R89, R90): where the period's start placed it, or the slot of a phase that has
been added since. -/
def slotOffset (s : State) (n ph : Nat) : Int := cellGet (cellGet 0 (slots s n) ph) (s.rail n).offs ph

/-- The interleave offsets at a period start (R90): after NACT changed, each phase moves linearly from its old offset to its new
slot over 8 periods; a phase that has been added is in its slot (R89). -/
def moveOffsets (s : State) (n : Nat) : State :=
  let goal := slots s n
  let r := s.rail n
  let left := if r.offs.map (·.1) != goal.map (·.1) && !r.offs.isEmpty then 8 else r.offLeft
  let offs := goal.map (fun x =>
    let o := cellGet x.2 r.offs x.1
    (x.1, if left = 0 then x.2 else o + divRound (x.2 - o) left))
  s.setRail n { r with offs := offs, offLeft := left - 1 }

/-- What a period start takes (R90, R126, R320): the period and the derate in force, DLYTRIM of every phase of the map, and the
offsets. The period that ended leaves the count of the phases that stayed open (R94). -/
def startPeriod (s : State) (n : Nat) (start : Option Nat) : State :=
  let r := s.rail n
  let act := railActive s n
  let opens := if r.peak = none then r.openN
    else act.foldl (fun l ph => cellSet 0 l ph (if r.carried.contains ph then 0 else cellGet 0 r.openN ph + 1)) []
  let dly := (railPhases s n).foldl (fun l ph => cellSet 0 l ph (s.sfld PH_DLYTRIM_TRIM ph)) []
  moveOffsets (s.setRail n { r with period := periodInForce s n, start := start, limited := false, peak := none, carried := [],
                                    openN := opens, dly := dly, derate := s.fld THM_RLIVE_DERATE n }) n

/-- A hiccup trip (R93, R73): high-impedance, the live terms cleared, the trip counted, then HICCUP_OFF, LATCHED or OFF. -/
def hiccupTrip (s : State) (n : Nat) : State :=
  let st := railState s n
  let retry := s.fld RL_HICC_RETRY n
  let done := s.fld RL_HSTAT_RETRIES n
  let turn (s : State) (next : Nat) := if next = rsOff then railSafeOff s n 3 3 else railLeave s n next 3 3
  let next := if st = rsStopping then rsOff else if retry = 15 ∨ done < retry then rsHiccupOff else rsLatched
  let s := supCount ((turn s next).event RL_EVT_HICCUP n) n 4
  if next = rsLatched then (s.event RL_EVT_HLATCH n).postFault (64 + n) n done 0 else s

/-- The period that ends was limited (R92): a flagged cycle, or IRAIL reached ILIMEFF, rescaled by the fences of the same period
(R95). -/
def periodLimited (s : State) (n : Nat) : Bool :=
  let r := s.rail n
  r.limited || (match r.peak with | some p => decide ((railIlimEff s n : Int) ≤ p) | none => false)

/-- One switching period (R90–R93): balance runs, the hiccup count follows whether the period was limited, and the next period
starts. -/
def switchingPeriod (s : State) (n : Nat) : State :=
  let limited := periodLimited s n
  let r := s.rail n
  let s := startPeriod (balance s n) n (r.start.map (· + r.period))
  let c := s.fld RL_HSTAT_COUNT n
  let c := if limited then min 255 (c + 1) else c - 1
  let s := s.setFld RL_HSTAT_COUNT c n
  if limited ∧ max 1 (s.fld RL_HICC_NCYC n) ≤ c then hiccupTrip s n else s

/-- SWITCHING_PERIOD (R93) of a rail whose phases switch. -/
def execSwitchingPeriod (n : Fin 32) (s : State) : Out :=
  let st := railState s n
  if s.powered (railDomain n) ∧ (st = rsSoftstart ∨ st = rsRegulate ∨ st = rsStopping) then .next (switchingPeriod s n)
  else .next s

/-- HICCUP_RESTART (R73, R93): the off time has ended. -/
def execHiccupRestart (n : Fin 32) (s : State) : Out :=
  if s.powered (railDomain n) ∧ railState s n = rsHiccupOff then
    .next (railStart (s.countTo RL_HSTAT_RETRIES 15 n) n true)
  else .next s

/-- RETRY_CLEAR (R93): 1 s of continuous power-good in REGULATE. -/
def execRetryClear (n : Fin 32) (s : State) : Out :=
  if s.powered (railDomain n) ∧ railState s n = rsRegulate then .next (s.setFld RL_HSTAT_RETRIES 0 n) else .next s

/-- PHASE_ADD (R88): the add condition has held for ADDDLY. -/
def execPhaseAdd (n : Fin 32) (s : State) : Out :=
  let r := s.rail n
  let addth := s.fld RL_PHTH_ADDTH n
  let irail := s.sfld RL_IRAIL_IRAIL n
  let top := min (s.fld RL_PHBND_PHCEIL n) (railNsvc s n)
  let want := max (r.managed + 1) (ceilDiv irail.toNat (addth * 10))
  if s.powered (railDomain n) ∧ railRuns s n ∧ addth ≠ 0 ∧ s.fld RL_PHDLY_ADDDLY n * 50 ≤ r.addNs
      ∧ r.addNs ≠ 0 ∧ r.managed < min want top then
    .next ((s.setRail n { r with managed := min want top, addNs := 0 }).event RL_EVT_PHADD n)
  else .next s

/-- PHASE_SHED (R88): the shed condition has held for SHEDDLY. -/
def execPhaseShed (n : Fin 32) (s : State) : Out :=
  let r := s.rail n
  if s.powered (railDomain n) ∧ railRuns s n ∧ s.fld RL_PHTH_ADDTH n ≠ 0
      ∧ s.fld RL_PHDLY_SHEDDLY n * 1000 ≤ r.shedNs ∧ r.shedNs ≠ 0 ∧ s.fld RL_PHBND_PHFLOOR n < r.managed then
    .next ((s.setRail n { r with managed := r.managed - 1, shedNs := 0 }).event RL_EVT_PHSHED n)
  else .next s

/-- The model ripple of R94 in mA as a fraction: (VIN − VSET) × D × PERIOD × 97.65625 ps / LPH. -/
def modelRipple (s : State) (n : Nat) : Int × Nat :=
  ((s.fld RL_VIN_VIN n - s.fld RL_VSET_VSET n : Int) * (s.fld RL_DUTY_D n * (s.rail n).period * 3125 : Nat),
    65536 * 32 * 1000000 * s.fld RL_LPH_LPH n)

/-- The peak limit of a phase in mA: PKLIM, or the stage's own default (R107). -/
def phaseLimit (s : State) (ph : Nat) : Nat :=
  if s.fld PH_PKLIM_PKLIM ph = 0 then (Config.stageLimit ph).toNat else 125 * s.fld PH_PKLIM_PKLIM ph

/-- A period's measured ripple `ipv` in mA misses the model by more than 30 % where the SENSE check of R94 is active. -/
def rippleMissed (s : State) (n ph ipv : Nat) : Bool :=
  let (num, den) := modelRipple s n
  decide (den ≠ 0) && decide ((phaseLimit s ph * den : Nat) ≤ 16 * num)
    && decide (3 * num.natAbs < ((10 * ipv * den : Nat) - 10 * num : Int).natAbs)

/-- The condition of a fence cause of R94 holds for phase `ph` of rail `n`. -/
def fenceHolds (s : State) (n ph cause : Nat) : Bool :=
  match cause with
  | 1 => (railActive s n).contains ph && decide (8 ≤ cellGet 0 (s.rail n).openN ph)
  | 2 => decide (s.fld RL_LPH_LPH n ≠ 0) && decide (16 ≤ (s.link ph).sense)
  | 3 => (s.link ph).range
  | 4 => s.fld PH_FXSTAT_LSTATE ph != 6
  | 5 => !s.flag RL_STAT_RATE n && s.fld PH_FXSTAT_VER ph == 1
  | _ => false

/-- PHASE_FENCE (R94, R95): a phase is fenced while the condition of the cause holds for it. -/
def execPhaseFence (ph : Fin 64) (cause : Fin 6) (s : State) : Out :=
  match railOfPhase s ph with
  | some n =>
    .next (if s.powered (railDomain n) && fenceHolds s n ph cause then
        (if cause = 5 then linkVerFence s n ph else phaseFence s n ph cause)
      else s)
  | none => .next s

/-! ## Writes of the rail registers -/

/-- A rail fence by FLT (R73, R97): FENCED, recorded, until a chip reset. -/
def railFence (s : State) (n : Nat) : State :=
  let s := { s with flt := { s.flt with railF := cellSet false s.flt.railF n true } }
  if railState s n = rsFenced then s else railLeave s n rsFenced 5 5

/-- The rail's words in the register map (R100). -/
def railWord (n a : Nat) : Bool := decide (0x1000 + 0x80 * n ≤ a) && decide (a < 0x1000 + 0x80 * (n + 1))

/-- A rail drains (R73, R99): DRAINING with ABORTED and its phases as they are; the effects queued for it are discarded. A FENCED
rail stays. -/
def railDrain (s : State) (n : Nat) : State :=
  let st := railState s n
  if st = rsFenced ∨ st = rsDraining ∨ !s.railPresent n then s
  else
    let s := { s with armq := s.armq.filter (fun t => !railWord n t.addr) }
    let s := s.setRail n { s.rail n with left := st, applyNext := false }
    railTermsEnd ((setRailState s n rsDraining).event RL_EVT_ABORTED n) n 4 4

/-- The end of a rail's drain: the end of the current frame (R99). -/
def railDrainEnd (s : State) (n : Nat) : State :=
  if railState s n = rsDraining then railStop s n rsOff else s

/-- RLn_UNFENCE, or PHASE in its unfence form (R97): only while the rail is OFF. -/
def railUnfence (s : State) (n : Nat) (mask : Word) : State × Status :=
  if railState s n ≠ rsOff then (s, .railon)
  else
    let l := (railPhases s n).zipIdx.filter (fun x => Word.bit mask x.2)
    (l.foldl (fun s x =>
      if cellGet 0 s.flt.phF x.1 = 0 then s
      else sendCmd { s with flt := { s.flt with phF := cellErase s.flt.phF x.1 } } x.1 cmdUnfence 0) s, .ok)

/-- The chain of leaders from rail `l` reaches `n`, or is `fuel` rails deep (R86). -/
def leaderChain (s : State) (n : Nat) : Nat → Nat → Bool
  | 0, _ => true
  | fuel + 1, l =>
    if l = n then true
    else if s.fld RL_TRACK_MODE l = 0 ∨ 32 ≤ s.fld RL_TRACK_LEADER l then false
    else leaderChain s n fuel (s.fld RL_TRACK_LEADER l)

/-- How many rails stand behind rail `n` in chains of followers, at most `fuel` (R86). -/
def followerDepth (s : State) : Nat → Nat → Nat
  | 0, _ => 0
  | fuel + 1, n =>
    (List.range 32).foldl (fun a j =>
      if s.fld RL_TRACK_MODE j ≠ 0 ∧ s.fld RL_TRACK_LEADER j = n ∧ j ≠ n then max a (followerDepth s fuel j + 1) else a) 0

/-- The length of the chain of leaders above rail `n`. -/
def leaderDepth (s : State) : Nat → Nat → Nat
  | 0, _ => 0
  | fuel + 1, n =>
    if s.fld RL_TRACK_MODE n = 0 ∨ 32 ≤ s.fld RL_TRACK_LEADER n then 0
    else leaderDepth s fuel (s.fld RL_TRACK_LEADER n) + 1

/-- TRACK, or a write of RLn_TRACK (R86): refused for a loop or a chain deeper than four rails; on disengagement the generator
takes the present indicative reference. -/
def railTrack (s : State) (n leader mode ratio : Nat) : State × Status :=
  if mode = 3 ∨ (32 ≤ leader ∧ leader ≠ 0x3F) then (s, .illegal)
  else if s.fld RL_TRACK_LEADER n = leader ∧ s.fld RL_TRACK_MODE n = mode ∧ s.fld RL_TRACK_RATIO n = ratio then (s, .ok)
  else
    let t := ((s.setFld RL_TRACK_LEADER leader n).setFld RL_TRACK_MODE mode n).setFld RL_TRACK_RATIO ratio n
    if mode ≠ 0 ∧ leader < 32 ∧ (leaderChain s n 4 leader ∨ 4 < leaderDepth t 6 n + followerDepth t 4 n + 1) then
      (s, .trackloop)
    else
      let r := s.rail n
      let on := decide (mode ≠ 0) && decide (leader < 32)
      let t := t.setFlag RL_STAT_TRK on n
      if r.tracking ∧ !on then
        let gen := s.fld RL_VREF_VREF n * 1024
        let t := t.setRail n { r with tracking := false, gen := gen, move := none }
        (if gen ≠ r.target * 1024 then t.setFlag RL_STAT_SLEWING true n else t, .ok)
      else (t, .ok)

/-- A write of RLn_PMAP (R87). -/
def railMap (s : State) (n : Nat) (w : Word) : State × Status :=
  if s.reg RL_PMAP n = w then (s, .ok)
  else if railState s n ≠ rsOff then (s, .railon)
  else
    let b := if n < 16 then 0 else 32
    let other := (List.range 32).any (fun m =>
      m != n && (decide (m < 16) == decide (n < 16)) && (s.reg RL_PMAP m &&& w) != 0)
    let absent := (List.range 32).any (fun j => Word.bit w j && !s.phPresent (b + j))
    if other || absent then (s, .maperr) else (s.setReg RL_PMAP w n, .ok)

/-- A write of RLn_CTRL (R74, R78, R100), given whether EN = 1 is permitted: DIV only in OFF, then EN. A refused write changes nothing
(R37). -/
def railCtrlIf (s : State) (n : Nat) (w : Word) (permitted : Bool) : State × Status :=
  let div := Word.bits w 11 8
  let olddiv := s.fld RL_CTRL_DIV n
  if div ≠ olddiv ∧ 5 ≤ div then (s, .outofrange)
  else if div ≠ olddiv ∧ railState s n ≠ rsOff then (s, .railon)
  else
    let t := sendSink s (((s.setFld RL_CTRL_DIV div n).setFld RL_CTRL_STOPMODE (Word.bits w 4 4) n).setFld RL_CTRL_SINKEN
      (Word.bits w 3 3) n) n
    let (t, st) := if Word.bit w 0 then railEnableIf t n permitted else railDisable t n
    (if st = .ok then t else s, st)

/-- A write of RLn_CTRL in the modes of R36. -/
def railCtrl (s : State) (n : Nat) (w : Word) : State × Status := railCtrlIf s n w (railEnableMode s.cur)

/-- A write of a bound register (R98, R100): a floor above its ceiling is refused. A PHFLOOR or PHCEIL outside 1–32 and a PERMIN or
PERMAX outside 2,560–68,266 are taken as written (assumption log entry 135). -/
def railBound (s : State) (n kind : Nat) (w : Word) : State × Status :=
  let r := match kind with
    | 0 => RL_VFLOOR | 1 => RL_VCEIL | 2 => RL_PHBND | 3 => RL_PERMAX | 4 => RL_PERMIN | _ => RL_DERMAX
  let t := s.plainWrite r w n
  let bad := decide (t.fld RL_VCEIL_VCEIL n < t.fld RL_VFLOOR_VFLOOR n)
    || decide (t.fld RL_PHBND_PHCEIL n < t.fld RL_PHBND_PHFLOOR n)
    || decide (t.fld RL_PERMAX_PERMAX n < t.fld RL_PERMIN_PERMIN n)
  if bad then (s, .outofbound) else (t, .ok)

/-- A write of a rail register at offset `off` of rail `n` by master `m` (R100). An ILIM outside its range is refused with
OUTOFRANGE (assumption log entry 134). -/
def railWrite (s : State) (n off m : Nat) (w : Word) : State × Status :=
  match off with
  | 0x00 => railCtrl s n w
  | 0x02 => railSetTarget s n w.toNat 0 m
  | 0x06 => railTrack s n (Word.bits w 13 8) (Word.bits w 1 0) (Word.bits w 31 16)
  | 0x08 | 0x09 | 0x0A =>
    let r := if off = 8 then RL_COMP0 else if off = 9 then RL_COMP1 else RL_COMP2
    (compPend (s.setReg r w n) n, .ok)
  | 0x0B =>
    let t := compPend (s.setFld RL_COMP3_FFGAIN (Word.bits w 31 16) n) n
    if Word.bit w 0 then (t.setRail n { t.rail n with applyNext := true }, .ok) else (t, .ok)
  | 0x0D =>
    let p := Word.bits w 16 0
    if p < s.fld RL_PERMIN_PERMIN n ∨ s.fld RL_PERMAX_PERMAX n < p then (s, .outofbound)
    else (s.setFld RL_PERIOD_PERIOD p n, .ok)
  | 0x10 => railMap s n w
  | 0x18 => railUnfence s n w
  | 0x19 => if w = 0 ∨ w.toInt < 0 then (s, .outofrange) else (s.setReg RL_ILIM w n, .ok)
  | 0x1D => railBound s n 0 w
  | 0x1E => railBound s n 1 w
  | 0x1F => railBound s n 2 w
  | 0x20 => railBound s n 3 w
  | 0x21 => railBound s n 4 w
  | 0x22 => railBound s n 5 w
  | 0x03 => (s.plainWrite RL_SLEW w n, .ok)
  | 0x0C => (s.plainWrite RL_DLIM w n, .ok)
  | 0x0E => (s.plainWrite RL_LPH w n, .ok)
  | 0x11 => (s.plainWrite RL_PHTH w n, .ok)
  | 0x12 => (s.plainWrite RL_PHDLY w n, .ok)
  | 0x13 => (s.plainWrite RL_BAL w n, .ok)
  | 0x1B => (s.plainWrite RL_HICC w n, .ok)
  | 0x23 => (s.plainWrite RL_EVT w n, .ok)
  | 0x24 => (s.plainWrite RL_EVTEN w n, .ok)
  | _ => (s, .ok)

/-- A command on rail `n` acts while the rail exists and its domain is powered (R3, R24). -/
def State.onRail (s : State) (n : Nat) (t : State) : Out :=
  .next (if s.railPresent n && s.powered (railDomain n) then t else s)

/-- A register write to rail `n` passes its crossing (R24, R26), where such writes are open (R55, R70). -/
def State.onRailWrite (s : State) (n : Nat) (t : State) : Out :=
  .next (if s.railPresent n && s.railOpen n then s.ifWritable t else s)

/-- RLN_EN_WRITE (R73, R74). -/
def execRlnEnWrite (n : Fin 32) (en : Bool) (s : State) : Out :=
  s.onRailWrite n (if en then (railEnable s n).1 else (railDisable s n).1)

/-- COMP_APPLY (R81). -/
def execCompApply (n : Fin 32) (s : State) : Out := s.onRailWrite n (s.setRail n { s.rail n with applyNext := true })

/-- RLN_UNFENCE (R97). -/
def execRlnUnfence (n : Fin 32) (mask : Word) (s : State) : Out := s.onRailWrite n (railUnfence s n mask).1

end Sys2Proof.Machine
end

