-- ==== Sys2Proof/Machine/Link.lean ====
section
/-! DEFINITION. The Fenxo links (05_fenxo_link.md): downstream frames and the edges of a phase, upstream frames and their
checks, loss, training, drains, and the writes of the link registers. -/
namespace Sys2Proof.Machine

/-! ## Downstream frames (R104) -/

/-- An edge of a downstream frame: its level and its offset in ticks. -/
abbrev FrameEdge := Option (Bool × Nat)

/-- The bits of an edge field, with the offset `w` bits wide. -/
def edgeBits (w : Nat) : FrameEdge → Nat
  | none => 0
  | some (l, t) => 2 ^ (w + 1) + l.toNat * 2 ^ w + t % 2 ^ w

/-- The downstream frame of a version (R104), its check code included (R113). -/
def downFrame (ver seq : Nat) (e0 e1 : FrameEdge) (drv cmd arg : Nat) : BitVec 64 :=
  let v :=
    if ver = 1 then
      (((((seq % 16 * 2 ^ 12 + edgeBits 10 e0) * 2 ^ 12 + edgeBits 10 e1) * 4 + drv % 4) * 16 + cmd % 16) * 2 ^ 16
        + arg % 2 ^ 16) * 2 ^ 14
    else
      (((((seq % 16 * 2 ^ 11 + edgeBits 9 e0) * 2 ^ 11 + edgeBits 9 e1) * 4 + drv % 4) * 16 + cmd % 16) * 2 ^ 16
        + arg % 2 ^ 16) * 2 ^ 16
  let chk := if ver = 3 then crc16 48 (v / 2 ^ 16) else crc8 56 (v / 2 ^ 8)
  BitVec.ofNat 64 (v + chk)

/-- The ticks of a frame (R101). -/
def frameTicks (ver : Nat) : Nat := if ver = 1 then 1024 else 512

/-- The command that the next frame carries, and the link's record after it (R108). -/
def takeCmd (h : LinkH) : LinkH × Nat × Nat :=
  match h.cmds with
  | c :: t => ({ h with cmds := t, sent := h.sent ++ [c] }, c.code, c.arg)
  | [] => (h, 0, 0)

/-- A frame is sent on link `l` for the window that opens at grid boundary `b`. -/
def sendFrame (s : State) (l : Nat) (h : LinkH) (b : Nat) (e0 e1 : FrameEdge) (drv cmd arg : Nat) : State :=
  s.setLink l { h with frame := downFrame h.ver h.txSeq e0 e1 drv cmd arg, txSeq := (h.txSeq + 1) % 16, window := b,
                       framed := true }

/-- Grid boundary `b` is the one at which the next frame of the link starts (R102): the boundary after the last frame, or after
training any later one; FXL1 frames start on even boundaries only. -/
def frameDue (h : LinkH) (b : Nat) : Bool :=
  let step := if h.ver = 1 then 2 else 1
  (if h.framed then decide (b = h.window + step) else decide (h.window = 0) || decide (h.window < b)) && decide (b % step = 0)

/-! ## The edges of a phase (R106) -/

/-- The phase is active in its rail (R88). -/
def phActive (s : State) (n ph : Nat) : Bool := (railActive s n).contains ph

/-- on_j of R91, in ticks. -/
def onTicks (s : State) (n ph : Nat) : Nat :=
  let r := s.rail n
  (divRound (((s.fld RL_DUTY_D n : Nat) * 256 + cellGet 0 r.trims ph) * r.period) 16777216).toNat

/-- The tick of the rising edge of phase `ph` in the present period, with the DLYTRIM of the period's start (R106, R126). -/
def riseTick (s : State) (n ph p0 : Nat) : Nat :=
  ((p0 : Int) + slotOffset s n ph + cellGet 0 (s.rail n).dly ph).toNat

/-- The link's record once the rising edge at tick `r` of the period that started at `p0` is placed: the phase's switching period
ends one period later (R89). With `pulse` its falling edge is still to be placed, behind those of the pulses before. -/
def LinkH.placeRise (h : LinkH) (p0 r period : Nat) (pulse : Bool) : LinkH :=
  let h := { h with placed := some p0, till := r + period }
  match pulse, h.rise with
  | false, _ => h
  | true, none => { h with rise := some r }
  | true, some _ => { h with later := h.later ++ [r] }

/-- The link's record once the falling edge of the oldest pulse in progress is placed. -/
def LinkH.placeFall (h : LinkH) : LinkH :=
  match h.later with
  | [] => { h with rise := none }
  | r :: l => { h with rise := some r, later := l }

/-- The edges of phase `ph` of rail `n` for the window of `len` ticks at `w`, and the link's record after (R106): a pulse in
progress ends by the last update's duty; a rising edge is placed once, while the phase is active. An edge that lies behind the
window is placed at its opening. A rising edge that comes at or before the falling edge of the pulse in progress takes that falling
edge away from none: both are placed, and where they fall on one tick the rising edge follows in the next (assumption log entry
157). A pulse of no ticks has no edges (assumption log entry 158). -/
def phaseEdges (s : State) (n ph w len : Nat) (h : LinkH) : LinkH × FrameEdge × FrameEdge :=
  match (s.rail n).start with
  | none => (h, none, none)
  | some p0 =>
    let on := onTicks s n ph
    let per := (s.rail n).period
    let r := max w (riseTick s n ph p0)
    match h.rise with
    | some q =>
      let f := max w (q + on)
      let falls := decide (f < w + len)
      let r := if falls && decide (r = f) then r + 1 else r
      let fresh := phActive s n ph && decide (h.placed ≠ some p0) && decide (on ≠ 0) && decide (r < w + len)
      if fresh then
        let g := h.placeRise p0 r per true
        if !falls then (g, some (true, r - w), none)
        else if r < f then (g.placeFall, some (true, r - w), some (false, f - w))
        else (g.placeFall, some (false, f - w), some (true, r - w))
      else if falls then (h.placeFall, some (false, f - w), none)
      else (h, none, none)
    | none =>
      if !(phActive s n ph && decide (h.placed ≠ some p0) && decide (r < w + len)) then (h, none, none)
      else if on = 0 then (h.placeRise p0 r per false, none, none)
      else
        let e0 : FrameEdge := some (true, r - w)
        if r + on < w + len then (h.placeRise p0 r per false, e0, some (false, r + on - w))
        else (h.placeRise p0 r per true, e0, none)

/-- The frame of phase `l` of rail `n` in UP, carrying command `c` with argument `a` (R89, R106): the first frame after the entry to
SOFTSTART starts the rail's period; a phase drives while it is active, and a shed one to the end of its switching period. A phase
added after its slot of the present period waits for the next. -/
def drivenFrame (s : State) (n l b : Nat) (h : LinkH) (c a : Nat) : State :=
  let w := 512 * b
  let s := if railRuns s n && (s.rail n).start.isNone then startPeriod s n (some w) else s
  let p0 := ((s.rail n).start).getD 0
  let act := phActive s n l
  if cellGet 0 s.flt.phF l = 0 ∧ railRuns s n ∧ (act ∨ w < h.till ∨ h.rise.isSome) then
    let h := if act && !h.drv && decide (p0 < w) && decide (riseTick s n l p0 < w) then { h with placed := some p0 } else h
    let (h, e0, e1) := phaseEdges s n l w (frameTicks h.ver) h
    sendFrame s l { h with drv := true } b e0 e1 1 c a
  else sendFrame s l { h with rise := none, later := [], drv := false, till := 0 } b none none 0 c a

/-- The frame of phase link `l` at grid boundary `b` (R102, R106, R116, R125). -/
def phaseFrame (s : State) (l b : Nat) : State :=
  let h := s.link l
  if h.draining ≠ 0 then
    if h.draining = 1 then s else sendFrame s l { h with draining := h.draining - 1 } b none none 0 0 0
  else if lstate s l = lsLost then
    if h.fencing = 0 then s else sendFrame s l { h with fencing := h.fencing - 1 } b none none 0 cmdFence 0
  else if lstate s l = lsSetup then
    let (h, c, a) := takeCmd h
    sendFrame s l h b none none 0 c a
  else if lstate s l = lsUp then
    let (h, c, a) := takeCmd h
    match railOfPhase s l with
    | none => sendFrame s l h b none none 0 c a
    | some n => drivenFrame s n l b h c a
  else s

/-! ## Loss (R115, R116) -/

/-- Loss of link `l`: LOST, the commands discarded, and a phase in service of an enabled rail fenced with cause LINK. A drain in
progress goes on (R125). -/
def linkLost (s : State) (l : Nat) : State :=
  if lstate s l ≠ lsUp then s
  else
    let s := if l < 64 then
        match railOfPhase s l with
        | some n => phaseFence s n l 4
        | none => s
      else s
    let h := s.link l
    let s := s.setLink l { h with cmds := [], sent := [], fencing := if h.draining = 0 then 4 else 0, resets := true, rise := none
                                  later := [], edges := [], prevVer := s.fld PH_FXSTAT_VER l }
    let s := ((s.setFld PH_FXSTAT_LSTATE lsLost l).setFld PH_FXSTAT_VER 0 l).event PH_EVT_LOST l
    linkCount s l PH_LOSSCNT_COUNT PH_FXSTAT_LOSSSAT

/-! ## Training (R118–R122) -/

/-- A training attempt begins with ALIGN; the link's crossing, 40 + `l`, is reset as a pair (R382). -/
def startTraining (s : State) (l attempt : Nat) : State :=
  let s := (s.setStopped (40 + l) false).setOverrun (40 + l) false
  let h := s.link l
  let prev := if s.fld PH_FXSTAT_VER l = 0 then h.prevVer else s.fld PH_FXSTAT_VER l
  let s := s.setLink l { window := h.window, prevVer := prev, vmax := s.fld PH_FXCTRL_VMAX l }
  let s := ((s.setFld PH_FXSTAT_LSTATE lsAlign l).setFld PH_FXSTAT_ATTEMPT attempt l).setFld PH_FXSTAT_VER 0 l
  s.setReg PH_RTT 0 l

/-- Link `l` drains, or its domain is on the way to being powered down (R125). -/
def linkGoing (s : State) (l : Nat) : Bool :=
  (s.link l).draining != 0 || s.mode.optRelease.contains (linkDomain l)
    || (match s.mode.trans with | some t => t.release.contains (linkDomain l) | none => false)

/-- Training may begin on link `l` (R122): it is enabled, the timing PLL is locked, and no drain stands against it. -/
def mayTrain (s : State) (l : Nat) : Bool := s.flag PH_FXCTRL_EN l && s.flag CLK_STAT_TIMELOCK && !linkGoing s l

/-- An attempt ends (R121): link resets, then a retry, or FAILED after the last. -/
def failAttempt (s : State) (l : Nat) : State :=
  let s := s.setFld PH_FXSTAT_FAILSTEP (lstate s l) l
  if s.fld PH_FXSTAT_ATTEMPT l < max 1 (s.fld PH_FXCTRL_ATTEMPTS l) then
    s.setLink l { s.link l with retry := true, resets := true, cmds := [], sent := [] }
  else
    let s := s.setLink l { s.link l with retry := false, resets := true, cmds := [], sent := [] }
    (s.setFld PH_FXSTAT_LSTATE lsFailed l).event PH_EVT_TRFAIL l

/-- The training step in progress, without a retry waiting or a drain (R125). -/
def inTraining (s : State) (l : Nat) : Bool :=
  decide (lsAlign ≤ lstate s l) && decide (lstate s l ≤ lsSetup) && !(s.link l).retry && (s.link l).draining == 0

/-- The next step of training, its counts from zero. In SETUP the stage's commands fall due: SETLIM, then SINK with bit 0 = 0,
or SETDT for a bridge (R118, R238). -/
def nextStep (s : State) (l st : Nat) : State :=
  let s := s.setLink l { s.link l with count := 0, rtts := 0 }
  let s := s.setFld PH_FXSTAT_LSTATE st l
  if st = lsSetup then
    let s := queueCmd s l cmdSetlim (s.fld PH_PKLIM_PKLIM l)
    if l < 64 then queueCmd s l cmdSink 0
    else queueCmd s l cmdSetdt (if l < 68 then s.fld LXM_DT_DTA (l - 64) else s.fld LXM_DT_DTB (l - 68))
  else s

/-- The CAP set of a stage is valid (R119): its TYPE, the ranges of its fields, and its CRC-8 over data bytes 1–6. -/
def capValid (type vmax ish irated flags rev crc : Nat) : Bool :=
  type == 0x81 && decide (vmax ≤ 3) && decide (ish ≤ 3) && decide (1 ≤ irated) && decide (irated < 256) && decide (flags < 8)
    && decide (rev < 256) && crc == crc8 48 (((((type * 256 + vmax) * 256 + ish) * 256 + irated) * 256 + flags) * 256 + rev)

/-- A valid CAP set of a stage arrives in CAPS (R118–R121): a VMAX of 0 ends the attempt. -/
def takeCap (s : State) (l : Nat) (c : Nat × Nat × Nat × Nat × Nat) : State :=
  let h := s.link l
  let k := if h.cap = some c then h.count + 1 else 1
  let s := s.setLink l { h with cap := some c, count := k }
  if c.1 = 0 then failAttempt s l
  else if k < 8 then s
  else
    let s := ((((s.setFld PH_FXCAP_SVMAX c.1 l).setFld PH_FXCAP_ISH c.2.1 l).setFld PH_FXCAP_IRATED c.2.2.1 l).setFld
      PH_FXCAP_FLAGS c.2.2.2.1 l).setFld PH_FXCAP_STAGEREV c.2.2.2.2 l
    let v := min c.1 (max 1 (s.link l).vmax)
    let s := s.setLink l { s.link l with ver := v }
    nextStep s l (if v = 1 then lsRtt else lsRate)

/-- An ordered set arrives on link `l` in training (R118, R119); one that is not the step's ends a run of identical sets. -/
def orderedSet (s : State) (l : Nat) (o : OrderedSet) : State :=
  let h := s.link l
  let st := lstate s l
  if !inTraining s l then s
  else if st = lsAlign ∨ st = lsRate then
    match o with
    | .align => if 63 ≤ h.count then nextStep s l (if st = lsAlign then lsCaps else lsRtt)
                else s.setLink l { h with count := h.count + 1 }
    | _ => s.setLink l { h with count := 0 }
  else if st = lsCaps then
    match o with
    | .cap type vmax ish irated flags rev crc =>
      if capValid type vmax ish irated flags rev crc then takeCap s l (vmax, ish, irated, flags, rev)
      else s.setLink l { h with count := 0, cap := none }
    | _ => s.setLink l { h with count := 0, cap := none }
  else if st = lsRtt then
    match o with
    | .rtt t =>
      if 10240 < t then failAttempt s l
      else
        let s := s.setFld PH_RTT_RTT (max t (s.fld PH_RTT_RTT l)) l
        if 3 ≤ h.rtts then nextStep s l lsSetup else s.setLink l { h with rtts := h.rtts + 1 }
    | _ => s
  else s

/-- Training completes (R118, R120): UP, with the commands that restore the stage's state (R108). -/
def linkUp (s : State) (l lag : Nat) : State :=
  let h := s.link l
  let s := ((s.setFld PH_FXSTAT_LSTATE lsUp l).setFld PH_FXSTAT_VER h.ver l).setFld PH_RTT_LAG lag l
  let s := s.event PH_EVT_UP l
  let s := if h.ver < h.prevVer then s.event PH_EVT_VERDROP l else s
  let s := s.setLink l { h with bads := 0, dns := 0, winBad := 0, count := 0, retry := false }
  if 64 ≤ l then s
  else
    let s := if cellGet 0 s.flt.phF l ≠ 0 then sendCmd s l cmdFence 0 else s
    match railOfPhase s l with
    | none => s
    | some n =>
      let s := if railSinks s n then sendCmd s l cmdSink 1 else s
      if h.ver = 1 then linkVerFence s n l else s

/-! ## Upstream frames (R109–R114) -/

/-- The fields of an upstream frame, and whether its check code and reserved field hold (R109, R113). -/
structure UpFields where
  seq : Nat
  icur : Int
  icurOut : Bool
  aux : Nat
  auxOnes : Bool
  status : Nat
  dseq : Nat
  ack : Nat
  ok : Bool
  deriving DecidableEq, Repr

/-- Bits of a frame. -/
def fbits (f : BitVec 64) (hi lo : Nat) : Nat := (f.toNat >>> lo) % 2 ^ (hi + 1 - lo)

/-- The fields by version. -/
def upFields (ver : Nat) (f : BitVec 64) : UpFields :=
  if ver = 3 then
    { seq := fbits f 63 60, icur := signed 14 (fbits f 59 46), icurOut := fbits f 59 46 == 0x2000, aux := fbits f 45 32
      auxOnes := fbits f 45 32 == 0x3FFF, status := fbits f 31 24, dseq := fbits f 23 20, ack := fbits f 19 16
      ok := fbits f 15 0 == crc16 48 (f.toNat / 2 ^ 16) }
  else if ver = 2 then
    { seq := fbits f 63 60, icur := signed 12 (fbits f 59 48), icurOut := fbits f 59 48 == 0x800, aux := fbits f 47 36
      auxOnes := fbits f 47 36 == 0xFFF, status := fbits f 35 28, dseq := fbits f 27 24, ack := fbits f 23 20
      ok := fbits f 7 0 == crc8 56 (f.toNat / 2 ^ 8) && fbits f 19 8 == 0 }
  else
    { seq := fbits f 63 60, icur := signed 10 (fbits f 59 50), icurOut := fbits f 59 50 == 0x200, aux := fbits f 49 40
      auxOnes := fbits f 49 40 == 0x3FF, status := fbits f 39 32, dseq := fbits f 31 28, ack := fbits f 27 24
      ok := fbits f 7 0 == crc8 56 (f.toNat / 2 ^ 8) && fbits f 23 8 == 0 }

/-- The weight of a code against FXL3's (R110). -/
def verScale (ver : Nat) : Nat := if ver = 3 then 1 else if ver = 2 then 4 else 16

/-- A temperature code in 0.01 °C (R110), truncated toward zero (assumption log entry 7). -/
def upTemp (ver aux : Nat) : Int :=
  let c := signed (if ver = 3 then 14 else if ver = 2 then 12 else 10) aux
  divTrunc (c * 25 * verScale ver) 4

/-- A bad frame (R114, R115). It leaves the run of good frames with DNERR as it is (assumption log entry 138). -/
def badFrame (s : State) (l seq : Nat) : State :=
  let h := s.link l
  let s := s.setLink l { h with rxRef := some seq, bads := h.bads + 1, winBad := h.winBad + 1 }
  let s := linkCount s l PH_ERRCNT_COUNT PH_FXSTAT_ERRSAT
  let lim := s.fld PH_FXCTRL_ERRLIM l
  if 4 ≤ h.bads + 1 ∨ (lim ≠ 0 ∧ lim < h.winBad + 1) then linkLost s l else s

/-- The status of a good frame (R112, R126). -/
def takeStatus (s : State) (l st : Nat) : State :=
  let last := s.fld PH_STSTAT_LAST l
  let rose := fun k => st.testBit k && !last.testBit k
  let s := if rose 5 then s.event PH_EVT_OTW l else s
  let s := if rose 2 || rose 3 || rose 4 then s.event PH_EVT_SFLT l else s
  (s.setFld PH_STSTAT_LAST st l).setFld PH_STSTAT_STICKY (s.fld PH_STSTAT_STICKY l ||| st) l

/-- The echo of a command (R108): the commands sent with that code are acknowledged, also by the echo of an earlier one
(assumption log entry 139). -/
def takeAck (h : LinkH) (ack : Nat) : LinkH :=
  if h.sent.any (fun c => c.code == ack) then { h with sent := h.sent.filter (fun c => c.code != ack) } else h

/-- The SENSE check of R94 on an IPV of code `aux`, in mA `ipv` (R111): a repeat of the frame before is the same period's and is
ignored; the period of a phase that does not switch breaks the run. -/
def senseCheck (s : State) (l aux ipv : Nat) : State :=
  let h := s.link l
  match railOfPhase s l with
  | some n =>
    if !phActive s n l then s.setLink l { h with ipv := some aux, sense := 0 }
    else if h.ipv = some aux then s
    else s.setLink l { h with ipv := some aux, sense := if rippleMissed s n l ipv then h.sense + 1 else 0 }
  | none => s.setLink l { h with ipv := some aux, sense := 0 }

/-- The data of a good frame of a phase (R110–R112): current, the multiplexed value, LIM, and the SENSE and RANGE checks of R94. -/
def phaseData (s : State) (l : Nat) (u : UpFields) : State :=
  let ver := (s.link l).ver
  let sc := verScale ver
  let ish : Nat := 2 ^ s.fld PH_FXCAP_ISH l
  let ipv := u.seq % 2 == 0
  let s := s.setSfld PH_TELI_ICUR (divTrunc (u.icur * 16 * sc) ish) l
  let out := u.icurOut || (ipv && u.auxOnes)
  let s := s.setLink l { s.link l with range := out }
  let s := if ipv then senseCheck (s.setFld PH_TELPV_IPV (u.aux * 16 * sc / ish) l) l u.aux (u.aux * 16 * sc / ish)
    else if u.seq % 4 = 1 then s.setFld PH_TELV_VIN (u.aux * 4000 * sc) l
    else thmFresh (s.setSfld PH_TELT_TEMP (upTemp ver u.aux) l) l
  match railOfPhase s l with
  | none => s
  | some n =>
    let r := s.rail n
    let s := if u.status.testBit 7 && phActive s n l then s.setRail n { r with limited := true } else s
    if out then phaseFence s n l 3 else s

/-- A good frame in UP, but for its data: DNERR, status and the echo (R108, R112, R115). -/
def goodFrame (s : State) (l : Nat) (u : UpFields) : State :=
  let h := s.link l
  let dn := u.status.testBit 6
  let s := s.setLink l (takeAck { h with rxRef := some u.seq, bads := 0, dns := if dn then h.dns + 1 else 0 } u.ack)
  let s := takeStatus s l u.status
  if dn then
    let s := linkCount s l PH_DNERRCNT_COUNT PH_FXSTAT_DNSAT
    if 4 ≤ h.dns + 1 then linkLost s l else s
  else s

/-- The frame passes the checks that do not depend on the lag (R114). -/
def frameSound (h : LinkH) (u : UpFields) (codeOk : Bool) : Bool :=
  codeOk && u.ok && (match h.rxRef with | some r => u.seq == (r + 1) % 16 | none => true)

/-- A frame in SETUP (R118): 32 consecutive good frames with a constant lag and both commands acknowledged. -/
def setupFrame (s : State) (l : Nat) (u : UpFields) (codeOk : Bool) (ref : Nat) : State :=
  let h := s.link l
  let lag := (ref + 16 - u.dseq) % 16
  if !frameSound h u codeOk then
    linkCount (s.setLink l { h with rxRef := some u.seq, count := 0 }) l PH_ERRCNT_COUNT PH_FXSTAT_ERRSAT
  else
    let k := if h.lag = some lag then h.count + 1 else 1
    let h := takeAck { h with rxRef := some u.seq, lag := some lag, count := k } u.ack
    let s := s.setLink l h
    if 32 ≤ k ∧ h.sent = [] ∧ h.cmds = [] then linkUp s l lag else s

/-- An upstream frame of link `l` in UP with `data` for a good frame's contents. -/
def upFrame (s : State) (l : Nat) (u : UpFields) (codeOk : Bool) (ref : Nat) (data : State → State) : State :=
  let h := s.link l
  if frameSound h u codeOk ∧ (ref + 16 - u.dseq) % 16 = s.fld PH_RTT_LAG l then
    let s := goodFrame s l u
    if lstate s l = lsUp then data s else s
  else badFrame s l u.seq

/-! ## Commands of the link registers -/

/-- The phase of link `l` is in PHSVC of a rail that is not OFF (R126). -/
def phaseBusy (s : State) (l : Nat) : Bool :=
  match railOfPhase s l with
  | some n => railState s n != rsOff && phInService s l
  | none => false

/-- A drain begins (R125): four frames without drive while UP, then link resets; a training attempt ends. -/
def linkDrain (s : State) (l : Nat) : State :=
  if lstate s l = lsDown ∨ (s.link l).draining ≠ 0 then s
  else s.setLink l { s.link l with draining := if lstate s l = lsUp then 5 else 1, retry := false, cmds := [], sent := [], fencing := 0 }

/-- EN written 0 (R125): the channel drains. A phase in service of an enabled rail is fenced with cause LINK, since its link is not
up (assumption log entry 12). -/
def linkStop (s : State) (l : Nat) : State :=
  let s := if l < 64 ∧ lstate s l = lsUp then
      match railOfPhase s l with
      | some n => phaseFence s n l 4
      | none => s
    else s
  linkDrain s l

/-- The drain ends: DOWN, ABORTED. -/
def linkDrainEnd (s : State) (l : Nat) : State :=
  if (s.link l).draining = 0 then s
  else
    let h := s.link l
    let prev := if s.fld PH_FXSTAT_VER l = 0 then h.prevVer else s.fld PH_FXSTAT_VER l
    let s := s.setLink l { window := h.window, prevVer := prev }
    ((s.setFld PH_FXSTAT_LSTATE lsDown l).setFld PH_FXSTAT_VER 0 l).event PH_EVT_ABORTED l

/-- FXCTRL.EN written (R122, R125). -/
def linkEnable (s : State) (l : Nat) (en : Bool) : State :=
  if en == s.flag PH_FXCTRL_EN l then s
  else
    let s := s.setFlag PH_FXCTRL_EN en l
    if en then s else linkStop s l

/-- A write of FXCTRL: the other fields, then EN. -/
def writeFxctrl (s : State) (l : Nat) (w : Word) : State × Status :=
  let t := ((s.setFld PH_FXCTRL_ERRLIM (Word.bits w 31 24) l).setFld PH_FXCTRL_ATTEMPTS (Word.bits w 17 16) l).setFld
    PH_FXCTRL_VMAX (Word.bits w 9 8) l
  (linkEnable (t.setFlag PH_FXCTRL_AUTORT (Word.bit w 2) l) l (Word.bit w 0), .ok)

/-- A write of PKLIM: SETLIM falls due (R108). -/
def writePklim (s : State) (l : Nat) (w : Word) : State := 
  sendCmd (s.plainWrite PH_PKLIM w l) l cmdSetlim (Word.bits w 15 0)

/-- FXCMD.CLRFLT (R108, R126). `busy` refuses with `st`. -/
def linkClrflt (s : State) (l : Nat) (busy : Bool) (st : Status) : State × Status :=
  if busy then (s, st) else if lstate s l ≠ lsUp then (s, .nolink) else (sendCmd s l cmdClrflt 0, .ok)

/-- FXCMD.RETRAIN (R116, R121, R122, R126): a link reset and a new training. A disabled link has none; while the timing PLL is
unlocked the link waits for it in DOWN (assumption log entry 137). A drain is not cut short (R125). -/
def linkRetrain (s : State) (l : Nat) (busy : Bool) (st : Status) : State × Status :=
  if busy then (s, st)
  else if mayTrain s l then (startTraining s l 1, .ok)
  else if s.flag PH_FXCTRL_EN l && !linkGoing s l then ((startTraining s l 0).setFld PH_FXSTAT_LSTATE lsDown l, .ok)
  else (s, .ok)

/-- FXCMD.CLRCNT (R126). -/
def linkClrcnt (s : State) (l : Nat) : State :=
  let s := ((s.setFld PH_ERRCNT_COUNT 0 l).setFld PH_DNERRCNT_COUNT 0 l).setFld PH_LOSSCNT_COUNT 0 l
  ((s.setFlag PH_FXSTAT_LOSSSAT false l).setFlag PH_FXSTAT_DNSAT false l).setFlag PH_FXSTAT_ERRSAT false l

/-- A write of FXCMD: CLRCNT, CLRFLT and RETRAIN as the word has them. -/
def writeFxcmd (s : State) (l : Nat) (w : Word) (busy : Bool) (st : Status) : State × Status :=
  let s := if Word.bit w 2 then linkClrcnt s l else s
  let (s, a) := if Word.bit w 1 then linkClrflt s l busy st else (s, .ok)
  let (s, b) := if Word.bit w 0 then linkRetrain s l busy st else (s, .ok)
  (s, if a = .ok then b else a)

/-- A write of a link register at its offset (R126, R257). -/
def linkWrite (s : State) (l off : Nat) (w : Word) (busy : Bool) (st : Status) : State × Status :=
  match off with
  | 0x00 => writeFxctrl s l w
  | 0x04 => (s.plainWrite PH_DLYTRIM w l, .ok)
  | 0x05 => (writePklim s l w, .ok)
  | 0x06 => writeFxcmd s l w busy st
  | 0x10 => (s.plainWrite PH_STSTAT w l, .ok)
  | 0x11 => (s.plainWrite PH_EVT w l, .ok)
  | 0x12 => (s.plainWrite PH_EVTEN w l, .ok)
  | _ => (s, .ok)

/-- A command on link `l` acts while its domain is powered and the part has it. -/
def State.onLink (s : State) (l : Nat) (t : State) : Out :=
  .next (if s.powered (linkDomain l) && (decide (64 ≤ l) || s.phPresent l) then t else s)

/-! ## The commands -/

/-- ERRLIM_WINDOW (R115). -/
def execErrlimWindow (l : Fin 72) (s : State) : Out := s.onLink l (s.setLink l { s.link l with winBad := 0 })

/-- AUTORT_RETRAIN (R116). -/
def execAutortRetrain (l : Fin 72) (s : State) : Out :=
  s.onLink l (if lstate s l = lsLost ∧ s.flag PH_FXCTRL_AUTORT l ∧ mayTrain s l then startTraining s l 1 else s)

/-- TRAINING_START (R122). -/
def execTrainingStart (l : Fin 72) (s : State) : Out :=
  s.onLink l (if lstate s l = lsDown ∧ mayTrain s l then startTraining s l 1 else s)

/-- ORDERED_SET (R119). -/
def execOrderedSet (l : Fin 72) (o : OrderedSet) (s : State) : Out := s.onLink l (orderedSet s l o)

/-- TRAINING_TIMEOUT (R121). -/
def execTrainingTimeout (l : Fin 72) (s : State) : Out := s.onLink l (if inTraining s l then failAttempt s l else s)

/-- TRAINING_RETRY (R121). -/
def execTrainingRetry (l : Fin 72) (s : State) : Out :=
  s.onLink l (if (s.link l).retry ∧ mayTrain s l then startTraining s l (s.fld PH_FXSTAT_ATTEMPT l + 1) else s)

/-- LINK_EN_WRITE (R125). -/
def execLinkEnWrite (l : Fin 72) (en : Bool) (s : State) : Out := s.onLink l (s.ifWritable (linkEnable s l en))

/-- PKLIM_WRITE (R108). -/
def execPklimWrite (l : Fin 72) (w : Word) (s : State) : Out := s.onLink l (s.ifWritable (writePklim s l w))

/-- PH_CLRCNT (R126). -/
def execPhClrcnt (l : Fin 72) (s : State) : Out := s.onLink l (s.ifWritable (linkClrcnt s l))

end Sys2Proof.Machine
end

