-- ==== Sys2Proof/Machine/Lx.lean ====
section
/-! DEFINITION. The bidirectional link converter (10_link_converter.md): the modules' states, the control law, the edges of
the bridges, precharge, trips, fences and drains, and the frames of the bridge links. -/
namespace Sys2Proof.Machine

def State.lxm (s : State) (m : Nat) : LxH := cellGet {} s.lx m
def State.setLxm (s : State) (m : Nat) (h : LxH) : State := { s with lx := cellSet {} s.lx m h }

/-- The states of a module (R248). -/
def lxOff : Nat := 0
def lxStart : Nat := 1
def lxRun : Nat := 2
def lxReversing : Nat := 3
def lxStopping : Nat := 4
def lxWait : Nat := 5
def lxTripped : Nat := 6
def lxDraining : Nat := 7
def lxFenced : Nat := 8

def lxState (s : State) (m : Nat) : Nat := s.fld LXM_STAT_STATE m

/-- The states in which EN reads 1 (R248), and those in which the bridges switch. -/
def lxEnabled (st : Nat) : Bool := decide (1 ≤ st) && decide (st ≤ 5)
def lxSwitching (st : Nat) : Bool := decide (1 ≤ st) && decide (st ≤ 4)

/-- The links of a module: LXAm and LXBm. -/
def lxA (m : Nat) : Nat := 64 + m
def lxB (m : Nat) : Nat := 68 + m

/-- The half period in ticks (R240): bit 0 of PERIOD is ignored. -/
def lxHalf (s : State) : Nat := s.fld LX_PERIOD_PERIOD / 2

/-! ## Interleave and state changes -/

/-- The rank of module `m` and the number of ranked modules (R251). -/
def lxRank (s : State) (m : Nat) : Nat × Nat :=
  let l := (List.range 4).filter (fun j => lxSwitching (lxState s j))
  ((l.filter (· < m)).length, l.length)

/-- The offset a module is to reach (R251). -/
def lxOffGoal (s : State) (m : Nat) : Int :=
  if s.flag LX_GROUP_ILVEN ∧ lxSwitching (lxState s m) then
    let (r, n) := lxRank s m
    divRound ((r * lxHalf s : Nat) : Int) (n : Nat)
  else 0

/-- Ranks and offset goals follow a change of the ranked modules: a move over 8 periods, 16 boundaries. -/
def lxRerank (s : State) : State :=
  (List.range 4).foldl (fun s m =>
    let g := lxOffGoal s m
    let h := s.lxm m
    let s := if h.offGoal = g then s else s.setLxm m { h with offGoal := g, offLeft := 16 }
    s.setFld LXM_STAT_RANK (if lxSwitching (lxState s m) then (lxRank s m).1 else 0) m) s

/-- The members of the parallel group, and those that run its loop (R252). -/
def lxInGroup (s : State) (m : Nat) : Bool := s.fbit LX_GROUP_PAR m
def lxRunners (s : State) : List Nat :=
  (List.range 4).filter (fun j => lxInGroup s j && (lxState s j == lxStart || lxState s j == lxRun))

/-- The group's loop passes from one leader to the next with its integrator and vref unchanged (R252). -/
def lxHandOver (s : State) (a b : Option Nat) : State :=
  match a, b with
  | some i, some j =>
    if i = j then s
    else
      let h := s.lxm i
      s.setLxm j { s.lxm j with vref := h.vref, moving := h.moving, iv := h.iv, demand := h.demand }
  | _, _ => s

/-- A module's state set; EN follows (R248). vref moves only while the loop runs (R245). -/
def setLxState (s : State) (m st : Nat) : State :=
  let t := (s.setFld LXM_STAT_STATE st m).setFlag LXM_CTRL_EN (lxEnabled st) m
  let t := lxHandOver t (lxRunners s).head? (lxRunners t).head?
  lxRerank (if st = lxStart ∨ st = lxRun then t else t.setLxm m { t.lxm m with moving := false })

/-- The module's bridges stop: DRV = 0b00 on both links from the next frame, no edge left, the shift variables at rest. -/
def lxStop (s : State) (m st : Nat) : State :=
  let s := setLxState s m st
  let h := s.lxm m
  let s := s.setLxm m { h with phi := 0, phiHalf := 0, w := 0, boundary := none, halves := 0, config := none, off := 0
                               restart := false, offLeft := 0, offGoal := 0 }
  let s := s.setLink (lxA m) { s.link (lxA m) with edges := [], driveTo := none }
  let s := s.setLink (lxB m) { s.link (lxB m) with edges := [], driveTo := none }
  let s := ((s.setFld LXM_PHILIVE_PHI 0 m).setFld LXM_WLIVE_W 0 m).setFld LXM_STAT_DIR 0 m
  (((s.setFlag LXM_STAT_RXPASS false m).setFlag LXM_STAT_LIMF false m).setFlag LXM_STAT_LIMR false m).setFlag
    LXM_STAT_CEIL false m

/-- A trip for cause `c` of R254, with the link for its detail. -/
def lxTrip (s : State) (m c link : Nat) : State :=
  if lxEnabled (lxState s m) then
    let s := lxStop s m lxTripped
    let s := ((s.setFld LXM_TRIP_CAUSE c m).countTo LXM_TRIP_COUNT 0xFFFF m).event LXM_EVT_TRIP m
    s.postFault (288 + 4 * (c - 1) + m) m link 0
  else s

/-- A fence of a module (R256): FENCED, with FENCE to both bridges. -/
def lxFence (s : State) (m : Nat) : State :=
  let s := { s with flt := { s.flt with lxF := cellSet false s.flt.lxF m true } }
  if lxState s m = lxFenced then s
  else
    let s := sendCmd (sendCmd (lxStop s m lxFenced) (lxA m) cmdFence 0) (lxB m) cmdFence 0
    s.event LXM_EVT_FENCED m

/-- A drain begins (R256). -/
def lxDrain (s : State) (m : Nat) : State :=
  if lxState s m = lxFenced then s
  else
    let s := setLxState s m lxDraining
    s.setLxm m { s.lxm m with config := none, restart := false }

/-- A drain ends: OFF, ABORTED. -/
def lxDrainEnd (s : State) (m : Nat) : State :=
  if lxState s m = lxDraining then (lxStop s m lxOff).event LXM_EVT_ABORTED m else s

/-! ## Direction and thresholds (R247) -/

/-- A side of `v` µV is below its source-low threshold, with the hysteresis of 2 % for one that was (R247, R248). -/
def sideLow (was : Bool) (v thr : Int) : Bool := if was then decide (v * 100 < thr * 102) else decide (v < thr)

/-- The status of both sides of module `m` follows their voltages. -/
def lxNoteSides (s : State) (m : Nat) (vhv vlv : Int) : State :=
  let h := s.lxm m
  s.setLxm m { h with hvLow := sideLow h.hvLow vhv (s.fld LXM_HVUV_V m), lvLow := sideLow h.lvLow vlv (s.fld LXM_LVUV_V m) }

/-- Power flows forward: the direction in use, from the side voltages in µV. With both directions permitted the source is the side above
its threshold, the primary if both are. -/
def lxForward (s : State) (m : Nat) (vhv vlv : Int) : Bool :=
  let f := s.flag LXM_CTRL_FWDEN m
  let r := s.flag LXM_CTRL_REVEN m
  let h := s.lxm m
  if f && r then !sideLow h.hvLow vhv (s.fld LXM_HVUV_V m) || sideLow h.lvLow vlv (s.fld LXM_LVUV_V m) else !r

/-- The source's voltage and threshold, then the receiver's. -/
def lxSides (s : State) (m : Nat) (vhv vlv : Int) : Int × Int × Int × Int :=
  let hv : Int := s.fld LXM_HVUV_V m
  let lv : Int := s.fld LXM_LVUV_V m
  if lxForward s m vhv vlv then (vhv, hv, vlv, lv) else (vlv, lv, vhv, hv)

/-- The raw side voltages of the links (R239, R257). -/
def lxRawV (s : State) (m : Nat) : Int × Int := (s.fld PH_TELV_VIN (lxA m), s.fld PH_TELV_VIN (lxB m))

/-- The voltage that CMODE regulates (R245). -/
def lxRegulated (s : State) (m : Nat) (vhv vlv : Int) : Int := if s.fld LXM_CTRL_CMODE m = 2 then vhv else vlv

/-! ## Start (R245, R247–R249) -/

/-- The modules that share module `m`'s voltage loop, and the one that runs it (R252). -/
def lxMembers (s : State) (m : Nat) : List Nat := if lxInGroup s m then lxRunners s else [m]
def lxLeader (s : State) (m : Nat) : Nat := ((lxMembers s m).head?).getD m

/-- A member of the group disagrees with `m` about CMODE, PCHG or CHGEN (R252). -/
def lxDisagrees (s : State) (m : Nat) : Bool :=
  lxInGroup s m && (s.fld LXM_CTRL_CMODE m == 1 || (List.range 4).any (fun j =>
    lxInGroup s j && (s.fld LXM_CTRL_CMODE j != s.fld LXM_CTRL_CMODE m || s.flag LXM_CTRL_PCHG j != s.flag LXM_CTRL_PCHG m
      || s.flag LXM_CTRL_CHGEN j != s.flag LXM_CTRL_CHGEN m)))

/-- The voltage target that acts (R246). -/
def lxTarget (s : State) (m : Nat) : Int := match (s.lxm m).chgV with
  | some v => v
  | none => s.fld LXM_VTGT_VTGT m

/-- The module enters START: integrators cleared and vref loaded. A member that starts behind a running leader leaves the
group's loop as it is. A precharge begins here unless the module comes out of WAIT (R253). -/
def lxEnterStart (s : State) (m : Nat) : State :=
  let (vhv, vlv) := lxRawV s m
  let joins := lxInGroup s m && (lxRunners s).any (· != m)
  let again := decide (lxState s m = lxWait)
  let s := setLxState s m lxStart
  let s := if again then s else s.setLxm m { s.lxm m with hvLow := false, lvLow := false }
  let s := lxNoteSides s m vhv vlv
  let h := s.lxm m
  let (_, _, rv, rt) := lxSides s m vhv vlv
  let vref := if joins then h.vref else lxRegulated s m vhv vlv
  let s := s.setLxm m { h with vref := vref, moving := !joins && decide (vref ≠ lxTarget s m), iv := if joins then h.iv else 0, ii := 0
                               phi := 0, phiHalf := 0, w := 0, halves := 0, boundary := none, odd := false, config := none
                               restart := false }
  let s := s.setFlag LXM_STAT_RXPASS (decide (rv < rt)) m
  if !s.flag LXM_CTRL_PCHG m then s.setFld LXM_STAT_PCST 0 m
  else if again && s.fld LXM_STAT_PCST m != 0 then s
  else (s.setLxm m { s.lxm m with banded := false }).setFld LXM_STAT_PCST 1 m

/-- LX is permitted in the mode (R36). -/
def lxMode (m : Nat) : Bool := (decide (4 ≤ m) && decide (m ≤ 9)) || m == modeShutdown

/-- The node of one of the module's bridges is at SHUTDOWN (R321). -/
def lxHot (s : State) (m : Nat) : Bool := nodeShutdown s (64 + m) || nodeShutdown s (68 + m)

/-- EN written 1 (R236, R249, R321): the mode is judged first (R37; assumption log entry 144). -/
def lxEnable (s : State) (m : Nat) : State × Status :=
  let st := lxState s m
  if st = lxStart ∨ st = lxRun ∨ st = lxReversing ∨ st = lxWait then (s, .ok)
  else if st = lxStopping then (s.setLxm m { s.lxm m with restart := true }, .ok)
  else if st = lxFenced ∨ st = lxDraining then (s, if lxHot s m then .hot else .ok)
  else if !lxMode s.cur then (s, .modedeny)
  else
    let up := fun l => lstate s l == lsUp
    let slow := fun l => up l && s.fld PH_FXSTAT_VER l == 1
    if slow (lxA m) || slow (lxB m) then (s, .linkver)
    else if !(up (lxA m) && up (lxB m)) then (s, .nolink)
    else if s.fld LXM_XFMR_NTR m = 0 ∨ s.fld LXM_XFMR_LLK m = 0 ∨ s.fld LXM_KI_KII m = 0 ∨ s.fld LXM_DT_DTA m = 0
        ∨ s.fld LXM_DT_DTB m = 0
        ∨ (s.flag LXM_CTRL_PCHG m ∧ ¬(s.fld LXM_CTRL_CMODE m = 2 ∧ s.flag LXM_CTRL_REVEN m))
        ∨ (s.flag LXM_CTRL_CHGEN m ∧ s.fld LXM_CTRL_CMODE m = 2) ∨ lxDisagrees s m then (s, .nocfg)
    else if lxHot s m then (s, .hot)
    else (lxEnterStart s m, .ok)

/-- EN written 0 (R248, R249). -/
def lxDisable (s : State) (m : Nat) : State :=
  let st := lxState s m
  if st = lxTripped then lxStop s m lxOff
  else if st = lxStopping then s.setLxm m { s.lxm m with restart := false }
  else if lxEnabled st then setLxState s m lxStopping
  else s

/-- A new target of vref replaces the one of `s`, which is superseded while vref moves toward it (R245). -/
def lxRetarget (s t : State) (m : Nat) : State :=
  if (s.lxm m).moving && lxTarget s m != lxTarget t m then t.event LXM_EVT_SUPERSEDED m else t

/-- The CHG override is withdrawn (R246): vref goes on to VTGT. -/
def lxChgDrop (s : State) (m : Nat) : State :=
  let h := s.lxm m
  match h.chgV with
  | none => s
  | some _ =>
    (lxRetarget s ((s.setLxm m { h with chgV := none, chgI := none }).setFlag LXM_STAT_CHGOVR false m) m).event LXM_EVT_CHGDROP m

/-- The CHG override sets its two terms (R246): a module with CHGEN = 1 in VLV or ILV mode. -/
def lxChgSet (s : State) (m : Nat) (v i : Int) : State :=
  if s.flag LXM_CTRL_CHGEN m ∧ s.fld LXM_CTRL_CMODE m ≠ 2 then
    lxRetarget s ((s.setLxm m { s.lxm m with chgV := some v, chgI := some i }).setFlag LXM_STAT_CHGOVR true m) m
  else s

/-- The configuration fields of a CTRL word take effect (R250); in VHV mode there is no override (R246). -/
def lxConfig (s : State) (m : Nat) (w : Word) : State :=
  let s := ((((s.setFld LXM_CTRL_CMODE (Word.bits w 6 4) m).setFlag LXM_CTRL_FWDEN (Word.bit w 12) m).setFlag LXM_CTRL_REVEN
    (Word.bit w 13) m).setFlag LXM_CTRL_PCHG (Word.bit w 14) m)
  if s.fld LXM_CTRL_CMODE m = 2 then lxChgDrop s m else s

/-- A configuration that takes effect in START or WAIT (R250) begins a precharge, or ends one (R253). -/
def lxPrecharge (s t : State) (m : Nat) : State :=
  let b := t.flag LXM_CTRL_PCHG m
  if b = s.flag LXM_CTRL_PCHG m then t
  else if b then (t.setLxm m { t.lxm m with banded := false }).setFld LXM_STAT_PCST 1 m
  else t.setFld LXM_STAT_PCST 0 m

/-- A word changes CMODE, FWDEN, REVEN or PCHG against another word. -/
def lxDiffers (a b : Word) : Bool :=
  Word.bits a 6 4 != Word.bits b 6 4 || Word.bits a 14 12 != Word.bits b 14 12

/-- A write of the configuration fields (R250). One that finds the module STOPPING waits for zero too (assumption log entry 145). -/
def lxReconfigure (s : State) (m : Nat) (w : Word) : State :=
  let h := s.lxm m
  let st := lxState s m
  if st = lxRun then
    if lxDiffers w (s.reg LXM_CTRL m) then
      let s := setLxState s m lxReversing
      s.setLxm m { s.lxm m with config := some w }
    else s
  else if st = lxReversing then
    match h.config with
    | some c => if lxDiffers w c then (s.setLxm m { h with config := some w }).event LXM_EVT_SUPERSEDED m else s
    | none => s.setLxm m { h with config := some w }
  else if st = lxStopping then s.setLxm m { h with config := some w }
  else if st = lxStart ∨ st = lxWait then lxPrecharge s (lxConfig s m w) m
  else lxConfig s m w

/-- A write of LXm_CTRL (R249, R250, R258). -/
def writeLxCtrl (s : State) (m : Nat) (w : Word) : State × Status :=
  if 3 ≤ Word.bits w 6 4 then (s, .illegal)
  else
    let t := (s.setFld LXM_CTRL_MOD (Word.bits w 9 8) m).setFlag LXM_CTRL_CHGEN (Word.bit w 16) m
    let t := if Word.bit w 16 then t else lxChgDrop t m
    let t := lxReconfigure t m w
    if Word.bit w 0 then
      match lxEnable t m with
      | (u, .ok) => (u, .ok)
      | (_, x) => (s, x)
    else (lxDisable t m, .ok)

/-- A write of LXm_VTGT (R245, R246): stored only, while the override is in force. -/
def writeVtgt (s : State) (m : Nat) (v : Word) : State := lxRetarget s (s.setReg LXM_VTGT v m) m

/-! ## The control law (R244) -/

/-- A proportional-integral term: `kp` is Q8.8 per unit and `ki` Q4.12 per unit and update, both against an error in
thousandths of the unit. The integrator is in 2^-12 thousandths. -/
def piTerm (kp ki err acc : Int) : Int × Int :=
  let acc' := acc + ki * err
  (divTrunc (kp * err) 256000 + divTrunc acc' 4096000, acc')

/-- A value clamped, with the integrator held when the clamp acts in the direction it would deepen (R244). -/
def piClamp (v lo hi step acc acc' : Int) : Int × Int :=
  if hi < v then (hi, if 0 < step then acc else acc')
  else if v < lo then (lo, if step < 0 then acc else acc')
  else (v, acc')

/-- PHIFF of R244 in ticks for a demand in mA; the voltages are floored at 1 V. -/
def phiff (s : State) (m : Nat) (idem vhv vlv : Int) : Int :=
  let h := lxHalf s
  let v := if 0 ≤ idem then vlv else vhv
  let num : Nat := idem.natAbs * v.toNat * s.fld LXM_XFMR_LLK m * 52428800
  let den : Nat := 2 * h * (max 1000000 vhv).toNat * s.fld LXM_XFMR_NTR m * (max 1000000 vlv).toNat
  if den = 0 then 0
  else
    let root := Nat.sqrt (h * h * (den - min den (4 * num)) / den)
    let x : Int := ((h - root) / 2 : Nat)
    if idem < 0 then -x else if idem = 0 then 0 else x

/-- ifmax and irmax of R244 in mA, and whether the grant is the bounding term of each. The leader of a parallel group takes chg_i for
the whole group (R263), so it bounds no single member. -/
def lxLimits (s : State) (m : Nat) : Int × Int × Bool × Bool :=
  let vhv : Int := max 1000000 (s.fld LXM_VHV_V m)
  let vlv : Int := max 1000000 (s.fld LXM_VLV_V m)
  let mw : Int := (s.hwClaim m).grant * 250
  let cf := divTrunc (mw * 1000000) vlv
  let cr := divTrunc (mw * 1000000) vhv
  let pre := (List.range 4).filter (fun j => s.flag LXM_CTRL_PCHG j && (lxState s j == lxStart || lxState s j == lxRun))
  let pcap : Int := divTrunc ((min 2000 (s.fld LX_PCCFG_PRECAP) : Nat) * 1000 : Int) (max 1 pre.length : Nat)
  let il : Int := s.fld LXM_ILIMF_ILIMF m
  let f := match (s.lxm m).chgI with | some c => if lxInGroup s m then il else min il c | none => il
  let r0 : Int := s.fld LXM_ILIMR_ILIMR m
  let r := if s.flag LXM_CTRL_PCHG m then min r0 (divTrunc (pcap * 1000000) vhv) else r0
  (if s.flag LXM_CTRL_FWDEN m then min f cf else 0, if s.flag LXM_CTRL_REVEN m then min r cr else 0,
   s.flag LXM_CTRL_FWDEN m && decide (cf < f), s.flag LXM_CTRL_REVEN m && decide (cr < r))

/-- The demand shared among members (R252): each takes an equal part of what is left, and what a member's limit cuts goes to
those not at theirs. The limits are given by member. -/
def lxShares : Nat → Int → List (Nat × Int × Int) → List (Nat × Int)
  | 0, _, l => l.map (fun x => (x.1, 0))
  | fuel + 1, d, l =>
    let k : Int := (max 1 l.length : Nat)
    let part := divTrunc d k
    let cut := l.filter (fun x => decide (x.2.1 < part) || decide (part < -x.2.2))
    if cut.isEmpty then l.map (fun x => (x.1, part))
    else
      let fixed := cut.map (fun x => (x.1, if x.2.1 < part then x.2.1 else -x.2.2))
      let d' := fixed.foldl (fun a x => a - x.2) d
      fixed ++ lxShares fuel d' (l.filter (fun x => !(decide (x.2.1 < part) || decide (part < -x.2.2))))

/-- The mean of a live value over members. -/
def lxMean (s : State) (f : Fld) (l : List Nat) : Int :=
  if l.isEmpty then 0 else divTrunc ((l.foldl (fun a j => a + s.fld f j) 0 : Nat) : Int) (l.length : Nat)

/-- vref's step per update in µV (R245). -/
def lxVstep (s : State) (m : Nat) : Int := ((max 1 (s.fld LXM_VSLEW_RATE m)) * lxHalf s / 10240 : Nat)

/-- The voltage loop of a leader runs one update, and leaves the group's demand, which its CHG current term bounds (R244, R252, R263). -/
def lxVoltage (s : State) (m : Nat) : State :=
  let h := s.lxm m
  let mode := s.fld LXM_CTRL_CMODE m
  let l := lxMembers s m
  let lims := l.map (lxLimits s)
  let sum := lims.foldl (fun a x => a + x.1) 0
  let hi := match h.chgI with | some c => min sum (max 0 c) | none => sum
  let lo := lims.foldl (fun a x => a - x.2.1) 0
  let t := lxTarget s m
  let vref := moveToward h.vref t (lxVstep s m)
  if mode = 1 then
    s.setLxm m { h with vref := vref, moving := decide (vref ≠ t), demand := clampInt (s.sfld LXM_ITGT_ITGT m) lo hi }
  else
    let v := if mode = 2 then lxMean s LXM_VHV_V l else lxMean s LXM_VLV_V l
    let sg : Int := if mode = 2 then -1 else 1
    let kp := signed 16 (s.fld LXM_KV_KPV m)
    let ki := signed 16 (s.fld LXM_KV_KIV m)
    let e := vref - v
    let (u, acc') := piTerm kp ki e h.iv
    let (d, acc) := piClamp (sg * u) lo hi (sg * ki * e) h.iv acc'
    s.setLxm m { h with vref := vref, moving := decide (vref ≠ t), iv := acc, demand := d }

/-- The demand of module `m`, with its limit flags (R244). -/
def lxDemand (s : State) (m : Nat) : State × Int :=
  let ld := lxLeader s m
  let s := if ld = m then lxVoltage s m else s
  let l := lxMembers s m
  let shares := lxShares 4 (s.lxm ld).demand (l.map (fun j => (j, (lxLimits s j).1, (lxLimits s j).2.1)))
  let (fm, rm, cf, cr) := lxLimits s m
  let idem := clampInt (cellGet 0 (shares.filter (fun x => x.1 == m)) m) (-rm) fm
  let atF := decide (idem = fm) && decide (0 ≤ idem)
  let atR := decide (idem = -rm) && decide (idem ≤ 0) && !atF
  let ceil := (atF && cf) || (atR && cr)
  let s := ((s.setFlag LXM_STAT_LIMF atF m).setFlag LXM_STAT_LIMR atR m).setFlag LXM_STAT_CEIL ceil m
  (if ceil then s.event LXM_EVT_CEILING m else s, idem)

/-! ## The update (R240–R247) -/

/-- The mean of a list. -/
def listMean (l : List Int) : Option Int := if l.isEmpty then none else some (divTrunc (l.foldl (· + ·) 0) (l.length : Nat))

/-- The frames of a bridge link that an update to come may still use. -/
def keptFrames (s : State) (h : LinkH) : List (Nat × Int × Option Int) :=
  h.means.filter (fun x => decide (512 * (h.window - x.1) < 4 * lxHalf s))

/-- The frames of a bridge link of module `m` whose windows ended within the half period before 300 ns, 3,072 ticks, and a half period
ahead of the boundary to be fixed (R243); before the first boundary, within the half period that the link's last window closes
(assumption log entry 143). -/
def recentFrames (s : State) (m : Nat) (h : LinkH) : List (Nat × Int × Option Int) :=
  let c : Int := match (s.lxm m).boundary with
    | some b => b + (s.lxm m).off - (lxHalf s : Nat) - 3072
    | none => (512 * h.window : Nat)
  h.means.filter (fun x => decide (((512 * x.1 : Nat) : Int) ≤ c) && decide (c - (lxHalf s : Nat) < ((512 * x.1 : Nat) : Int)))

/-- The means of R243 of one link of module `m`: ICUR in mA and VDC in µV, none where no good frame carried it. -/
def lxLinkMeans (s : State) (m : Nat) (h : LinkH) : Option Int × Option Int :=
  let l := recentFrames s m h
  (listMean (l.map (·.2.1)), listMean (l.filterMap (·.2.2)))

/-- The live values of module `m` after the means of its two links. -/
def lxTakeMeans (s : State) (m : Nat) : State :=
  let (ia, va) := lxLinkMeans s m (s.link (lxA m))
  let (ib, vb) := lxLinkMeans s m (s.link (lxB m))
  let s := match va with | some v => s.setFld LXM_VHV_V v.toNat m | none => s
  let s := match vb with | some v => s.setFld LXM_VLV_V v.toNat m | none => s
  let s := match ia with | some i => s.setSfld LXM_IHV_I i m | none => s
  let s := match ib with | some i => s.setSfld LXM_ILV_I i m | none => s
  s.setSfld LXM_PWR_P (divTrunc (s.fld LXM_VLV_V m * s.sfld LXM_ILV_I m) 1000000) m

/-- PHISTEP and the greatest |Φ| (R241, R258). -/
def lxStep (s : State) (m : Nat) : Int := (max 1 (s.fld LXM_PHI_PHISTEP m) : Nat)
def lxPhiMax (s : State) (m : Nat) : Int := (min (s.fld LXM_PHI_PHIMAX m) (lxHalf s / 2) : Nat)

/-- The inner shifts that MOD asks (R241). -/
def lxInner (s : State) (m : Nat) : Int × Int :=
  let h := lxHalf s
  let s1 : Int := (min h (s.fld LXM_S1_S m) : Nat)
  let s2 : Int := (min h (s.fld LXM_S2_S m) : Nat)
  match s.fld LXM_CTRL_MOD m with
  | 0 => (0, 0) | 1 => (s1, 0) | 2 => (s1, s1) | _ => (s1, s2)

/-- Φ moves toward a target by at most PHISTEP, half of the change at this boundary and half at the next (R241). -/
def lxMovePhi (s : State) (m : Nat) (target : Int) : State :=
  let h := s.lxm m
  let base := h.phi + h.phiHalf
  let d := clampInt (clampInt target (-lxPhiMax s m) (lxPhiMax s m) - base) (-lxStep s m) (lxStep s m)
  s.setLxm m { h with phi := base + divTrunc d 2, phiHalf := d - divTrunc d 2 }

/-- The receiving side's behaviour follows its voltage (R247), given the module's demand: synchronous when it rises through its
threshold, with the integrator loaded for the Φ of equal transferred current; passive again below the threshold less its hysteresis
of 2 %. -/
def lxReceive (s : State) (m : Nat) (idem : Int) : State :=
  let vhv : Int := s.fld LXM_VHV_V m
  let vlv : Int := s.fld LXM_VLV_V m
  let fwd := lxForward s m vhv vlv
  let (_, _, rv, rt) := lxSides s m vhv vlv
  let h := s.lxm m
  if s.flag LXM_STAT_RXPASS m then
    if rt ≤ rv then
      let i := if fwd then s.sfld LXM_ILV_I m else s.sfld LXM_IHV_I m
      let inner := ((lxHalf s : Nat) - h.w).toNat
      let load := (phiff s m i vhv vlv - phiff s m idem vhv vlv) * 4096000
      (s.setLxm m { h with ii := load, w := 0, s1e := if fwd then inner else h.s1e, s2e := if fwd then h.s2e else inner
                    }).setFlag LXM_STAT_RXPASS false m
    else s
  else if rv * 100 < rt * 98 then
    (s.setLxm m { h with phi := 0, phiHalf := 0, w := 0, ii := 0 }).setFlag LXM_STAT_RXPASS true m
  else s

/-- The control of one update in START or RUN: Φ, or the source's width in passive receive (R244, R247). -/
def lxControl (s : State) (m : Nat) : State :=
  let (s, idem) := lxDemand s m
  let s := lxReceive s m idem
  let h := s.lxm m
  let vhv : Int := s.fld LXM_VHV_V m
  let vlv : Int := s.fld LXM_VLV_V m
  let imeas := if 0 ≤ idem then s.sfld LXM_ILV_I m else s.sfld LXM_IHV_I m
  let kp := signed 16 (s.fld LXM_KI_KPI m)
  let ki := signed 16 (s.fld LXM_KI_KII m)
  let e := idem - imeas
  let (u, acc') := piTerm kp ki e h.ii
  let s := s.setFld LXM_STAT_DIR (if idem = 0 then 0 else if 0 < idem then 1 else 2) m
  if s.flag LXM_STAT_RXPASS m then
    let sg : Int := if lxForward s m vhv vlv then 1 else -1
    let (wt, acc) := piClamp (sg * u) 0 (lxHalf s : Nat) (sg * ki * e) h.ii acc'
    s.setLxm m { h with ii := acc, phi := 0, phiHalf := 0, w := moveToward h.w wt (lxStep s m) }
  else
    let (t, acc) := piClamp (phiff s m idem vhv vlv + u) (-lxPhiMax s m) (lxPhiMax s m) (ki * e) h.ii acc'
    let s := s.setLxm m { h with ii := acc }
    lxMovePhi s m t

/-- The inner shifts in force move (R241); in passive receive the source's is H − W (R247). -/
def lxMoveInner (s : State) (m : Nat) : State :=
  let h := s.lxm m
  let (t1, t2) := lxInner s m
  let st := lxStep s m
  let fwd := lxForward s m (s.fld LXM_VHV_V m) (s.fld LXM_VLV_V m)
  let pass := s.flag LXM_STAT_RXPASS m
  let src := ((lxHalf s : Nat) - h.w).toNat
  s.setLxm m { h with s1e := if pass && fwd then src else (moveToward h.s1e t1 st).toNat
                      s2e := if pass && !fwd then src else (moveToward h.s2e t2 st).toNat }

/-- The deskew and trim of a link of module `m` (R242). -/
def lxSkew (s : State) (m l : Nat) : Int :=
  let top := max (s.fld PH_RTT_RTT (lxA m)) (s.fld PH_RTT_RTT (lxB m))
  divRound ((top : Int) - s.fld PH_RTT_RTT l) 2 + s.sfld PH_DLYTRIM_TRIM l

/-- The bridge on link `l` of module `m` switches: not the passive receiver (R247), and not one that was at rest when a stop or a drain
began (R248, R256). -/
def lxBridgeOn (s : State) (m l : Nat) : Bool :=
  let st := lxState s m
  (st == lxStart || st == lxRun || ((st == lxReversing || st == lxStopping || st == lxDraining) && (s.lxm m).boundary.isSome))
    && !(s.flag LXM_STAT_RXPASS m && (lxForward s m (s.fld LXM_VHV_V m) (s.fld LXM_VLV_V m) != decide (l < 68)))

/-- The edges of the next boundary are fixed (R240, R243). -/
def lxFixEdges (s : State) (m : Nat) : State :=
  let h := s.lxm m
  let g : Int := (512 * (max (s.link (lxA m)).window (s.link (lxB m)).window + 1) : Nat)
  let b0 := match h.boundary with | some b => b | none => g
  let b := b0 + h.off
  let lv := !h.odd
  let s := s.setLxm m { h with boundary := some (b0 + lxHalf s), odd := !h.odd, halves := h.halves + 1
                               off := if h.offLeft = 0 then h.offGoal else h.off + divRound (h.offGoal - h.off) (h.offLeft : Nat)
                               offLeft := h.offLeft - 1 }
  let put := fun (s : State) (l : Nat) (t t' : Int) =>
    let k := s.link l
    let d := lxSkew s m l
    s.setLink l { k with edges := k.edges ++ [⟨t + d, 0, lv⟩, ⟨t' + d, 1, !lv⟩] }
  let s := if lxBridgeOn s m (lxA m) then put s (lxA m) b (b + h.s1e) else s
  if lxBridgeOn s m (lxB m) then put s (lxB m) (b + h.phi) (b + h.phi + h.s2e) else s

/-- The live registers of the shifts. -/
def lxShow (s : State) (m : Nat) : State :=
  let h := s.lxm m
  let s := (s.setSfld LXM_PHILIVE_PHI h.phi m).setFld LXM_WLIVE_W (if s.flag LXM_STAT_RXPASS m then h.w.toNat else 0) m
  if s.flag LXM_STAT_RXPASS m then s
  else s.setFld LXM_STAT_DIR (if h.phi = 0 then 0 else if 0 < h.phi then 1 else 2) m

/-- Φ and W are at rest. -/
def lxAtZero (h : LxH) : Bool := h.phi == 0 && h.phiHalf == 0 && h.w == 0

/-- What the link of a stopping bridge keeps: its edges and its drive up to tick `b`, the next boundary (R248). -/
def lxDriveTo (s t : State) (l : Nat) (b : Int) : State :=
  t.setLink l { t.link l with edges := (s.link l).edges.filter (fun e => decide (e.tick < b)), driveTo := some b }

/-- The module goes OFF with Φ and W at 0, and DRV = 0b00 on both links from the next boundary (R248). -/
def lxRest (s : State) (m : Nat) : State :=
  let t := lxStop s m lxOff
  match (s.lxm m).boundary with
  | none => t
  | some b0 =>
    let b := b0 + (s.lxm m).off
    let t := if lxBridgeOn s m (lxA m) then lxDriveTo s t (lxA m) b else t
    if lxBridgeOn s m (lxB m) then lxDriveTo s t (lxB m) b else t

/-- REVERSING and STOPPING: Φ and W slew to 0 by PHISTEP per boundary, and at zero the pending configuration takes effect and the
module starts, or it goes OFF with its held restart (R248–R250). -/
def lxWindDown (s : State) (m : Nat) : State :=
  let h := s.lxm m
  let step := lxStep s m
  let s := s.setLxm m { h with w := moveToward h.w 0 step, phi := moveToward (h.phi + h.phiHalf) 0 step, phiHalf := 0 }
  let s := lxShow (if h.boundary.isNone then s else lxFixEdges (lxMoveInner s m) m) m
  let h := s.lxm m
  if !lxAtZero h then s
  else
    let s := match h.config with | some w => lxConfig s m w | none => s
    if lxState s m = lxReversing then lxEnterStart s m
    else
      let s := lxRest s m
      if h.restart then (lxEnable s m).1 else s

/-- vhv lies within PCBAND of VTGT (R253). -/
def inPcBand (s : State) (m : Nat) : Bool :=
  decide (((s.fld LXM_VHV_V m : Int) - s.fld LXM_VTGT_VTGT m).natAbs ≤ s.fld LX_PCCFG_PCBAND * 100000)

/-- What the means of an update say of the sides and of a precharge (R247, R253). -/
def lxNote (s : State) (m : Nat) : State :=
  let s := lxNoteSides s m (s.fld LXM_VHV_V m) (s.fld LXM_VLV_V m)
  if s.fld LXM_STAT_PCST m = 1 ∧ inPcBand s m then s.setLxm m { s.lxm m with banded := true } else s

/-- One update of module `m` (R243, R244, R247, R248, R254). A module in WAIT is an enabled one, and trips as such. -/
def lxUpdate (s : State) (m : Nat) : State :=
  let s := lxNote (lxTakeMeans s m) m
  let st := lxState s m
  if s.fld LXM_HVOV_V m < s.fld LXM_VHV_V m then lxTrip s m 1 0
  else if s.fld LXM_LVOV_V m < s.fld LXM_VLV_V m then lxTrip s m 2 0
  else if st = lxStart ∨ st = lxRun then
    let (sv, sth, _, _) := lxSides s m (s.fld LXM_VHV_V m) (s.fld LXM_VLV_V m)
    if sv < sth then (lxStop s m lxWait).event LXM_EVT_WAIT m
    else lxShow (lxFixEdges (lxMoveInner (lxControl s m) m) m) m
  else if st = lxWait then s
  else lxWindDown s m

/-- A command on a module acts while PD9 is powered. -/
def State.onLx (s : State) (t : State) : Out := s.on 9 t

/-- A write reaches module `m` while PD9 is powered and its crossing is open (R24, R26). -/
def State.lxOpen (s : State) (m : Nat) : Bool := s.powered 9 && !crossingShut s (36 + m)
def State.onLxWrite (s : State) (m : Nat) (t : State) : Out := .next (if s.lxOpen m then t else s)

/-- LX_UPDATE (R244). What it sends to the core waits in the crossing's FIFO while CK_CORE stands (R384). -/
def execLxUpdate (m : Fin 4) (s : State) : Out :=
  s.onLx (if lxEnabled (lxState s m) then (toCore (lxUpdate s m) (36 + m)).1 else s)

/-- LX_EN_WRITE (R249). -/
def execLxEnWrite (m : Fin 4) (en : Bool) (s : State) : Out := s.onLxWrite m (if en then (lxEnable s m).1 else lxDisable s m)

/-- LX_RECONFIGURE (R250): CMODE, FWDEN, REVEN and PCHG of a CTRL word; CMODE 3–7 is refused. -/
def execLxReconfigure (m : Fin 4) (w : Word) (s : State) : Out :=
  s.onLxWrite m (if 3 ≤ Word.bits w 6 4 then s else lxReconfigure s m w)

/-- VTGT_WRITE (R245). -/
def execVtgtWrite (m : Fin 4) (v : Word) (s : State) : Out := s.onLxWrite m (writeVtgt s m v)

/-- LX_RUN_REACHED (R248): 8 periods of START are complete, the boundary that ends them being fixed. -/
def execLxRunReached (m : Fin 4) (s : State) : Out :=
  s.onLx (if lxState s m = lxStart ∧ 17 ≤ (s.lxm m).halves then (setLxState s m lxRun).event LXM_EVT_RUN m else s)

/-- WAIT_RECOVERY (R248): the source has stood at or above its threshold plus 2 % for 1 ms. -/
def execWaitRecovery (m : Fin 4) (s : State) : Out :=
  let (vhv, vlv) := lxRawV s m
  let (sv, sth, _, _) := lxSides s m vhv vlv
  s.onLx (if lxState s m = lxWait ∧ sth * 102 ≤ sv * 100 then lxEnterStart s m else s)

/-- PCDONE (R253). -/
def execPcdone (m : Fin 4) (s : State) : Out :=
  s.onLx (if s.fld LXM_STAT_PCST m = 1 ∧ (lxState s m = lxStart ∨ lxState s m = lxRun) ∧ inPcBand s m then
    (s.setFld LXM_STAT_PCST 3 m).event LXM_EVT_PCDONE m else s)

/-- PRECHARGE_TIMEOUT (R253): vhv has not come within the band since the START that began the precharge. -/
def execPrechargeTimeout (m : Fin 4) (s : State) : Out :=
  s.onLx (if s.fld LXM_STAT_PCST m = 1 ∧ lxEnabled (lxState s m) ∧ !inPcBand s m ∧ !(s.lxm m).banded then
    ((lxTrip s m 5 0).setFld LXM_STAT_PCST 4 m).event LXM_EVT_PCFAIL m else s)

/-- UNFENCE (R256): FENCED to OFF. -/
def lxUnfence (s : State) (m : Nat) : State :=
  if lxState s m = lxFenced then
    lxStop { s with flt := { s.flt with lxF := cellErase s.flt.lxF m } } m lxOff
  else s

/-- LX_UNFENCE (R256): refused with a key other than 0x1F3C. -/
def execLxUnfence (m : Fin 4) (key : Fin 65536) (s : State) : Out :=
  s.onLxWrite m (if key.val = 0x1F3C then lxUnfence s m else s)

/-- LX_CLRCNT (R258). -/
def execLxClrcnt (m : Fin 4) (s : State) : Out := s.onLxWrite m (s.setFld LXM_TRIP_COUNT 0 m)

/-! ## Writes of the module registers (R258) -/

/-- Every module is OFF, TRIPPED or FENCED. -/
def lxQuiet (s : State) (m : Nat) : Bool :=
  lxState s m == lxOff || lxState s m == lxTripped || lxState s m == lxFenced

/-- A write of LXm_CMD. -/
def writeLxCmd (s : State) (m : Nat) (w : Word) : State × Status :=
  let s := if Word.bit w 1 then s.setFld LXM_TRIP_COUNT 0 m else s
  if Word.bit w 0 then (if Word.bits w 31 16 = 0x1F3C then (lxUnfence s m, .ok) else (s, .keyerr)) else (s, .ok)

/-- A write of a register of module `m` at its offset. -/
def lxWrite (s : State) (m off : Nat) (w : Word) : State × Status :=
  match off with
  | 0x00 => writeLxCtrl s m w
  | 0x02 => (writeVtgt s m w, .ok)
  | 0x03 => if w.toInt < 0 then (s, .outofrange) else (s.setReg LXM_ITGT w m, .ok)
  | 0x04 => (s.plainWrite LXM_ILIMF w m, .ok)
  | 0x05 => (s.plainWrite LXM_ILIMR w m, .ok)
  | 0x06 => (s.plainWrite LXM_VSLEW w m, .ok)
  | 0x07 => (s.plainWrite LXM_XFMR w m, .ok)
  | 0x08 => (s.plainWrite LXM_S1 w m, .ok)
  | 0x09 => (s.plainWrite LXM_S2 w m, .ok)
  | 0x0A => (s.plainWrite LXM_PHI w m, .ok)
  | 0x0B =>
    let s := s.plainWrite LXM_DT w m
    (sendCmd (sendCmd s (lxA m) cmdSetdt (s.fld LXM_DT_DTA m)) (lxB m) cmdSetdt (s.fld LXM_DT_DTB m), .ok)
  | 0x0C => (s.plainWrite LXM_KV w m, .ok)
  | 0x0D => (s.plainWrite LXM_KI w m, .ok)
  | 0x0E => (s.plainWrite LXM_HVOV w m, .ok)
  | 0x0F => (s.plainWrite LXM_HVUV w m, .ok)
  | 0x10 => (s.plainWrite LXM_LVOV w m, .ok)
  | 0x11 => (s.plainWrite LXM_LVUV w m, .ok)
  | 0x13 => (s.plainWrite LXM_EVT w m, .ok)
  | 0x14 => (s.plainWrite LXM_EVTEN w m, .ok)
  | 0x15 => writeLxCmd s m w
  | _ => (s, .ok)

/-- A write of a global LX register (R249, R252, R258). -/
def lxGlobalWrite (s : State) (off : Nat) (w : Word) : State × Status :=
  match off with
  | 0 =>
    let t := Word.bits w 17 1 * 2
    if !(List.range 4).all (lxQuiet s) then (s, .lxon)
    else if t < 20480 ∨ 204800 < t then (s, .outofrange)
    else (s.setFld LX_PERIOD_PERIOD (Word.bits w 17 0), .ok)
  | 1 =>
    let par := Word.bits w 19 16
    let was := s.fld LX_GROUP_PAR
    let busy := (List.range 4).any (fun m => (par.testBit m || was.testBit m) && lxState s m != lxOff)
    if par ≠ was ∧ busy then (s, .lxon) else (lxRerank (s.plainWrite LX_GROUP w), .ok)
  | 2 => (s.plainWrite LX_PCCFG w, .ok)
  | 3 => (s.plainWrite LX_PCTIME w, .ok)
  | _ => (s, .ok)

/-- The write of a register of any link: the refusals that a phase or a module gives CLRFLT and RETRAIN (R126, R257). -/
def anyLinkWrite (s : State) (l off : Nat) (w : Word) : State × Status :=
  if l < 64 then linkWrite s l off w (phaseBusy s l) .railon
  else linkWrite s l off w (!lxQuiet s ((l - 64) % 4)) .lxon

/-- CLRFLT (R108). -/
def execClrflt (l : Fin 72) (s : State) : Out := s.onLink l (s.ifWritable (anyLinkWrite s l 6 2).1)

/-- RETRAIN (R116). -/
def execRetrain (l : Fin 72) (s : State) : Out := s.onLink l (s.ifWritable (anyLinkWrite s l 6 1).1)

/-! ## Frames of every link -/

/-- The loss of a link as its unit sees it: a module trips with cause LINK (R254, R255). -/
def anyLinkLost (s : State) (l : Nat) : State :=
  let s := linkLost s l
  if 64 ≤ l then lxTrip s ((l - 64) % 4) 3 (l - 64) else s

/-- What a bridge link does when it comes UP: FENCE is sent again to a fenced module's bridge (R108, R256). -/
def bridgeUp (s : State) (l : Nat) : State :=
  if 64 ≤ l ∧ cellGet false s.flt.lxF ((l - 64) % 4) then sendCmd s l cmdFence 0 else s

/-- The data of a good frame of a bridge (R239, R254). -/
def bridgeData (s : State) (l : Nat) (u : UpFields) : State :=
  let h := s.link l
  let sc := verScale h.ver
  let ish : Nat := 2 ^ s.fld PH_FXCAP_ISH l
  let i := divTrunc (u.icur * 64 * sc) ish
  let vdc := u.aux * (if l < 68 then 100000 else 4000) * sc
  let s := s.setSfld PH_TELI_ICUR i l
  let isV := u.seq % 2 == 0
  let isI := u.seq % 4 == 1
  let s := if isV then s.setFld PH_TELV_VIN vdc l
    else if isI then s.setFld PH_TELPV_IPV (u.aux * 64 * sc / ish) l
    else thmFresh (s.setSfld PH_TELT_TEMP (upTemp h.ver u.aux) l) l
  let h := s.link l
  let s := s.setLink l { h with means := (h.window, i, if isV then some (vdc : Int) else none) :: keptFrames s h }
  if u.icurOut || (isI && u.auxOnes) then lxTrip s ((l - 64) % 4) 4 (l - 64) else s

/-- DRV of the downstream frame last sent on a link (R104). -/
def frameDrv (h : LinkH) : Nat := if h.ver = 1 then fbits h.frame 35 34 else fbits h.frame 37 36

/-- The loss sample that a frame of a link gives its node (R312): good or bad, from the last good values. -/
def thmFrame (s : State) (l : Nat) : State :=
  let p := s.fld THM_NCFG_PROF l
  let i := (s.sfld PH_TELI_ICUR l).natAbs
  let v := s.fld PH_TELV_VIN l
  if s.fld THM_NCFG_C l = 0 then s
  else if l < 64 then
    let per := match railOfPhase s l with
      | some n => (s.rail n).period
      | none => 0
    thmLoss s l (if frameDrv (s.link l) = 1 then lossOf s p i v per else 0)
  else thmLoss s l (if lxSwitching (lxState s ((l - 64) % 4)) then lossOf s p i v (s.fld LX_PERIOD_PERIOD) else 0)

/-- An upstream frame arrives on link `l` (R114, R118). -/
def upstream (s : State) (l : Nat) (f : BitVec 64) (codeOk : Bool) (ref : Nat) : State :=
  let st := lstate s l
  let u := upFields (s.link l).ver f
  if st = lsSetup ∧ inTraining s l then
    let t := setupFrame s l u codeOk ref
    if lstate t l = lsUp then bridgeUp t l else t
  else if st = lsUp ∧ (s.link l).draining = 0 then
    let t := thmFrame (upFrame s l u codeOk ref (fun s => if l < 64 then phaseData s l u else bridgeData s l u)) l
    if 64 ≤ l ∧ lstate t l = lsLost then lxTrip t ((l - 64) % 4) 3 (l - 64) else t
  else s

/-- UPSTREAM_FRAME (R114): the frame, whether its symbols were free of code and disparity errors, and the reference
downstream SEQ at its arrival. -/
def execUpstreamFrame (l : Fin 72) (frame : BitVec 64) (codeOk : Bool) (ref : Fin 16) (s : State) : Out :=
  s.onLink l (upstream s l frame codeOk ref)

/-- The edge of a leg for a window, and whether it is used: the last that the window or the time before it holds. -/
def legEdge (es : List BridgeEdge) (leg w len : Nat) : FrameEdge :=
  (es.filter (fun e => e.leg == leg && decide (e.tick < (w : Int) + len))).getLast?.map
    (fun e => (e.level, (e.tick - (w : Int)).toNat))

/-- The frame of a bridge link at grid boundary `b` (R237, R240). -/
def bridgeFrame (s : State) (l b : Nat) : State :=
  let h := s.link l
  let m := (l - 64) % 4
  if lstate s l = lsUp ∧ h.draining = 0 then
    let len := frameTicks h.ver
    let w := 512 * b
    let (h, c, a) := takeCmd h
    if lxBridgeOn s m l || (match h.driveTo with | some t => decide ((w : Int) < t) | none => false) then
      sendFrame s l { h with edges := h.edges.filter (fun e => !decide (e.tick < (w : Int) + len)) } b
        (legEdge h.edges 0 w len) (legEdge h.edges 1 w len) 1 c a
    else sendFrame s l { h with edges := [], driveTo := none } b none none 0 c a
  else phaseFrame s l b

/-- DOWNSTREAM_FRAME (R106, R237): the frame that link `l` assembles for the window at grid boundary `b`, where one is due (R102). -/
def execDownstreamFrame (l : Fin 72) (b : Nat) (s : State) : Out :=
  if !frameDue (s.link l) b then .next s
  else s.onLink l (if l.val < 64 then phaseFrame s l b else bridgeFrame s l b)

/-- COMMAND_RESEND (R108): the oldest command without an echo goes out again, at most three times; then the link is lost, or in SETUP
the training attempt ends (assumption log entry 140). -/
def commandResend (s : State) (l : Nat) : State :=
  let h := s.link l
  match h.sent with
  | [] => s
  | c :: t =>
    if c.resends < 3 then
      s.setLink l { h with sent := t, cmds := { c with resends := c.resends + 1 } :: h.cmds }
    else
      let s := s.event PH_EVT_CMDFAIL l
      if lstate s l = lsUp then anyLinkLost s l else failAttempt s l

/-- COMMAND_RESEND (R108). -/
def execCommandResend (l : Fin 72) (s : State) : Out := s.onLink l (commandResend s l)

end Sys2Proof.Machine
end

