-- ==== Sys2Proof/Machine/Sup.lean ====
section
/-! DEFINITION. Supervision, telemetry and the housekeeping ADC (12_supervision_telemetry.md): the rail comparators, the
general supervisors, the reset outputs' release, the committed and the raw view, and the converters' scans. -/
namespace Sys2Proof.Machine

/-! ## Rail comparators (R282–R286) -/

/-- The supervisory converter of R282: the voltage at the output in µV that a sense voltage in µV reads as. -/
def supVolt (s : State) (n : Nat) (v : Int) : Int := clampInt (Int.fdiv (v + 250) 500) 0 4095 * 500 * (railRatio s n : Nat)

/-- The thresholds of R283 in µV, never below zero. -/
structure SupThr where
  ov : Int
  pgHi : Int
  pgLo : Int
  ewHi : Int
  ewLo : Int
  uv : Int
  deriving DecidableEq, Repr

/-- The thresholds of rail `n` from its values at its last loop update (R283); before the first one gen and VSET as they stand
(assumption log entry 147). -/
def supThresholds (s : State) (n : Nat) : SupThr :=
  let gen : Int := ((s.rail n).genAt.getD (s.rail n).gen / 1024 : Nat)
  let vset : Int := ((s.rail n).vsetAt.getD (s.fld RL_VSET_VSET n) : Nat)
  let vref : Int := s.fld RL_VREF_VREF n
  let pb := s.sfld RL_PBLIVE_PBLIVE n
  let hi := max gen vset + max pb 0
  let lo := min gen vset - max (-pb) 0
  let u := fun (f : Fld) => (s.fld f n : Int) * 100
  { ov := max 0 (hi + u SUP_UVOV_OVOFF), pgHi := max 0 (hi + u SUP_PG_PGHI), pgLo := max 0 (lo - u SUP_PG_PGLO),
    ewHi := max 0 (hi + u SUP_EW_EWHI), ewLo := max 0 (lo - u SUP_EW_EWLO),
    uv := max 0 (min vref vset - u SUP_UVOV_UVOFF - max (-pb) 0) }

/-- The state that comparator `q` of rail `n` takes at an output of `v` µV (R284). -/
def compWant (s : State) (n q : Nat) (v : Int) : Bool :=
  let t := supThresholds s n
  let h : Int := (s.fld SUP_CFG_HYST n : Int) * 100
  let was := s.fbit SUP_STAT_RAILS n q
  match q with
  | 0 => if was then decide (v < t.uv + h) else decide (v < t.uv)
  | 1 => if was then decide (t.ov - h < v) else decide (t.ov < v)
  | 2 =>
    if was then decide (t.pgLo ≤ v) && decide (v ≤ t.pgHi)
    else decide (t.pgLo + h ≤ v) && decide (v ≤ t.pgHi - h)
  | _ =>
    if was then !(decide (t.ewLo + h ≤ v) && decide (v ≤ t.ewHi - h))
    else !(decide (t.ewLo ≤ v) && decide (v ≤ t.ewHi))

/-- Comparator `q` of rail `n` is armed and enabled (R284, R300). -/
def compArmed (s : State) (n q : Nat) : Bool :=
  s.railPresent n && s.powered 6 && s.powered (railDomain n) &&
    (match q with
     | 0 => railState s n == rsRegulate && s.flag SUP_CFG_UVEN n
     | 1 => s.flag SUP_CFG_OVEN n
     | 2 => railState s n == rsRegulate && s.flag SUP_CFG_PGEN n
     | _ => railState s n == rsRegulate && s.flag SUP_CFG_EWEN n)

/-- The action field of comparator `q` (R285). -/
def compAct (s : State) (n q : Nat) : Nat :=
  match q with
  | 0 => s.fld SUP_CFG_UVACT n
  | 1 => s.fld SUP_CFG_OVACT n
  | 2 => 0
  | _ => s.fld SUP_CFG_EWACT n

/-- The turn-off of R285: DISR with STOPMODE taken as 0, counted in event counter 6. -/
def supTurnOff (s : State) (n : Nat) : State :=
  let st := railState s n
  let s := supCount s n 6
  if st = rsOff ∨ st = rsFenced ∨ st = rsDraining then s else railSafeOff s n 4 4

/-- Comparator `q` of rail `n` changes state (R284–R286). -/
def compChange (s : State) (n q : Nat) (b : Bool) : State :=
  let s := compSet s n q b
  if q = 2 then s
  else if b then
    let s := supCount (s.setFbit SUP_EVT_RAILS n true q) n q
    let act := compAct s n q
    let s := if act = 0 then s else s.setLevel (compSource n q) n 0 0 true
    if 2 ≤ act then supTurnOff s n else s
  else s.setLevel (compSource n q) n 0 0 false

/-- COMPARATOR_TRANSITION (R284): DGL consecutive samples of the sense voltage `v`, in µV, agree with a new state of comparator
`q` (0 UV, 1 OV, 2 PG, 3 EW). -/
def execComparatorTransition (n : Fin 32) (q : Fin 4) (v : Int) (s : State) : Out :=
  let b := compWant s n q (supVolt s n v)
  .next (if compArmed s n q && b != s.fbit SUP_STAT_RAILS n q then compChange s n q b else s)

/-! ## General supervisors (R287) -/

/-- The state that general supervisor `k` takes for a value in µV. -/
def gsWant (s : State) (k v : Nat) : Bool :=
  let lo := s.fld GS_LO_V k
  let hi := s.fld GS_HI_V k
  let h := s.fld GS_CFG_HYST k * 1000
  let was := s.fbit SUP_GSSTAT_GS k
  match s.fld GS_CFG_MODE k with
  | 0 => if was then !decide (v + h ≤ hi) else decide (hi < v)
  | 1 => if was then !decide (lo + h ≤ v) else decide (v < lo)
  | 2 =>
    if was then
      (if s.sup.gsHi.testBit k then !(decide (v + h ≤ hi) && decide (lo ≤ v)) else !(decide (lo + h ≤ v) && decide (v ≤ hi)))
    else decide (v < lo) || decide (hi < v)
  | _ => if was then !(decide (v + h < lo) || decide (hi + h < v)) else decide (lo ≤ v) && decide (v ≤ hi)

/-- A conversion of a supervisor's channel: the run of conversions that agree with the other state grows or ends. -/
def gsConversion (s : State) (k v : Nat) : State :=
  let hi := if s.fld GS_HI_V k < v then s.sup.gsHi ||| (1 <<< k)
    else if v < s.fld GS_LO_V k ∧ s.sup.gsHi.testBit k then s.sup.gsHi - (1 <<< k) else s.sup.gsHi
  let s := { s with sup := { s.sup with gsHi := hi } }
  let run := if gsWant s k v != s.fbit SUP_GSSTAT_GS k then cellGet 0 s.sup.gsRun k + 1 else 0
  { s with sup := { s.sup with gsRun := cellSet 0 s.sup.gsRun k run } }

/-- A supervisor's state set, with its fault (R287). -/
def gsSet (s : State) (k : Nat) (b : Bool) (v : Nat) : State :=
  let s := { s.setFbit SUP_GSSTAT_GS k b with sup := { s.sup with gsRun := cellErase s.sup.gsRun k } }
  let s := if b then s.setFbit SUP_GSEVT_GS k true else s
  rstoUpdate (s.setLevel 327 k 0 (wordOf v) (b && s.flag GS_CFG_FAULT k))

/-- GS_TRANSITION (R287): DGL consecutive conversions agree with the other state. -/
def execGsTransition (k : Fin 16) (s : State) : Out :=
  s.on 6 (if s.flag GS_CFG_EN k ∧ max 1 (s.fld GS_CFG_DGL k) ≤ cellGet 0 s.sup.gsRun k then
    gsSet s k (!s.fbit SUP_GSSTAT_GS k) (s.fld HADC_RES_V (s.fld GS_CFG_CH k)) else s)

/-- The channel of TEL kind 0x06 is in its converter's scan mask. -/
def inScanMask (s : State) (ch : Nat) : Bool := s.fbit HADC_MASK_CH (ch % 32) (ch / 32)

/-- A write of GSk_CFG (R287, R300). -/
def writeGsCfg (s : State) (k : Nat) (w : Word) : State × Status :=
  let ch := Word.bits w 11 6
  if ch ≠ s.fld GS_CFG_CH k ∧ s.flag GS_CFG_EN k then (s, .inuse)
  else if Word.bit w 0 ∧ !inScanMask s ch then (s, .nocfg)
  else
    let t := s.plainWrite GS_CFG w k
    if !Word.bit w 0 then (gsSet t k false 0, .ok) else (rstoUpdate t, .ok)

/-- A write of GSk_LO or GSk_HI. -/
def writeGsBound (s : State) (k : Nat) (r : Reg) (w : Word) : State × Status :=
  let t := s.setReg r w k
  if t.fld GS_HI_V k < t.fld GS_LO_V k then (s, .outofbound) else (t, .ok)

/-! ## Reset outputs and counters -/

/-- The stretch of output `j` has run without a break for STRETCH × 0.1 ms; 0 acts as 1 (R288). -/
def stretchOver (s : State) (j : Nat) : Bool :=
  s.flag RSTO_STAT_STRETCHING j && decide (100 * max 1 (s.fld RSTO_CFG_STRETCH j) ≤ s.tbase - cellGet 0 s.sup.rstT j)

/-- RESET_OUTPUT_RELEASE (R288). -/
def execResetOutputRelease (j : Fin 8) (s : State) : Out := .next (if stretchOver s j then rstoSet s j true else s)

/-- What a read of RSTOj_STAT shows (R300): the stretch that remains, in 0.1 ms. -/
def rstoView (s : State) (j : Nat) : Word :=
  if s.flag RSTO_STAT_STRETCHING j then
    Word.setBits (s.reg RSTO_STAT j) 29 16 (max 1 (s.fld RSTO_CFG_STRETCH j) - (s.tbase - cellGet 0 s.sup.rstT j) / 100)
  else s.reg RSTO_STAT j

/-- A counter of R291 and its SAT bit clear. -/
def cntClear (s : State) (i : Nat) : State :=
  { s with sup := { s.sup with cnt := cellErase s.sup.cnt i, sat := cellErase s.sup.sat i } }

/-- CNT_CLR (R291): the counter that SUP_CNTSEL.IDX selects. -/
def execCntClr (s : State) : Out := s.on 11 (cntClear s (s.fld SUP_CNTSEL_IDX))

/-- What reads of SUP_CNTSEL and SUP_CNTDATA show; the counters of absent rails are absent (R291). -/
def cntselView (s : State) : Word :=
  Word.setBit (s.reg SUP_CNTSEL) 31 (cellGet false s.sup.sat (s.fld SUP_CNTSEL_IDX))
def cntdataView (s : State) : Word × Status :=
  let i := s.fld SUP_CNTSEL_IDX
  if s.railPresent (i / 8) then (wordOf (cellGet 0 s.sup.cnt i), .ok) else (0, .noaddr)

/-! ## Telemetry (R292–R295, R208) -/

/-- How many indices a kind has (R208); zero for an undefined kind. -/
def telCount (kind : Nat) : Nat :=
  match kind with
  | 0 | 1 | 2 => 32
  | 3 | 4 | 5 | 6 | 7 => 64
  | 8 => 14
  | 9 => 9
  | 10 | 11 => 4
  | 12 | 13 | 14 => 1
  | 15 => 8
  | _ => 0

/-- A selection is defined (R208), and its instance present (R3). -/
def telCheck (s : State) (kind i : Nat) (raw : Bool) : Status :=
  if telCount kind ≤ i ∨ (raw ∧ (6 ≤ kind ∨ kind = 2)) then .illegal
  else if kind ≤ 2 ∧ !s.railPresent i then .noaddr
  else if (kind = 3 ∨ kind = 4 ∨ kind = 5 ∨ kind = 7) ∧ !s.phPresent i then .noaddr
  else .ok

/-- The domain of a channel. -/
def telDomain (kind i : Nat) : Nat :=
  match kind with
  | 0 | 1 | 2 => railDomain i
  | 3 | 4 | 5 => linkDomain i
  | 6 => 6
  | 7 | 8 | 9 => 11
  | 10 | 11 => 9
  | 12 | 13 | 14 => 8
  | _ => 4

/-- The raw value of a channel and its subjunctive flag at its source (R292). -/
def telSource (s : State) (kind i : Nat) : Int × Bool :=
  let owner := match railOfPhase s i with | some n => (s.rail n).subjAt | none => false
  match kind with
  | 0 => (railRawV s i, (s.rail i).subjAt)
  | 1 => (s.sfld RL_IRAIL_IRAIL i, (s.rail i).subjAt)
  | 3 => (s.sfld PH_TELI_ICUR i, owner)
  | 4 => (s.fld PH_TELV_VIN i, owner)
  | _ => (s.sfld PH_TELT_TEMP i, owner)

/-- The raw value of a channel and its subjunctive flag (R292): through a shut crossing of the rail, those last received (R383). -/
def telRaw (s : State) (kind i : Nat) : Int × Bool :=
  let rail := if kind < 2 then some i else railOfPhase s i
  match rail.bind (fun n => xHeld s (4 + n)) with
  | some h => cellGet (telSource s kind i) h.raw (64 * kind + i)
  | none => telSource s kind i

/-- What a telemetry read gives. -/
structure TelRead where
  value : Int := 0
  status : Status := .ok
  subj : Bool := false
  pdoff : Bool := false
  held : Bool := false
  deriving DecidableEq, Repr

/-- A telemetry read (R292–R295): raw, the committed value or the committed peak. Committed values and peaks read zero while
PD11 is unpowered. -/
def telRead (s : State) (kind i : Nat) (raw peak : Bool) : TelRead :=
  let st := telCheck s kind i raw
  if st ≠ .ok then { status := st }
  else if !s.powered (telDomain kind i) then { pdoff := true }
  else if raw then
    let (v, b) := telRaw s kind i
    { value := v, subj := b }
  else if !s.powered 11 then { held := true }
  else if peak then
    match (s.tel kind i).peak with
    | some v => { value := v }
    | none => { held := true }
  else { value := (s.tel kind i).value, held := (s.tel kind i).held }

/-- A channel's peak is cleared (R294). -/
def telClearPeak (s : State) (kind i : Nat) : State := s.setTel kind i { s.tel kind i with peak := none }

/-- A read of SUP_TELDATA by master `m` under its own SUP_TELSEL (R295). -/
def teldataRead (s : State) (m : Nat) : State × Word × Status :=
  let k := s.fld SUP_TELSEL_KIND m
  let i := s.fld SUP_TELSEL_IDX m
  let raw := s.flag SUP_TELSEL_RAW m
  let pk := s.flag SUP_TELSEL_PEAK m
  let r := telRead s k i raw pk
  let t := (s.setFlag SUP_TELSEL_PDOFF r.pdoff m).setFlag SUP_TELSEL_HELD r.held m
  let t := if raw then t.setFlag SUP_TELSEL_SUBJ r.subj m else t
  let t := if pk && !raw && s.flag SUP_TELSEL_CLRPK m && r.status == .ok && !r.pdoff then telClearPeak t k i else t
  (t, wordOfInt r.value, r.status)

/-- TELDATA_READ (R295) by a host port that is not frozen (R336). -/
def execTeldataRead (p : Fin 3) (s : State) : Out :=
  s.on 11 (if s.flag SYS_HSTAT_FROZEN p then s else (teldataRead s (masterHost p)).1)

/-- The kinds of a class of SUP_TELCFG (R293): 0 rails, 1 phases, 2 the housekeeping ADC, 3 the others. -/
def telClass (kind : Nat) : Nat := if kind ≤ 2 then 0 else if kind ≤ 5 then 1 else if kind = 6 then 2 else 3

/-- The exponent that SUP_TELCFG gives a class; above 16 acts as 16 (R300). -/
def telExp (s : State) (c : Nat) : Nat :=
  min 16 (s.fld (match c with | 0 => SUP_TELCFG_NRAIL | 1 => SUP_TELCFG_NPH | 2 => SUP_TELCFG_NHADC | _ => SUP_TELCFG_NOTH))

/-- The window of class `c` ends now: TBASE is a multiple of 2^N of the N in force, and the window has not ended in this
microsecond (R293). -/
def telWindowDue (s : State) (c : Nat) : Bool :=
  s.tbase % 2 ^ cellGet 10 s.sup.telN c == 0 && cellGet 0 s.sup.telAt c != s.tbase

/-- A window of class `c` ends: its channels close on their samples, and a new N takes effect. A channel with no record is one that
has had no sample, and holds. -/
def telWindowEnd (s : State) (c : Nat) : State :=
  { s with sup := { s.sup with telN := cellSet 10 s.sup.telN c (telExp s c), telAt := cellSet 0 s.sup.telAt c s.tbase
                               tel := s.sup.tel.foldl (fun t x =>
    if telClass (x.1 / 64) = c then cellSet {} t x.1 (x.2.endWindow (x.1 / 64)) else t) s.sup.tel } }

/-- TELEMETRY_WINDOW_END (R293): the window of a class of channels ends. -/
def execTelemetryWindowEnd (c : Fin 4) (s : State) : Out := s.on 11 (if telWindowDue s c then telWindowEnd s c else s)

/-- The end of a microsecond for every channel's peak (R294). -/
def telEndUs (s : State) : State :=
  { s with sup := { s.sup with tel := s.sup.tel.foldl (fun t x => cellSet {} t x.1 (x.2.endUs (x.1 / 64))) s.sup.tel } }

/-! ## Housekeeping ADC (R296–R299) -/

def State.hadc (s : State) (c : Nat) : HadcH := cellGet {} s.sup.hadc c
def State.setHadc (s : State) (c : Nat) (h : HadcH) : State :=
  { s with sup := { s.sup with hadc := cellSet {} s.sup.hadc c h } }

/-- The full scale of a channel at its measured node in µV (R296): 2.5 V at the converter, times the channel's divider. -/
def hadcFull (ch : Nat) : Nat :=
  2500000 * (match ch with
    | 24 => 16 | 25 => 4 | 27 => 2 | 30 => 16 | 31 => 16
    | 56 => 16 | 57 => 16 | 59 => 16 | 60 => 8 | 63 => 4
    | _ => 1)

/-- The channels of a scan, ascending (R297). -/
def scanChannels (mask : Nat) : List Nat := (List.range 32).filter (fun j => mask.testBit j)

/-- A trigger of converter `c` (R297): missed during a delay or a scan. -/
def hadcTrigger (s : State) (c : Nat) : State :=
  if s.flag HADC_STAT_BUSY c then (s.event HADC_EVT_TRIGMISS c).countTo HADC_MISS_COUNT 0xFFFFFFFF c
  else (s.setFlag HADC_STAT_BUSY true c).setHadc c { s.hadc c with trig := true }

/-- SCAN_TRIGGER (R297): the trigger of TRIG 2, 3 or 4 falls due; under TRIG 2 at the multiples of PER in TBASE. -/
def execScanTrigger (c : Fin 2) (s : State) : Out :=
  let tsel := s.fld HADC_CTRL_TSEL c
  let live := match s.fld HADC_CTRL_TRIG c with
    | 2 => s.tbase % max 1 (s.fld HADC_PER_PER c) == 0
    | 3 => s.railPresent tsel && railState s tsel != rsOff
    | 4 => lxState s (tsel % 4) != lxOff
    | _ => false
  s.on 6 (if s.flag HADC_CTRL_EN c && live then hadcTrigger s c else s)

/-- HADC_GO (R297): a trigger under TRIG 1. -/
def hadcGo (s : State) (c : Nat) : State :=
  if s.flag HADC_CTRL_EN c ∧ s.fld HADC_CTRL_TRIG c = 1 then hadcTrigger s c else s
def execHadcGo (c : Fin 2) (s : State) : Out := s.on 6 (s.ifWritable (hadcGo s c))

/-- HADC_CLRCNT (R301). -/
def hadcClrcnt (s : State) (c : Nat) : State := s.setFld HADC_MISS_COUNT 0 c
def execHadcClrcnt (c : Fin 2) (s : State) : Out := s.on 6 (s.ifWritable (hadcClrcnt s c))

/-- The reference channel's reading is judged, once a scan (R298). -/
def hadcReference (s : State) (c v : Nat) : State :=
  let h := s.hadc c
  if 1188000 ≤ v ∧ v ≤ 1212000 then (s.setHadc c { h with refBad := 0 }).setLevel 328 c 0 0 false
  else
    let s := s.setHadc c { h with refBad := h.refBad + 1 }
    if h.refBad + 1 = 2 then (s.event HADC_EVT_REFFAIL c).setLevel 328 c 0 (wordOf v) true else s

/-- The 16-bit code of a channel at `uv` µV at the measured node (R296, R473): 65,536 steps of 38.15 µV at the converter, rounded down
(assumption log entry 164). -/
def hadcCode (i : Nat) (uv : Int) : Nat := (clampInt (Int.fdiv (uv * 65536) (hadcFull i)) 0 65535).toNat

/-- The voltage of a code at the measured node, in whole µV (R296). -/
def hadcVolt (i code : Nat) : Nat := code * hadcFull i / 65536

/-- A result of converter `c`, channel `j`, `uv` µV at the measured node (R296, R298, R287): over-range at the top code, and below
ground. -/
def hadcResult (s : State) (c j : Nat) (uv : Int) : State :=
  let i := 32 * c + j
  let out := decide (uv < 0) || decide (hadcCode i uv = 65535)
  let v := hadcVolt i (hadcCode i uv)
  let s := ((s.setFld HADC_RES_V v i).setFlag HADC_RES_NEW true i).setFlag HADC_RES_OR out i
  let s := if out then (s.setFbit HADC_ORMASK_CH j true c).event HADC_EVT_OVR c else s
  let s := telSample s 6 i v false
  let s := (List.range 16).foldl (fun s k =>
    if s.flag GS_CFG_EN k ∧ s.fld GS_CFG_CH k = i then gsConversion s k v else s) s
  if j = 29 then hadcReference s c v else s

/-- A result lost at the crossing (R26, R298, R384). -/
def hadcLost (s : State) (c : Nat) : State :=
  ((s.setOverrun (144 + c) true).setFlag HADC_STAT_OVERRUN true c).event HADC_EVT_OVERRUN c

/-- The next scan begins: under TRIG 0 at once after the last one, otherwise after its trigger, with the mask of that moment (R297). -/
def hadcBegin (s : State) (c : Nat) : State :=
  let h := s.hadc c
  if h.scan = [] ∧ (h.trig ∨ s.fld HADC_CTRL_TRIG c = 0) then
    let l := scanChannels (s.fld HADC_MASK_CH c)
    if l = [] then
      (if h.trig then (s.setHadc c { h with trig := false }).setFlag HADC_STAT_BUSY false c else s)
    else (s.setHadc c { h with trig := false, scan := l }).setFlag HADC_STAT_BUSY true c
  else s

/-- HADC_CONVERSION (R297, R298): converter `c` completes the next conversion of its scan, `uv` µV at the measured node; `lost` when
the crossing could not take the result. -/
def hadcConversion (s : State) (c : Nat) (uv : Int) (lost : Bool) : State :=
  let s := hadcBegin s c
  let h := s.hadc c
  match h.scan with
  | [] => s
  | j :: l =>
    let s := s.setHadc c { h with scan := l }
    let s := if crossingShut s (144 + c) then s else if lost then hadcLost s c else hadcResult s c j uv
    if l = [] then hadcBegin ((s.event HADC_EVT_SCANDONE c).setFlag HADC_STAT_BUSY false c) c else s

def execHadcConversion (c : Fin 2) (uv : Int) (lost : Bool) (s : State) : Out :=
  s.on 6 (if s.flag HADC_CTRL_EN c then hadcConversion s c uv lost else s)

/-- HADC_RESULT_READ (R301): NEW clears. -/
def execHadcResultRead (i : Fin 64) (s : State) : Out := s.on 6 (s.setFlag HADC_RES_NEW false i)

/-- A converter drains (R299): its scan and its pending trigger are discarded. -/
def hadcDrain (s : State) (c : Nat) : State :=
  ((s.setHadc c { s.hadc c with trig := false, scan := [] }).setFlag HADC_STAT_BUSY false c).event HADC_EVT_ABORTED c

/-- The enable of a converter written (R299, R301). -/
def hadcEnable (s : State) (c : Nat) (en : Bool) : State :=
  if en then s.setFlag HADC_CTRL_EN true c
  else if s.flag HADC_CTRL_EN c then hadcDrain (s.setFlag HADC_CTRL_EN false c) c else s

/-- HADC_EN_WRITE (R299). -/
def execHadcEnWrite (c : Fin 2) (en : Bool) (s : State) : Out := s.on 6 (s.ifWritable (hadcEnable s c en))

/-! ## Writes -/

/-- A write of a rail's comparator configuration: a disabled comparator reads deasserted (R300). -/
def writeSupCfg (s : State) (n : Nat) (w : Word) : State :=
  let s := s.plainWrite SUP_CFG w n
  let off := fun (s : State) (q : Nat) => if compArmed s n q || !s.fbit SUP_STAT_RAILS n q then s else compChange s n q false
  off (off (off (off s 0) 1) 2) 3

/-- A write of an SUP word at offset `off` of 0x0E00 by master `m` (R300). -/
def supWrite (s : State) (off m : Nat) (w : Word) : State × Status :=
  if off < 0x80 then
    let n := off / 4
    match off % 4 with
    | 0 => (s.plainWrite SUP_UVOV w n, .ok)
    | 1 => (s.plainWrite SUP_PG w n, .ok)
    | 2 => (s.plainWrite SUP_EW w n, .ok)
    | _ => (writeSupCfg s n w, .ok)
  else if off < 0x84 then (s, .ok)
  else if off < 0x88 then (s.plainWrite SUP_EVT w (off - 0x84), .ok)
  else if off < 0x8C then (s.plainWrite SUP_EVTEN w (off - 0x88), .ok)
  else if 0x90 ≤ off ∧ off < 0xC0 then
    let k := (off - 0x90) / 3
    match (off - 0x90) % 3 with
    | 0 => writeGsCfg s k w
    | 1 => writeGsBound s k GS_LO w
    | _ => writeGsBound s k GS_HI w
  else if off = 0xC1 then (s.plainWrite SUP_GSEVT w, .ok)
  else if off = 0xC2 then (s.plainWrite SUP_GSEVTEN w, .ok)
  else if 0xD0 ≤ off ∧ off < 0xF0 then
    let j := (off - 0xD0) / 4
    match (off - 0xD0) % 4 with
    | 0 => (rstoUpdate (s.plainWrite RSTO_RMASK w j), .ok)
    | 1 => (rstoUpdate (s.plainWrite RSTO_SMASK w j), .ok)
    | 2 => (rstoUpdate (s.plainWrite RSTO_CFG w j), .ok)
    | _ => (s, .ok)
  else if off = 0xF0 then
    let t := s.plainWrite SUP_CNTSEL w
    (if Word.bit w 30 then cntClear t (Word.bits w 7 0) else t, .ok)
  else if off = 0xF2 then (s.plainWrite SUP_CNTEVT w, .ok)
  else if off = 0xF3 then (s.plainWrite SUP_CNTEVTEN w, .ok)
  else if off = 0xF4 then (s.plainWrite SUP_TELCFG w, .ok)
  else if off = 0xF5 then (s.plainWrite SUP_TELSEL w m, .ok)
  else (s, .ok)

/-- A write of HADCc_MASK (R287, R297): a channel that an enabled supervisor uses stays. -/
def writeHadcMask (s : State) (c : Nat) (w : Word) : State × Status :=
  let used := (List.range 16).any (fun k =>
    s.flag GS_CFG_EN k && s.fld GS_CFG_CH k / 32 == c && !Word.bit w (s.fld GS_CFG_CH k % 32))
  if used then (s, .inuse)
  else
    let s := s.setFld HADC_MASK_CH w.toNat c
    if Word.bit w 29 then (s, .ok) else ((s.setHadc c { s.hadc c with refBad := 0 }).setLevel 328 c 0 0 false, .ok)

/-- A write of a register of converter `c` (R297, R299, R301). -/
def hadcWrite (s : State) (c off : Nat) (w : Word) : State × Status :=
  match off with
  | 0 =>
    if 5 ≤ Word.bits w 6 4 then (s, .illegal)
    else
      let s := ((s.setFld HADC_CTRL_DELAY (Word.bits w 25 16) c).setFld HADC_CTRL_TSEL (Word.bits w 12 8) c).setFld
        HADC_CTRL_TRIG (Word.bits w 6 4) c
      (hadcEnable s c (Word.bit w 0), .ok)
  | 1 => writeHadcMask s c w
  | 2 => (s.plainWrite HADC_PER w c, .ok)
  | 3 => (s.plainWrite HADC_STAT w c, .ok)
  | 5 =>
    let s := if Word.bit w 1 then hadcClrcnt s c else s
    (if Word.bit w 0 then hadcGo s c else s, .ok)
  | 6 => (s.plainWrite HADC_EVT w c, .ok)
  | 7 => (s.plainWrite HADC_EVTEN w c, .ok)
  | 8 => (s.plainWrite HADC_ORMASK w c, .ok)
  | _ => (s, .ok)

end Sys2Proof.Machine
end

