-- ==== Sys2Proof/Machine/Hkr.lean ====
section
/-! DEFINITION. The housekeeping regulators (12_supervision_telemetry.md, R302–R307): AUX0–AUX3 and the windows of PRE, CORE and
IO33. -/
namespace Sys2Proof.Machine

/-- The AUX states of R302. -/
def axOff : Nat := 0
def axSoftstart : Nat := 1
def axRegulate : Nat := 2
def axInloss : Nat := 3
def axFenced : Nat := 4
def axCharger : Nat := 5

def auxState (s : State) (n : Nat) : Nat := s.fld AUX_STAT_STATE n

/-- The regulator runs or waits for its input: AUXnCTRL.EN reads 1 (R307). -/
def auxRuns (st : Nat) : Bool := st == axSoftstart || st == axRegulate || st == axInloss

/-- Power-good of AUX `n` (R304), in HKR_AUXnSTAT and HKR_STAT; it is a source of the reset outputs. -/
def auxPg (s : State) (n : Nat) (b : Bool) : State :=
  rstoUpdate ((s.setFlag AUX_STAT_PG b n).setFbit HKR_STAT_AUXPG n b)

/-- The condition of kind `k` of HKR_AUX becomes `b` for AUX `n` (R304, R350, R462): the source's condition is that of any kind, and the
kind is in its detail. -/
def auxKind (s : State) (n k : Nat) (b : Bool) : State :=
  let m := cellGet 0 s.flt.auxK n
  let m := if b then m ||| (1 <<< k) else if m.testBit k then m - (1 <<< k) else m
  State.setLevel { s with flt := { s.flt with auxK := cellSet 0 s.flt.auxK n m } } (320 + n) n k 0 (m != 0)

/-- No kind of HKR_AUX holds for AUX `n`: it neither regulates nor waits for its input (assumption log entry 163). -/
def auxKindsEnd (s : State) (n : Nat) : State :=
  State.setLevel { s with flt := { s.flt with auxK := cellErase s.flt.auxK n } } (320 + n) n 0 0 false

/-- A state of AUX `n`: EN reads 1 in the states of R307, and outside REGULATE power-good is false and no kind of HKR_AUX holds. -/
def setAuxState (s : State) (n st : Nat) : State :=
  let s := (s.setFld AUX_STAT_STATE st n).setFlag AUX_CTRL_EN (auxRuns st) n
  if st = axRegulate then s else auxPg (auxKindsEnd s n) n false

/-- The regulator stops, with the cause of its stop (R302, R307). -/
def auxStop (s : State) (n st why : Nat) : State := setAuxState (s.setFld AUX_STAT_LASTOFF why n) n st

/-- A running regulator is turned off with a cause: failed start, end of SHUTDOWN, entry to DORMANT or SHIP, a thermal
shutdown (R302). -/
def auxTurnOff (s : State) (n why : Nat) : State := if auxRuns (auxState s n) then auxStop s n axOff why else s

/-- A fence of AUX `n` (R305): held until UNFENCE or a chip reset. -/
def auxFence (s : State) (n : Nat) : State :=
  let s := { s with flt := { s.flt with auxF := cellSet false s.flt.auxF n true } }
  if auxState s n = axFenced then s else auxStop s n axFenced 3

/-- The current limit in force and whether the grant bounds it (R304), consumer 6 + n; in charger duty consumer 9's grant is not applied
(R268). -/
def auxIlim (s : State) (n : Nat) : Nat × Bool :=
  let ilim := s.fld AUX_CFG_ILIM n
  if auxState s n = axCharger then (ilim, false)
  else if s.fld BUD_HWREQ_LEVEL (6 + n) ≠ 0 ∧ s.powered 4 then
    (min ilim ((s.hwClaim (6 + n)).grant * 25000 / s.fld AUX_CFG_VOUT n), true)
  else (ilim, false)

/-- What a read of HKR_AUXnSTAT shows. -/
def auxStatView (s : State) (n : Nat) : Word :=
  let (i, b) := auxIlim s n
  Word.setBit (Word.setBits (s.reg AUX_STAT n) 31 16 i) 8 b

/-- VOUT or ILIM outside the ranges of R303. -/
def auxCfgBad (vout ilim : Nat) : Bool :=
  decide (vout < 80) || decide (3600 < vout) || decide (ilim = 0) || decide (1500 < ilim)

/-- EN written 1 to AUX `n` (R303), HOT after every other refusal (R321); `plinth` when the plinth sequencer enables it. -/
def auxEnable (s : State) (n : Nat) (plinth : Bool) : State × Status :=
  let st := auxState s n
  if !(if s.cur = modePlinth then plinth else railEnableMode s.cur) then (s, .modedeny)
  else if auxCfgBad (s.fld AUX_CFG_VOUT n) (s.fld AUX_CFG_ILIM n) then (s, .nocfg)
  else if st = axCharger then (s, .auxchg)
  else if st = axFenced then (s, .illegal)
  else if nodeShutdown s (72 + n) then (s, .hot)
  else if st = axOff then (setAuxState s n axSoftstart, .ok)
  else (s, .ok)

/-- EN written 0 to AUX `n` (R302). -/
def auxDisable (s : State) (n : Nat) : State := auxTurnOff s n 1

/-- A write of HKR_AUXnCFG (R303). -/
def writeAuxCfg (s : State) (n : Nat) (w : Word) : State × Status :=
  if auxCfgBad (Word.bits w 15 0) (Word.bits w 26 16) then (s, .outofrange) else (s.plainWrite AUX_CFG w n, .ok)

/-- UNFENCE of AUX `n` (R305). -/
def auxUnfence (s : State) (n : Nat) : State :=
  if auxState s n = axFenced then
    setAuxState { s with flt := { s.flt with auxF := cellErase s.flt.auxF n } } n axOff
  else s

/-- A write of an HKR word at offset `off` of 0x3F00. -/
def hkrWrite (s : State) (off : Nat) (w : Word) : State × Status :=
  if off < 0x10 then (s, .ok)
  else
    let n := (off - 0x10) / 4
    match (off - 0x10) % 4 with
    | 0 => if Word.bit w 0 then auxEnable s n false else (auxDisable s n, .ok)
    | 1 => writeAuxCfg s n w
    | 2 => (s, .ok)
    | _ => if !Word.bit w 0 then (s, .ok) else if Word.bits w 31 16 = 0x4A7E then (auxUnfence s n, .ok) else (s, .keyerr)

/-! ## Commands -/

/-- AUX_EN_WRITE (R303). -/
def execAuxEnWrite (n : Fin 4) (en : Bool) (s : State) : Out :=
  .next (s.ifWritable (if en then (auxEnable s n false).1 else auxDisable s n))

/-- AUX_CFG_WRITE (R303). -/
def execAuxCfgWrite (n : Fin 4) (w : Word) (s : State) : Out := .next (s.ifWritable (writeAuxCfg s n w).1)

/-- AUX_SOFTSTART_COMPLETE (R302): the output reaches VOUT. -/
def execAuxSoftstartComplete (n : Fin 4) (s : State) : Out :=
  .next (if auxState s n = axSoftstart then setAuxState s n axRegulate else s)

/-- AUX_INLOSS (R302, R304, R462): AUXnIN has stood at `a.level` mV for 10 µs, below 4.2 V. -/
def execAuxInloss (a : AuxSample) (s : State) : Out :=
  .next (if (auxState s a.unit = axSoftstart ∨ auxState s a.unit = axRegulate) ∧ a.level < 4200 then
    auxKind (setAuxState s a.unit axInloss) a.unit 2 true else s)

/-- AUX_INLOSS_RECOVERY (R302): AUXnIN has stood at `a.level` mV for 1 ms, at or above 4.5 V. -/
def execAuxInlossRecovery (a : AuxSample) (s : State) : Out :=
  .next (if auxState s a.unit = axInloss ∧ 4500 ≤ a.level then setAuxState s a.unit axSoftstart else s)

/-- AUX_OVERCURRENT (R304, R462): the output has stood at `a.level` mA for 1 ms; at its limit the kind holds, below it no longer. -/
def execAuxOvercurrent (a : AuxSample) (s : State) : Out :=
  .next (if auxState s a.unit = axSoftstart ∨ auxState s a.unit = axRegulate then
    auxKind s a.unit 1 (decide ((auxIlim s a.unit).1 ≤ a.level)) else s)

/-- AUX_OUTPUT_UV (R304, R462): in REGULATE, the output has stood at `a.level` mV for 100 µs; below 90 % of VOUT the kind holds, at or
above it no longer. -/
def execAuxOutputUv (a : AuxSample) (s : State) : Out :=
  .next (if auxState s a.unit = axRegulate then
    auxKind s a.unit 3 (decide (a.level < 9 * s.fld AUX_CFG_VOUT a.unit)) else s)

/-- An output of `mv` mV lies within ±6 % of VOUT, which counts 10 mV (R462). -/
def auxInPg (s : State) (n mv : Nat) : Bool :=
  decide (940 * s.fld AUX_CFG_VOUT n ≤ 100 * mv) && decide (100 * mv ≤ 1060 * s.fld AUX_CFG_VOUT n)

/-- AUX_POWER_GOOD (R304, R462): in REGULATE, the output has stood at `a.level` mV for 50 µs, within ±6 % of VOUT. -/
def execAuxPowerGood (a : AuxSample) (s : State) : Out :=
  .next (if auxState s a.unit = axRegulate ∧ auxInPg s a.unit a.level then auxPg s a.unit true else s)

/-- AUX_POWER_GOOD_LOSS (R304, R462): the output is at `a.level` mV, outside ±6 % of VOUT. -/
def execAuxPowerGoodLoss (a : AuxSample) (s : State) : Out :=
  .next (if auxInPg s a.unit a.level then s else auxPg s a.unit false)

/-- AUX_UNFENCE (R305): with another key it has no effect. -/
def execAuxUnfence (n : Fin 4) (key : Fin 65536) (s : State) : Out :=
  .next (s.ifWritable (if key.val = 0x4A7E then auxUnfence s n else s))

/-- The field of HKR_STAT for a supply: 0 PRE, 1 CORE, 2 IO33. -/
def hkrOk (k : Nat) : Fld := match k with | 0 => HKR_STAT_PREOK | 1 => HKR_STAT_COREOK | _ => HKR_STAT_IO33OK

/-- What a supply is regulated to, in mV (R461, R462): 5.00 V at PRE, or PREIN − 0.3 V below a PREIN of 6.0 V; 0.800 V at CORE; 3.30 V at
IO33. -/
def hkrNominal (k prein : Nat) : Nat :=
  match k with
  | 0 => if prein < 6000 then prein - 300 else 5000
  | 1 => 800
  | _ => 3300

/-- A supply lies within 8 % of nominal (R462). -/
def hkrInside (k : Nat) (v : SupplySample) : Bool :=
  let nom := hkrNominal k v.prein
  decide (92 * nom ≤ 100 * v.out) && decide (100 * v.out ≤ 108 * nom)

/-- HKR_SUPPLY_WINDOW (R306, R462): a supply has stood for 20 µs inside or outside its window. The fault's kind has no code in the spec: a
free value (assumption log entry 2). -/
def execHkrSupplyWindow (k : Fin 3) (v : SupplySample) (s : State) : Out :=
  if hkrInside k v then .next ((s.setFlag (hkrOk k) true).setLevel (364 + k) 0 0 0 false)
  else
    let (q, s) := s.free
    .next ((s.setFlag (hkrOk k) false).setLevel (364 + k) 0 (q.toNat % 65536) 0 true)

end Sys2Proof.Machine
end

