-- ==== Sys2Proof/Machine/Chg.lean ====
section
/-! DEFINITION. Charging, the battery disconnect, ship mode's latch and assist sessions (11_charge_path.md). Path 0 is BATM,
path 1 BATH, path 2 the assist session. -/
namespace Sys2Proof.Machine

/-! ## States and reasons -/

/-- The BATM states of R262. -/
def bOff : Nat := 0
def bDetect : Nat := 1
def bMatch : Nat := 2
def bPrecond : Nat := 3
def bCc : Nat := 4
def bCv : Nat := 5
def bDone : Nat := 6
def bFloat : Nat := 7
def bSuspended : Nat := 8
def bStopped : Nat := 9
def bAbsent : Nat := 10

/-- The BATH states of R269. -/
def hOff : Nat := 0
def hDetect : Nat := 1
def hPrecond : Nat := 2
def hFast : Nat := 3
def hDone : Nat := 4
def hSuspended : Nat := 5
def hStopped : Nat := 6
def hAbsent : Nat := 7

/-- The session states of R278. FALLBACK passes at once to ENDED (R280). -/
def aIdle : Nat := 0
def aReady : Nat := 1
def aIsolate : Nat := 2
def aMatch : Nat := 3
def aCharge : Nat := 4
def aReturn : Nat := 5
def aEnded : Nat := 6
def aFallback : Nat := 7

def bState (s : State) : Nat := s.fld CHG_STAT_BSTATE
def hState (s : State) : Nat := s.fld CHG_STAT_HSTATE
def aState (s : State) : Nat := s.fld CHG_ASSTAT_ASTATE
def setB (s : State) (st : Nat) : State := s.setFld CHG_STAT_BSTATE st
def setH (s : State) (st : Nat) : State := s.setFld CHG_STAT_HSTATE st
def setA (s : State) (st : Nat) : State := s.setFld CHG_ASSTAT_ASTATE st
def bReason (s : State) (r : Nat) : State := s.setFld CHG_STAT_BREASON r
def hReason (s : State) (r : Nat) : State := s.setFld CHG_STAT_HREASON r
def aReason (s : State) (r : Nat) : State := s.setFld CHG_ASSTAT_ASREASON r

/-- A session is in progress (R278). -/
def aActive (s : State) : Bool := decide (aIsolate ≤ aState s) && decide (aState s ≤ aReturn)

/-- BATM, BATH and assist in a mode (R36). -/
def batmMode (m : Nat) : Bool := m == 5 || m == 6 || m == 8 || m == 9
def bathMode (m : Nat) : Bool := decide (4 ≤ m) && decide (m ≤ 9)

/-- The disconnect commanded (R260). -/
def setBdis (s : State) (b : Bool) : State := { s.setFlag CHG_STAT_BDIS b with pins := { s.pins with bdis := b } }

/-- ASSIST_EN driven. -/
def setAssistEn (s : State) (b : Bool) : State := { s with pins := { s.pins with assistEn := b } }

/-! ## The modules that CHG uses (R259, R263) -/

def chgModules (s : State) : List Nat := (List.range 4).filter (fun m => s.flag LXM_CTRL_CHGEN m)

/-- A module with CHGEN = 1 is in RUN. -/
def chgSource (s : State) : Bool := (chgModules s).any (fun m => lxState s m == lxRun)

/-- The leader of the modules with CHGEN = 1: the lowest in START or RUN, otherwise the lowest (R252). -/
def chgLeader (s : State) : Option Nat :=
  match (chgModules s).find? (fun m => lxState s m == lxStart || lxState s m == lxRun) with
  | some m => some m
  | none => (chgModules s).head?

/-- The override goes to the leader, and leaves any other module (R246, R263). -/
def chgOverride (s : State) (v i : Int) : State :=
  match chgLeader s with
  | none => s
  | some l => (List.range 4).foldl (fun s m => if !s.lxOpen m then s else if m = l then lxChgSet s m v i else
      match (s.lxm m).chgV with
      | some _ => (s.setLxm m { s.lxm m with chgV := none, chgI := none }).setFlag LXM_STAT_CHGOVR false m
      | none => s) s

/-- The override is withdrawn (R246, R271). -/
def chgWithdraw (s : State) : State := (List.range 4).foldl (fun s m => if s.lxOpen m then lxChgDrop s m else s) s

/-! ## The profile -/

/-- NCELL of the chemistry (R261). -/
def ncell (s : State) : Nat := match s.fld CHG_CTRL_CHEM with | 0 => 12 | 1 => 8 | _ => 16

/-- IFRAC of a window, at most 16; none for an NTC fault (R266). -/
def bIfrac (s : State) (w : Nat) : Nat := if 5 ≤ w then 0 else min 16 (Word.bits (s.reg CHG_BIFRAC) (5 * w + 4) (5 * w))
def hIfrac (s : State) (w : Nat) : Nat := if 5 ≤ w then 0 else min 16 (Word.bits (s.reg CHG_HIFRAC) (5 * w + 4) (5 * w))
/-- VDROP of a window in mV per cell. -/
def bVdrop (s : State) (w : Nat) : Nat := if 5 ≤ w then 0 else Word.bits (s.reg CHG_BVDROP) (6 * w + 5) (6 * w)

/-- The fast current of a path in mA (R263, R268, R279). -/
def fastCurrent (s : State) (path : Nat) : Int :=
  match path with
  | 0 => s.sfld CHG_ICHG_ICHG
  | 1 => (min 1500 (s.fld CHG_HICHG_IFAST) : Nat)
  | _ => s.sfld CHG_ASI_ASI

/-- The taper current of BATM or of a session in mA (R265, R279). -/
def taperCurrent (s : State) (path : Nat) : Int :=
  let t := if path = 0 then s.fld CHG_ITHR_ITERM else s.fld CHG_ASTHR_ITERM
  if t = 0 then divTrunc (fastCurrent s path) 20 else (t : Int) * 10

/-- The precondition currents (R263, R268). -/
def preCurrent (s : State) (path : Nat) : Int :=
  if path = 0 then (if s.fld CHG_ITHR_IPRE = 0 then divTrunc (fastCurrent s 0) 10 else (s.fld CHG_ITHR_IPRE : Int) * 10)
  else if s.fld CHG_HICHG_HPRE = 0 then divTrunc (fastCurrent s 1) 10 else s.fld CHG_HICHG_HPRE

def vbatOf (s : State) : Int := s.fld CHG_VBAT_V
def vhbOf (s : State) : Int := s.fld CHG_VHB_V
def vasOf (s : State) : Int := s.fld CHG_VAS_V

/-- vcv of R264 in µV for BATM. -/
def vcvB (s : State) : Int :=
  let w := s.fld CHG_STAT_BWIN
  let v : Int := if bState s = bFloat then s.fld CHG_VCELL_VFLOAT else s.fld CHG_VCELL_VCV
  let t := s.sfld CHG_TEMPS_TBAT
  (ncell s : Int) * (v * 100 - (bVdrop s w : Int) * 1000 + divTrunc (s.sfld CHG_TCOMP_VCOMP * (t - 2500)) 100)

/-- The mean of a list of differences, clamped to 0–1 V (R264). -/
def dropMean (l : List Int) : Int :=
  if l = [] then 0 else clampInt (divTrunc (l.foldl (· + ·) 0) (l.length : Nat)) 0 1000000

/-- A power ceiling of `grant` units of 250 mW as a current in mA at `v` µV; no bound at or below 0 V. -/
def grantCurrent (grant : Nat) (v : Int) : Option Int :=
  if v ≤ 0 then none else some (divTrunc ((grant : Int) * 250 * 1000000) v)

def minOpt (a : Int) : Option Int → Int
  | some b => min a b
  | none => a

/-- ilxav of R263: what the modules in RUN can carry. -/
def ilxAvail (s : State) (vlv : Int) : Int :=
  (chgModules s).foldl (fun a m =>
    if lxState s m = lxRun then a + minOpt (s.sfld LXM_ILIMF_ILIMF m) (grantCurrent (s.hwClaim m).grant vlv) else a) 0

/-! ## Suspension -/

/-- The rank of a reason code among the causes of one computation, highest first (R273); 9 for one that R273 does not rank. -/
def causeRank (r : Nat) : Nat :=
  match r with
  | 7 => 1 | 8 => 2 | 6 => 3 | 4 => 4 | 5 => 4 | 1 => 5 | 2 => 6 | 3 => 7 | 9 => 8 | 10 => 8 | 11 => 8 | _ => 9

/-- A cause of reason `r` yields to the one that has acted in the same computation (R273; assumption log entry 146). -/
def outranked (c : Option (Nat × Nat)) (r : Nat) : Bool :=
  match c with
  | some (k, _) => decide (k ≤ causeRank r)
  | none => false

/-- The state that a cause of reason `r` finds: that before a lower-ranked cause of the same computation. -/
def stateFor (c : Option (Nat × Nat)) (r now : Nat) : Nat :=
  match c with
  | some (k, old) => if causeRank r < k then old else now
  | none => now

/-- The cause that has acted, after one of reason `r`. -/
def takeCause (c : Option (Nat × Nat)) (r now : Nat) : Option (Nat × Nat) :=
  if causeRank r < 9 then some (causeRank r, stateFor c r now) else c

/-- The highest cause that suspends BATM now, if any (R262, R273): its reason code. -/
def bCause (s : State) : Option Nat :=
  if s.fld CHG_STAT_BWIN = 7 then some 6
  else if bIfrac s (s.fld CHG_STAT_BWIN) = 0 then some 9
  else if !batmMode s.cur then some 10
  else if s.chg.noSrcB && !chgSource s then some 11
  else none

/-- AUX3 is in charger duty and not shut down thermally (R302). -/
def hDuty (s : State) : Bool := auxState s 3 == axCharger && !nodeShutdown s 75

/-- BATH's source: AUX3 in charger duty, its input high enough (R268, R302). -/
def hSource (s : State) : Bool := hDuty s && !s.chg.short

def hCause (s : State) : Option Nat :=
  if s.fld CHG_STAT_HWIN = 7 then some 6
  else if hIfrac s (s.fld CHG_STAT_HWIN) = 0 then some 9
  else if !bathMode s.cur then some 10
  else if !hDuty s || (s.chg.noSrcH && s.chg.short) then some 11
  else none

/-- A path that charges is suspended (R262): PRECOND–FLOAT, PRECOND–DONE. A higher cause replaces the reason of one already
suspended (R273). -/
def bSuspend (s : State) (r : Nat) : State :=
  let st := stateFor s.chg.causeB r (bState s)
  if outranked s.chg.causeB r then s
  else if bPrecond ≤ st ∧ st ≤ bFloat then
    bReason (setB { s with chg := { s.chg with bOld := st, lowB := 0, causeB := takeCause s.chg.causeB r (bState s) } } bSuspended) r
  else if st = bSuspended ∧ causeRank r < causeRank (s.fld CHG_STAT_BREASON) then bReason s r
  else s
def hSuspend (s : State) (r : Nat) : State :=
  let st := stateFor s.chg.causeH r (hState s)
  if outranked s.chg.causeH r then s
  else if hPrecond ≤ st ∧ st ≤ hDone then
    hReason (setH { s with chg := { s.chg with hOld := st, lowH := 0, ilimH := 0
                                               causeH := takeCause s.chg.causeH r (hState s) } } hSuspended) r
  else if st = hSuspended ∧ causeRank r < causeRank (s.fld CHG_STAT_HREASON) then hReason s r
  else s

/-- The cause that stands now suspends a path that charges (R262, R269). -/
def bSuspendDue (s : State) : State := match bCause s with | some r => bSuspend s r | none => s
def hSuspendDue (s : State) : State := match hCause s with | some r => hSuspend s r | none => s

/-- A suspended path whose causes have all ended resumes (R262). -/
def bResume (s : State) : State :=
  if bState s = bSuspended ∧ bCause s = none ∧ !aActive s then setB s s.chg.bOld else s
def hResume (s : State) : State := if hState s = hSuspended ∧ hCause s = none then setH s s.chg.hOld else s

/-- A change of mode suspends the paths it does not permit (R274); a return resumes at the next computation. -/
def chgModeChange (s : State) : State :=
  let s := if batmMode s.cur then s else bSuspend s 10
  if bathMode s.cur then s else hSuspend s 10

/-! ## Cycles, stops and removal -/

/-- A charge cycle begins (R267): the timer restarts. FAST restarts its peak and history (R270). -/
def bEnter (s : State) (st : Nat) : State := setB (s.setFld CHG_BTMR_COUNT 0) st
def hEnterFast (s : State) : State :=
  setH { s with chg := { s.chg with hPeak := 0, hBelow := 0, hTemps := [], hRise := 0, hSecs := 0 } } hFast

/-- BATM enters DETECT, or STOPPED while a stop is recorded (R267). -/
def bDetectOrStop (s : State) : State := setB s (if s.chg.bStop then bStopped else bDetect)
def hDetectOrStop (s : State) : State := setH s (if s.chg.hStop then hStopped else hDetect)

/-- A path stops under R267 or R269. -/
def bStopNow (s : State) (r : Nat) : State :=
  (chgWithdraw (bReason (setB { s with chg := { s.chg with bStop := true, bLow := false
                                                           causeB := takeCause s.chg.causeB r (bState s) } } bStopped) r)).event
    CHG_EVT_BSTOP
def hStopNow (s : State) (r : Nat) : State :=
  (hReason (setH { s with chg := { s.chg with hStop := true, hLow := false, ilimH := 0
                                              causeH := takeCause s.chg.causeH r (hState s) } } hStopped) r).event CHG_EVT_HSTOP

/-- The recorded stop is cleared when both parts have occurred (R267). -/
def bRestart (s : State) : State :=
  if s.chg.bStop ∧ s.chg.bLow ∧ s.flag CHG_STAT_BCLRPEND then
    let s := ({ s with chg := { s.chg with bStop := false, bLow := false } }).setFlag CHG_STAT_BCLRPEND false
    if bState s = bStopped then setB s bDetect else s
  else s
def hRestart (s : State) : State :=
  if s.chg.hStop ∧ s.chg.hLow ∧ s.flag CHG_STAT_HCLRPEND then
    let s := ({ s with chg := { s.chg with hStop := false, hLow := false } }).setFlag CHG_STAT_HCLRPEND false
    if hState s = hStopped then setH s hDetect else s
  else s

/-- The session goes to RETURN with ASSIST_EN low (R278). -/
def aToReturn (s : State) (r : Nat) : State :=
  let s := { s with chg := { s.chg with causeA := takeCause s.chg.causeA r (aState s) } }
  aReason (setA (setAssistEn s false) aReturn) r

/-- Removal of a battery while it charges (R271). -/
def bRemoved (s : State) : State :=
  let s := { s with chg := { s.chg with opening := true, lowB := 0, causeB := takeCause s.chg.causeB 8 (bState s) } }
  (bReason (setB (chgWithdraw s) bAbsent) 8).event CHG_EVT_BABSENT
def hRemoved (s : State) : State :=
  let s := { s with chg := { s.chg with ilimH := 0, lowH := 0, causeH := takeCause s.chg.causeH 8 (hState s) } }
  (hReason (setH s hAbsent) 8).event CHG_EVT_HABSENT

/-- The current stays below 2 % of a limit that is at least 2 % of the fast current (R271): the count of computations. -/
def lowCount (k : Nat) (charging : Bool) (i ilim fast : Int) : Nat :=
  if charging ∧ i * 50 < ilim ∧ fast ≤ ilim * 50 ∧ 0 < ilim then k + 1 else 0

/-! ## The computation (R259, R263, R264, R268, R279) -/

/-- A reading of the charge front end (R474). Outside the range `lo` to `hi` of its input the spec states no reading: a free value
(assumption log entry 165). -/
def chgReading (s : State) (v lo hi : Int) : Int × State :=
  if lo ≤ v ∧ v ≤ hi then (v, s) else (s.free.1.toInt, s.free.2)

/-- The measurements of a computation in µV: BATV and ASSISTV within 0–65 V, the BSEN pair in nV within ±150 mV, HBAT within 0–45 V,
ihb in mA, and AUX3IN. With RSH = 0 the spec states no ibat: a free value (assumption log entry 2). -/
def chgMeasure (s : State) (vbat bsen vhb ihb vas vin3 : Int) : State :=
  let (vbat, s) := chgReading s vbat 0 65000000
  let (bsen, s) := chgReading s bsen (-150000000) 150000000
  let (vhb, s) := chgReading s vhb 0 45000000
  let (vas, s) := chgReading s vas 0 65000000
  let rsh := s.fld CHG_TCOMP_RSH
  let (q, s) := if rsh = 0 then s.free else (0, s)
  let ibat := if rsh = 0 then q.toInt else divTrunc bsen rsh
  let sel := s.fld CHG_ASCFG_ISEL
  let ias := divTrunc ((s.fld HADC_RES_V (if sel < 24 then sel else sel + 8) : Int) * s.fld CHG_ASCFG_IGAIN) 256000
  let s := ((s.setFld CHG_VBAT_V vbat.toNat).setFld CHG_VHB_V vhb.toNat).setFld CHG_VAS_V vas.toNat
  let s := ((s.setSfld CHG_IBAT_I ibat).setSfld CHG_IHB_I ihb).setSfld CHG_IAS_I ias
  let vlv : Int := match chgLeader s with | some m => s.fld LXM_VLV_V m | none => 0
  { s with chg := { s.chg with vlv := vlv, short := decide (vin3 < vhb + 3000000), dvB := ((vlv - vbat) :: s.chg.dvB).take 100,
                               dvA := ((vlv - vas) :: s.chg.dvA).take 100 } }

/-- ilim and the override of BATM (R263, R264). -/
def bCompute (s : State) (ilx : Int) : State :=
  let st := bState s
  let ibat := s.sfld CHG_IBAT_I
  let isys := ilx - ibat
  let prog := if st = bPrecond then preCurrent s 0 else fastCurrent s 0
  let lim := min (divTrunc (prog * (bIfrac s (s.fld CHG_STAT_BWIN) : Nat)) 16) (ilxAvail s s.chg.vlv - isys)
  let lim := max 0 (minOpt lim (grantCurrent (s.hwClaim 4).grant (vbatOf s)))
  let ilim := if st = bPrecond ∨ st = bCc ∨ st = bCv ∨ st = bFloat then lim else 0
  let s := (s.setSfld CHG_ISYS_I isys).setSfld CHG_ILIM_I ilim
  let s := { s with chg := { s.chg with lowB := lowCount s.chg.lowB (st == bPrecond || st == bCc) ibat ilim (fastCurrent s 0) } }
  if st = bMatch then chgOverride s (vbatOf s) isys
  else if st = bDetect ∨ (bPrecond ≤ st ∧ st ≤ bSuspended) then
    chgOverride s (vcvB s + dropMean s.chg.dvB) (isys + ilim)
  else s

/-- ilim_h of R268. -/
def hCompute (s : State) : State :=
  let st := hState s
  let prog := if st = hPrecond then preCurrent s 1 else fastCurrent s 1
  let lim := min 1500 (minOpt (divTrunc (prog * (hIfrac s (s.fld CHG_STAT_HWIN) : Nat)) 16)
    (grantCurrent (s.hwClaim 5).grant (vhbOf s)))
  let ilim := if st = hPrecond ∨ st = hFast then (max 0 lim).toNat else 0
  let low := lowCount s.chg.lowH (st == hPrecond || st == hFast) (s.sfld CHG_IHB_I) ilim (fastCurrent s 1)
  { s with chg := { s.chg with ilimH := ilim, lowH := low } }

/-- ilim and the override of a session (R278, R279). -/
def aCompute (s : State) (ilx : Int) : State :=
  let st := aState s
  let i := if st = aCharge then s.sfld CHG_IAS_I else s.sfld CHG_IBAT_I
  let isys := ilx - i
  let lim := min (fastCurrent s 2) (ilxAvail s s.chg.vlv - isys)
  let lim := max 0 (minOpt lim (grantCurrent (s.hwClaim 4).grant (vasOf s)))
  let ilim := if st = aCharge then lim else 0
  let s := (s.setSfld CHG_ISYS_I isys).setSfld CHG_ILIM_I ilim
  let s := { s with chg := { s.chg with lowA := lowCount s.chg.lowA (st == aCharge && !s.chg.aCv) (s.sfld CHG_IAS_I) ilim (fastCurrent s 2) } }
  let v := if st = aCharge then (s.fld CHG_ASV_ASV : Int) + dropMean s.chg.dvA else if st = aMatch then vasOf s else vbatOf s
  chgOverride s v (isys + ilim)

/-- The removals that the computation finds (R271); `rise` has a bit for a path whose voltage rises faster than 0.5 V/µs. -/
def chgRemovals (s : State) (rise : Nat) : State :=
  let b := stateFor s.chg.causeB 8 (bState s)
  let s := if (rise.testBit 0 && ((decide (bDetect ≤ b) && decide (b ≤ bFloat) && b != bMatch) || b == bStopped)) || decide (20 ≤ s.chg.lowB)
    then bRemoved s else s
  let h := stateFor s.chg.causeH 8 (hState s)
  let s := if (rise.testBit 1 && ((decide (hDetect ≤ h) && decide (h ≤ hDone)) || h == hStopped)) || decide (20 ≤ s.chg.lowH)
    then hRemoved s else s
  if (rise.testBit 2 && aState s == aCharge) || decide (20 ≤ s.chg.lowA) then
    aToReturn { s with chg := { s.chg with lowA := 0 } } 8 else s

/-- A computation begins (R262, R273): no cause has acted in it yet, and a source that is there ends its absence. -/
def chgBegin (s : State) : State :=
  { s with chg := { s.chg with causeB := none, causeH := none, causeA := none, noSrcB := s.chg.noSrcB && !chgSource s
                               noSrcH := s.chg.noSrcH && s.chg.short } }

/-- CHG_COMPUTATION (R259, R263): the means of the last ten samples. -/
def chgCompute (s : State) (vbat bsen vhb ihb vas vin3 : Int) (rise : Nat) : State :=
  let s := chgBegin (chgMeasure s vbat bsen vhb ihb vas vin3)
  let s := hResume (bResume s)
  let ilx := (chgModules s).foldl (fun a m => a + s.sfld LXM_ILV_I m) 0
  let s := if aActive s then aCompute s ilx else bCompute s ilx
  hSuspendDue (bSuspendDue (chgRemovals (hCompute s) rise))

def execChgComputation (vbat bsen vhb ihb vas vin3 : Int) (rise : Fin 8) (s : State) : Out :=
  s.on 8 (chgCompute s vbat bsen vhb ihb vas vin3 rise)

/-! ## Enables and the chemistry -/

/-- BEN written (R262, R263): the mode is judged first (R37; assumption log entry 144). -/
def writeBen (s : State) (en : Bool) : State × Status :=
  if !en then
    if bState s = bOff then (s.setFlag CHG_CTRL_BEN false, .ok)
    else
      let s := if aActive s then s else chgWithdraw s
      (setB (s.setFlag CHG_CTRL_BEN false) bOff, .ok)
  else if s.flag CHG_CTRL_BEN then (s, .ok)
  else
    let ms := chgModules s
    let mask := ms.foldl (fun a m => a ||| (1 <<< m)) 0
    if !batmMode s.cur then (s, .modedeny)
    else if s.sfld CHG_ICHG_ICHG = 0 ∨ s.fld CHG_TCOMP_RSH = 0 ∨ (2 ≤ ms.length ∧ mask ≠ s.fld LX_GROUP_PAR) then (s, .nocfg)
    else
      let s := s.setFlag CHG_CTRL_BEN true
      (if s.pins.bdis then bDetectOrStop s else setB s bMatch, .ok)

/-- HEN written (R268, R269): the mode is judged first, as for BEN. -/
def writeHen (s : State) (en : Bool) : State × Status :=
  if !en then
    (setH ({ s with chg := { s.chg with ilimH := 0 } }.setFlag CHG_CTRL_HEN false) hOff, .ok)
  else if s.flag CHG_CTRL_HEN then (s, .ok)
  else if !bathMode s.cur then (s, .modedeny)
  else if s.fld CHG_HICHG_IFAST = 0 ∨ !s.flag CHG_CTRL_AUXCHG then (s, .nocfg)
  else (hDetectOrStop (s.setFlag CHG_CTRL_HEN true), .ok)

/-- AUXCHG written (R268). -/
def writeAuxchg (s : State) (b : Bool) : State × Status :=
  if b = s.flag CHG_CTRL_AUXCHG then (s, .ok)
  else if s.flag CHG_CTRL_HEN then (s, .auxon)
  else if b then
    if auxState s 3 = axOff then (setAuxState (s.setFlag CHG_CTRL_AUXCHG true) 3 axCharger, .ok) else (s, .auxon)
  else
    let s := s.setFlag CHG_CTRL_AUXCHG false
    (if auxState s 3 = axCharger then setAuxState s 3 axOff else s, .ok)

/-- CHEM written (R261): the defaults are loaded. -/
def writeChem (s : State) (c : Nat) : State × Status :=
  if c = 3 then (s, .illegal)
  else if bState s ≠ bOff then (s, .baton)
  else
    let s := s.setFld CHG_CTRL_CHEM c
    let lead := decide (c = 0)
    let s := s.setReg CHG_VCELL (if lead then 0x5DC057E4#32 else 0x8AAC0000#32)
    let s := s.setReg CHG_VTHR (if lead then 0x53FC445C#32 else 0x82DC6D60#32)
    let s := s.setSfld CHG_TCOMP_VCOMP (if lead then -3000 else 0)
    let s := s.setReg CHG_BTWIN (if lead then 0x372D00EC#32 else 0x372D0A00#32)
    let s := s.setReg CHG_BIFRAC 0x00044080#32
    let s := s.setReg CHG_BVDROP (if lead then 0#32 else 0x00C80000#32)
    (s.setFld CHG_TIME_TMR (if lead then 720 else 600), .ok)

def execBenWrite (en : Bool) (s : State) : Out := s.on 8 (writeBen s en).1
def execHenWrite (en : Bool) (s : State) : Out := s.on 8 (writeHen s en).1
def execAuxchgWrite (b : Bool) (s : State) : Out := s.on 8 (writeAuxchg s b).1
def execChemWrite (c : Fin 4) (s : State) : Out := s.on 8 (writeChem s c).1

/-! ## Timed events of the paths -/

/-- BATTERY_PRESENCE (R272, R262, R269): the voltage has stood in the presence window for 1 s. A path that
enters its charge under a cause of R262 is suspended at once. -/
def batteryPresence (s : State) (path : Nat) : State :=
  if path = 0 then
    let v := vbatOf s
    let n : Int := ncell s
    if n * 1000000 ≤ v ∧ v ≤ vcvB s + n * 100000 then
      if bState s = bDetect then
        let st := if v < n * s.fld CHG_VTHR_VPRE * 100 then bPrecond else bCc
        bSuspendDue ((bEnter s st).event CHG_EVT_BPRESENT)
      else if bState s = bAbsent then (setB s bMatch).event CHG_EVT_BPRESENT
      else s
    else s
  else
    let v := vhbOf s
    if 10000000 ≤ v ∧ v ≤ 20 * s.fld CHG_HCELL_VHMAX * 100 then
      if hState s = hDetect then
        let s := (s.setFld CHG_HTMR_COUNT 0).event CHG_EVT_HPRESENT
        hSuspendDue (if v < 20000000 then setH s hPrecond else hEnterFast s)
      else if hState s = hAbsent then (hDetectOrStop s).event CHG_EVT_HPRESENT
      else s
    else s
def execBatteryPresence (path : Fin 2) (s : State) : Out := s.on 8 (batteryPresence s path)

/-- PRECOND_COMPLETE (R262, R269): at or above the precondition limit for 10 s. -/
def execPrecondComplete (path : Fin 2) (s : State) : Out :=
  s.on 8 (if path = 0 then
      (if bState s = bPrecond ∧ (ncell s : Int) * s.fld CHG_VTHR_VPRE * 100 ≤ vbatOf s then setB s bCc else s)
    else if hState s = hPrecond ∧ 20000000 ≤ vhbOf s then hEnterFast s else s)

/-- CV_ENTRY (R262, R279) of BATM (`assist` false) or of a session. -/
def execCvEntry (assist : Bool) (s : State) : Out :=
  s.on 8 (if assist then
      (if aState s = aCharge ∧ (s.fld CHG_ASV_ASV : Int) - (s.fld CHG_ASCFG_NCELL : Int) * 10000 ≤ vasOf s then
        { s with chg := { s.chg with aCv := true } } else s)
    else if bState s = bCc ∧ vcvB s - (ncell s : Int) * 10000 ≤ vbatOf s then setB s bCv else s)

/-- TAPER_TERMINATION (R265, R279): the taper count has reached TERMDLY. -/
def execTaperTermination (assist : Bool) (s : State) : Out :=
  let p := if assist then 2 else 0
  let i := if assist then s.sfld CHG_IAS_I else s.sfld CHG_IBAT_I
  let low := decide (i < taperCurrent s p) && decide (2 * taperCurrent s p ≤ s.sfld CHG_ILIM_I)
  s.on 8 (if !low then s
    else if assist then
      (if !outranked s.chg.causeA 1 ∧ stateFor s.chg.causeA 1 (aState s) = aCharge ∧ s.chg.aCv then aToReturn s 1 else s)
    else if !outranked s.chg.causeB 1 ∧ stateFor s.chg.causeB 1 (bState s) = bCv then
      let t := { s with chg := { s.chg with causeB := takeCause s.chg.causeB 1 (bState s) } }
      (bReason (setB t (if s.fld CHG_VCELL_VFLOAT = 0 then bDone else bFloat)) 1).event CHG_EVT_BDONE
    else s)

/-- RECHARGE (R262, R267, R269): below the recharge level for 10 s. -/
def recharge (s : State) (path : Nat) : State :=
  if path = 0 then
    if vbatOf s < (ncell s : Int) * s.fld CHG_VTHR_VRECH * 100 then
      if bState s = bDone ∨ bState s = bFloat then bEnter s bCc
      else if s.chg.bStop then bRestart { s with chg := { s.chg with bLow := true } }
      else s
    else s
  else if vhbOf s < 20 * s.fld CHG_HCELL_HVRECH * 100 then
    if hState s = hDone then hEnterFast (s.setFld CHG_HTMR_COUNT 0)
    else if s.chg.hStop then hRestart { s with chg := { s.chg with hLow := true } }
    else s
  else s
def execRecharge (path : Fin 2) (s : State) : Out := s.on 8 (recharge s path)

/-- FAST ends with reason `r` (R269, R270). -/
def hDoneNow (s : State) (r : Nat) : State :=
  if outranked s.chg.causeH r then s
  else
    let t := { s with chg := { s.chg with causeH := takeCause s.chg.causeH r (hState s) } }
    (hReason (setH t hDone) r).event CHG_EVT_HDONE

/-- BATH_TERMINATION (R270): the 1 s means of vhb, in µV, and of the temperature, in 0.01 °C, in FAST. -/
def bathTermination (s : State) (v t : Int) : State :=
  let c := s.chg
  let secs := c.hSecs + 1
  let peak := max c.hPeak v
  let live := decide (s.fld CHG_HTERM_HOLDOFF * 60 < secs)
  let dv := s.fld CHG_HTERM_DV
  let dt : Int := s.fld CHG_HTERM_DTDT
  let below := if live ∧ dv ≠ 0 ∧ v < peak - 20 * dv * 1000 then c.hBelow + 1 else 0
  let rise := match c.hTemps[59]? with
    | some o => if live ∧ dt ≠ 0 ∧ o + dt ≤ t then c.hRise + 1 else 0
    | none => 0
  let s := { s with chg := { c with hSecs := secs, hPeak := peak, hBelow := below, hRise := rise, hTemps := (t :: c.hTemps).take 60 } }
  if 2 ≤ below then hDoneNow s 2 else if 2 ≤ rise then hDoneNow s 3 else s
def execBathTermination (v t : Int) (s : State) : Out :=
  s.on 8 (if stateFor s.chg.causeH 2 (hState s) = hFast then bathTermination s v t else s)

/-- BATH_OVP (R269): vhb above 20 × VHMAX for 1 ms. -/
def execBathOvp (s : State) : Out :=
  let h := stateFor s.chg.causeH 7 (hState s)
  s.on 8 (if 20 * (s.fld CHG_HCELL_VHMAX : Int) * 100 < vhbOf s ∧ h ≠ hOff ∧ h ≠ hStopped ∧ h ≠ hAbsent then
    (hStopNow s 7).postFault 348 1 7 0 else s)

/-- NOSOURCE (R262, R268): no source for 10 ms. -/
def execNosource (path : Fin 2) (s : State) : Out :=
  s.on 8 (if path = 0 then (if chgSource s then s else bSuspend { s with chg := { s.chg with noSrcB := true } } 11)
    else if hSource s then s else hSuspend { s with chg := { s.chg with noSrcH := s.chg.short } } 11)

/-- The half-seconds that one second adds (R267). -/
def timerRate (ilim fast : Int) : Nat := if ilim ≤ 0 then 0 else if ilim = fast then 2 else 1

/-- SAFETY_TIMER_SECOND (R267, R279): every path counts its second. -/
def safetySecond (s : State) : State :=
  let b := stateFor s.chg.causeB 4 (bState s)
  let rb := if b = bPrecond ∨ b = bCc ∨ b = bCv then timerRate (s.sfld CHG_ILIM_I) (fastCurrent s 0) else 0
  let s := (s.setFld CHG_BTMR_COUNT (s.fld CHG_BTMR_COUNT + rb)).setFlag CHG_STAT_BTHALF (rb == 1)
  let s := if 0 < rb ∧ 120 * s.fld CHG_TIME_TMR ≤ s.fld CHG_BTMR_COUNT then
      let r := if rb = 1 then 5 else 4
      (bStopNow s r).postFault 347 0 r 0
    else s
  let h := stateFor s.chg.causeH 4 (hState s)
  let rh := if h = hPrecond ∨ h = hFast then timerRate s.chg.ilimH (fastCurrent s 1) else 0
  let s := (s.setFld CHG_HTMR_COUNT (s.fld CHG_HTMR_COUNT + rh)).setFlag CHG_STAT_HTHALF (rh == 1)
  let s := if 0 < rh ∧ 120 * s.fld CHG_HTIME_TMR ≤ s.fld CHG_HTMR_COUNT then
      let r := if rh = 1 then 5 else 4
      (hStopNow s r).postFault 347 1 r 0
    else s
  let ra := if stateFor s.chg.causeA 4 (aState s) = aCharge then timerRate (s.sfld CHG_ILIM_I) (fastCurrent s 2) else 0
  let s := s.setFld CHG_ATMR_COUNT (s.fld CHG_ATMR_COUNT + ra)
  if 0 < ra ∧ 120 * max 1 (s.fld CHG_ASTHR_TMR) ≤ s.fld CHG_ATMR_COUNT then
    let r := if ra = 1 then 5 else 4
    (aToReturn s r).postFault 347 2 r 0
  else s
def execSafetyTimerSecond (s : State) : Out := s.on 8 (safetySecond s)

/-! ## Temperature windows (R266) -/

/-- The terms of the series ln((1 + z) / (1 − z)) = 2 (z + z³/3 + …) in units of 2^-40, from the term of exponent `k`. -/
def lnSeries : Nat → Nat → Nat → Nat → Nat
  | 0, _, _, _ => 0
  | fuel + 1, k, p, z2 => p / k + lnSeries fuel (k + 2) (p * z2 / 2 ^ 40) z2

/-- ln of a quotient in [1, 2), in units of 2^-40. -/
def lnUnit (a b : Nat) : Nat :=
  let z := (a - b) * 2 ^ 40 / (a + b)
  2 * lnSeries 24 1 z (z * z / 2 ^ 40)

/-- ln 2 in units of 2^-40. -/
def ln2 : Nat := 762123384786

/-- ln (a / b) of positive numbers, in units of 2^-40. -/
def lnRatio (a b : Nat) : Int :=
  if b ≤ a then
    let k := Nat.log2 (a / b)
    (k * ln2 + lnUnit a (b * 2 ^ k) : Nat)
  else
    let k := Nat.log2 (b / a)
    Int.neg (k * ln2 + lnUnit b (a * 2 ^ k) : Nat)

/-- The β model of R266: the temperature in 0.01 °C for RNTC in ohms, RNOM in units of 10 Ω and BETA. Beyond the model's range
an open input is far below and a shorted one far above it. -/
def ntcTemp (rntc rnom beta : Nat) : Int :=
  if rntc = 0 then 32767
  else
    let den : Int := 100 * beta * 2 ^ 40 + 29815 * lnRatio rntc (10 * rnom)
    if den ≤ 0 then 32767
    else clampInt (divRound (2981500 * (beta : Int) * 2 ^ 40) den - 27315) (-27315) 32767

/-- The window of a temperature in 0.01 °C under thresholds T1–T4 in °C, from the present window (R266). A window of 5 or more
is an NTC fault, from which the boundaries themselves decide. -/
def ntcWindow (w : Nat) (tw : Word) (t : Int) : Nat :=
  let th := fun k => signed 8 (Word.bits tw (8 * k + 7) (8 * k)) * 100
  let w := if 5 ≤ w then 2 else w
  let p1 := decide (th 0 + (if 1 ≤ w then 0 else 200) ≤ t)
  let p2 := decide (th 1 + (if 2 ≤ w then 0 else 200) ≤ t)
  let p3 := if 3 ≤ w then decide (th 2 - 200 < t) else decide (th 2 ≤ t)
  let p4 := if 4 ≤ w then decide (th 3 - 200 < t) else decide (th 3 ≤ t)
  if !p1 then 0 else if !p2 then 1 else if !p3 then 2 else if !p4 then 3 else 4

/-- The NTC reads outside −50 °C to 150 °C. -/
def ntcBad (t : Int) : Bool := decide (t < -5000) || decide (15000 < t)

/-- The window of a path set, with its event and its suspensions. -/
def setWindow (s : State) (path w : Nat) : State :=
  if path = 0 then
    let s := if s.fld CHG_STAT_BWIN = w then s else (s.setFld CHG_STAT_BWIN w).event CHG_EVT_BWINCHG
    if w = 7 then bSuspend s 6 else if bIfrac s w = 0 then bSuspend s 9 else s
  else
    let s := if s.fld CHG_STAT_HWIN = w then s else (s.setFld CHG_STAT_HWIN w).event CHG_EVT_HWINCHG
    if w = 7 then hSuspend s 6 else if hIfrac s w = 0 then hSuspend s 9 else s

/-- The present window and thresholds of a path. -/
def pathWin (s : State) (path : Nat) : Nat := if path = 0 then s.fld CHG_STAT_BWIN else s.fld CHG_STAT_HWIN
def pathTwin (s : State) (path : Nat) : Word := if path = 0 then s.reg CHG_BTWIN else s.reg CHG_HTWIN

/-- RNTC in ohms from the voltage in µV at the NTC, which 1.8 V biases through 10.0 kΩ (R266, R474); at the bias itself, an open NTC, no
resistance is too large. -/
def ntcOhms (uv : Nat) : Nat := if 1800000 ≤ uv then 1000000000 else 10000 * uv / (1800000 - uv)

/-- TEMPERATURE_WINDOW_UPDATE (R266): the 100 ms mean of the voltage at the NTC in µV. With RNOM or BETA zero the model has no
value: a free one (assumption log entry 2). -/
def tempUpdate (s : State) (path uv : Nat) : State :=
  let rntc := ntcOhms uv
  let n := if path = 0 then s.reg CHG_BNTC else s.reg CHG_HNTC
  let beta := Word.bits n 31 16
  let rnom := Word.bits n 15 0
  let open' := decide (beta = 0) || decide (rnom = 0)
  let (q, s) := if open' then s.free else (0, s)
  let t := if open' then signed 16 (q.toNat % 65536) else ntcTemp rntc rnom beta
  let s := s.setSfld (if path = 0 then CHG_TEMPS_TBAT else CHG_TEMPS_THB) t
  if ntcBad t then
    ((setWindow s path 7).event CHG_EVT_NTCFLT).setLevel 346 path 6 0 true
  else if pathWin s path = 7 then s
  else setWindow s path (ntcWindow (pathWin s path) (pathTwin s path) t)
def execTemperatureWindowUpdate (path : Fin 2) (uv : Nat) (s : State) : Out := s.on 8 (tempUpdate s path uv)

/-- NTC_FAULT_END (R266): the reading has been back in range for 1 s. -/
def ntcFaultEnd (s : State) (path : Nat) : State :=
  let t := if path = 0 then s.sfld CHG_TEMPS_TBAT else s.sfld CHG_TEMPS_THB
  if pathWin s path = 7 ∧ !ntcBad t then
    (setWindow s path (ntcWindow 7 (pathTwin s path) t)).setLevel 346 path 6 0 false
  else s
def execNtcFaultEnd (path : Fin 2) (s : State) : Out := s.on 8 (ntcFaultEnd s path)

/-! ## The disconnect -/

/-- DISCONNECT_OPEN (R271, R260): LX has run at VTGT for 1 ms after a removal. -/
def execDisconnectOpen (s : State) : Out :=
  s.on 8 (if s.chg.opening ∧ chgSource s then setBdis { s with chg := { s.chg with opening := false } } false else s)

/-- RECONNECTION (R272): |vlv − vbat| ≤ 0.5 V for 1 ms in MATCH. In an assist session BATM does nothing of its own (R279). -/
def execReconnection (s : State) : Out :=
  s.on 8 (if bState s = bMatch ∧ !aActive s ∧ (s.chg.vlv - vbatOf s).natAbs ≤ 500000 then
    bDetectOrStop (setBdis { s with chg := { s.chg with opening := false } } true) else s)

/-- MATCH_RETRY (R272): the match is tried again; CHG takes the override anew. -/
def execMatchRetry (s : State) : Out :=
  s.on 8 (if bState s = bMatch ∧ !aActive s then chgOverride s (vbatOf s) (s.sfld CHG_ISYS_I) else s)

/-- SHIP_DISCONNECT_OPEN (R277): 20 ms after arming the latch opens the disconnect and holds PRE off, so that no domain has a
supply. -/
def execShipDisconnectOpen (s : State) : Out :=
  .next (if s.pins.armed then
    { (s.setFld PDC_STAT_ON 0) with pins := { s.pins with bdis := false, armed := false, preOff := true } } else s)

/-! ## Commands of CHG_CMD -/

/-- CLRSTOP and HCLRSTOP (R267). -/
def clrstop (s : State) : State := if s.chg.bStop then bRestart (s.setFlag CHG_STAT_BCLRPEND true) else s
def hclrstop (s : State) : State := if s.chg.hStop then hRestart (s.setFlag CHG_STAT_HCLRPEND true) else s
def execClrstop (s : State) : Out := s.on 8 (clrstop s)
def execHclrstop (s : State) : Out := s.on 8 (hclrstop s)

/-- CLRCNT (R281): each timer count clears in its path's OFF, DONE, STOPPED or ENDED state. -/
def chgClrcnt (s : State) : State :=
  let b := bState s
  let h := hState s
  let s := if b = bOff ∨ b = bDone ∨ b = bStopped then s.setFld CHG_BTMR_COUNT 0 else s
  let s := if h = hOff ∨ h = hDone ∨ h = hStopped then s.setFld CHG_HTMR_COUNT 0 else s
  if aState s = aEnded then s.setFld CHG_ATMR_COUNT 0 else s
def execChgClrcnt (s : State) : Out := s.on 8 (chgClrcnt s)

/-- vas lies in the window of R278. -/
def vasInWindow (s : State) : Bool :=
  decide ((s.fld CHG_ASWIN_VMIN : Int) * 10000 ≤ vasOf s) && decide (vasOf s ≤ (s.fld CHG_ASWIN_VMAX : Int) * 10000)

/-- ASSTART (R278). -/
def asstart (s : State) : State × Status :=
  let st := aState s
  if s.cur ≠ modeAssist then (s, .modedeny)
  else if !(st == aReady || st == aEnded) || !vasInWindow s then (s, .notready)
  else if s.fld CHG_ASV_ASV = 0 ∨ s.fld CHG_ASI_ASI = 0 ∨ s.fld CHG_ASWIN_VMAX = 0 ∨ s.fld CHG_ASCFG_NCELL = 0
      ∨ s.fld CHG_ASWIN_VMAX * 10000 < s.fld CHG_ASV_ASV then (s, .nocfg)
  else
    (setA ({ bSuspend s 10 with chg := { (bSuspend s 10).chg with aCv := false, lowA := 0, dvA := [] } }.setFld CHG_ATMR_COUNT 0)
      aIsolate, .ok)
def execAsstart (s : State) : Out := s.on 8 (asstart s).1

/-- ASSTOP (R278). -/
def asstop (s : State) (r : Nat) : State :=
  let st := aState s
  if st = aIsolate ∨ st = aMatch ∨ st = aCharge then aToReturn s r else s
def execAsstop (s : State) : Out := s.on 8 (asstop s 15)

/-- ASSIST_DETECTION (R278): vas has been in the window, or out of it, for 1 s while ASSIST_EN is low. -/
def assistDetection (s : State) : State :=
  let st := aState s
  if s.pins.assistEn then s
  else if vasInWindow s then (if st = aIdle then (setA s aReady).event CHG_EVT_ASDET else s)
  else if st = aReady ∨ st = aEnded then setA s aIdle
  else s
def execAssistDetection (s : State) : Out := s.on 8 (assistDetection s)

/-- ISOLATE_COMPLETE (R278, R260): |ibat| ≤ 2 A for 10 ms; the disconnect opens only with a source in RUN. -/
def execIsolateComplete (s : State) : Out :=
  s.on 8 (if aState s = aIsolate ∧ (s.sfld CHG_IBAT_I).natAbs ≤ 2000 ∧ chgSource s then setA (setBdis s false) aMatch else s)

/-- ASSIST_MATCH_COMPLETE (R278): |vlv − vas| ≤ 0.5 V for 1 ms. -/
def execAssistMatchComplete (s : State) : Out :=
  s.on 8 (if aState s = aMatch ∧ (s.chg.vlv - vasOf s).natAbs ≤ 500000 then setA (setAssistEn s true) aCharge else s)

/-- The session ends (R278): the disconnect closed, the override withdrawn. -/
def aEnd (s : State) : State := (setA (chgWithdraw (setBdis s true)) aEnded).event CHG_EVT_ASEND

/-- ASSIST_RETURN_COMPLETE (R278): |vlv − vbat| ≤ 0.5 V for 1 ms. -/
def execAssistReturnComplete (s : State) : Out :=
  s.on 8 (if aState s = aReturn ∧ (s.chg.vlv - vbatOf s).natAbs ≤ 500000 then aEnd s else s)

/-- ASSIST_LIMIT (R278): the 500 ms of ISOLATE, MATCH or RETURN have passed. -/
def execAssistLimit (s : State) : Out :=
  let st := aState s
  s.on 8 (if st = aIsolate ∨ st = aMatch then aToReturn s 13
    else if st = aReturn then (aEnd (aReason s 13)).postFault 349 2 13 0
    else s)

/-- The fallback of R280. -/
def aFall (s : State) : State :=
  let s := setBdis (setAssistEn s false) true
  let s := ((aReason (setA (chgWithdraw s) aEnded) 14).event CHG_EVT_ASFALL).event CHG_EVT_ASEND
  s.postFault 350 2 14 0

/-- A hardware request for SHUTDOWN waits for the mode controller (R280). -/
def hwShutdown (s : State) : Bool :=
  s.mode.reqs.any (fun r => r.target == modeShutdown && (match r.src with | .hw _ => true | _ => false))

/-- ASSIST_FALLBACK (R280): no source in RUN, a hardware request for SHUTDOWN, or vlv outside its bounds for 100 µs. -/
def execAssistFallback (s : State) : Out :=
  let lo := (s.fld CHG_ASWIN_VMIN : Int) * 10000 - 1000000
  let hi := (s.fld CHG_ASWIN_VMAX : Int) * 10000 + 1000000
  s.on 8 (if aActive s && (!chgSource s || hwShutdown s || decide (s.chg.vlv < lo) || decide (hi < s.chg.vlv)) then aFall s else s)

/-- CHG drains (R275): both paths and the session end with reason DRAIN, whatever their state was. -/
def chgDrain (s : State) : State :=
  let s := chgWithdraw (setBdis (setAssistEn s false) true)
  let s := if auxState s 3 = axCharger then setAuxState (s.setFlag CHG_CTRL_AUXCHG false) 3 axOff else s
  let s := bReason (if bState s = bOff then s else setB s bOff) 12
  let s := hReason (if hState s = hOff then s else setH s hOff) 12
  let s := aReason (if aState s = aIdle then s else setA s aIdle) 12
  ((({ s with chg := {} }.setFlag CHG_CTRL_BEN false).setFlag CHG_CTRL_HEN false)).event CHG_EVT_ABORTED

/-! ## Writes -/

/-- A write of CHG_CTRL: AUXCHG and the enables, after the chemistry. The first refusal stands, and changes nothing. -/
def writeChgCtrl (s : State) (w : Word) : State × Status :=
  let (t, r) := if Word.bits w 9 8 = s.fld CHG_CTRL_CHEM then (s, Status.ok) else writeChem s (Word.bits w 9 8)
  if r ≠ .ok then (s, r)
  else
    let (t, r) := if Word.bit w 1 then writeAuxchg t (Word.bit w 2) else
      (let (t, r) := writeHen t false
       if r = .ok then writeAuxchg t (Word.bit w 2) else (t, r))
    if r ≠ .ok then (s, r)
    else
      let (t, r) := writeHen t (Word.bit w 1)
      if r ≠ .ok then (s, r)
      else
        let (t, r) := writeBen t (Word.bit w 0)
        if r ≠ .ok then (s, r) else (t, .ok)

/-- A window threshold word that is not ascending is refused (R281). -/
def writeTwin (s : State) (r : Reg) (w : Word) : State × Status :=
  let th := fun k => signed 8 (Word.bits w (8 * k + 7) (8 * k))
  if th 0 < th 1 ∧ th 1 < th 2 ∧ th 2 < th 3 then (s.setReg r w, .ok) else (s, .outofbound)

/-- A write of CHG_CMD (R281): one whose ASSTART is refused has no effect (R37). -/
def writeChgCmd (s : State) (w : Word) : State × Status :=
  let t := if Word.bit w 4 then chgClrcnt s else s
  let t := if Word.bit w 0 then clrstop t else t
  let t := if Word.bit w 1 then hclrstop t else t
  let t := if Word.bit w 3 then asstop t 15 else t
  if Word.bit w 2 then
    match asstart t with
    | (u, .ok) => (u, .ok)
    | (_, r) => (s, r)
  else (t, .ok)

/-- A write of a CHG word at offset `off` of 0x3E00 (R281). -/
def chgWrite (s : State) (off : Nat) (w : Word) : State × Status :=
  match off with
  | 0x00 => writeChgCtrl s w
  | 0x02 => writeChgCmd s w
  | 0x03 => (s.plainWrite CHG_EVT w, .ok)
  | 0x04 => (s.plainWrite CHG_EVTEN w, .ok)
  | 0x08 => if w.toInt < 0 then (s, .outofrange) else (s.setReg CHG_ICHG w, .ok)
  | 0x09 => (s.plainWrite CHG_VCELL w, .ok)
  | 0x0A => (s.plainWrite CHG_VTHR w, .ok)
  | 0x0B => (s.plainWrite CHG_ITHR w, .ok)
  | 0x0C => (s.plainWrite CHG_TIME w, .ok)
  | 0x0D => (s.plainWrite CHG_TCOMP w, .ok)
  | 0x10 => writeTwin s CHG_BTWIN w
  | 0x11 => (s.setFld CHG_BIFRAC_IFRAC w.toNat, .ok)
  | 0x12 => (s.setFld CHG_BVDROP_VDROP w.toNat, .ok)
  | 0x13 => (s.plainWrite CHG_BNTC w, .ok)
  | 0x18 => (s.plainWrite CHG_HICHG w, .ok)
  | 0x19 => (s.plainWrite CHG_HCELL w, .ok)
  | 0x1A => (s.plainWrite CHG_HTERM w, .ok)
  | 0x1B => (s.plainWrite CHG_HTIME w, .ok)
  | 0x1C => writeTwin s CHG_HTWIN w
  | 0x1D => (s.setFld CHG_HIFRAC_IFRAC w.toNat, .ok)
  | 0x1E => (s.plainWrite CHG_HNTC w, .ok)
  | 0x20 =>
    if 33 ≤ Word.bits w 13 8 then (s, .outofrange)
    else if 48 ≤ Word.bits w 5 0 then (s, .illegal)
    else (s.plainWrite CHG_ASCFG w, .ok)
  | 0x21 => (s.plainWrite CHG_ASV w, .ok)
  | 0x22 => (s.plainWrite CHG_ASI w, .ok)
  | 0x23 => (s.plainWrite CHG_ASTHR w, .ok)
  | 0x24 => (s.plainWrite CHG_ASWIN w, .ok)
  | _ => (s, .ok)

end Sys2Proof.Machine
end

