-- ==== Sys2Proof/Machine/Ram.lean ====
section
/-! DEFINITION. The RAMs under the symbol code (R366–R370): reading a line with its outcome, writing words to a line, and
the log of uncorrectable lines. -/
namespace Sys2Proof.Machine

/-- The RAM codes of R367, with their first byte, their words and their domain. -/
def ramBase : Nat → Nat
  | 0 => psBase | 1 => drBase | 2 => itBase | 3 => patBase | 4 => ckBase | _ => retBase
def ramWords : Nat → Nat
  | 0 => 65536 | 1 => 16384 | 2 => 32768 | 3 => 32768 | 4 => 24576 | _ => 4096
def ramDomain : Nat → Nat
  | 0 => 2 | 1 => 2 | 2 => 4 | _ => 10

/-! ## The symbol code (R366) -/

/-- Multiplication by α = 0x02 in GF(2^8) with the polynomial 0x11D. -/
def gfDouble (a : Nat) : Nat := if a < 128 then 2 * a else (2 * a) ^^^ 0x11D

/-- The check symbols 32–34 of data symbols, highest order first: the remainder of d(x)·x³ by g(x) = (x + 1)(x + α)(x + α²)
= x³ + 7x² + 14x + 8. -/
def rsCheck (l : List Nat) : Nat × Nat × Nat :=
  l.foldl (fun c d =>
    let f := c.1 ^^^ (d % 256)
    let f2 := gfDouble f
    let f4 := gfDouble f2
    let f8 := gfDouble f4
    (c.2.1 ^^^ f ^^^ f2 ^^^ f4, c.2.2 ^^^ f2 ^^^ f4 ^^^ f8, f8)) (0, 0, 0)

/-- The codeword of line `i` of a RAM as it was encoded: its 32 bytes in the order of R8 and their check symbols. -/
def State.codeword (s : State) (ram i : Nat) : List Nat :=
  let l := (List.range 32).map (fun k => (s.byte (ramBase ram + 32 * i + k)).toNat)
  let c := rsCheck l
  l ++ [c.1, c.2.1, c.2.2]

/-- The damage of line `i` of a RAM: how many symbols of its codeword stand in error (R367). -/
def State.damage (s : State) (ram i : Nat) : LineDamage := cellGet .none s.lines (ramBase ram / 32 + i)
def State.setDamage (s : State) (ram i : Nat) (d : LineDamage) : State :=
  { s with lines := cellSet .none s.lines (ramBase ram / 32 + i) d }

/-- A counter of CHK counts and saturates (R13); nothing while PD10 is unpowered. -/
def chkCount (s : State) (f : Fld) (n : Nat) : State :=
  if !s.powered 10 then s
  else if s.fld f n < 0xFFFFFFFF then
    let s := s.setFld f (s.fld f n + 1) n
    if s.fld f n = 0xFFFFFFFF then s.event CHK_EVT_SATURATED else s
  else s

/-- The entry of CHK_UELOG that holds a line, if any (R370). -/
def uelogFind (s : State) (ram i : Nat) : Option Nat :=
  (List.range 4).find? (fun k => s.flag CHK_UELOG_VALID k && s.fld CHK_UELOG_RAM k == ram && s.fld CHK_UELOG_LINE k == i)

/-- An uncorrectable line is found (R367, R370): reported when CHK_UELOG does not hold it yet. -/
def uncorrectable (s : State) (ram i : Nat) : State :=
  let s := chkCount s CHK_UECNT_COUNT ram
  if !s.powered 10 then s.postFault 357 ram 0 (wordOf (8 * i))
  else match uelogFind s ram i with
    | some _ => s
    | none =>
      let s := (s.postFault 357 ram 0 (wordOf (8 * i))).event CHK_EVT_UNCORR
      match (List.range 4).find? (fun k => !s.flag CHK_UELOG_VALID k) with
      | some k => ((s.setFlag CHK_UELOG_VALID true k).setFld CHK_UELOG_RAM ram k).setFld CHK_UELOG_LINE i k
      | none => s.setFlag CHK_UELOG_LOGOVF true 0

/-- A line is decoded (R367): the state after the report and the correction, and whether it could be read. -/
def State.decodeLine (s : State) (ram i : Nat) : State × Bool :=
  match s.damage ram i with
  | .none => (s, true)
  | .one => (((chkCount s CHK_CECNT_COUNT ram).postFault 356 ram 0 (wordOf (8 * i))).setDamage ram i .none, true)
  | .many => (uncorrectable s ram i, false)

/-- A line as its decoder meets it: an armed injection of ECC_CORR puts one symbol in error, one of ECC_UNCORR two (R361). -/
def State.injectLine (s : State) (ram i : Nat) : State :=
  (s.injectItem ⟨356, ram, 0, wordOf (8 * i)⟩ (fun s => if s.damage ram i = .none then s.setDamage ram i .one else s)).injectItem
    ⟨357, ram, 0, wordOf (8 * i)⟩ (fun s => s.setDamage ram i .many)

/-- A line is read (R367). -/
def State.readLine (s : State) (ram i : Nat) : State × Bool :=
  let t := s.injectLine ram i
  (s.injectTake (s.injectTake (t.decodeLine ram i).1 356 ram) 357 ram, (t.decodeLine ram i).2)

/-- Word `w` of a RAM is read: zero where the line is uncorrectable. -/
def State.readRam (s : State) (ram w : Nat) : State × Word × Bool :=
  let (t, ok) := s.readLine ram (w / 8)
  (t, if ok then t.word (ramBase ram) w else 0, ok)

/-- A word of a RAM as a reader finds it, without the reports of the read. -/
def State.peekRam (s : State) (ram w : Nat) : Word :=
  if s.damage ram (w / 8) = .many then 0 else s.word (ramBase ram) w

/-- The line is encoded afresh and leaves CHK_UELOG (R369). -/
def repairLine (s : State) (ram i : Nat) : State :=
  let s := s.setDamage ram i .none
  match uelogFind s ram i with
  | some k => s.setReg CHK_UELOG (s.reg CHK_UELOG k &&& (1073741824 : Word)) k
  | none => s

/-- Word `w` of a RAM is written (R369): false when the line read uncorrectable, and its other words were lost. -/
def State.writeRam (s : State) (ram w : Nat) (v : Word) : State × Bool :=
  let (s, ok) := s.readLine ram (w / 8)
  if ok then (s.setWord (ramBase ram) w v, true)
  else ((repairLine (s.zeroBytes (ramBase ram + 32 * (w / 8)) 32) ram (w / 8)).setWord (ramBase ram) w v, false)

/-- A whole line is written. -/
def State.writeLine (s : State) (ram i : Nat) (ws : List Word) : State :=
  (repairLine s ram i).setWords (ramBase ram) (8 * i) (ws.take 8)

/-- Word `w` of the data RAM has been written: a line of a private window counts as written since the last CKPT (R181). -/
def State.markWritten (s : State) (w : Nat) : State :=
  if 0x1000 ≤ w then
    let p := (w - 0x1000) / 0x100
    s.setProg p { s.prog p with dirty := (s.prog p).dirty ||| (1 <<< (w % 0x100 / 8)) }
  else s

/-- A status for a read or a write of RAM (R368, R369). -/
def ramStatus (ok : Bool) : Status := if ok then .ok else .eccerr

end Sys2Proof.Machine
end

