-- ==== Sys2Proof/Machine/Intent.lean ====
section
/-! DEFINITION. Intent ports and anticipation (06_anticipation.md): beats and their answers, the handshake, the grant
vector and its buffers, the processing of grants and releases, drains, and the writes of the IPT registers. -/
namespace Sys2Proof.Machine

/-- The port states of R132. -/
def psDisabled : Nat := 0
def psHandshake : Nat := 1
def psLive : Nat := 2
def psClklost : Nat := 3
def psDraining : Nat := 4

/-! ## The answer of R134 -/

/-- The word of the Intent Table where the entry of port `p` and code `c` in bank `b` begins (R30). -/
def itWord (b p c : Nat) : Nat := 4096 * b + 4 * (64 * p + c)

/-- The entry of port `p` and code `c` in bank `b`. -/
def State.entry (s : State) (b p c : Nat) : Entry :=
  let w := itWord b p c
  ⟨s.peekRam 2 w, s.peekRam 2 (w + 1), s.peekRam 2 (w + 2), s.peekRam 2 (w + 3)⟩

/-- The entry is valid (R141). -/
def Entry.isValid (s : State) (e : Entry) : Bool :=
  e.valid && e.rails.all s.railPresent && !(e.ben && e.railIdx false == e.railIdx true)
    && e.pb false != -64 && !(e.ben && e.pb true == -64)
    && (e.step false != 0 || (e.ben && e.step true != 0))

/-- The live bank of a port (R134). -/
def liveBank (s : State) (p : Nat) : Nat := if s.anticMode = modeDegraded then s.fld IP_BANK_DBANK p else s.fld IP_BANK_BANK p

/-- A rail whose state refuses an entry, and one whose state defers it (R134). -/
def railRefuses (st : Nat) : Bool :=
  st == rsOff || st == rsStopping || st == rsLatched || st == rsDraining || st == rsFenced
def railDefers (st : Nat) : Bool := st == rsSoftstart || st == rsHiccupOff

/-- The slots of rail `n` that are free (R143). -/
def freeSlotsOf (s : State) (n : Nat) : List Nat :=
  (List.range 4).filter (fun k => (s.rail n).contribs.all (fun c => c.slot != k))

/-- Whether anything but the port's own open intent and its budget keeps the entry from a GRANT: the answer and cause so
far (R134). -/
def entryAnswer (s : State) (p : Nat) (e : Entry) : Answer × Nat :=
  if !anticipationLive s.anticMode then (.refuse, 0)
  else if !e.isValid s then (.refuse, 0)
  else if s.fld BUD_IPCFG_ALMAX p < e.budg then (.refuse, 0)
  else if e.rails.any (fun n => railRefuses (railState s n)) then (.refuse, 0)
  else if s.fld IP_OPEN_STATE p ≠ 0 then (.defer, 1)
  else if e.rails.any (fun n => railDefers (railState s n)) then (.defer, 2)
  else if e.rails.any (fun n => (freeSlotsOf s n).isEmpty) then (.defer, 3)
  else (.grant, 0)

/-- The answer of R134 for code `c` of port `p`, computed now from bank `b`. -/
def answerFor (s : State) (b p c : Nat) : VecAns :=
  let e := s.entry b p c
  let a := s.fld IP_ALLOW_ALLOW p
  match entryAnswer s p e with
  | (.grant, _) =>
    if a < e.budg then
      let short := e.budg - a
      if poolReserved s (s.fld IP_CTRL_POOL p) < short then { ans := .defer, cause := 4, short := short, bank := b, entry := e }
      else { ans := .defer, cause := 5, short := short, bank := b, entry := e }
    else { ans := .grant, bank := b, entry := e }
  | (x, k) => { ans := x, cause := k, bank := b, entry := e }

/-! ## Draining a port -/

/-- The drain of R160: the FIFO discarded, a SUBJ intent revoked, a CONF grant returned, ABORTED, DISABLED; the allowance
returns after (R228). A port that a failed handshake has left DISABLED with a CONF intent gives its grant back (R159). -/
def drainPort (s : State) (p : Nat) : State :=
  if s.fld IP_STAT_PSTATE p = psDisabled then releaseIntent s p
  else
    let s := s.setPort p { s.port p with fifo := [], first := none, busy := false, iack := 0, oldBanks := [] }
    let s := releaseIntent (revokeIntent s p 8) p
    let s := s.event IP_EVT_ABORTED p
    let s := ((s.setFld IP_STAT_PSTATE psDisabled p).setFld IP_STAT_VER 0 p).setFlag IP_CTRL_EN false p
    reduceAllowance s p (s.fld IP_ALLOW_ALLOW p)

/-! ## Beats (R128–R131) -/

/-- The port holds an open intent as its clock domain knows it (R129, R139): its own BUSY, or the vector in place. -/
def portHolds (s : State) (p : Nat) : Bool :=
  (s.port p).busy || (s.group (p / 4)).active.opens.contains (p % 4)

/-- The IACK code of an answer (R129). -/
def iackCode : Answer → Nat
  | .none => 0 | .grant => 1 | .defer => 2 | .refuse => 3

/-- DEFER and REFUSE beats at the head of the FIFO leave it: they change nothing (R136). -/
def flushFifo : List Beat → List Beat
  | [] => []
  | b :: l => if b.release || b.ans.ans == .grant then b :: l else flushFifo l

/-- A beat enters the capture FIFO (R137); a fifth beat overruns and drains the port (R161). -/
def pushBeat (s : State) (p : Nat) (b : Beat) : State :=
  let h := s.port p
  if 4 ≤ h.fifo.length then
    drainPort (((s.setOverrun (p / 4) true).event IP_EVT_OVERRUN p).postFault 342 p 0 0) p
  else s.setPort p { h with fifo := flushFifo (h.fifo ++ [b]) }

/-- The counters and the last deferral after the answer to a request beat (R151, R152). -/
def noteAnswer (s : State) (p c : Nat) (a : VecAns) : State :=
  let s := s.setFlag IP_STAT_REFPEND false p
  match a.ans with
  | .defer =>
    let s := portCount s IP_NDEFER_COUNT p
    let s := ((s.setFld IP_STAT_LASTDEF a.cause p).setFld IP_STAT_DEFCODE c p).setFlag IP_STAT_REFPEND (a.cause == 5) p
    s.setPort p { s.port p with asked := a.entry.budg }
  | .refuse => portCount s IP_NREFUSE_COUNT p
  | _ => s

/-- A complete request is answered with `a` (R129, R136, R137). -/
def giveAnswer (s : State) (p c scale epoch : Nat) (a : VecAns) : State :=
  let h := s.port p
  let granted := a.ans == .grant
  let s := s.setPort p { h with iack := if s.flag IP_CTRL_SRC p then h.iack else iackCode a.ans, first := none, busy := h.busy || granted,
                                gcount := if granted then (h.gcount + 1) % 16 else h.gcount }
  pushBeat (noteAnswer s p c a) p { release := false, code := c, scale := scale, ans := a, epoch := epoch }

/-- The answer of the vector in place for code `c` of port `p` (R129, R134, R136, R38). A port that has just become LIVE, before a vector
computed with it LIVE is in place, is answered REFUSE (assumption log entry 160). -/
def vectorAnswer (s : State) (p c : Nat) : VecAns :=
  if !anticipationLive s.anticMode then {}
  else if (s.port p).busy then { ans := .defer, cause := 1 }
  else cellGet {} (s.group (p / 4)).active.answers (64 * (p % 4) + c)

/-- The value driven when no answer is due (R129). -/
def idleValue (s : State) (p : Nat) : Nat :=
  if !anticipationLive s.anticMode then 3 else if portHolds s p then 1 else 2

/-- A port that samples beats at its balls: LIVE with SRC = 0, powered. -/
def portSamples (s : State) (p : Nat) : Bool :=
  s.powered 4 && s.fld IP_STAT_PSTATE p == psLive && !s.flag IP_CTRL_SRC p

/-- IREQp as sampled at an ICLKg edge (R128, R200). -/
def setIreq (s : State) (p : Nat) (b : Bool) : State :=
  let m := s.pins.ireq
  let t := { s with pins := { s.pins with ireq := if m.testBit p = b then m else if b then m + (1 <<< p) else m - (1 <<< p) } }
  t.noteIf (m.testBit p != b) (histPin (16 + p))

/-- The SCALE beat of an IPv2 request, 0–63 (R131). -/
def scaleBeat (s : State) (p first scale : Nat) : State :=
  giveAnswer s p first scale (s.group (p / 4)).active.epoch (vectorAnswer s p first)

/-- REQUEST_BEAT (R129, R131) with ICODE `c`, 1–63: a whole IPv1 request, the first beat of an IPv2 request, or its SCALE
beat. A beat with ICODE 0 is the RELEASE_BEAT row's. -/
def execRequestBeat (p : Fin 16) (c : Fin 64) (s : State) : Out :=
  let s := setIreq s p true
  if !portSamples s p || c == 0 then .next s
  else match (s.port p).first with
    | some f => .next (scaleBeat s p f c)
    | none =>
      if s.fld IP_STAT_VER p = 2 then
        .next ((s.setFlag IP_STAT_REFPEND false p).setPort p { s.port p with first := some c, iack := idleValue s p })
      else .next (giveAnswer s p c 63 (s.group (p.val / 4)).active.epoch (vectorAnswer s p c))

/-- The answer to a release beat (R129). -/
def releaseAnswer (s : State) : Nat := if anticipationLive s.anticMode then 1 else 3

/-- The release beat of R129 and R130. A port with SRC = 1 holds its balls undriven (R133). -/
def releaseBeat (s : State) (p : Nat) : State :=
  let s := if s.flag IP_CTRL_SRC p then s else s.setPort p { s.port p with iack := releaseAnswer s }
  pushBeat s p { release := true, code := 0, scale := 63, ans := {}, epoch := (s.group (p / 4)).active.epoch }

/-- RELEASE_BEAT (R129): IREQ = 1 with ICODE = 0; after the first beat of an IPv2 request it is a SCALE of 0 (R131). -/
def execReleaseBeat (p : Fin 16) (s : State) : Out :=
  let s := setIreq s p true
  if !portSamples s p then .next s
  else match (s.port p).first with
    | some f => .next (scaleBeat s p f 0)
    | none => .next (releaseBeat s p)

/-- IDLE_BEAT (R129, R131): it abandons an IPv2 request whose SCALE has not come. -/
def execIdleBeat (p : Fin 16) (s : State) : Out :=
  let s := setIreq s p false
  if !portSamples s p then .next s
  else .next (s.setPort p { s.port p with first := none, iack := idleValue s p })

/-! ## Enabling and the handshake (R132, R133) -/

/-- The port enters HANDSHAKE: the crossing of its group is reset as a pair (R382), so its grant count starts from the
core's. -/
def enterHandshake (s : State) (p : Nat) : State :=
  let s := (s.setStopped (p / 4) false).setOverrun (p / 4) false
  let s := (s.setFld IP_STAT_PSTATE psHandshake p).setFld IP_STAT_VER 0 p
  s.setPort p { s.port p with fifo := [], first := none, busy := false, iack := 3, gcount := s.fld IP_STAT_GCOUNT p }

/-- The version that VMAX allows (R162). -/
def portVmax (s : State) (p : Nat) : Nat := if s.fld IP_CTRL_VMAX p ≤ 1 then 1 else 2

/-- The port comes up (R132, R133): HANDSHAKE, or with SRC = 1 LIVE at once. -/
def portBegin (s : State) (p : Nat) : State :=
  if s.flag IP_CTRL_SRC p then
    let s := (s.setFld IP_STAT_PSTATE psLive p).setFld IP_STAT_VER (portVmax s p) p
    s.setPort p { s.port p with fifo := [], first := none, busy := false, gcount := s.fld IP_STAT_GCOUNT p }
  else enterHandshake s p

/-- Every port is held DISABLED in the mode (R38). -/
def portsHeld (m : Nat) : Bool := m == modePlinth || m == modeProvision

/-- EN written 1 (R38, R127, R132, R133): refused in a mode that holds the ports, and while one is being entered. -/
def enablePort (s : State) (p : Nat) : State × Status :=
  if s.fld IP_STAT_PSTATE p ≠ psDisabled then (s, .ok)
  else if portsHeld s.cur ∨ portsHeld s.anticMode then (s, .modedeny)
  else if s.fld IPT_GRP_IOSTAT (p / 4) = 0 then (s, .nosupply)
  else
    let s := s.setFlag IP_CTRL_EN true p
    (portBegin s p, .ok)

/-- A write of IPn_CTRL (R160, R162). -/
def writeIpCtrl (s : State) (p : Nat) (w : Word) : State × Status :=
  let en := s.flag IP_CTRL_EN p
  if en && (Word.bits w 10 8 != s.fld IP_CTRL_POOL p || Word.bit w 1 != s.flag IP_CTRL_SRC p) then (s, .porton)
  else if !s.engPresent (Word.bits w 21 16) then (s, .illegal)
  else
    let t := ((s.setFld IP_CTRL_ENG (Word.bits w 21 16) p).setFlag IP_CTRL_LOG (Word.bit w 12) p).setFld IP_CTRL_VMAX
      (Word.bits w 5 4) p
    let t := (t.setFld IP_CTRL_POOL (Word.bits w 10 8) p).setFlag IP_CTRL_SRC (Word.bit w 1) p
    if Word.bit w 0 then
      match enablePort t p with
      | (u, .ok) => (u, .ok)
      | (_, x) => (s, x)
    else (drainPort t p, .ok)

/-- IP_EN_WRITE (R132, R133): IPn_CTRL.EN written 1. -/
def execIpEnWrite (p : Fin 16) (s : State) : Out := s.on 4 (s.ifWritable (enablePort s p).1)

/-- HANDSHAKE_COMPLETE (R132): the pattern held is 0x15 (`v2`) or 0x2A. -/
def execHandshakeComplete (p : Fin 16) (v2 : Bool) (s : State) : Out :=
  if s.powered 4 ∧ s.fld IP_STAT_PSTATE p = psHandshake then
    let v := if v2 && portVmax s p == 2 then 2 else 1
    let s := (s.setFld IP_STAT_PSTATE psLive p).setFld IP_STAT_VER v p
    .next ((s.setPort p { s.port p with iack := v }).event IP_EVT_LIVE p)
  else .next s

/-- HSFAIL (R132): the allowance is no case of R228 and stays. -/
def execHsfail (p : Fin 16) (s : State) : Out :=
  if s.powered 4 ∧ s.fld IP_STAT_PSTATE p = psHandshake then
    let s := (s.setFld IP_STAT_PSTATE psDisabled p).setFlag IP_CTRL_EN false p
    .next ((s.setPort p { s.port p with iack := 0 }).event IP_EVT_HSFAIL p)
  else .next s

/-- PORT_DRAIN (R160). -/
def execPortDrain (p : Fin 16) (s : State) : Out := s.on 4 (drainPort s p)

/-! ## The grant vector (R134–R138) -/

/-- The lines of the bank that port `p` answers from are read (R367). -/
def readBank (s : State) (b p : Nat) : State :=
  (List.range 32).foldl (fun s j => (s.readLine 2 (512 * b + 32 * p + j)).1) s

/-- The codes of port `p` whose entry in bank `b` is uncorrectable (R161, R368). -/
def badCodes (s : State) (b p : Nat) : List Nat :=
  (List.range 64).filter (fun c => s.damage 2 (itWord b p c / 8) == .many)

/-- A LIVE port's bank is read for the vector, and IPT_ECC follows what was found (R161); an armed injection damages the line of its first
entry (R361). -/
def checkBank (s : State) (p : Nat) : State :=
  if s.fld IP_STAT_PSTATE p ≠ psLive then s
  else
    let b := liveBank s p
    let s := readBank s b p
    let t := s.injectItem ⟨343, p, 0, wordOf b⟩ (fun s => s.setDamage 2 (itWord b p 0 / 8) .many)
    match badCodes t b p with
    | c :: _ => s.injectTake (t.setLevel 343 p c (wordOf b) true) 343 p
    | [] => t.setLevel 343 p 0 0 false

/-- The answers of port `p` for its codes 1–63, keyed within its group. -/
def portVector (s : State) (p : Nat) : List (Nat × VecAns) :=
  if s.fld IP_STAT_PSTATE p = psLive then
    let b := liveBank s p
    ((List.range 63).map (fun c => (64 * (p % 4) + c + 1, answerFor s b p (c + 1)))).filter (fun x => x.2 != {})
  else []

/-- The vector of group `g` is written into the inactive buffer (R135). -/
def publish (s : State) (g : Nat) : State :=
  let ps := (List.range 4).map (fun i => 4 * g + i)
  let s := ps.foldl checkBank s
  let h := s.group g
  let ep := (h.epoch + 1) % 256
  let buf : VecBuf :=
    { answers := ps.flatMap (portVector s), epoch := ep
      gcounts := ps.map (fun p => (p % 4, s.fld IP_STAT_GCOUNT p))
      cuts := ps.map (fun p => (p % 4, (s.port p).cutSeq))
      banks := ps.filterMap (fun p => if s.fld IP_STAT_PSTATE p = psDisabled then none else some (p % 4, liveBank s p))
      opens := (ps.filter (fun p => s.fld IP_OPEN_STATE p != 0)).map (· % 4) }
  s.setGroup g { h with inactive := some buf, epoch := ep }

/-- GRANT_VECTOR_PUBLISH (R135). -/
def execGrantVectorPublish (g : Fin 4) (s : State) : Out := s.on 4 (publish s g)

/-- The first vector of the new bank of a port has been swapped in: the banks before it are no longer held (R140). -/
def forgetBanks (s : State) (g : Nat) (b : VecBuf) : State :=
  b.banks.foldl (fun s x =>
    let p := 4 * g + x.1
    if x.2 = liveBank s p ∧ (s.port p).oldBanks ≠ [] then s.setPort p { s.port p with oldBanks := [] } else s) s

/-- The buffers of group `g` swap (R135, R136): SWEPOCH follows, and BUSY clears where the grant counts agree. -/
def swapBuffers (s : State) (g : Nat) : State :=
  let h := s.group g
  match h.inactive with
  | none => s
  | some b =>
    let s := s.setGroup g { h with active := b, inactive := none }
    let s := forgetBanks (s.setFld IPT_GRP_SWEPOCH b.epoch g) g b
    b.gcounts.foldl (fun s x =>
      let p := 4 * g + x.1
      if (s.port p).gcount = x.2 then s.setPort p { s.port p with busy := false } else s) s

/-- BUFFER_SWAP (R135): not while the group's crossing is in TIMEOUT. -/
def execBufferSwap (g : Fin 4) (s : State) : Out :=
  if s.stopped g then .next s else s.on 4 (swapBuffers s g)

/-! ## Processing in the core (R137, R139, R144, R149) -/

/-- The core would still grant the entry (R139); an allowance reduction not yet complete still covers the grant (R138). -/
def stillGrants (s : State) (p : Nat) (v : VecAns) (budg : Nat) : Bool :=
  (entryAnswer s p v.entry).1 == .grant && decide (budg ≤ s.fld IP_ALLOW_ALLOW p + (s.port p).cut)
    && !(s.anticMode == modeDegraded && v.bank != s.fld IP_BANK_DBANK p)

/-- The contribution of an entry on its rail A or B at SCALE `scale` (R142, R144). -/
def entryContrib (e : Entry) (second : Bool) (scale slot p : Nat) : Contrib :=
  let step := scaleInt (e.step second) scale
  { slot := slot, port := p, second := second, stepMA := step * 1000, cfrac := e.cfrac
    pb := scaleInt (e.pb second) scale * 1024000
    ff := divTrunc (step * 1000000 * e.ffrac second) 16
    ffFrom := 0, unwindNs := e.unwindNs, phadd := scaleUp (e.phadd second) scale, shdly := e.shdly }

/-- A contribution is sent to a rail, unless the rail's crossing discards it (R26, R383), and holds its lowest free slot (R143). -/
def placeContrib (s : State) (e : Entry) (scale p : Nat) (second : Bool) : State :=
  let n := e.railIdx second
  match if s.railOpen n then freeSlotsOf s n else [] with
  | k :: _ => s.setRail n { s.rail n with contribs := (s.rail n).contribs ++ [entryContrib e second scale k p] }
  | [] => s

/-- The intent record of port `p` opens (R139, R144): the allowance, and what a reduction still covers, is debited. -/
def openIntent (s : State) (p : Nat) (b : Beat) : State :=
  let budg := scaleNat b.ans.entry.budg b.scale
  let a := s.fld IP_ALLOW_ALLOW p
  let fromAllow := min a budg
  let fromCut := min (budg - fromAllow) (s.port p).cut
  let s := ((s.setFld IP_OPEN_STATE 1 p).setFld IP_OPEN_CODE b.code p).setFld IP_OPEN_SCALE b.scale p
  let s := ((s.setFld IP_OPEN_BANK b.ans.bank p).setFlag IP_OPEN_META false p).setFlag IP_OPEN_METB false p
  let s := (s.setFld IP_OPENT_TGRANT s.tbaseLo p).setFld IP_ALLOW_ALLOW (a - fromAllow) p
  s.setPort p { s.port p with entry := b.ans.entry, reserved := fromAllow + fromCut, pool := s.fld IP_CTRL_POOL p
                              cut := (s.port p).cut - fromCut
                              drawn := if (s.port p).capCut then (s.port p).drawn + fromCut else (s.port p).drawn }

/-- The core processes a GRANT (R139, R144). -/
def processGrant (s : State) (p : Nat) (b : Beat) : State :=
  let s := s.setFld IP_STAT_GCOUNT ((s.fld IP_STAT_GCOUNT p + 1) % 16) p
  let s := if s.flag IP_CTRL_SRC p then s.setPort p { s.port p with busy := false } else s
  let ok := stillGrants s p b.ans (scaleNat b.ans.entry.budg b.scale)
  let s := openIntent s p b
  if ok then
    let s := placeContrib s b.ans.entry b.scale p false
    if b.ans.entry.ben then placeContrib s b.ans.entry b.scale p true else s
  else
    let s := (revokeIntent s p 7).event IP_EVT_STALE p
    s.countTo IPT_STALE_COUNT 0xFFFFFFFF

/-- The head of the FIFO leaves it. -/
def popBeat (s : State) (p : Nat) : State :=
  s.setPort p { s.port p with fifo := flushFifo (s.port p).fifo.tail }

/-- GRANT_PROCESSING (R144): the core takes a GRANT beat from the head of port `p`'s FIFO. -/
def execGrantProcessing (p : Fin 16) (s : State) : Out :=
  match (s.port p).fifo with
  | b :: _ => if b.release then .next s else s.on 4 (processGrant (popBeat s p) p b)
  | [] => .next s

/-- RELEASE_PROCESSING (R149): a CONF grant returns, a SUBJ intent is revoked. -/
def execReleaseProcessing (p : Fin 16) (s : State) : Out :=
  match (s.port p).fifo with
  | b :: _ => if b.release then s.on 4 (releaseIntent (revokeIntent (popBeat s p) p 2) p) else .next s
  | [] => .next s

/-- CONFIRM_WINDOW_EXPIRY (R147): CWIN has ended. -/
def execConfirmWindowExpiry (p : Fin 16) (s : State) : Out :=
  s.on 4 (if (s.port p).entry.cwin ≤ intentAge s p then revokeIntent s p 1 else s)

/-- SHED_DELAY_EXPIRY (R148): the armed phases of the revoked contribution in slot `k` of rail `n` are disarmed. -/
def execShedDelayExpiry (n : Fin 32) (k : Fin 4) (s : State) : Out :=
  let r := s.rail n
  let cs := r.contribs.map (fun c =>
    if c.slot = k.val ∧ c.phase = .revoked then { c with phadd := 0, armHeld := false } else c)
  s.onRail n (freeSlots (s.setRail n { r with contribs := cs }) n)

/-! ## Banks and the table (R140) -/

/-- Bank `b` is live for the entries of port `p` (R140): its BANK or DBANK, a bank that IPn_BANK named before and that no vector of the
new bank has replaced, or a bank that a vector still in place or still to come answers from. -/
def bankLive (s : State) (p b : Nat) : Bool :=
  s.fld IP_STAT_PSTATE p != psDisabled &&
    (s.fld IP_BANK_BANK p == b || s.fld IP_BANK_DBANK p == b || (s.port p).oldBanks.contains b
      || (let g := s.group (p / 4)
          g.active.banks.contains (p % 4, b)
            || (match g.inactive with | some i => i.banks.contains (p % 4, b) | none => false)))

/-- A write of IPn_BANK (R140): the bank that has answered stays refused for writes until a vector of the new bank is swapped in. -/
def bankWrite (s : State) (p : Nat) (w : Word) : State :=
  let was := liveBank s p
  let t := s.plainWrite IP_BANK w p
  if liveBank t p = was ∨ t.fld IP_STAT_PSTATE p = psDisabled then t
  else t.setPort p { t.port p with oldBanks := (t.port p).oldBanks ++ [was] }

/-- BANK_CHANGE (R140). -/
def execBankChange (p : Fin 16) (w : Word) (s : State) : Out := s.on 4 (s.ifWritable (bankWrite s p w))

/-- A write of word `i` of the Intent Table (R140, R369). -/
def writeIntentTable (s : State) (i : Nat) (v : Word) : State × Status :=
  if bankLive s (i % 4096 / 256) (i / 4096) then (s, .livebank)
  else
    let (t, ok) := s.writeRam 2 i v
    (t, ramStatus ok)

/-- INTENT_TABLE_WRITE (R140): word `i` of the table, bank after bank. -/
def execIntentTableWrite (i : Fin 32768) (v : Word) (s : State) : Out := s.on 4 (s.ifWritable (writeIntentTable s i v).1)

/-! ## The groups' clocks and supplies (R159, R447) -/

/-- The port is in HANDSHAKE or LIVE (R132). -/
def portRuns (s : State) (p : Nat) : Bool := s.fld IP_STAT_PSTATE p == psHandshake || s.fld IP_STAT_PSTATE p == psLive

/-- A port that answers on its balls (R138, R159): in HANDSHAKE or LIVE with SRC = 0. -/
def portOnBalls (s : State) (p : Nat) : Bool := portRuns s p && !s.flag IP_CTRL_SRC p

/-- A port loses its clock (R159): CLKLOST, its FIFO discarded (R383), its SUBJ intent revoked. -/
def loseClock (s : State) (p : Nat) : State :=
  if portRuns s p then
    let s := s.setPort p { s.port p with fifo := [], first := none, iack := 0 }
    (revokeIntent (s.setFld IP_STAT_PSTATE psClklost p) p 8).event IP_EVT_CLKSTOP p
  else s

/-- ICLKg stops (R159). -/
def iclkStop (s : State) (g : Nat) : State :=
  let ps := (List.range 4).map (fun i => 4 * g + i)
  let s := s.setFlag IPT_GRP_CLKOK false g
  if ps.any (portOnBalls s) then
    let s := ps.foldl loseClock (s.setStopped g true)
    (s.event IPT_GRP_CLKSTOP g).postFault 341 g 0 0
  else s
/-- ICLK_STOP (R159). -/
def execIclkStop (g : Fin 4) (s : State) : Out := s.on 4 (iclkStop s g)

/-- ICLK_RETURN (R159): ICLKg has run for 1 µs; the ports come up again. -/
def execIclkReturn (g : Fin 4) (s : State) : Out :=
  let s' := (List.range 4).foldl (fun s i =>
    let p := 4 * g.val + i
    if s.fld IP_STAT_PSTATE p = psClklost then portBegin s p else s) (s.setFlag IPT_GRP_CLKOK true g)
  s.on 4 s'

/-- A write of IPn_CMD (R162). -/
def ipClrcnt (s : State) (p : Nat) : State :=
  let s := ((s.setFld IP_NCONF_COUNT 0 p).setFld IP_NREVK_COUNT 0 p).setFld IP_NDEFER_COUNT 0 p
  ((s.setFld IP_NREFUSE_COUNT 0 p).setFld IPT_REFUND_COUNT 0).setFld IPT_STALE_COUNT 0

/-- IP_CLRCNT (R162). -/
def execIpClrcnt (p : Fin 16) (s : State) : Out := s.on 4 (s.ifWritable (ipClrcnt s p))

/-- The range of a supply class in mV (R465): 1 the 1.8 V class, 2 the 3.3 V class. -/
def vddipRange (c : Nat) : Nat × Nat := if c = 1 then (1620, 1980) else (2970, 3630)

/-- The class of a VDDIPg of `mv` mV that is in class `was` (R465): 0 absent, 1 1.8 V, 2 3.3 V. A class is left at 30 mV outside its
range. -/
def vddipClass (was mv : Nat) : Nat :=
  if was ≠ 0 ∧ (vddipRange was).1 < mv + 30 ∧ mv < (vddipRange was).2 + 30 then was
  else if 1620 ≤ mv ∧ mv ≤ 1980 then 1
  else if 2970 ≤ mv ∧ mv ≤ 3630 then 2
  else 0

/-- VDDIP_CLASS_CHANGE (R447, R465): VDDIPg has stood at `mv` mV for 10 µs. Where its class changes, the group's ports that are not DISABLED
drain. -/
def execVddipClassChange (g : Fin 4) (mv : Nat) (s : State) : Out :=
  let c := vddipClass (cellGet 0 s.pins.vddip g) mv
  let s := { s with pins := { s.pins with vddip := cellSet 0 s.pins.vddip g c } }
  if !s.powered 4 ∨ s.fld IPT_GRP_IOSTAT g = c then .next s
  else
    let was := s.fld IPT_GRP_IOSTAT g
    let s := s.setFld IPT_GRP_IOSTAT c g
    if was = 0 then .next s
    else .next ((List.range 4).foldl (fun s i => drainPort s (4 * g.val + i)) s)

/-! ## INTENT at an SRC = 1 port (R216) -/

/-- A beat of the INTENT instruction on port `p`: the state after, and the IACK value. The answer is that of the core's own
copy of the vector (R133, R216). -/
def intentBeat (s : State) (p c scale : Nat) : State × Nat :=
  if s.fld IP_STAT_PSTATE p ≠ psLive then (s, 0)
  else if c = 0 then
    (releaseBeat s p, releaseAnswer s)
  else
    let v := if !anticipationLive s.anticMode then {} else if (s.port p).busy then { ans := .defer, cause := 1 }
      else answerFor s (liveBank s p) p c
    let s := giveAnswer s p c (if s.fld IP_STAT_VER p = 2 then scale else 63) (s.group (p / 4)).epoch v
    (s, iackCode v.ans)

/-! ## Views and mode changes -/

/-- IPT_RSLOTn (R162): one byte per slot. -/
def rslotView (s : State) (n : Nat) : Word :=
  wordOf ((s.rail n).contribs.foldl (fun a c =>
    let ph := match c.phase with | .subj => 1 | .confirmed => 2 | .revoked => 3
    a + (128 + 32 * ph + c.port) <<< (8 * c.slot)) 0)

/-- The cleared vector of group `g` (R39): no code is granted, so it covers every allowance reduction. -/
def clearVector (s : State) (g : Nat) : State :=
  let h := s.group g
  let ep := (h.epoch + 1) % 256
  let ps := (List.range 4).map (fun i => 4 * g + i)
  let buf : VecBuf :=
    { epoch := ep, gcounts := ps.map (fun p => (p % 4, s.fld IP_STAT_GCOUNT p))
      cuts := ps.map (fun p => (p % 4, (s.port p).cutSeq))
      opens := (ps.filter (fun p => s.fld IP_OPEN_STATE p != 0)).map (· % 4) }
  s.setGroup g { h with epoch := ep, inactive := some buf }

/-- Anticipation on a mode change to `m` (R38, R39, R158, R228), before the change completes. -/
def anticipationModeChange (s : State) (old m : Nat) : State :=
  if !s.powered 4 then s
  else
    let s := if m = modePlinth ∨ m = modeProvision then (List.range 16).foldl drainPort s else s
    if !anticipationLive m then
      let s := (List.range 4).foldl clearVector s
      let s := (List.range 16).foldl (fun s p => revokeIntent s p 6) s
      let s := (List.range 16).foldl (fun s p => reduceAllowance s p (s.fld IP_ALLOW_ALLOW p)) s
      (List.range 4).foldl clearVector s
    else if m = modeDegraded ∧ (old = modeRun ∨ old = modeCharge) then
      let s := (List.range 16).foldl (fun s p =>
        if s.fld IP_OPEN_BANK p ≠ s.fld IP_BANK_DBANK p then revokeIntent s p 9 else s) s
      (List.range 4).foldl publish s
    else s

end Sys2Proof.Machine
end

