-- ==== Sys2Proof/Machine/Pat.lean ====
section
/-! DEFINITION. The patina log (19_patina_log.md): the records' bytes, the ring, the mark, the clear, the rebuild, and the offload
ports. -/
namespace Sys2Proof.Machine

/-! ## Records (R424, R425) -/

/-- The number whose bytes, highest first, are given. -/
def bytesNum (l : List Nat) : Nat := l.foldl (fun a b => a * 256 + b % 256) 0

/-- CRC-16-CCITT over bytes, first byte first (R375). -/
def crc16Bytes (l : List Nat) : Nat := crc16 (8 * l.length) (bytesNum l)

/-- Bytes filled with zeros, or cut, to `k`. -/
def padBytes (k : Nat) (l : List Nat) : List Nat := (l ++ List.replicate k 0).take k

/-- A record takes FORM 1 at its write (R427). -/
def formMark (s : State) (kind : Nat) : Bool :=
  let m := s.cur
  m == modeWake || m == modePlinth || m == modeService || m == modeProvision || m == modeDegraded || m == modeShutdown
    || s.flag FLT_FFSRC_ACTIVE || s.flag PAT_CTRL_MARKALL || kind == 2

/-- Bytes 0–29 of a record (R424). -/
def recordHead (r : PatRecord) (seq mode : Nat) (lost mark : Bool) : List Nat :=
  natBytes 2 seq ++ [r.kind, mode % 16 * 16 + lost.toNat * 8 + r.inj.toNat * 4 + r.replay.toNat * 2 + mark.toNat]
    ++ natBytes 7 r.time ++ [r.src] ++ padBytes 18 r.bytes

/-- The 32 bytes of slot `i`. -/
def slotBytes (s : State) (i : Nat) : List Nat := (List.range 32).map (fun k => (s.byte (patBase + 32 * i + k)).toNat)

/-- The bytes of a record are valid (R425), its line aside. -/
def bytesValid (l : List Nat) : Bool :=
  l.getD 2 0 != 0 &&
    (if l.getD 3 0 % 2 = 1 then l.getD 30 0 == 0 && l.getD 31 0 == 0xA5
     else l.getD 30 0 + 256 * l.getD 31 0 == crc16Bytes (l.take 30))

/-- The record in slot `i` is valid (R425). -/
def slotValid (s : State) (i : Nat) : Bool := (match s.damage 3 i with | .many => false | _ => true) && bytesValid (slotBytes s i)

/-- The line of slot `i` written whole (R427). -/
def writeSlot (s : State) (i : Nat) (l : List Nat) : State :=
  (repairLine s 3 i).setBytes (patBase + 32 * i) (l.map (fun b => BitVec.ofNat 8 b))

/-! ## The ring (R428–R430) -/

/-- The record written next has its CRC, or its mark, altered by an armed injection (R361, R428). -/
def recordAltered (s : State) : Bool := s.injects 368 0 == some false

/-- The slots that hold anything: those with a byte that is not zero, or with damage. -/
def usedSlots (s : State) : List Nat :=
  ((s.mem.filter (fun c => decide (patBase ≤ c.1) && decide (c.1 < patBase + 131072))).map (fun c => (c.1 - patBase) / 32)
    ++ (s.lines.filter (fun c => decide (patBase / 32 ≤ c.1) && decide (c.1 < patBase / 32 + 4096))).map
      (fun c => c.1 - patBase / 32)).dedup

/-- The slots that hold a valid record (R425). -/
def validSlots (s : State) : List Nat := (usedSlots s).filter (fun i => slotValid s i)

/-- PAT_STAT.COUNT: the valid records of the ring as it stands (R430); 0 until a rebuild has found them (R432). -/
def patCount (s : State) : Nat := if s.flag PAT_STAT_REBUILD then 0 else (validSlots s).length

/-- The read-back of a record (R428). -/
def readBack (s : State) (i : Nat) : State :=
  let s := s.injectItem ⟨368, 0, 0, wordOf i⟩ id
  let (t, ok) := s.readLine 3 i
  if ok && bytesValid (slotBytes t i) then t else s.injectTake ((t.event PAT_EVT_WFAIL).postFault 368 0 0 (wordOf i)) 368 0

/-- The ring keeps its records, and the next would overwrite a valid one (R430). -/
def ringStopped (s : State) : Bool := s.flag PAT_CTRL_FULLSTOP && slotValid s (s.fld PAT_HEAD_HEAD)

/-- PAT_STAT as it reads (R430, R436): FULL while FULLSTOP keeps a full ring, and COUNT. -/
def patStatView (s : State) (w : Word) : Word :=
  Word.setBits (Word.setBit w 28 (ringStopped s && !s.flag PAT_STAT_CLEARING && !s.flag PAT_STAT_REBUILD)) 12 0 (patCount s)

/-- NEW counts a record (R430). -/
def countNew (s : State) : State :=
  let s := s.countTo PAT_NEW_COUNT 4096
  let w := s.fld PAT_CTRL_WMARK
  if w ≠ 0 ∧ w ≤ s.fld PAT_NEW_COUNT ∧ !s.pat.wmarkDone then
    { s.event PAT_EVT_WMARK with pat := { s.pat with wmarkDone := true } }
  else s

/-- The copy of a start-up record in the ring of PD0 takes the LOST flag of the copy in the log: but for SEQ the two agree (R71). -/
def ringLost (s : State) (b : List Nat) : State :=
  { s with boot := { s.boot with ring := s.boot.ring.map (fun l =>
      if l.getD 2 0 = 2 ∧ (l.take 30).drop 4 = b.drop 4 then l.set 3 (b.getD 3 0) else l) } }

/-- The record `r` goes to slot HEAD (R424, R427, R429, R430). -/
def putRecord (s : State) (r : PatRecord) : State :=
  let h := s.fld PAT_HEAD_HEAD
  let seq := s.fld PAT_HEAD_NEXTSEQ
  let mark := formMark s r.kind
  let b := recordHead r seq (r.mode.getD s.cur) s.pat.lostFlag mark
  let c := if recordAltered s then crc16Bytes b ^^^ 0xFFFF else crc16Bytes b
  let s := writeSlot s h (b ++ (if mark then [0, 0] else natBytes 2 c))
  let s := if r.kind = 2 ∧ s.pat.lostFlag then ringLost s b else s
  let s := { s with pat := { s.pat with lostFlag := false } }
  let s := (s.setFld PAT_GEN_GEN (s.fld PAT_GEN_GEN + 1)).setFld PAT_HEAD_HEAD ((h + 1) % 4096)
  let s := s.setFld PAT_HEAD_NEXTSEQ ((seq + 1) % 65536)
  let s := countNew s
  if mark then { s.setFlag PAT_STAT_PEND true with pat := { s.pat with mark := some h } } else readBack s h

/-- The LOST record that the queue takes when it has room again (R429). -/
def queueLost (s : State) : State :=
  if s.pat.dropped = 0 ∨ 8 ≤ s.pat.queue.length ∨ ringStopped s then s
  else
    let r : PatRecord := { kind := 9, src := 0x44, time := s.tbase, bytes := natBytes 4 s.pat.dropped }
    { s with pat := { s.pat with queue := s.pat.queue ++ [r], dropped := 0 } }

/-- The record that is written next, and the state without it: the MODE record that PD0 holds for this power-up (R46), then the oldest of
the queue. -/
def nextRecord (s : State) : Option (PatRecord × State) :=
  match s.mode.heldRecord, s.pat.queue with
  | some r, _ => some (r, { s with mode := { s.mode with heldRecord := none } })
  | none, r :: l => some (r, { s with pat := { s.pat with queue := l } })
  | none, [] => none

/-- RECORD_WRITE (R427–R430): the next record is written, or dropped by a full ring that stops. -/
def recordWrite (s : State) : State :=
  if s.flag PAT_STAT_PEND || s.flag PAT_STAT_CLEARING || s.flag PAT_STAT_REBUILD || !s.flag PAT_CTRL_EN then s
  else match nextRecord s with
    | none => s
    | some (r, s) => if ringStopped s then s.dropRecord else queueLost (putRecord s r)
def execRecordWrite (s : State) : Out := s.on 10 (recordWrite s)

/-- MARK_WRITE (R427, R428): byte 31 of the record that awaits its mark. -/
def markWrite (s : State) : State :=
  match s.pat.mark with
  | none => s
  | some i =>
    let (s, ok) := s.readLine 3 i
    let s := if ok then s else repairLine (s.zeroBytes (patBase + 32 * i) 32) 3 i
    let s := s.setByte (patBase + 32 * i + 31) (if recordAltered s then 0x5A else 0xA5)
    let s := { s with pat := { s.pat with mark := none } }
    readBack (s.setFlag PAT_STAT_PEND false) i
def execMarkWrite (s : State) : Out := s.on 10 (markWrite s)

/-! ## Clearing and rebuilding (R431, R432) -/

/-- A master numbered as SRC (R424): an engine by the program that it runs. -/
def patSrc (s : State) (m : Nat) : Nat := if m < 48 then s.fld ENG_STAT_PROG m else m

/-- CLR by master `m` with a key (R431). -/
def patClr (s : State) (m key : Nat) : State × Status :=
  if key ≠ 0xC1EA then (s, .keyerr)
  else if s.flag PAT_STAT_CLEARING || s.flag PAT_STAT_REBUILD then (s, .busy)
  else ({ s.setFlag PAT_STAT_CLEARING true with pat := { s.pat with clearBy := patSrc s m } }, .ok)

/-- CLEAR_COMPLETE (R431): every line is zero, and the CLEAR record is written to slot 0. -/
def clearComplete (s : State) : State :=
  if !s.flag PAT_STAT_CLEARING || s.flag PAT_STAT_PEND then s
  else
    let last := (s.fld PAT_HEAD_NEXTSEQ + 65535) % 65536
    let r : PatRecord := { kind := 0xA, src := s.pat.clearBy, time := s.tbase,
                           bytes := [s.pat.clearBy] ++ natBytes 2 last ++ natBytes 2 (patCount s) }
    let s := s.zeroBytes patBase 131072
    let s := { s with lines := cellKeep (fun k => decide (k < patBase / 32) || decide (patBase / 32 + 4096 ≤ k)) s.lines }
    let s := s.setFld PAT_GEN_GEN ((s.fld PAT_GEN_GEN + 4096) % 2 ^ 32)
    let s := ((s.setFld PAT_HEAD_HEAD 0).setFlag PAT_STAT_CLEARING false).event PAT_EVT_CLEARED
    if s.flag PAT_CTRL_EN then queueLost (putRecord s r) else s
def execClearComplete (s : State) : Out := s.on 10 (clearComplete s)

/-- `a` is greater than `b` in 16-bit serial arithmetic (R432). -/
def serialGt (a b : Nat) : Bool :=
  let d := (a + 65536 - b % 65536) % 65536
  decide (0 < d) && decide (d < 32768)

/-- SEQ of a slot. -/
def slotSeq (s : State) (i : Nat) : Nat := (slotBytes s i).getD 0 0 + 256 * (slotBytes s i).getD 1 0

/-- REBUILD_COMPLETE (R432): every line is read, and the registers are set from the records. -/
def rebuildComplete (s : State) : State :=
  if !s.flag PAT_STAT_REBUILD then s
  else
    let s := (usedSlots s).foldl (fun s i => (s.readLine 3 i).1) s
    let newest := (validSlots s).foldl (fun a i => match a with
      | none => some i
      | some j => if serialGt (slotSeq s i) (slotSeq s j) then some i else a) none
    let s := (s.setFlag PAT_STAT_REBUILD false).setFld PAT_GEN_GEN 0
    match newest with
    | none => (s.setFld PAT_HEAD_HEAD 0).setFld PAT_HEAD_NEXTSEQ 0
    | some j => (s.setFld PAT_HEAD_HEAD ((j + 1) % 4096)).setFld PAT_HEAD_NEXTSEQ ((slotSeq s j + 1) % 65536)
def execRebuildComplete (s : State) : Out := s.on 10 (rebuildComplete s)

/-- The drain of R433: the record in progress gets its mark, the queue is dropped and counted. -/
def patDrain (s : State) : State :=
  let s := markWrite s
  let s := s.pat.queue.foldl (fun s _ => s.dropRecord) s
  { s.event PAT_EVT_ABORTED with pat := { s.pat with queue := [] } }

/-- The reset of PAT with PD10, or by a block reset (R354, R432): a rebuild follows. -/
def patReset (s : State) : State :=
  let rs := [PAT_CTRL, PAT_STAT, PAT_HEAD, PAT_GEN, PAT_LOST, PAT_NEW, PAT_EVT, PAT_EVTEN]
  { rs.foldl (fun s r => s.resetReg r) s with pat := {} }

/-! ## Commands and reading -/

/-- ACK (R430) and CLRCNT (R436). -/
def patAck (s : State) : State := { s.setFld PAT_NEW_COUNT 0 with pat := { s.pat with wmarkDone := false } }
def patClrcnt (s : State) : State := { s.setFld PAT_LOST_COUNT 0 with pat := { s.pat with satLost := false } }
def execAckNew (s : State) : Out := s.on 10 (s.ifWritable (patAck s))
def execPatClrcnt (s : State) : Out := s.on 10 (s.ifWritable (patClrcnt s))

/-- The snapshot words of a master's offload port. -/
def offData (k : Nat) : Reg :=
  match k with
  | 0 => PAT_OFFDATA0 | 1 => PAT_OFFDATA1 | 2 => PAT_OFFDATA2 | 3 => PAT_OFFDATA3
  | 4 => PAT_OFFDATA4 | 5 => PAT_OFFDATA5 | 6 => PAT_OFFDATA6 | _ => PAT_OFFDATA7

/-- A read of OFFDATA0 by master `m` takes the snapshot (R435). -/
def offSnapshot (s : State) (m : Nat) : State :=
  let i := s.fld PAT_OFFIDX_IDX m
  let busy := s.flag PAT_STAT_CLEARING || s.flag PAT_STAT_REBUILD
  let (s, ok) := if busy then (s, true) else s.readLine 3 i
  let show' := ok && !busy
  let s := (List.range 8).foldl (fun s k => s.setReg (offData k) (if show' then s.word patBase (8 * i + k) else 0) m) s
  let s := (s.setFlag PAT_OFFSTAT_VALID (show' && slotValid s i) m).setFlag PAT_OFFSTAT_ECC (!ok) m
  s.setFld PAT_OFFSTAT_SNAPIDX i m

/-- A read of OFFDATA7 by master `m` (R435). -/
def offAdvance (s : State) (m : Nat) : State :=
  if s.flag PAT_OFFIDX_AUTOINC m then s.setFld PAT_OFFIDX_IDX ((s.fld PAT_OFFIDX_IDX m + 1) % 4096) m else s

/-- Master `m` is a host port that is frozen, and so executes no read (R336). -/
def frozenPort (s : State) (m : Nat) : Bool := decide (48 ≤ m) && decide (m < 51) && s.flag SYS_HSTAT_FROZEN (m - 48)

def execOffdata0Read (m : Fin 51) (s : State) : Out := s.on 10 (if frozenPort s m then s else offSnapshot s m)
def execOffdata7Read (m : Fin 51) (s : State) : Out := s.on 10 (if frozenPort s m then s else offAdvance s m)

/-- A write of a PAT word at offset `off` of 0x0B00 by master `m` (R436). -/
def patWrite (s : State) (off m : Nat) (w : Word) : State × Status :=
  match off with
  | 0 => (s.plainWrite PAT_CTRL w, .ok)
  | 6 =>
    let (t, st) := if Word.bit w 0 then patClr s m (Word.bits w 31 16) else (s, .ok)
    if st = .ok then
      let t := if Word.bit w 2 then patAck t else t
      (if Word.bit w 1 then patClrcnt t else t, .ok)
    else (s, st)
  | 7 => (s.plainWrite PAT_EVT w, .ok)
  | 8 => (s.plainWrite PAT_EVTEN w, .ok)
  | 0x10 => (s.plainWrite PAT_OFFIDX w m, .ok)
  | _ => (s, .ok)

end Sys2Proof.Machine
end

