-- ==== Sys2Proof/Machine/Chk.lean ====
section
/-! DEFINITION. Data integrity (16_data_integrity.md): the scrub, the checks of complement pairs, the CRC units, the start and the
abort of scan jobs, and the alive checkers. -/
namespace Sys2Proof.Machine

/-! ## CRC functions (R375) -/

/-- One bit through the reflected CRC-32. -/
def crc32Bit (acc : Nat) : Nat := if acc.testBit 0 then (acc / 2) ^^^ 0xEDB88320 else acc / 2

/-- `k` bits through the reflected CRC-32. -/
def crc32Bits : Nat → Nat → Nat
  | 0, acc => acc
  | k + 1, acc => crc32Bits k (crc32Bit acc)

/-- The initial value of a CRC function: 0 CRC-32, 1 CRC-16-CCITT, 2 CRC-8. -/
def crcInit (kind : Nat) : Nat := match kind with | 0 => 0xFFFFFFFF | 1 => 0xFFFF | _ => 0xFF

/-- One byte fed to a CRC function. -/
def crcByte (kind acc b : Nat) : Nat :=
  match kind with
  | 0 => crc32Bits 8 (acc ^^^ (b % 256))
  | 1 => crcBits 16 0x1021 8 b acc
  | _ => crcBits 8 0x1D 8 b acc

/-- The result with the final XOR applied. -/
def crcFinal (kind acc : Nat) : Nat := match kind with | 0 => acc ^^^ 0xFFFFFFFF | 1 => acc | _ => acc ^^^ 0xFF

/-- Several bytes fed. -/
def crcFeed (kind acc : Nat) (l : List Nat) : Nat := l.foldl (crcByte kind) acc

/-- The bytes of a word, lowest first. -/
def wordNats (w : Word) : List Nat := natBytes 4 w.toNat

/-! ## Scrubbing (R371) -/

/-- The lines of a RAM. -/
def ramLines (r : Nat) : Nat := ramWords r / 8

/-- A RAM that the scrub visits: selected and powered. -/
def scrubVisits (s : State) (r : Nat) : Bool := s.fbit CHK_CTRL_SCRUBMASK r && s.powered (ramDomain r)

/-- The RAM of the next scrubbed line, from RAM `r` on, and whether a pass ends on the way; none when no RAM is visited. -/
def scrubNext (s : State) (r : Nat) : Option (Nat × Bool) :=
  match (List.range 6).find? (fun k => decide (r ≤ k) && scrubVisits s k) with
  | some k => some (k, false)
  | none => ((List.range 6).find? (scrubVisits s)).map (fun k => (k, true))

/-- The scrub is not held by a job or by a freeze. -/
def scrubRuns (s : State) : Bool :=
  s.flag CHK_CTRL_SCRUBEN && (match s.chk.job with | none => true | some _ => false) && !s.flag SYS_SFRZ_FROZEN

/-- A pass has ended (R371). -/
def scrubPassed (s : State) : State := s.setFld CHK_SCPASS_COUNT (s.fld CHK_SCPASS_COUNT + 1)

/-- The scrub goes on at line `i` of RAM `r`. -/
def scrubAt (s : State) (r i : Nat) : State := { s with chk := { s.chk with scrubRam := r, scrubLine := i } }

/-- After line `i` of RAM `r`: the next line, the next RAM that is visited, or the end of the pass. -/
def scrubAfter (s : State) (r i : Nat) : State :=
  if i + 1 < ramLines r then scrubAt s r (i + 1)
  else match scrubNext s (r + 1) with
    | some (k, false) => scrubAt s k 0
    | _ => scrubAt (scrubPassed s) 0 0

/-- One scrubbed line (R371, R367). Where the RAM at which the walk stood is no longer visited, it goes on at the next one, or ends its
pass and begins again. -/
def scrubRead (s : State) : State :=
  if !scrubRuns s then s
  else
    let c := s.chk
    if scrubVisits s c.scrubRam && decide (c.scrubLine < ramLines c.scrubRam) then
      scrubAfter (s.readLine c.scrubRam c.scrubLine).1 c.scrubRam c.scrubLine
    else match scrubNext s c.scrubRam with
      | none => s
      | some (r, wrapped) => scrubAfter ((if wrapped then scrubPassed s else s).readLine r 0).1 r 0
def execScrubRead (s : State) : Out := s.on 10 (scrubRead s)

/-! ## Complement pairs (R372, R373) -/

/-- The bit that R335 gives the block of a host address: its bit in SYS_HPERM1 and SYS_HPERMS. -/
def blockBit (a : Nat) : Nat :=
  if a < 0x100 then 0 else if a < 0x200 then 1 else if a < 0x400 then 2 else if a < 0x800 then 3 else if a < 0x900 then 4
  else if a < 0xA00 then 5 else if a < 0xB00 then 6 else if a < 0xC00 then 7 else if a < 0xD00 then 8
  else if a < 0xE00 then 9 else if a < 0xF00 then 10 else if a < 0x1000 then 11 else if a < 0x2000 then 12
  else if a < 0x3000 then 13 else if a < 0x3800 then 14 else if a < 0x3C00 then 15 else if a < 0x3E00 then 16
  else if a < 0x3F00 then 17 else if a < 0x4000 then 18 else if a < 0x5000 then 19 else if a < 0x6000 then 20
  else if a < 0x7000 then 21 else 22

/-- The pair of the word at a host address is found to differ: REG_PAIR asserts once until the pair is repaired. -/
def pairMismatch (s : State) (a detail : Nat) : State :=
  let k := 65536 * 355 + a
  if cellGet false s.flt.level k then s
  else { s with flt := { s.flt with level := cellSet false s.flt.level k true } }.postFault 355 (blockBit a) detail (wordOf a)

/-- The two halves of the pair at a host address differ. -/
def State.pairBad (s : State) (a : Nat) : Bool := (cellGet (0, 0) s.pairs a).2 != 0

/-- A pair at a host address is checked (R372): REG_PAIR asserts where it does not match. An armed injection lets the value come without
its complement (R361). -/
def pairCheck (s : State) (a : Nat) : State :=
  let t := s.injectItem ⟨355, blockBit a, 0, wordOf a⟩ (fun s => { s with pairs := cellSet (0, 0) s.pairs a (0, 0xFFFFFFFF) })
  if t.pairBad a then s.injectTake (pairMismatch t a 0) 355 (blockBit a) else t

/-- The split pairs that wait at a word are discarded, and their masters but `m` are told (R373). -/
def supersedeSplit (s : State) (m a : Nat) : State :=
  let l := (s.chk.split.filter (fun h => h.addr == a && h.master != m)).map (fun h => h.master)
  { s with chk := { s.chk with
      split := s.chk.split.filter (fun h => h.addr != a)
      late := s.chk.late.filter (fun x => x != (a, m)) ++ l.map (fun k => (a, k))
      told := l.foldl (fun t k => cellSet Status.none t k .superseded) s.chk.told } }

/-- A write of a correct pair ends a mismatch. -/
def pairRepair (s : State) (a : Nat) : State :=
  { s with pairs := cellErase s.pairs a, flt := { s.flt with level := cellErase s.flt.level (65536 * 355 + a) } }

/-- A correct pair has been written to a word by master `m` (R372, R373): it stands, and a mismatch has ended. -/
def pairWritten (s : State) (m a : Nat) : State :=
  let s := supersedeSplit s m a
  if s.pairBad a then pairRepair s a else s

/-- SPLIT_PAIR_TIMEOUT (R373): a value half has not been completed within 32 core cycles. -/
def execSplitPairTimeout (a : Fin 65536) (s : State) : Out :=
  let s := { s with chk := { s.chk with late := s.chk.late.filter (fun x => x.1 != a.val) } }
  .next (if s.chk.split.any (fun h => h.addr == a.val) then
    { s with chk := { s.chk with split := s.chk.split.filter (fun h => h.addr != a.val) } }.postFault 355 (blockBit a) 1
      (wordOf a)
  else s)

/-! ## CRC units (R376) -/

/-- A write of CHK_CRCCFGu by master `m`: CLAIM, RELEASE, or the fields alone. -/
def writeCrccfg (s : State) (u m : Nat) (w : Word) : State × Status :=
  let kind := Word.bits w 3 2
  let owned := s.flag CHK_CRCCFG_OWNED u
  if owned ∧ s.fld CHK_CRCCFG_MASTER u ≠ m then (s, .busy)
  else if kind = 3 then (s, .illegal)
  else
    let s := (s.setFld CHK_CRCCFG_KIND kind u).setFld CHK_CRCCFG_ORDER (Word.bits w 4 4) u
    let s := if Word.bit w 0 then
        let s := (s.setFlag CHK_CRCCFG_OWNED true u).setFld CHK_CRCCFG_MASTER m u
        { s.setFld CHK_CRCRES_CRC (crcFinal kind (crcInit kind)) u with
          chk := { s.chk with crc := cellSet 0 s.chk.crc u (crcInit kind) } }
      else s
    (if Word.bit w 1 then (s.setFlag CHK_CRCCFG_OWNED false u).setFld CHK_CRCCFG_MASTER 0 u else s, .ok)

/-- Bytes written to a unit's data words (R376). -/
def crcWrite (s : State) (u m : Nat) (l : List Nat) : State × Status :=
  if !s.flag CHK_CRCCFG_OWNED u ∨ s.fld CHK_CRCCFG_MASTER u ≠ m then (s, .busy)
  else
    let kind := s.fld CHK_CRCCFG_KIND u
    let a := crcFeed kind (cellGet 0 s.chk.crc u) l
    ({ s.setFld CHK_CRCRES_CRC (crcFinal kind a) u with chk := { s.chk with crc := cellSet 0 s.chk.crc u a } }, .ok)

/-- A word's bytes in the order of ORDER. -/
def crcOrder (s : State) (u : Nat) (w : Word) : List Nat :=
  if s.flag CHK_CRCCFG_ORDER u then (wordNats w).reverse else wordNats w

/-- CRC_UNIT_TIMEOUT (R376): 10 ms without a write from the owner. -/
def execCrcUnitTimeout (u : Fin 2) (s : State) : Out :=
  s.on 10 (if s.flag CHK_CRCCFG_OWNED u then (s.setFlag CHK_CRCCFG_OWNED false u).setFld CHK_CRCCFG_MASTER 0 u else s)

/-! ## Scan jobs (R377–R380) -/

/-- The states of SJSTAT. -/
def sjRunning : Nat := 1
def sjDone : Nat := 2
def sjAborted : Nat := 3
def sjFrozen : Nat := 4

/-- The words of a space. -/
def spaceWords (sp : Nat) : Nat := if sp = 6 then 0x4000 else ramWords sp

/-- A kind is permitted for a space (R377). -/
def jobAllowed (jkind sp : Nat) : Bool :=
  match jkind with
  | 2 => decide (sp ≤ 5)
  | 3 => sp == 1 || sp == 2 || sp == 5
  | _ => decide (sp ≤ 6)

/-- A line of an Intent Table range lies in a live bank (R378, R140). -/
def rangeLive (s : State) (w len : Nat) : Bool :=
  (List.range 16).any (fun p => (List.range 8).any (fun b =>
    bankLive s p b && decide (4096 * b + 256 * p < (w + len + 7) / 8 * 8) && decide (w / 8 * 8 < 4096 * b + 256 * p + 256)))

/-- The words of line `i` that lie in the range of `len` words from `w`. -/
def lineWords (w len i : Nat) : List Nat := (List.range 8).filterMap (fun j =>
  if w ≤ 8 * i + j ∧ 8 * i + j < w + len then some (8 * i + j) else none)

/-- One line of a RAM read by the job: its words enter the CRC, as zeros where it is uncorrectable or unpowered. -/
def scanLine (job : ScanJob) (x : State × ScanAcc) (i : Nat) : State × ScanAcc :=
  let ws := lineWords job.word job.len i
  if !x.1.powered (ramDomain job.space) then (x.1, { x.2 with crc := crcFeed job.kind x.2.crc (ws.flatMap (fun _ => [0, 0, 0, 0])) })
  else
    let d := x.1.damage job.space i
    let (s, ok) := x.1.readLine job.space i
    let bytes := ws.flatMap (fun k => wordNats (if ok then s.word (ramBase job.space) k else 0))
    (s, { crc := crcFeed job.kind x.2.crc bytes, ue := x.2.ue || !ok,
          corr := if d = .one then min (x.2.corr + 1) 0xFFFF else x.2.corr })

/-- One line of a RAM filled with CHK_SJPAT (R377); an unpowered one takes no write. -/
def fillLine (job : ScanJob) (x : State × ScanAcc) (i : Nat) : State × ScanAcc :=
  if !x.1.powered (ramDomain job.space) then x
  else
    let d := x.1.damage job.space i
    let pat := x.1.reg CHK_SJPAT
    ((lineWords job.word job.len i).foldl (fun s k =>
        let t := (s.writeRam job.space k pat).1
        if job.space = 1 then t.markWritten k else t) x.1,
      { x.2 with ue := x.2.ue || d == .many, corr := if d = .one then min (x.2.corr + 1) 0xFFFF else x.2.corr })

/-- The lines of the job's range. -/
def jobLines (job : ScanJob) : List Nat :=
  (List.range ((job.word + job.len + 7) / 8 - job.word / 8)).map (fun k => job.word / 8 + k)

/-- One line of a job in a RAM (R379). -/
def jobLine (job : ScanJob) (x : State × ScanAcc) (i : Nat) : State × ScanAcc :=
  if job.jkind = 3 then fillLine job x i else scanLine job x i

/-- A FILL of the Intent Table stops at a line of a live bank (R379). -/
def fillStops (s : State) (job : ScanJob) (i : Nat) : Bool := job.jkind == 3 && job.space == 2 && rangeLive s (8 * i) 8

/-- SJSTAT's UE and CORR as the job has gathered them. -/
def showAcc (s : State) (x : ScanAcc) : State := (s.setFlag CHK_SJSTAT_UE x.ue).setFld CHK_SJSTAT_CORR x.corr

/-- The word that the job reads after `k` lines of a RAM, or `k` words of space 6. -/
def jobPos (job : ScanJob) (k : Nat) : Nat :=
  if job.space = 6 then job.word + k else min (job.word + job.len) (max job.word (8 * (job.word / 8 + k)))

/-- The scan engine freezes (R380). -/
def scanFreeze (s : State) (a : Nat) : State :=
  let s := (s.setFlag SYS_SFRZ_FROZEN true).setFld SYS_SFRZ_ADDR (a % 65536)
  ({ s.setFld CHK_SJSTAT_STATE sjFrozen with chk := { s.chk with job := none } }).postFault 359 0 0 (wordOf a)

/-- GO by master `m` (R378). -/
def scanGo (s : State) (m : Nat) : State × Status :=
  let sp := s.fld CHK_SJADDR_SPACE
  let w := s.fld CHK_SJADDR_WORD
  let len := s.fld CHK_SJLEN_LEN
  let jk := s.fld CHK_SJCTRL_JKIND
  if s.fld CHK_SJSTAT_STATE = sjRunning then (s, .busy)
  else if s.flag SYS_SFRZ_FROZEN then (s, .frozen)
  else if len = 0 ∨ spaceWords sp < w + len then (s, .outofrange)
  else if !jobAllowed jk sp then ((scanFreeze s w).setFld CHK_SJSTAT_MASTER m, .ok)
  else if jk = 3 ∧ sp = 2 ∧ rangeLive s w len then (s, .livebank)
  else
    let s := s.setReg CHK_SJSTAT 0
    let s := ((s.setFld CHK_SJSTAT_STATE sjRunning).setFld CHK_SJSTAT_MASTER m).setFld CHK_SJPOS_WORD w
    let k := s.fld CHK_SJCTRL_KIND
    let job : ScanJob := { space := sp, word := w, len := len, jkind := jk, kind := k, acc := { crc := crcInit k } }
    ({ s with chk := { s.chk with job := some job } }, .ok)

/-- The job ends with STATE ABORTED, having passed `k` lines with `x` gathered. -/
def jobAborted (s : State) (job : ScanJob) (k : Nat) (x : ScanAcc) : State :=
  let s := ((showAcc s x).setFld CHK_SJPOS_WORD (jobPos job k)).setFld CHK_SJSTAT_STATE sjAborted
  { s with chk := { s.chk with job := none } }

/-- The line in progress of a job in a RAM is completed (R380); a word of space 6 shows nothing. -/
def finishLine (s : State) (job : ScanJob) : State × ScanAcc × Nat :=
  match (jobLines job)[job.passed]? with
  | some i =>
    if job.space = 6 ∨ fillStops s job i then (s, job.acc, job.passed)
    else ((jobLine job (s, job.acc) i).1, (jobLine job (s, job.acc) i).2, job.passed + 1)
  | none => (s, job.acc, job.passed)

/-- The job drains (R380): the line in progress is completed, and the rest of the range discarded. -/
def scanAbort (s : State) : State :=
  match s.chk.job with
  | none => s
  | some job =>
    let (t, x, k) := finishLine s job
    (jobAborted t job k x).event CHK_EVT_ABORTED

/-- A write of CHK_SJCTRL by master `m` (R378, R380, R386). -/
def writeSjctrl (s : State) (m : Nat) (w : Word) : State × Status :=
  if Word.bits w 9 8 = 3 then (s, .illegal)
  else
    let s := (s.setFld CHK_SJCTRL_KIND (Word.bits w 9 8)).setFld CHK_SJCTRL_JKIND (Word.bits w 5 4)
    let s := if Word.bit w 1 && (m == s.fld CHK_SJSTAT_MASTER || m == masterHost 0) then scanAbort s else s
    if Word.bit w 0 then scanGo s m else (s, .ok)

/-! ## Alive checkers (R381) -/

/-- A write of CHK_ALVk: the enabling write opens the first write; later ones are compared with the value before. -/
def writeAlv (s : State) (k : Nat) (w : Word) : State :=
  let was := s.flag CHK_ALV_EN k
  let old := s.fld CHK_ALV_VAL k
  let v := Word.bits w 3 0
  let t := s.plainWrite CHK_ALV w k
  if !Word.bit w 31 then t
  else if !was then { t with chk := { t.chk with alvOpen := t.chk.alvOpen ||| (1 <<< k) } }
  else if s.chk.alvOpen.testBit k then { t with chk := { t.chk with alvOpen := t.chk.alvOpen - (1 <<< k) } }
  else if v = (old + 1) % 16 then t
  else if v = old then (t.countTo CHK_ALVSTAT_REPEAT 0xFFFF k).event CHK_EVT_ALVERR
  else (t.countTo CHK_ALVSTAT_SKIP 0xFFFF k).event CHK_EVT_ALVERR
def execAliveWrite (k : Fin 8) (w : Word) (s : State) : Out := s.on 10 (s.ifWritable (writeAlv s k w))

/-- ALVTMO (R381): TMO ms without a write. -/
def execAlvtmo (k : Fin 8) (s : State) : Out :=
  s.on 10 (if s.flag CHK_ALV_EN k ∧ s.fld CHK_ALV_TMO k ≠ 0 then s.event CHK_EVT_ALVTMO else s)

/-! ## Writes (R386) -/

/-- CLRCNT (R386). -/
def chkClrcnt (s : State) : State :=
  (List.range 6).foldl (fun s r => (s.resetReg CHK_CECNT r).resetReg CHK_UECNT r) s
def execChkClrcnt (s : State) : Out := s.on 10 (s.ifWritable (chkClrcnt s))

/-- A write of a CHK word at offset `off` of 0x0A00 by master `m`. -/
def chkWrite (s : State) (off m : Nat) (w : Word) : State × Status :=
  if off = 0 then (s.plainWrite CHK_CTRL w, .ok)
  else if off = 2 then (s.plainWrite CHK_EVT w, .ok)
  else if off = 3 then (s.plainWrite CHK_EVTEN w, .ok)
  else if off = 4 then (if Word.bit w 0 then chkClrcnt s else s, .ok)
  else if 0x20 ≤ off ∧ off < 0x28 then
    let u := (off - 0x20) / 4
    match (off - 0x20) % 4 with
    | 0 => writeCrccfg s u m w
    | 1 => crcWrite s u m (crcOrder s u w)
    | 2 => crcWrite s u m [Word.bits w 7 0]
    | _ => (s, .ok)
  else if off = 0x30 then writeSjctrl s m w
  else if off = 0x31 then
    if 7 ≤ Word.bits w 31 28 then (s, .illegal) else (s.plainWrite CHK_SJADDR w, .ok)
  else if off = 0x32 then (s.plainWrite CHK_SJLEN w, .ok)
  else if off = 0x33 then (s.plainWrite CHK_SJEXP w, .ok)
  else if off = 0x34 then (s.plainWrite CHK_SJPAT w, .ok)
  else if 0x40 ≤ off ∧ off < 0x50 ∧ off % 2 = 0 then (writeAlv s ((off - 0x40) / 2) w, .ok)
  else (s, .ok)

end Sys2Proof.Machine
end

