-- ==== Sys2Proof/Machine/Flags.lean ====
section
/-! DEFINITION. The results and flags of the engines' data instructions (R193), each computed on exact integers and narrowed at
the end. -/
namespace Sys2Proof.Machine

/-- A result with the flags Z, N, C and V. -/
structure Alu where
  res : Word
  c : Bool := false
  v : Bool := false
  deriving DecidableEq, Repr

/-- Z and N follow the result (R193). -/
def Alu.z (a : Alu) : Bool := a.res == 0
def Alu.n (a : Alu) : Bool := a.res.msb

/-- An exact signed result fits 32 bits. -/
def fits32 (i : Int) : Bool := decide (-2147483648 ≤ i) && decide (i ≤ 2147483647)

/-- A + B: C is the carry out of bit 31, V the signed overflow. -/
def aluAdd (a b : Word) : Alu :=
  { res := wordOf (a.toNat + b.toNat), c := decide (2 ^ 32 ≤ a.toNat + b.toNat), v := !fits32 (a.toInt + b.toInt) }

/-- A − B: C is set when A is not below B unsigned, V the signed overflow. -/
def aluSub (a b : Word) : Alu :=
  { res := wordOfInt (a.toInt - b.toInt), c := decide (b.toNat ≤ a.toNat), v := !fits32 (a.toInt - b.toInt) }

/-- The low word of the signed product; V when the product does not fit. -/
def aluMul (a b : Word) : Alu := { res := wordOfInt (a.toInt * b.toInt), v := !fits32 (a.toInt * b.toInt) }

/-- The high word of the signed product. -/
def aluMulh (a b : Word) : Alu := { res := wordOfInt (Int.fdiv (a.toInt * b.toInt) (2 ^ 32)) }

/-- A result with C = V = 0: the bitwise operations, minimum and maximum. -/
def aluLogic (r : Word) : Alu := { res := r }
def aluMin (a b : Word) : Alu := aluLogic (if a.toInt ≤ b.toInt then a else b)
def aluMax (a b : Word) : Alu := aluLogic (if a.toInt ≤ b.toInt then b else a)

/-- Shift left by `k`: the last bit shifted out is bit 32 − k. -/
def aluShl (a : Word) (k : Nat) : Alu :=
  if k = 0 then { res := a }
  else { res := wordOf (a.toNat * 2 ^ k), c := decide (k ≤ 32) && a.toNat.testBit (32 - k) }

/-- Logical shift right by `k`: the last bit shifted out is bit k − 1. -/
def aluShr (a : Word) (k : Nat) : Alu :=
  if k = 0 then { res := a }
  else { res := wordOf (a.toNat / 2 ^ k), c := decide (k ≤ 32) && a.toNat.testBit (k - 1) }

/-- Arithmetic shift right by `k`; above 32, C is the sign. -/
def aluSar (a : Word) (k : Nat) : Alu :=
  if k = 0 then { res := a }
  else { res := wordOfInt (Int.fdiv a.toInt (2 ^ k)), c := if k ≤ 32 then a.toNat.testBit (k - 1) else a.msb }

/-- A clamped to the signed range of `n` bits; V when the clamp acted. -/
def aluSat (a : Word) (n : Nat) : Alu :=
  let lo : Int := -(2 ^ (n - 1))
  let hi : Int := 2 ^ (n - 1) - 1
  let r := if a.toInt < lo then lo else if hi < a.toInt then hi else a.toInt
  { res := wordOfInt r, v := decide (r ≠ a.toInt) }

/-- Whether a branch condition holds on Z, N, C and V (R197); none for the undefined 0xF. -/
def branchTaken (cond : Nat) (z n c v : Bool) : Option Bool :=
  match cond with
  | 0 => some z | 1 => some (!z) | 2 => some c | 3 => some (!c)
  | 4 => some n | 5 => some (!n) | 6 => some v | 7 => some (!v)
  | 8 => some (c && !z) | 9 => some (!c || z)
  | 10 => some (n == v) | 11 => some (n != v)
  | 12 => some (!z && n == v) | 13 => some (z || n != v)
  | 14 => some true
  | _ => none

end Sys2Proof.Machine
end

