-- ==== Sys2Proof/Machine/Crypto.lean ====
section
/-! DEFINITION. SHA-256 and the verification of ECDSA P-256 signatures, which R59 and R61 name: the functions of FIPS 180-4 and
FIPS 186-4 (assumption log entry 3). Words are numbers below 2^32, field elements numbers below their modulus. -/
namespace Sys2Proof.Machine

/-! ## SHA-256 (PRESUMED: FIPS 180-4) -/

/-- The greatest number below `r + 2^k` whose power `e` does not exceed `n`, found one bit at a time from bit `k - 1` down. -/
def rootBits (n e : Nat) : Nat → Nat → Nat
  | 0, r => r
  | k + 1, r => rootBits n e k (if (r + 2 ^ k) ^ e ≤ n then r + 2 ^ k else r)

/-- The first 32 bits of the fraction of the root of order `e` of a number below 343, as FIPS 180-4 takes its constants. -/
def rootFraction (e p : Nat) : Nat := rootBits (p * 2 ^ (32 * e)) e 37 0 % 2 ^ 32

/-- The 64 primes below 312. -/
def shaPrimes : List Nat :=
  (List.range' 2 310).filter (fun n => (List.range' 2 16).all (fun d => decide (n ≤ d) || n % d != 0))

/-- The 64 round constants: the fractions of the cube roots of the primes. -/
def shaK : List Nat := shaPrimes.map (rootFraction 3)

/-- The working variables a–h, and the hash value of eight words. -/
structure ShaState where
  a : Nat
  b : Nat
  c : Nat
  d : Nat
  e : Nat
  f : Nat
  g : Nat
  h : Nat
  deriving DecidableEq, Repr

/-- The initial hash value: the fractions of the square roots of the first eight primes. -/
def shaInit : ShaState :=
  let r := rootFraction 2
  ⟨r 2, r 3, r 5, r 7, r 11, r 13, r 17, r 19⟩

/-- A rotation to the right of a 32-bit word. -/
def shaRotr (x k : Nat) : Nat := (x >>> k ||| x <<< (32 - k)) % 2 ^ 32

/-- One round with its constant and its word of the schedule. -/
def shaRound (v : ShaState) (k w : Nat) : ShaState :=
  let s1 := shaRotr v.e 6 ^^^ shaRotr v.e 11 ^^^ shaRotr v.e 25
  let ch := (v.e &&& v.f) ^^^ ((2 ^ 32 - 1 - v.e) &&& v.g)
  let t1 := v.h + s1 + ch + k + w
  let s0 := shaRotr v.a 2 ^^^ shaRotr v.a 13 ^^^ shaRotr v.a 22
  let maj := (v.a &&& v.b) ^^^ (v.a &&& v.c) ^^^ (v.b &&& v.c)
  ⟨(t1 + s0 + maj) % 2 ^ 32, v.a, v.b, v.c, (v.d + t1) % 2 ^ 32, v.e, v.f, v.g⟩

/-- The schedule's next word from its last sixteen, newest first. -/
def shaNext (w : List Nat) : Nat :=
  let x := w.getD 14 0
  let y := w.getD 1 0
  (w.getD 15 0 + (shaRotr x 7 ^^^ shaRotr x 18 ^^^ x >>> 3) + w.getD 6 0 + (shaRotr y 17 ^^^ shaRotr y 19 ^^^ y >>> 10)) % 2 ^ 32

/-- The rounds over the constants left: `w` holds the last sixteen words of the schedule, newest first, and the oldest is used. -/
def shaRounds : List Nat → List Nat → ShaState → ShaState
  | [], _, v => v
  | k :: ks, w, v => shaRounds ks ((shaNext w :: w).take 16) (shaRound v k (w.getD 15 0))

/-- A word of four bytes, the first the highest. -/
def shaWord (l : List Byte) : Nat := l.foldl (fun a b => a * 256 + b.toNat) 0

/-- One block of 64 bytes is taken into the hash value. -/
def shaBlock (h : ShaState) (l : List Byte) : ShaState :=
  let v := shaRounds shaK ((List.range 16).map (fun i => shaWord ((l.drop (4 * i)).take 4))).reverse h
  ⟨(h.a + v.a) % 2 ^ 32, (h.b + v.b) % 2 ^ 32, (h.c + v.c) % 2 ^ 32, (h.d + v.d) % 2 ^ 32, (h.e + v.e) % 2 ^ 32, (h.f + v.f) % 2 ^ 32,
    (h.g + v.g) % 2 ^ 32, (h.h + v.h) % 2 ^ 32⟩

/-- `k` blocks from the front of a message. -/
def shaBlocks : Nat → List Byte → ShaState → ShaState
  | 0, _, h => h
  | k + 1, l, h => shaBlocks k (l.drop 64) (shaBlock h (l.take 64))

/-- The message padded to whole blocks. -/
def shaPad (l : List Byte) : List Byte :=
  let n := l.length
  l ++ [0x80] ++ List.replicate ((119 - n % 64) % 64) 0 ++ (List.range 8).map (fun i => BitVec.ofNat 8 (8 * n / 256 ^ (7 - i)))

/-- SHA-256 of a list of bytes, as a number below 2^256 whose highest byte is the digest's first. -/
def sha256 (l : List Byte) : Nat :=
  let m := shaPad l
  let h := shaBlocks (m.length / 64) m shaInit
  [h.a, h.b, h.c, h.d, h.e, h.f, h.g, h.h].foldl (fun x y => x * 2 ^ 32 + y) 0

/-! ## ECDSA P-256 (PRESUMED: FIPS 186-4) -/

/-- The field's prime, the order of the base point, the curve's coefficient b, and the base point. -/
def p256P : Nat := 0xffffffff00000001000000000000000000000000ffffffffffffffffffffffff
def p256N : Nat := 0xffffffff00000000ffffffffffffffffbce6faada7179e84f3b9cac2fc632551
def p256B : Nat := 0x5ac635d8aa3a93e7b3ebbd55769886bc651d06b0cc53b0f63bce3c3e27d2604b
def p256Gx : Nat := 0x6b17d1f2e12c4247f8bce6e563a440f277037d812deb33a0f4a13945d898c296
def p256Gy : Nat := 0x4fe342e2fe1a7f9b8ee7eb4a7c0f9e162bce33576b315ececbb6406837bf51f5

/-- The power of `b` with the exponent `e` of at most `k` bits, modulo `m`. -/
def powMod (m : Nat) : Nat → Nat → Nat → Nat
  | 0, _, _ => 1
  | k + 1, b, e => (if e % 2 = 1 then b else 1) * powMod m k (b * b % m) (e / 2) % m

/-- A difference modulo the field's prime. -/
def p256Sub (x y : Nat) : Nat := (x + p256P - y % p256P) % p256P

/-- A point in Jacobian coordinates; `z` is zero at infinity. -/
structure Jacobian where
  x : Nat
  y : Nat
  z : Nat
  deriving DecidableEq, Repr

/-- Twice a point. -/
def jacDouble (p : Jacobian) : Jacobian :=
  let m := p256P
  let yy := p.y * p.y % m
  let zz := p.z * p.z % m
  let s := 4 * p.x * yy % m
  let t := 3 * p256Sub p.x zz * (p.x + zz) % m
  let x := p256Sub (t * t) (2 * s)
  ⟨x, p256Sub (t * p256Sub s x) (8 * yy * yy), 2 * p.y * p.z % m⟩

/-- The sum of two points. -/
def jacAdd (p q : Jacobian) : Jacobian :=
  let m := p256P
  if p.z = 0 then q
  else if q.z = 0 then p
  else
    let pz := p.z * p.z % m
    let qz := q.z * q.z % m
    let u1 := p.x * qz % m
    let u2 := q.x * pz % m
    let s1 := p.y * qz % m * q.z % m
    let s2 := q.y * pz % m * p.z % m
    if u1 = u2 then (if s1 = s2 then jacDouble p else ⟨1, 1, 0⟩)
    else
      let h := p256Sub u2 u1
      let r := p256Sub s2 s1
      let hh := h * h % m
      let hhh := h * hh % m
      let v := u1 * hh % m
      let x := p256Sub (p256Sub (r * r) hhh) (2 * v)
      ⟨x, p256Sub (r * p256Sub v x) (s1 * hhh), h * p.z % m * q.z % m⟩

/-- A multiple of a point by the low `k` bits of a number. -/
def jacMul (p : Jacobian) (n : Nat) : Nat → Jacobian
  | 0 => ⟨1, 1, 0⟩
  | k + 1 => let q := jacDouble (jacMul p (n / 2) k)
             if n % 2 = 1 then jacAdd q p else q

/-- The point lies on the curve. -/
def p256On (x y : Nat) : Bool :=
  decide (x < p256P) && decide (y < p256P) && y * y % p256P == p256Sub (x * x * x + p256B) (3 * x)

/-- The signature `sig`, r then s, holds for the digest under the public key, X then Y (R59): each number of 64 bytes. -/
def ecdsaHolds (key digest sig : Nat) : Bool :=
  let r := sig / 2 ^ 256
  let s := sig % 2 ^ 256
  let qx := key / 2 ^ 256
  let qy := key % 2 ^ 256
  if r = 0 ∨ p256N ≤ r ∨ s = 0 ∨ p256N ≤ s ∨ !p256On qx qy then false
  else
    let w := powMod p256N 256 s (p256N - 2)
    let q := jacAdd (jacMul ⟨p256Gx, p256Gy, 1⟩ (digest * w % p256N) 256) (jacMul ⟨qx, qy, 1⟩ (r * w % p256N) 256)
    if q.z = 0 then false
    else q.x * powMod p256P 256 (q.z * q.z % p256P) (p256P - 2) % p256P % p256N == r

end Sys2Proof.Machine
end

