-- ==== Sys2Proof/Machine/Otp.lean ====
section
/-! DEFINITION. One-time-programmable memory (18_otp.md): the arrays and their critical fields, the regions' states, burning,
finalisation, and the shadow overrides. -/
namespace Sys2Proof.Machine

/-! ## The arrays (R404, R407, R410) -/

/-- Word `w` of CONFIG region `r`. -/
def otpWord (s : State) (r w : Nat) : Word := s.word otpConfigBase (128 * r + w)

/-- Bit `b` of word `w` of region `r`, and the bit burnt: a bit only goes from 0 to 1. -/
def otpBit (s : State) (r w b : Nat) : Bool := Word.bit (otpWord s r w) b
def setOtpBit (s : State) (r w b : Nat) : State :=
  s.setWord otpConfigBase (128 * r + w) (otpWord s r w ||| wordOf (1 <<< b))

/-- The key of a bit of CONFIG. -/
def bitKey (r w b : Nat) : Nat := 4096 * r + 32 * w + b

/-- A bit has failed its last verify. -/
def otpWeak (s : State) (r w b : Nat) : Bool := cellGet false s.otp.weak (bitKey r w b)

/-- The verify of a bit has ended (R414), so that no reset has cut it short. -/
def setOtpWeak (s : State) (r w b : Nat) (v : Bool) : State :=
  { s with otp := { s.otp with weak := cellSet false s.otp.weak (bitKey r w b) v, cut := cellErase s.otp.cut (bitKey r w b) } }

/-- A reset has cut the verify of a bit short (R416). -/
def setOtpCut (s : State) (r w b : Nat) : State :=
  { s with otp := { s.otp with weak := cellSet false s.otp.weak (bitKey r w b) true,
                               cut := cellSet false s.otp.cut (bitKey r w b) true } }

/-- The bytes of words, in the order of R8. -/
def wordsBytes (l : List Word) : List Byte := l.flatMap wordBytes

/-- The first twelve bytes of a SHA-256 digest as three words, in the order of R8. -/
def digestWords (d : Nat) : List Word :=
  (List.range 3).map (fun k => wordOf ((List.range 4).foldl (fun a j =>
    a + (d >>> (8 * (31 - (4 * k + j)))) % 256 * 256 ^ j) 0))

/-- The digest words of a CONFIG region over its words 0–123 (R410). -/
def regionDigest (s : State) (r : Nat) : List Word :=
  digestWords (sha256 (wordsBytes ((List.range 124).map (otpWord s r))))

/-- The width of a TRIM field (R407); where R407 does not state it, the implementation's. -/
def trimWidth : Nat → Nat
  | 0 => 16 | 1 => 10 | 2 => 10 | 4 => 8
  | 5 => 6 | 6 => 6 | 7 => 6 | 8 => 6
  | f => (Config.trimBits f).val + 1

/-- The defined bits of a TRIM field. -/
def trimMask (f : Nat) : Word := wordOf (2 ^ trimWidth f - 1)

/-- The PART code of R6 that PARTEN holds. -/
def partCode (s : State) : Nat := match s.part with | .olr7264 => 0x7264 | .olr7248 => 0x7248

/-- Words 0–124 of TRIM: PARTEN by the part, each value beside its complement, zeros in the reserved words; the values that
Steiston burnt are constants of the implementation (assumption log entry 5). -/
def trimData (s : State) (i : Nat) : Word :=
  let f := i / 2
  let v := if f = 0 then wordOf (partCode s) else Config.trimWord f &&& trimMask f
  if 40 ≤ i then 0 else if i % 2 = 0 then v else v ^^^ trimMask f

/-- Word `i` of TRIM, FDIGEST in words 125–127. -/
def trimArray (s : State) (i : Nat) : Word :=
  if i < 125 then trimData s i
  else (digestWords (sha256 (wordsBytes ((List.range 125).map (trimData s))))).getD (i - 125) 0

/-! ## Critical fields -/

/-- The states of a critical field (R404). -/
inductive CritState where
  | provisioned | blank | mismatch
  deriving DecidableEq, Repr

/-- The state that a value word and a complement word make under a mask of defined bits (R404). -/
def critOf (v c mask : Word) : CritState :=
  if c = v ^^^ mask then .provisioned else if v = 0 ∧ c = 0 then .blank else .mismatch

/-- The critical fields of regions 0 and 2: index, value word and defined bits; the complement stands in the next word
(R411, R413). -/
def critFields : Nat → List (Nat × Nat × Word)
  | 0 => [(0, 0, 0x7F), (1, 2, 0xFF), (2, 4, 0xFFFFFFFF), (3, 6, 0xFFFF), (4, 8, 0x1FFFFFFF), (5, 10, 0xFFF)]
      ++ (List.range 8).map (fun k => (7 + k, 32 + 2 * k, 0xFFFF0000))
  | 2 => (List.range 4).map (fun f => (f, 2 * f, 0x07FFFFFF))
      ++ [(4, 8, 0xFFFFFFFF), (5, 10, 0xFFFFFFFF), (6, 12, 0xFFFFFFFF), (7, 14, 0x1FFFFF), (8, 16, 0xFFFFFFFF),
          (9, 18, 0xFFFFFFFF), (10, 20, 0xFFFFFFFF), (11, 22, 0xFFFFFFFF), (12, 24, 0xFFFFFFFF), (13, 26, 0x1FFFFF),
          (14, 28, 0xFFFFFFFF), (15, 30, 0xFFFFFFFF)]
  | _ => []

/-- The fields of region `r` in a state, one bit each. -/
def critMask (s : State) (r : Nat) (c : CritState) : Nat :=
  (critFields r).foldl (fun a x =>
    if critOf (otpWord s r x.2.1) (otpWord s r (x.2.1 + 1)) x.2.2 = c then a + (1 <<< x.1) else a) 0

/-- KEYHASH is blank: all its words are zero (R411). -/
def keyhashBlank (s : State) : Bool := (List.range 8).all (fun k => otpWord s 0 (16 + k) == 0)

/-- The required fields of region `r` that are unprovisioned (R412). -/
def regionMissing (s : State) (r : Nat) : Nat :=
  if r ≠ 0 then 0
  else
    let sigreq := critOf (otpWord s 0 0) (otpWord s 0 1) 0x7F == .provisioned && otpBit s 0 0 4
    critMask s 0 .blank % 64 + (if sigreq && keyhashBlank s then 64 else 0)

/-- The state of region `r` by its lock word (R419). -/
def regionState (s : State) (r : Nat) : Nat :=
  let locks := ((List.range 8).filter (fun b => otpBit s r 127 b)).length
  if r = 15 then 0
  else if 5 ≤ locks then (if otpBit s r 127 8 then 3 else 2)
  else if (List.range 4).any (fun k => otpWord s r (124 + k) != 0) then 1 else 0

/-- OTP_RGNSTAT and OTP_CMPLr as the arrays stand (R412, R419). -/
def otpJudge (s : State) : State :=
  let s := s.setFld OTP_RGNSTAT_STATE ((List.range 15).foldl (fun a r => a + regionState s r * 4 ^ r) 0)
  (List.range 16).foldl (fun s r =>
    (s.setFld OTP_CMPL_MISMATCH (critMask s r .mismatch) r).setFld OTP_CMPL_MISSING (regionMissing s r) r) s

/-- OTP_CRIT asserts with the field's number (R404, R350). -/
def otpCrit (s : State) (field : Nat) : State := (s.event OTP_EVT_CRIT).postFault 367 field 0 0

/-! ## What step 3 delivered -/

/-- A word of regions 0–2 as step 3 delivered it (R405, R406). -/
def otpSnap (s : State) (r w : Nat) : Word := cellGet 0 s.otp.snap (128 * r + w)

/-- A critical field as its consumer receives it: none where it is not PROVISIONED (R404). -/
def otpField (s : State) (r f : Nat) : Option Word :=
  match (critFields r).find? (fun x => x.1 == f) with
  | some x => if critOf (otpSnap s r x.2.1) (otpSnap s r (x.2.1 + 1)) x.2.2 = .provisioned then some (otpSnap s r x.2.1) else none
  | none => none

/-- Word `i` of TRIM as step 3 reads it: `damage` holds the bits that read otherwise than they were burnt. -/
def trimRead (s : State) (damage : List (Fin 128 × Word)) (i : Nat) : Word :=
  damage.foldl (fun w x => if x.1.val = i then w ^^^ x.2 else w) (trimArray s i)

/-- The state of TRIM field `f` at step 3 (R404): by the words read, or MISMATCH where its pair fails on its wires, as `wires` marks. -/
def trimState (s : State) (damage : List (Fin 128 × Word)) (wires f : Nat) : CritState :=
  if wires.testBit f then .mismatch else critOf (trimRead s damage (2 * f)) (trimRead s damage (2 * f + 1)) (trimMask f)

/-- PARTEN is PROVISIONED and holds a PART code (R407). -/
def partenOk (s : State) (damage : List (Fin 128 × Word)) (wires : Nat) : Bool :=
  trimState s damage wires 0 == .provisioned && (trimRead s damage 0 == 0x7264 || trimRead s damage 0 == 0x7248)

/-- FDIGEST matches words 0–124 of TRIM (R407). -/
def fdigestOk (s : State) (damage : List (Fin 128 × Word)) : Bool :=
  digestWords (sha256 (wordsBytes ((List.range 125).map (trimRead s damage))))
    == (List.range 3).map (fun k => trimRead s damage (125 + k))

/-- Step 3 finds no integrity failure (R419). -/
def otpIntegrity (s : State) (damage : List (Fin 128 × Word)) (wires : Nat) : Bool :=
  partenOk s damage wires && fdigestOk s damage && (List.range 15).all (fun r =>
    decide (regionState s r < 2) ||
      (regionDigest s r == (List.range 3).map (fun k => otpWord s r (124 + k)) && critMask s r .mismatch == 0))

/-- What the consumer of TRIM field `f` receives (R404). -/
def trimDelivered (s : State) (damage : List (Fin 128 × Word)) (wires f : Nat) : Word :=
  if trimState s damage wires f = .provisioned then trimRead s damage (2 * f) else Config.trimSafe f

/-- The number of a critical field in the data of OTP_CRIT (R350): TRIM field `f`. -/
def trimField (f : Nat) : Nat := 0xFF00 + f

/-- The arrays are read and delivered (R54 step 3, R404–R406): the provisioning status, and OTP_CRIT for each MISMATCH field of
CONFIG and of TRIM. -/
def otpDeliver (s : State) (damage : List (Fin 128 × Word)) (wires : Nat) : State :=
  let snap := (List.range 384).foldl (fun a k => cellSet 0 a k (otpWord s (k / 128) (k % 128))) []
  let trim := (List.range 20).foldl (fun a f => cellSet 0 a f (trimDelivered s damage wires f)) []
  let bad := (List.range 20).filter (fun f => trimState s damage wires f == .mismatch)
  let s := { s with otp := { s.otp with snap := snap, trim := trim, failed := [], provdis := otpBit s 15 0 0, shadow := [] } }
  let s := otpJudge (s.setFlag OTP_STAT_LOADED true)
  let d0 := critMask s 0 .blank + critMask s 0 .mismatch + (if keyhashBlank s then 64 else 0)
  let s := (s.setFld OTP_PROVSTAT_RGN0 d0).setFld OTP_PROVSTAT_RGN2 (critMask s 2 .blank + critMask s 2 .mismatch)
  let s := s.setFld OTP_SHMASK_FIELDS 0
  let s := [0, 2].foldl (fun s r => (List.range 16).foldl (fun s f =>
    if (critMask s r .mismatch).testBit f then otpCrit s (0x100 * r + f) else s) s) s
  bad.foldl (fun s f => otpCrit s (trimField f)) s

/-- A number in the data of OTP_CRIT that names a field step 3 delivered (R350): TRIM 0–19, or a critical field of a CONFIG region. -/
def deliveredField (n : Nat) : Bool :=
  (decide (0xFF00 ≤ n) && decide (n < 0xFF00 + 20)) || (critFields (n / 256)).any (fun x => 256 * (n / 256) + x.1 == n)

/-- A consumer finds that the pair delivered to it no longer matches (R405): it keeps the last value whose pair checked, and OTP_CRIT
asserts, once until the next delivery. -/
def otpPairFail (s : State) (n : Nat) : State :=
  if s.flag OTP_STAT_LOADED && deliveredField n then
    (if cellGet false s.otp.failed n then s
     else otpCrit { s with otp := { s.otp with failed := cellSet false s.otp.failed n true } } n)
  else s

/-! ## Burning (R414–R418) -/

/-- A command ends with a result, its event, and the arrays judged again. -/
def otpEnd (s : State) (result : Nat) : State :=
  let s := { s with otp := { s.otp with cmd := none } }
  let s := (s.setFlag OTP_STAT_BUSY false).setFld OTP_PRES_RESULT result
  let s := match result with
    | 1 => s.event OTP_EVT_DONE
    | 4 => s.event OTP_EVT_ABORTED
    | _ => s.event OTP_EVT_FAIL
  otpJudge s

/-- A command starts on its bits; with none it is done. -/
def otpStart (s : State) (r : Nat) (todo : List (Nat × Nat)) : State :=
  let s := { (s.setReg OTP_PRES 0).setFlag OTP_STAT_BUSY true with otp := { s.otp with cmd := some { region := r, todo := todo } } }
  if todo.isEmpty then otpEnd s 1 else s

/-- A TRIM field that region 1 corrects (R407). -/
def trimCorrected (f : Nat) : Bool := f == 1 || f == 2 || f == 4 || (decide (9 ≤ f) && decide (f ≤ 17))

/-- A word that a burn may not name, or bits of it that must stay zero (R409–R411, R418). -/
def burnIllegal (r w : Nat) (v : Word) : Bool :=
  let corr := trimCorrected
  decide (124 ≤ w) ||
  (match r with
   | 0 => (decide (12 ≤ w) && decide (w ≤ 15)) || (decide (24 ≤ w) && decide (w ≤ 31)) || decide (48 ≤ w)
   | 1 => if w < 64 then !corr w || Word.bits v 31 16 != 0 else !corr (w - 64) || Word.bits v 30 16 != 0
   | 2 => decide (32 ≤ w)
   | 15 => w != 0 || v.toNat / 2 != 0
   | _ => false)

/-- The bits of word `w` of region `r` that a command judges, in ascending order: the ones of `v`, and those whose verify a reset cut short
(R416). -/
def namedBits (s : State) (r w : Nat) (v : Word) : List (Nat × Nat) :=
  ((List.range 32).filter (fun b => Word.bit v b || cellGet false s.otp.cut (bitKey r w b))).map (fun b => (w, b))

/-- OP BURN (R414, R416). -/
def otpBurn (s : State) : State × Status :=
  let r := s.fld OTP_PADDR_REGION
  let w := s.fld OTP_PADDR_WORD
  let v := s.reg OTP_PDATA
  if s.flag OTP_STAT_BUSY then (s, .busy)
  else if s.cur ≠ modeProvision then (s, .modedeny)
  else if burnIllegal r w v then (s, .illegal)
  else if regionState s r ≠ 0 then (s, .otpdeny)
  else (otpStart s r (namedBits s r w v), .ok)

/-- OP FINALIZE (R420). -/
def otpFinalize (s : State) (force : Bool) : State × Status :=
  let r := s.fld OTP_PADDR_REGION
  if s.flag OTP_STAT_BUSY then (s, .busy)
  else if s.cur ≠ modeProvision then (s, .modedeny)
  else if r = 15 then (s, .illegal)
  else if 2 ≤ regionState s r then (s, .otpdeny)
  else if critMask s r .mismatch ≠ 0 then (s, .pairerr)
  else if regionMissing s r ≠ 0 ∧ !force then (s, .nocfg)
  else
    let forced := if (force && regionMissing s r != 0) || cellGet false s.otp.cut (bitKey r 127 8) then [(127, 8)] else []
    let dig := ((regionDigest s r).zipIdx 124).flatMap (fun x => namedBits s r x.2 x.1)
    (otpStart s r (forced ++ dig ++ (List.range 8).map (fun b => (127, b))), .ok)

/-- A pulse is in progress: its source is the VPP ball, or the pump has charged (R415). -/
def pulsing (s : State) (c : OtpCmd) : Bool := s.flag OTP_PCFG_VPPSRC || c.charged

/-- ABORT, or leaving PROVISION: the command ends after the pulse in progress and its verify (R416). -/
def otpAbort (s : State) : State :=
  match s.otp.cmd with
  | some c => if pulsing s c then { s with otp := { s.otp with cmd := some { c with ending := true } } } else otpEnd s 4
  | none => s

/-- A chip reset during a command (R416): the pulse in progress completes and its verify is cut short, so that what the bit
reads as is a free value, and the bit is checked again by the next command that names its word. -/
def otpReset (s : State) : State :=
  let t := { s with otp := { s.otp with cmd := none, shadow := [] } }
  match s.otp.cmd with
  | some c =>
    match c.todo with
    | x :: _ =>
      if pulsing s c && !otpBit s c.region x.1 x.2 then
        let (w, t) := t.free
        setOtpCut (if Word.bit w 0 then setOtpBit t c.region x.1 x.2 else t) c.region x.1 x.2
      else setOtpCut t c.region x.1 x.2
    | [] => t
  | none => t

/-- The pulse count of the command (R423). -/
def countPulse (s : State) : State := s.countTo OTP_PRES_PULSES 0xFF

/-- The bits after the first: the next attempt, the command's end, or its end by an abort. -/
def otpNext (s : State) (c : OtpCmd) (todo : List (Nat × Nat)) : State :=
  if c.ending then otpEnd s 4
  else if todo.isEmpty then otpEnd s 1
  else { s with otp := { s.otp with cmd := some { c with todo := todo, tries := 0 } } }

/-- The attempt at a bit has failed its verify (R414): retried, or BURNFAIL. A bit whose pulse failed reads as a free value. -/
def otpFailed (s : State) (c : OtpCmd) (x : Nat × Nat) (pulsed : Bool) : State :=
  let (w, s) := if pulsed && !otpBit s c.region x.1 x.2 then s.free else (0, s)
  let s := if Word.bit w 0 then setOtpBit s c.region x.1 x.2 else s
  let s := setOtpWeak s c.region x.1 x.2 true
  if c.ending then otpEnd s 4
  else if c.tries < s.fld OTP_PCFG_RETRY then
    { s with otp := { s.otp with cmd := some { c with tries := c.tries + 1 } } }
  else otpEnd (s.setFld OTP_PRES_FAILBIT x.2) 2

/-- One pulse and its verify, or the verify alone of a bit already 1 (R414, R415). `ok` is the verify's result and `vpp` the
level of VPP in mV before the pulse. -/
def otpPulse (s : State) (ok : Bool) (vpp : Nat) : State :=
  match s.otp.cmd with
  | none => s
  | some c =>
    match c.todo with
    | [] => s
    | x :: rest =>
      let pulsed := c.tries != 0 || !otpBit s c.region x.1 x.2
      let good := decide (6200 ≤ vpp) && decide (vpp ≤ 6800)
      if pulsed && !pulsing s c then s
      else if pulsed && s.flag OTP_PCFG_VPPSRC && !good then otpEnd (s.setFlag OTP_STAT_VPPOK false) 3
      else
        let s := if pulsed && s.flag OTP_PCFG_VPPSRC then s.setFlag OTP_STAT_VPPOK true else s
        let s := if pulsed then countPulse s else s
        if ok then
          let s := setOtpWeak (setOtpBit s c.region x.1 x.2) c.region x.1 x.2 false
          let s := if c.region = 15 then { s with otp := { s.otp with provdis := true } } else s
          otpNext s c rest
        else otpFailed s c x pulsed

/-! ## Shadow overrides (R422) -/

/-- A TRIM field that may be overridden (R407). -/
def shadowField (f : Nat) : Bool := decide (1 ≤ f) && decide (f ≤ 19)

/-- Overrides are permitted in the mode. -/
def shadowMode (s : State) : Bool := s.cur == modeService || s.cur == modeProvision

/-- A pair write of OTP_SHDATA. -/
def shadowWrite (s : State) (v : Word) : State × Status :=
  let f := s.fld OTP_SHSEL_FIELD
  if !shadowMode s then (s, .modedeny)
  else if !shadowField f then (s, .illegal)
  else
    let s := (s.setReg OTP_SHDATA v).setFbit OTP_SHMASK_FIELDS f true
    ({ s with otp := { s.otp with shadow := cellInsert s.otp.shadow f v } }, .ok)

/-- The override of one field, or of every field, is released. -/
def shadowRel (s : State) (f : Nat) : State :=
  { s.setFbit OTP_SHMASK_FIELDS f false with otp := { s.otp with shadow := cellErase s.otp.shadow f } }
def shadowRelAll (s : State) : State := { s.setFld OTP_SHMASK_FIELDS 0 with otp := { s.otp with shadow := [] } }

/-- A write of OTP_SHCTRL. -/
def shadowCtrl (s : State) (rel all : Bool) : State × Status :=
  let f := s.fld OTP_SHSEL_FIELD
  if !rel && !all then (s, .ok)
  else if !shadowMode s then (s, .modedeny)
  else if all then (shadowRelAll s, .ok)
  else if !shadowField f then (s, .illegal)
  else (shadowRel s f, .ok)

/-- The value in force of TRIM field `f`, as a signed number of its width: the delivered value plus the correction in place where region 1
holds one, saturated (R404, R408, R409); none of it under an override (R422). -/
def trimInForce (s : State) (f : Nat) : Int :=
  let k := trimWidth f
  match s.otp.shadow.find? (fun x => x.1 == f) with
  | some x => signed k (x.2.toNat % 2 ^ k)
  | none =>
    let rep := otpSnap s 1 (64 + f)
    let c := if !trimCorrected f then 0 else if Word.bit rep 31 then rep else otpSnap s 1 f
    clampInt (signed k ((cellGet 0 s.otp.trim f).toNat % 2 ^ k) + signed 16 (Word.bits c 15 0)) (-(2 ^ (k - 1))) (2 ^ (k - 1) - 1)

/-! ## Registers -/

/-- A write of OTP_CMD (R416, R423). -/
def writeOtpCmd (s : State) (w : Word) : State × Status :=
  if !Word.bit w 0 && !Word.bit w 1 then (if s.flag OTP_STAT_BUSY then (s, .busy) else (s, .ok))
  else if Word.bits w 31 16 ≠ 0x07A3 then (s, .keyerr)
  else if Word.bit w 1 then (otpAbort s, .ok)
  else match Word.bits w 3 2 with
    | 0 => otpBurn s
    | 1 => otpFinalize s (Word.bit w 4)
    | _ => (s, if s.flag OTP_STAT_BUSY then .busy else .illegal)

/-- A write of an OTP register at offset `off`. -/
def otpWrite (s : State) (off : Nat) (w : Word) : State × Status :=
  let busy := s.flag OTP_STAT_BUSY
  match off with
  | 0x01 => writeOtpCmd s w
  | 0x02 => if busy then (s, .busy) else (s.plainWrite OTP_PADDR w, .ok)
  | 0x03 => if busy then (s, .busy) else (s.plainWrite OTP_PDATA w, .ok)
  | 0x04 => (s.plainWrite OTP_PCFG w, .ok)
  | 0x06 => (s.plainWrite OTP_RADDR w, .ok)
  | 0x0A => (s.plainWrite OTP_EVT w, .ok)
  | 0x0B => (s.plainWrite OTP_EVTEN w, .ok)
  | 0x20 => (s.plainWrite OTP_SHSEL w, .ok)
  | 0x21 => shadowWrite s w
  | 0x22 => shadowCtrl s (Word.bit w 0) (Word.bit w 1)
  | _ => (s, .ok)

/-- OTP_RDATA (R416, R423): the array word at OTP_RADDR; at the verify margin a weak bit reads 0. -/
def otpRdata (s : State) : Word × Status :=
  let r := s.fld OTP_RADDR_REGION
  let w := s.fld OTP_RADDR_WORD
  if s.flag OTP_STAT_BUSY then (0, .busy)
  else if s.flag OTP_RADDR_ARRAY then (trimArray s w, .ok)
  else
    let v := otpWord s r w
    let weak := (List.range 32).foldl (fun a b => if otpWeak s r w b then a + (1 <<< b) else a) 0
    (if s.flag OTP_RADDR_MARGIN then v &&& ~~~(wordOf weak) else v, .ok)

/-! ## The commands -/

/-- BURN (R414): OTP_CMD written with GO, OP BURN and a key. -/
def execBurn (key : Fin 65536) (s : State) : Out :=
  s.on 1 (writeOtpCmd s (wordOf (65536 * key + 1))).1

/-- FINALIZE (R420): OTP_CMD written with GO, OP FINALIZE, FORCE and a key. -/
def execFinalize (key : Fin 65536) (force : Bool) (s : State) : Out :=
  s.on 1 (writeOtpCmd s (wordOf (65536 * key + 16 * force.toNat + 4 + 1))).1

/-- OTP_ABORT (R416): OTP_CMD written with ABORT and a key. -/
def execOtpAbort (key : Fin 65536) (s : State) : Out := s.on 1 (writeOtpCmd s (wordOf (65536 * key + 2))).1

/-- PUMP_CHARGED (R415). -/
def execPumpCharged (s : State) : Out :=
  s.on 1 (match s.otp.cmd with
    | some c => if s.flag OTP_PCFG_VPPSRC then s else { s with otp := { s.otp with cmd := some { c with charged := true } } }
    | none => s)

/-- PULSE_COMPLETE (R414, R415). -/
def execPulseComplete (ok : Bool) (vpp : Nat) (s : State) : Out := s.on 1 (otpPulse s ok vpp)

/-- SHADOW_WRITE (R422). -/
def execShadowWrite (v : Word) (s : State) : Out := s.on 1 (shadowWrite s v).1

/-- REL (R422). -/
def execRel (s : State) : Out := s.on 1 (shadowCtrl s true false).1

/-- RELALL (R422). -/
def execRelall (s : State) : Out := s.on 1 (shadowCtrl s false true).1

end Sys2Proof.Machine
end

