-- ==== Sys2Proof/Machine/Thm.lean ====
section
/-! DEFINITION. The thermal maquette and the fixed die limit (13_thermal.md). Temperatures of nodes are kept in units of 2^-20 of
0.01 °C; sensor readings, thresholds and TN are in 0.01 °C. -/
namespace Sys2Proof.Machine

/-! ## Nodes and links (R308, R309) -/

def thmUnit : Int := 1048576

/-- A node exists on the part. -/
def nodePresent (s : State) (i : Nat) : Bool := if i < 64 then s.phPresent i else decide (i < 78)

/-- A node is used: present, and its capacitance is not zero. -/
def nodeUsed (s : State) (i : Nat) : Bool := nodePresent s i && s.fld THM_NCFG_C i != 0

/-- A live link: its ends and its conductance. -/
structure ThmLink where
  a : Nat
  b : Nat
  g : Nat
  deriving DecidableEq, Repr

/-- The links that act: G not zero, both ends used nodes or the ambient (R309). -/
def thmLinks (s : State) : List ThmLink :=
  (List.range 160).filterMap (fun k =>
    let l : ThmLink := ⟨s.fld THM_LDATA_A k, s.fld THM_LDATA_B k, s.fld THM_LDATA_G k⟩
    let ok := fun i => i == 127 || nodeUsed s i
    if l.g ≠ 0 ∧ ok l.a ∧ ok l.b then some l else none)

/-- The ambient in 0.01 °C, and whether it falls back to TAMB (R309). -/
def thmAmbient (s : State) : Int × Bool :=
  let ch := s.fld THM_CTRL_AMBCH
  if !s.flag THM_CTRL_AMBSRC then (s.sfld THM_AMB_TAMB, false)
  else if s.flag HADC_RES_OR ch then (s.sfld THM_AMB_TAMB, true)
  else (divTrunc (s.sfld THM_AMBCAL_GAIN * (s.tel 6 ch).value) 256000 + s.sfld THM_AMBCAL_OFFSET, false)

/-! ## Enabling (R311) -/

/-- The sum of the conductances at a node. -/
def nodeG (ls : List ThmLink) (i : Nat) : Nat := ls.foldl (fun a l => if l.a = i ∨ l.b = i then a + l.g else a) 0

/-- The first node that fails R311: an unstable one, or both ends of a link. -/
def badNode (s : State) : Option Nat :=
  let ls := thmLinks s
  (List.range 78).find? (fun i => nodeUsed s i && (decide (50000 * s.fld THM_NCFG_C i ≤ nodeG ls i) || ls.any (fun l => l.a == i && l.b == i)))

/-- Rail `n` is throttled no more (R320, R323), and its period and derate are not pinned (R233). -/
def throttleEnd (s : State) (n : Nat) : State :=
  let s := { s with thm := { s.thm with stretch := cellErase s.thm.stretch n } }
  pinCount (pinCount (s.resetReg THM_RLIVE n) n 2 false 0) n 3 false 0

/-- The fault condition of a node's shutdown ends with its level. -/
def nodeShutdownEnd (s : State) (i : Nat) : State :=
  if i < 64 then s.setLevel 329 i 0 0 false
  else if i < 72 then s
  else if i < 76 then s.setLevel 330 (i - 72) 0 0 false
  else s.setLevel (if i = 76 then 331 else 332) 0 0 0 false

/-- The drain of R323: every throttle and every refusal of R321 ends, and the interval in progress is dropped. -/
def thmDrain (s : State) : State :=
  let s := (List.range 32).foldl throttleEnd s
  let s := (List.range 78).foldl (fun s i => if (cellGet 0 s.thm.lvl i).testBit 2 then nodeShutdownEnd s i else s) s
  let s := (List.range 9).foldl (fun s k => s.resetReg THM_LVL k) s
  { s.event THM_EVT_ABORTED with thm := { s.thm with lvl := [], tn := [], fresh := [], loss := [], lossN := [] } }

/-- EN written (R311, R323). -/
def thmEnable (s : State) (en : Bool) : State × Status :=
  if en then
    if s.flag THM_CTRL_EN then (s, .ok)
    else match badNode s with
      | some i => (s.setFld THM_STAT_BADNODE i, .nocfg)
      | none =>
        let s := s.setFld THM_STAT_BADNODE 0x7F
        if s.flag THM_CTRL_AMBSRC ∧ !inScanMask s (s.fld THM_CTRL_AMBCH) then (s, .nocfg)
        else (s.setFlag THM_CTRL_EN true, .ok)
  else if s.flag THM_CTRL_EN then (thmDrain (s.setFlag THM_CTRL_EN false), .ok)
  else (s, .ok)

/-- THM_EN_WRITE (R311). -/
def execThmEnWrite (en : Bool) (s : State) : Out := s.on 11 (thmEnable s en).1

/-! ## Sensors (R314, R316) -/

/-- A reading in range (R314). -/
def tempInRange (t : Int) : Bool := decide (-5000 ≤ t) && decide (t ≤ 20000)

/-- The event NODE field and an event of a node. -/
def thmEvent (s : State) (f : Fld) (i : Nat) : State := (s.event f).setFld THM_EVT_NODE i

/-- The sensor of a node is marked broken (R315). The bit of the die node in THM_BRK shows a broken one of TS0–TS4 too, which leaves the
node's maximum and not the node without a sensor (R316). -/
def nodeBroken (s : State) (i : Nat) : Bool := if i = 76 then s.thm.dieBrk else s.fbit THM_BRK_NODES (i % 32) (i / 32)

/-- BRK is set for a node, with the event and the fault with the residual (R315). -/
def showBroken (s : State) (i : Nat) (r : Int) : State :=
  (thmEvent (s.setFbit THM_BRK_NODES (i % 32) true (i / 32)) THM_EVT_SENSBRK i).postFault 333 i 0 (wordOfInt r)

/-- A sensor breaks (R314, R315). -/
def breakSensor (s : State) (i : Nat) (r : Int) : State :=
  if nodeBroken s i then s
  else showBroken (if i = 76 then { s with thm := { s.thm with dieBrk := true } } else s) i r

/-- An on-die sensor breaks (R316): marked broken under R315 for the die node. -/
def breakTs (s : State) (t : Nat) (r : Int) : State :=
  if s.thm.tsBrk.testBit t then s
  else showBroken { s with thm := { s.thm with tsBrk := s.thm.tsBrk ||| (1 <<< t) } } 76 r

/-- The readings of TS0–TS4 that are in range and whose sensor is not marked (R308). -/
def dieReadings (s : State) (ts : List (Nat × Int)) : List (Nat × Int) :=
  ts.filter (fun x => decide (x.1 < 5) && tempInRange x.2 && !s.thm.tsBrk.testBit x.1)

/-- The highest of some readings. -/
def maxReading (l : List (Nat × Int)) : Option Int :=
  l.foldl (fun a x => some (match a with | some v => max v x.2 | none => x.2)) none

/-- The reading that node `i` has in this update before the checks of range and mark (R308, R314). -/
def nodeReading (s : State) (ts : List (Nat × Int)) (i : Nat) : Option Int :=
  if i < 72 then
    if lstate s i = lsUp ∧ (s.fld PH_FXCAP_FLAGS i).testBit 0 ∧ cellGet false s.thm.fresh i then some (s.sfld PH_TELT_TEMP i)
    else none
  else if i < 76 then (ts.find? (fun x => x.1 == i - 67)).map (·.2)
  else if i = 76 then maxReading (dieReadings s ts)
  else none

/-- The valid reading of a node (R314). -/
def nodeSensor (s : State) (ts : List (Nat × Int)) (i : Nat) : Option Int :=
  match nodeReading s ts i with
  | some t => if tempInRange t && !nodeBroken s i then some t else none
  | none => none

/-- Readings out of range in two consecutive updates break their sensor (R314). -/
def rangeChecks (s : State) (ts : List (Nat × Int)) : State :=
  let s := (List.range 76).foldl (fun s i =>
    if !nodeUsed s i then s
    else
      let bad := match nodeReading s ts i with | some t => !tempInRange t | none => false
      let k := if bad then cellGet 0 s.thm.oor i + 1 else 0
      let s := { s with thm := { s.thm with oor := cellSet 0 s.thm.oor i k } }
      if 2 ≤ k then breakSensor s i 0 else s) s
  (List.range 5).foldl (fun s t =>
    let bad := match ts.find? (fun x => x.1 == t) with | some x => !tempInRange x.2 | none => false
    let k := if bad then cellGet 0 s.thm.oor (100 + t) + 1 else 0
    let s := { s with thm := { s.thm with oor := cellSet 0 s.thm.oor (100 + t) k } }
    if 2 ≤ k then breakTs s t 0 else s) s

/-- The median of some readings; of an even number, the mean of the middle two. -/
def medianOf (l : List Int) : Int :=
  let m := l.mergeSort (fun a b => decide (a ≤ b))
  let n := m.length
  if n % 2 = 1 then m.getD (n / 2) 0 else divTrunc (m.getD (n / 2 - 1) 0 + m.getD (n / 2) 0) 2

/-- The check of TS0–TS4 against their median (R316). -/
def dieCheck (s : State) (ts : List (Nat × Int)) : State :=
  let l := dieReadings s ts
  let m := medianOf (l.map (·.2))
  let s := { s with thm := { s.thm with xc := cellKeep (fun k => decide (k < 100) || l.any (fun x => x.1 + 100 == k)) s.thm.xc } }
  l.foldl (fun s x =>
    let bad := decide ((s.fld THM_XCHK_XDEV : Int) < (x.2 - m).natAbs)
    let k := if bad then cellGet 0 s.thm.xc (100 + x.1) + 1 else 0
    let s := { s with thm := { s.thm with xc := cellSet 0 s.thm.xc (100 + x.1) k } }
    if max 1 (s.fld THM_XCHK_XPERS) ≤ k then breakTs s x.1 (x.2 - m) else s) s

/-! ## The model (R310, R317) -/

/-- The model temperature of a node, or of the ambient, for a link. -/
def endTemp (temp : List (Nat × Option Int)) (amb : Int) (i : Nat) : Int :=
  if i = 127 then amb * thmUnit else (cellGet none temp i).getD (amb * thmUnit)

/-- Every used node that has not started does (R317); an unused node has none. -/
def startNodes (s : State) (amb : Int) (ts : List (Nat × Int)) : State :=
  let t0 := match maxReading (dieReadings s ts) with | some v => max amb v | none => amb
  let temp := (List.range 78).foldl (fun m i =>
    if !nodeUsed s i then cellSet none m i none
    else match cellGet none m i with
      | some _ => m
      | none => cellSet none m i (some (t0 * thmUnit))) s.thm.temp
  { s with thm := { s.thm with temp := temp } }

/-- The mean loss of a node in pW over the interval (R308, R311): from the frames, or as HKR measures it. -/
def nodeLoss (s : State) (hkr : List Nat) (i : Nat) : Nat :=
  if i < 72 then (if cellGet 0 s.thm.lossN i = 0 then 0 else cellGet 0 s.thm.loss i / cellGet 0 s.thm.lossN i)
  else if i < 77 then hkr.getD (i - 72) 0 * 1000000
  else 0

/-- One step of R310 for a node: `ls` the links, `temp` the temperatures of update k. -/
def nodeStep (s : State) (ls : List ThmLink) (temp : List (Nat × Option Int)) (amb : Int) (hkr : List Nat) (i : Nat) (t : Int) : Int :=
  let flow := ls.foldl (fun a l =>
    if l.a = i then a + (l.g : Int) * (t - endTemp temp amb l.b)
    else if l.b = i then a + (l.g : Int) * (t - endTemp temp amb l.a)
    else a) 0
  t + divRound ((nodeLoss s hkr i : Int) * thmUnit - flow * 10000000) ((s.fld THM_NCFG_C i : Int) * 1000000000000)

/-- A microsecond of an update interval in which a link is not UP (R312): its node's loss is zero in the frames that would have come, one
each 50 ns (assumption log entry 166). -/
def lossUs (s : State) : State :=
  if s.flag THM_CTRL_EN then
    let n := (List.range 72).foldl (fun m i =>
      if s.fld THM_NCFG_C i ≠ 0 ∧ lstate s i ≠ lsUp then cellSet 0 m i (cellGet 0 m i + 20) else m) s.thm.lossN
    { s with thm := { s.thm with lossN := n } }
  else s

/-- Every used node's model takes its step from the values of update k. -/
def integrate (s : State) (amb : Int) (hkr : List Nat) : State :=
  let ls := thmLinks s
  let old := s.thm.temp
  let temp := old.foldl (fun m x =>
    match x.2 with
    | some t => cellSet none m x.1 (some (nodeStep s ls old amb hkr x.1 t))
    | none => m) old
  { s with thm := { s.thm with temp := temp, loss := [], lossN := [] } }

/-- Within the 10 ms of R317 a node whose sensor becomes valid for the first time is loaded with its reading. -/
def loadSensors (s : State) (ts : List (Nat × Int)) : State :=
  if !s.flag THM_STAT_INIT then s
  else (List.range 77).foldl (fun s i =>
    match nodeSensor s ts i with
    | some t =>
      if nodeUsed s i ∧ !cellGet false s.thm.loaded i then
        { s with thm := { s.thm with temp := cellSet none s.thm.temp i (some (t * thmUnit)), loaded := cellSet false s.thm.loaded i true } }
      else s
    | none => s) s

/-- The model temperature of a node in 0.01 °C. -/
def nodeModel (s : State) (amb : Int) (i : Nat) : Int := divTrunc (endTemp s.thm.temp amb i) thmUnit

/-- TN of R314. -/
def nodeTn (s : State) (amb : Int) (ts : List (Nat × Int)) (i : Nat) : Int :=
  match nodeSensor s ts i with
  | some t => max (nodeModel s amb i) t
  | none => nodeModel s amb i

/-! ## The cross-check (R315) -/

/-- A residual of a node with a valid sensor. -/
def residual (s : State) (amb : Int) (ts : List (Nat × Int)) (i : Nat) : Option Int :=
  (nodeSensor s ts i).map (fun t => t - nodeModel s amb i)

/-- The mean residual of the neighbours with valid sensors, or 0. -/
def nbrResidual (s : State) (amb : Int) (ts : List (Nat × Int)) (i : Nat) : Int :=
  let w := s.fld THM_NNBR_NBR i
  let rs := (List.range 4).filterMap (fun k => residual s amb ts (w / 2 ^ (7 * k) % 128))
  if rs = [] then 0 else divTrunc (rs.foldl (· + ·) 0) (rs.length : Nat)

/-- The cross-check of node `i` (R315): a model deviation is an event once per episode. -/
def crossCheck (s : State) (amb : Int) (ts : List (Nat × Int)) (i : Nat) : State :=
  match residual s amb ts i with
  | none => { s with thm := { s.thm with xc := cellErase s.thm.xc i, xm := cellErase s.thm.xm i, dev := cellErase s.thm.dev i } }
  | some r =>
    let dev : Int := s.fld THM_XCHK_XDEV
    let pers := max 1 (s.fld THM_XCHK_XPERS)
    let rn := nbrResidual s amb ts i
    let apart := decide (dev < (r - rn).natAbs)
    let c := if apart then cellGet 0 s.thm.xc i + 1 else 0
    let m := if !apart && decide (dev < r.natAbs) then cellGet 0 s.thm.xm i + 1 else 0
    let s := { s with thm := { s.thm with xc := cellSet 0 s.thm.xc i c, xm := cellSet 0 s.thm.xm i m } }
    if pers ≤ c then breakSensor s i r
    else
      let fire := decide (pers ≤ m) && !cellGet false s.thm.dev i
      let s := { s with thm := { s.thm with dev := cellSet false s.thm.dev i (decide (m ≠ 0) && (fire || cellGet false s.thm.dev i)) } }
      if fire then thmEvent s THM_EVT_MODELDEV i else s

/-! ## Levels and actions (R318, R319) -/

/-- The threshold of level `k` (1 WARN, 2 THROTTLE, 3 SHUTDOWN) of a node. -/
def nodeThr (s : State) (i k : Nat) : Int :=
  match k with
  | 1 => s.sfld THM_NTH0_WARN i
  | 2 => s.sfld THM_NTH0_THR i
  | _ => s.sfld THM_NTH1_SD i

/-- The levels of a node after an update with `tn`, `was` the TN of the update before (R318). -/
def nodeLevels (s : State) (i : Nat) (tn : Int) (was : Option Int) : Nat :=
  let on := cellGet 0 s.thm.lvl i
  let h : Int := s.fld THM_NTH1_HYST i
  (List.range 3).foldl (fun a k =>
    let th := nodeThr s i (k + 1)
    let b := match was with
      | some o =>
        if on.testBit k then !(decide (tn < th - h) && decide (o < th - h)) else decide (th ≤ tn) && decide (th ≤ o)
      | none => on.testBit k
    if b then a + 2 ^ k else a) 0

/-- The level of a mask of levels: the highest. -/
def levelOf (on : Nat) : Nat := if on.testBit 2 then 3 else if on.testBit 1 then 2 else if on.testBit 0 then 1 else 0

/-- THM_LVLq_w shows the nodes at level q + 1 or above. -/
def showLevel (s : State) (i lv : Nat) : State :=
  (List.range 3).foldl (fun s q => s.setFbit THM_LVL_NODES (i % 32) (decide (q < lv)) (3 * q + i / 32)) s

/-- The shutdown of a node (R319). -/
def nodeShutdownAct (s : State) (i : Nat) (tn : Int) : State :=
  if i < 64 then
    let s := match railOfPhase s i with | some n => supTurnOff s n | none => s
    s.setLevel 329 i 0 (wordOfInt tn) true
  else if i < 72 then lxTrip s ((i - 64) % 4) 6 (i - 64)
  else if i < 76 then
    let a := i - 72
    let s := if a = 3 ∧ auxState s 3 = axCharger then hSuspend s 11 else auxTurnOff s a 2
    s.setLevel 330 a 0 (wordOfInt tn) true
  else s.setLevel (if i = 76 then 331 else 332) 0 0 (wordOfInt tn) true

/-- The level of node `i` follows its TN (R318, R319). -/
def nodeJudge (s : State) (i : Nat) (tn : Int) : State :=
  let old := cellGet 0 s.thm.lvl i
  let on := nodeLevels s i tn (cellGet none s.thm.tn i)
  let s := { s with thm := { s.thm with lvl := cellSet 0 s.thm.lvl i on, tn := cellSet none s.thm.tn i (some tn) } }
  let s := showLevel s i (levelOf on)
  let rose := fun k => on.testBit k && !old.testBit k
  let s := if rose 0 then thmEvent s THM_EVT_WARN i else s
  let s := if rose 1 then thmEvent s THM_EVT_THROTTLE i else s
  let s := if rose 2 then nodeShutdownAct (thmEvent s THM_EVT_SHUTDOWN i) i tn else s
  if old.testBit 2 && !on.testBit 2 then nodeShutdownEnd s i else s

/-- The excess of a rail in 0.01 °C, if a phase node of its map is at THROTTLE or above (R320). -/
def railExcess (s : State) (n : Nat) : Option Int :=
  let hot := (railPhases s n).filter (fun ph => nodeUsed s ph && decide (2 ≤ levelOf (cellGet 0 s.thm.lvl ph)))
  if hot = [] then none
  else some (hot.foldl (fun a ph => max a (((cellGet none s.thm.tn ph).getD 0) - nodeThr s ph 2)) 0)

/-- The throttle of rail `n` (R320), with pinned time for a clamp (R232). -/
def throttle (s : State) (n : Nat) : State :=
  if railState s n = rsOff then throttleEnd s n
  else
    let stretch := fun (s : State) (x : Nat) => { s with thm := { s.thm with stretch := cellSet 0 s.thm.stretch n x } }
    match railExcess s n with
    | none =>
      let s := stretch (pinCount (pinCount s n 2 false 0) n 3 false 0) 0
      (s.setFld THM_RLIVE_DERATE 0 n).setFld THM_RLIVE_PEREFF (periodInForce s n) n
    | some e =>
      let dr := min 255 (s.fld THM_RTHR_DGAIN n * e.toNat / 100)
      let x := s.fld THM_RTHR_PSTR n * e.toNat / 100
      let pr := s.fld RL_PERIOD_PERIOD n + x
      let s := stretch s x
      let dmax := s.fld RL_DERMAX_DERMAX n
      let lo := s.fld RL_PERMIN_PERMIN n
      let hi := s.fld RL_PERMAX_PERMAX n
      let s := pinCount s n 3 (decide (dmax < dr)) 100000
      let s := pinCount s n 2 (decide (pr < lo) || decide (hi < pr)) 100000
      (s.setFld THM_RLIVE_DERATE (min dr dmax) n).setFld THM_RLIVE_PEREFF (periodInForce s n) n

/-! ## The update -/

/-- The ambient's fallback (R309): AMBFAIL as it begins. -/
def ambientStatus (s : State) (fb : Bool) : State :=
  let s' := if fb && !s.flag THM_STAT_AMBFB then s.event THM_EVT_AMBFAIL else s
  s'.setFlag THM_STAT_AMBFB fb

/-- The registers of a node's temperatures; an unused node's is the ambient (R309). -/
def showTemps (s : State) (amb : Int) (ts : List (Nat × Int)) : State :=
  (List.range 78).foldl (fun s i =>
    if nodePresent s i then
      (s.setSfld THM_NTEMP_MODEL (nodeModel s amb i) i).setSfld THM_NTEMP_SENS
        (if nodeUsed s i then (nodeSensor s ts i).getD 0 else 0) i
    else s) s

/-- One update of the maquette (R310–R320): `ts` the on-die readings that completed, `hkr` the losses in µW of AUX0–AUX3 and of
PRE as HKR measures them. -/
def maquetteUpdate (s : State) (ts : List (Nat × Int)) (hkr : List Nat) : State :=
  let (amb, fb) := thmAmbient s
  let s := ambientStatus s fb
  let s := { s with thm := { s.thm with ts := ts.foldl (fun m x => cellSet 0 m x.1 x.2) s.thm.ts } }
  let s := startNodes (rangeChecks s ts) amb ts
  let s := loadSensors (integrate s amb hkr) ts
  let s := if s.flag THM_STAT_INIT then s
    else (List.range 77).foldl (fun s i => if nodeUsed s i then crossCheck s amb ts i else s) s
  let s := dieCheck s ts
  let s := showTemps s amb ts
  let s := (List.range 78).foldl (fun s i => if nodeUsed s i then nodeJudge s i (nodeTn s amb ts i) else s) s
  let s := (List.range 32).foldl (fun s n => if s.railPresent n then throttle s n else s) s
  { s with thm := { s.thm with fresh := [] } }

/-- MAQUETTE_UPDATE (R310). -/
def execMaquetteUpdate (ts : List (Nat × Int)) (hkr : List Nat) (s : State) : Out :=
  s.on 11 (if s.flag THM_CTRL_EN then maquetteUpdate s ts hkr else s)

/-- MAQUETTE_INIT_END (R317): the 10 ms after the power-up of PD11 have passed. -/
def execMaquetteInitEnd (s : State) : Out := s.on 11 (s.setFlag THM_STAT_INIT false)

/-- CLRBRK (R315). -/
def clrbrk (s : State) : State :=
  let s := (List.range 3).foldl (fun s k => s.resetReg THM_BRK k) s
  { s with thm := { s.thm with tsBrk := 0, dieBrk := false, oor := [], xc := [], xm := [], dev := [] } }
def execClrbrk (s : State) : Out := s.on 11 (clrbrk s)

/-- TN of a node for telemetry, or the ambient for an unused one (R309, R314). -/
def nodeTel (s : State) (i : Nat) : Int := (cellGet none s.thm.tn i).getD (thmAmbient s).1

/-! ## The fixed die limit (R322) -/

/-- How many comparators of a mask stand at the limit. -/
def sensCount (m : Nat) : Nat := ((List.range 9).filter (fun k => m.testBit k)).length

/-- The limit of the die comparators and their release, in 0.01 °C (R322, R459). -/
def dieLimitAt : Int := 16500
def dieLimitEnd : Int := 14500

/-- The comparators asserted at the temperatures of TS0–TS8 in 0.01 °C, in their order, given those asserted before: from the limit up,
and down to the release. A sensor without a temperature is left out. -/
def dieSens (was : Nat) (temps : List Int) : Nat :=
  ((List.range 9).zip temps).foldl (fun a x =>
    if dieLimitAt ≤ x.2 ∨ (was.testBit x.1 ∧ dieLimitEnd < x.2) then a + 2 ^ x.1 else a) 0

/-- DIE_LIMIT (R322): the die's temperatures have stood past the deglitch. SENS follows the comparators, and with two or more asserted
the limit acts. None of it acts in SHIP; ASSERT ends with DIE_LIMIT_RELEASE. -/
def execDieLimit (temps : List Int) (s : State) : Out :=
  let sens := dieSens (s.fld SYS_DIELIM_SENS) temps
  let t := s.setFld SYS_DIELIM_SENS sens
  if s.cur = modeShip then .next s
  else if sensCount sens < 2 then .next t
  else
    if s.flag SYS_DIELIM_ASSERT then .next t
    else .next ((((t.setFlag SYS_DIELIM_ASSERT true).event SYS_DIELIM_TRIP).setLevel 334 0 sens 0 true).postCause 2 modeShutdown)

/-- DIE_SINGLE_SENSOR (R322): one comparator alone has stood at the limit for 1 ms. -/
def execDieSingleSensor (t : Fin 9) (s : State) : Out :=
  if s.cur = modeShip ∨ s.flag SYS_DIELIM_ASSERT then .next s
  else .next (((s.setFld SYS_DIELIM_SENS (1 <<< t.val)).event SYS_DIELIM_SINGLE).postFault 335 t 0 0)

/-! ## Writes (R311, R318, R324) -/

/-- The node or link that master `m` has selected. -/
def selNode (s : State) (m : Nat) : Nat := s.fld THM_NSEL_NODE m
def selLink (s : State) (m : Nat) : Nat := s.fld THM_LSEL_LINK m

/-- A write of thresholds: out of the order WARN ≤ THR ≤ SD is refused. -/
def writeThr (s : State) (r : Reg) (i : Nat) (w : Word) : State × Status :=
  let t := s.setReg r w i
  if nodeThr t i 1 ≤ nodeThr t i 2 ∧ nodeThr t i 2 ≤ nodeThr t i 3 then (t, .ok) else (s, .outofbound)

/-- A write of THM_CTRL: AMBSRC stays while EN = 1. -/
def writeThmCtrl (s : State) (w : Word) : State × Status :=
  let src := Word.bit w 1
  if s.flag THM_CTRL_EN && Word.bit w 0 && src != s.flag THM_CTRL_AMBSRC then (s, .thmon)
  else
    let s' := if s.flag THM_CTRL_EN && !Word.bit w 0 then (thmEnable s false).1 else s
    let t := (s'.setFlag THM_CTRL_AMBSRC src).setFld THM_CTRL_AMBCH (Word.bits w 8 3)
    let (u, r) := thmEnable t (Word.bit w 0)
    if r = .ok then (u, .ok) else (s.setFld THM_STAT_BADNODE (u.fld THM_STAT_BADNODE), r)

/-- A write of a THM word at offset `off` of 0x0C00 by master `m`. -/
def thmWrite (s : State) (off m : Nat) (w : Word) : State × Status :=
  let en := s.flag THM_CTRL_EN
  let i := selNode s m
  let k := selLink s m
  if off = 0 then writeThmCtrl s w
  else if off = 2 then (s.plainWrite THM_AMB w, .ok)
  else if off = 3 then (s.plainWrite THM_AMBCAL w, .ok)
  else if off = 4 then (s.plainWrite THM_XCHK w, .ok)
  else if off = 5 then (if Word.bit w 0 then clrbrk s else s, .ok)
  else if off = 6 then (s.plainWrite THM_EVT w, .ok)
  else if off = 7 then (s.plainWrite THM_EVTEN w, .ok)
  else if off = 8 then (s.plainWrite THM_NSEL w m, .ok)
  else if 9 ≤ off ∧ off ≤ 0xD then
    if !nodePresent s i then (s, .noaddr)
    else if off = 9 then (if en then (s, .thmon) else (s.plainWrite THM_NCFG w i, .ok))
    else if off = 0xA then (s.plainWrite THM_NNBR w i, .ok)
    else if off = 0xB then writeThr s THM_NTH0 i w
    else if off = 0xC then writeThr s THM_NTH1 i w
    else (s, .ok)
  else if off = 0x10 then (s.plainWrite THM_LSEL w m, .ok)
  else if off = 0x11 then
    if 160 ≤ k then (s, .noaddr) else if en then (s, .thmon) else (s.plainWrite THM_LDATA w k, .ok)
  else if 0x20 ≤ off ∧ off < 0x30 then
    if en then (s, .thmon)
    else (s.plainWrite (if off % 2 = 0 then THM_LP0 else THM_LP1) w ((off - 0x20) / 2), .ok)
  else if 0x40 ≤ off ∧ off < 0x60 then (s.plainWrite THM_RTHR w (off - 0x40), .ok)
  else (s, .ok)

end Sys2Proof.Machine
end

