-- ==== Sys2Proof/Machine/Wd.lean ====
section
/-! DEFINITION. The watchdogs (17_watchdogs.md): periods and windows, check-ins, start and stop, the clock monitor, and expiry
with its evidence. -/
namespace Sys2Proof.Machine

def State.wd (s : State) (n : Nat) : WdH := cellGet {} s.wds n
def State.setWd (s : State) (n : Nat) (h : WdH) : State := { s with wds := cellSet {} s.wds n h }
def State.host (s : State) (p : Nat) : HostH := cellGet {} s.hosts p
def State.setHost (s : State) (p : Nat) (h : HostH) : State := { s with hosts := cellSet {} s.hosts p h }

/-- The windows of WDn_STAT. -/
def wdStopped : Nat := 0
def wdClosed : Nat := 1
def wdOpen : Nat := 2
def wdPaused : Nat := 3

/-- The slot owners that the OWNER words hold. -/
def ownerWord (w : Nat) : Reg := match w with | 0 => WD_OWNER0 | 1 => WD_OWNER1 | 2 => WD_OWNER2 | _ => WD_OWNER3
def wdOwner (s : State) (n k : Nat) : Nat :=
  Word.bits (s.reg (ownerWord (k / 4)) n) (8 * (k % 4) + 7) (8 * (k % 4))

/-- The owner of slot `k` in the running period. -/
def WdH.owner (h : WdH) (k : Nat) : Nat := cellGet 0x3F h.owners k

/-- The mode pauses the instances (R398). -/
def wdPauses (m : Nat) : Bool := m == modeDormant || m == modePlinth || m == modeProvision

/-- The ticks of a period, of its closed window and of its open window under a CFG word (R388). -/
def wdTicks (cfg : Word) : Nat := max 1 (Word.bits cfg 15 0) * 100
def wdClosedTicks (cfg : Word) : Nat := Word.bits cfg 19 16 * wdTicks cfg / 16
def wdOpenTicks (cfg : Word) : Nat := wdTicks cfg - wdClosedTicks cfg

/-- A fresh period (R389, R390): the configuration written takes effect, check-ins are cleared, and the closed window opens it
where CLOSE gives one. A written CLKSEL selects the clock (R399), and the return to CK_WD shows it running again (assumption log
entry 162). -/
def wdFresh (s : State) (n : Nat) : State :=
  let h := s.wd n
  let cfg := s.reg WD_CFG n
  let owners := (List.range 16).foldl (fun a k => cellSet 0x3F a k (wdOwner s n k)) []
  let clk := !h.tripped || h.clkWritten
  let s := s.setWd n { h with due := .nothing, cfg := cfg, slots := s.fld WD_SLOTEN_SLOTS n, owners := owners, warned := false,
                              clkWritten := if clk then false else h.clkWritten, lost := h.lost && !clk,
                              tripped := !clk }
  let s := if clk then s.setFlag WD_STAT_CLKINUSE (Word.bit cfg 25) n else s
  let s := if h.tripped && h.clkWritten && !Word.bit cfg 25 then s.setFlag CLK_STAT_WDOSC_OK true else s
  let s := s.setReg WD_CHECKED 0 n
  let c := wdClosedTicks cfg
  if c = 0 then (s.setFld WD_STAT_WINDOW wdOpen n).setFld WD_STAT_REMAIN (wdTicks cfg) n
  else (s.setFld WD_STAT_WINDOW wdClosed n).setFld WD_STAT_REMAIN c n

/-- A period is discarded without expiry, and WINDOW reads `w`. -/
def wdDiscard (s : State) (n w : Nat) : State :=
  let s := s.setWd n { s.wd n with due := .nothing }
  ((s.setReg WD_CHECKED 0 n).setFld WD_STAT_WINDOW w n).setFld WD_STAT_REMAIN 0 n

/-- A fresh period begins at the next tick (R389, R396, R397, R398, R400). -/
def wdSoon (s : State) (n : Nat) : State := s.setWd n { s.wd n with due := .fresh }

/-- A start of an enabled instance: a fresh period, or PAUSED in a mode that pauses it. -/
def wdBegin (s : State) (n : Nat) : State := if wdPauses s.cur then wdDiscard s n wdPaused else wdSoon s n

/-- The instance is in a period. -/
def wdRuns (s : State) (n : Nat) : Bool := s.fld WD_STAT_WINDOW n == wdClosed || s.fld WD_STAT_WINDOW n == wdOpen

/-- The enabled slots not checked in. -/
def wdMissing (s : State) (n : Nat) : Nat :=
  (List.range 16).foldl (fun a k =>
    if (s.wd n).slots.testBit k && !s.fbit WD_CHECKED_DONE k n then a + (1 <<< k) else a) 0

/-! ## Expiry (R400, R401) -/

/-- The expiry counter (R13). -/
def wdCount (s : State) (n : Nat) : State :=
  if s.fld WD_EXPCNT_COUNT n < 0xFFFFFFFF then
    let s := s.setFld WD_EXPCNT_COUNT (s.fld WD_EXPCNT_COUNT n + 1) n
    if s.fld WD_EXPCNT_COUNT n = 0xFFFFFFFF then (s.setWd n { s.wd n with sat := true }).event WD_EVT_SATURATED n else s
  else s

/-- The position of an evidence slot's owner (R401): a program's PC, a host's last address, or the WAKE step; for BOOT after
program start the spec states none, a free value. -/
def wdPosition (s : State) (owner : Nat) : State × Word :=
  if owner < 48 then
    (s, wordOf (match s.engineOf owner with | some e => s.fld ENG_PC_PC e | none => 0xFFFF))
  else if owner < 0x33 then (s, wordOf (1073741824 + (s.host (owner - 0x30)).lastAddr))
  else if !s.boot.started then (s, wordOf (2147483648 + s.fld SYS_BOOTSTAT_STEP))
  else
    let (w, s) := s.free
    (s, w &&& (0xC000FFFF : Word))

/-- The evidence of an expiry with a cause on slot `k` (R401). -/
def wdEvidence (s : State) (n cause k : Nat) : State :=
  if s.flag WD_EVCAUSE_VALID n then s.setFlag WD_EVCAUSE_OVF true n
  else
    let h := s.wd n
    let dups := s.fld WD_CHECKED_DUPMASK n
    let dup := if cause = 2 then some k else (List.range 16).find? (fun j => dups.testBit j)
    let (s, pos) := wdPosition s (h.owner k)
    let s := ((s.setFlag WD_EVCAUSE_VALID true n).setFld WD_EVCAUSE_OWNER (h.owner k) n).setFld WD_EVCAUSE_SLOT k n
    let s := (s.setFld WD_EVCAUSE_DUPSLOT (dup.getD 0) n).setFlag WD_EVCAUSE_DUPV dup.isSome n
    let s := (s.setFld WD_EVCAUSE_CAUSE cause n).setFld WD_EVMISS_SLOTS (wdMissing s n) n
    ((s.setReg WD_EVPC pos n).setFld WD_EVSVC_TIME (cellGet 0 h.times k) n).setFld WD_EVTIME_TIME s.tbaseLo n

/-- A period expires with a cause (1 MISSING, 2 DUP, 3 EARLY) on its evidence slot, and a fresh one begins at the next tick. In WAKE
it is a failed start (R58, R66). -/
def wdExpire (s : State) (n cause k : Nat) : State :=
  let miss := wdMissing s n
  let s := wdEvidence s n cause k
  let s := (wdCount (s.event WD_EVT_EXPIRED n) n).postFault (312 + n) n 0 (wordOf miss)
  wdSoon (if s.cur = modeWake ∧ !s.flag SYS_BOOTSTAT_OTPHOLD then failDue s 0x40 else s) n

/-! ## Check-ins (R392–R394) -/

/-- Slot `k`'s owner is the issuer (R392): a program number, a host port's code, or 0x3E for the boot loader, whose check-ins
cover every slot (R393). -/
def wdOwns (s : State) (n k who : Nat) : Bool :=
  let o := (s.wd n).owner k
  who == 0x3E || o == who || (o == 0x3E && s.boot.started)

/-- The period of instance `n` has ended in the present tick, or none has begun: a check-in has no effect (R389). -/
def wdBetween (s : State) (n : Nat) : Bool := !wdRuns s n || (s.wd n).due == .fresh

/-- A check-in of slot `k` (R394, R389): the last one missing serves the period at the end of the tick, unless a duplicate expires it in
the same tick (assumption log entry 161). -/
def wdCheckin (s : State) (n k who : Nat) : State :=
  let h := s.wd n
  if wdBetween s n || !h.slots.testBit k then s
  else if !wdOwns s n k who then s.event WD_EVT_WRONGOWN n
  else if s.fld WD_STAT_WINDOW n = wdClosed then
    wdExpire s n 3 k
  else if s.fbit WD_CHECKED_DONE k n then
    if Word.bit h.cfg 24 then (s.setFbit WD_CHECKED_DUPMASK k true n).event WD_EVT_DUP n else wdExpire s n 2 k
  else
    let s := s.setWd n { h with times := cellSet 0 h.times k s.tbaseLo }
    let s := s.setFbit WD_CHECKED_DONE k true n
    if wdMissing s n = 0 then s.setWd n { s.wd n with due := .service } else s

/-- A boot-loader check-in of every enabled slot (R393), held through a closed window. -/
def wdBootCheckin (s : State) (n : Nat) : State :=
  if s.fld WD_STAT_WINDOW n = wdClosed then s.setWd n { s.wd n with bootHeld := true }
  else if s.fld WD_STAT_WINDOW n = wdOpen then
    let m := (s.wd n).slots
    (List.range 16).foldl (fun s k => if m.testBit k then wdCheckin s n k 0x3E else s) s
  else s

/-- The open window begins, the closed one's ticks having passed (R388). -/
def wdOpens (s : State) (n : Nat) : State :=
  if s.fld WD_STAT_WINDOW n = wdClosed ∧ s.fld WD_STAT_REMAIN n = 0 then
    let h := s.wd n
    let s := (s.setFld WD_STAT_WINDOW wdOpen n).setFld WD_STAT_REMAIN (wdOpenTicks h.cfg) n
    if h.bootHeld then wdBootCheckin (s.setWd n { s.wd n with bootHeld := false }) n else s
  else s

/-! ## Start, stop and modes (R396–R398) -/

/-- A configuration that no enabled instance may hold (R390): no slot, or an enabled slot without an owner. -/
def wdNoCfg (s : State) (n : Nat) : Bool :=
  s.fld WD_SLOTEN_SLOTS n == 0 ||
    (List.range 16).any (fun k => s.fbit WD_SLOTEN_SLOTS k n && wdOwner s n k == 0x3F)

/-- A write of EN (R396). -/
def wdEnable (s : State) (n : Nat) (en : Bool) : State × Status :=
  if s.flag WD_CTRL_HWSTART n || s.flag WD_CTRL_EN n == en then (s, .ok)
  else if en then
    if wdNoCfg s n then (s, .nocfg) else (wdBegin (s.setFlag WD_CTRL_EN true n) n, .ok)
  else (wdDiscard ((s.setFlag WD_CTRL_EN false n).event WD_EVT_ABORTED n) n wdStopped, .ok)

/-- WDSTART is delivered (R397): instances whose hardware start changes start or stop. -/
def wdDeliver (s : State) (mask : Nat) : State :=
  (List.range 8).foldl (fun s n =>
    let hw := mask.testBit n
    if s.flag WD_CTRL_HWSTART n = hw then s
    else
      let s := (s.setFlag WD_CTRL_HWSTART hw n).setFlag WD_CTRL_EN hw n
      if hw then wdBegin s n else wdDiscard s n wdStopped) { s with wdStart := mask }

/-- The hold of R55 stops every instance (R397). -/
def wdHold (s : State) : State :=
  (List.range 8).foldl (fun s n =>
    wdDiscard ((s.setFlag WD_CTRL_HWSTART false n).setFlag WD_CTRL_EN false n) n wdStopped) s

/-- A chip reset (R403, R397): the fields reset but for the evidence and EXPCNT, and the WDSTART kept applies at once,
with the fresh period of a hardware-started instance at the next tick and WINDOW at its reset value. -/
def wdReset (s : State) : State :=
  let s := (List.range 8).foldl (fun s n =>
    let s := [WD_CTRL, WD_CFG, WD_SLOTEN, WD_OWNER0, WD_OWNER1, WD_OWNER2, WD_OWNER3, WD_STAT, WD_CHECKED, WD_EVT, WD_EVTEN,
      WD_SLSEL].foldl (fun s r => s.resetReg r n) s
    s.setWd n { sat := (s.wd n).sat }) s
  let s := wdDeliver s s.wdStart
  (List.range 8).foldl (fun s n => if s.flag WD_CTRL_HWSTART n then s.setFld WD_STAT_WINDOW wdOpen n else s) s

/-- A mode is entered from `old` (R398). -/
def wdModeChange (s : State) (old m : Nat) : State :=
  (List.range 8).foldl (fun s n =>
    if !s.flag WD_CTRL_EN n then s
    else if wdPauses m then wdDiscard s n wdPaused
    else if wdPauses old then wdSoon s n else s) s

/-! ## Writes -/

/-- A word under LOCK would change (R390, R11). -/
def wdLocked (s : State) (n : Nat) (r : Reg) (w : Word) : Bool :=
  s.flag WD_CTRL_LOCK n && writeFields r.fields (s.reg r n) w != s.reg r n

/-- A write of WDn_CFG, SLOTEN or an OWNER word (R390, R392). -/
def wdConfig (s : State) (n : Nat) (r : Reg) (w : Word) : State × Status :=
  let t := s.plainWrite r w n
  let isOwner := r.base % 0x20 / 4 == 2
  let bad := isOwner && (List.range 4).any (fun j =>
    let o := Word.bits w (8 * j + 7) (8 * j)
    !(decide (o ≤ 0x32) || o == 0x3E || o == 0x3F))
  if wdLocked s n r w then (s, .violation)
  else if s.fld WD_STAT_WINDOW n = wdClosed then (s, .notready)
  else if bad then (s, .illegal)
  else if s.flag WD_CTRL_EN n && wdNoCfg t n then (s, .nocfg)
  else if r.base % 0x20 = 1 then (t.setWd n { t.wd n with clkWritten := true }, .ok)
  else (t, .ok)

/-- A write of WDn_CTRL; once set, LOCK is closed itself (R11). -/
def writeWdCtrl (s : State) (n : Nat) (w : Word) : State × Status :=
  let (t, st) := if s.flag WD_CTRL_LOCK n && !Word.bit w 31 then (s, .violation) else wdEnable s n (Word.bit w 0)
  if st = .ok ∧ Word.bit w 31 then (t.setFlag WD_CTRL_LOCK true n, .ok) else (t, st)

/-- The evidence words cleared with a key (R401). -/
def wdEvclr (s : State) (n key : Nat) : State × Status :=
  if key ≠ 0x9D1E then (s, .keyerr)
  else ([WD_EVCAUSE, WD_EVMISS, WD_EVPC, WD_EVSVC, WD_EVTIME].foldl (fun s r => s.resetReg r n) s, .ok)

/-- CLRCNT (R403). -/
def wdClrcnt (s : State) (n : Nat) : State := (s.setFld WD_EXPCNT_COUNT 0 n).setWd n { s.wd n with sat := false }

/-- A write of WDn_CMD. -/
def writeWdCmd (s : State) (n : Nat) (w : Word) : State × Status :=
  let (t, st) := if Word.bit w 0 then wdEvclr s n (Word.bits w 31 16) else (s, .ok)
  if st = .ok ∧ Word.bit w 1 then (wdClrcnt t n, .ok) else (t, st)

/-- A write of word `off` of instance `n`; a host's code is `m`. -/
def wdWrite (s : State) (n off m : Nat) (w : Word) : State × Status :=
  match off with
  | 0x00 => writeWdCtrl s n w
  | 0x01 => wdConfig s n WD_CFG w
  | 0x02 => wdConfig s n WD_SLOTEN w
  | 0x03 => (s.plainWrite WD_STAT w n, .ok)
  | 0x05 => if m < 48 then (s, .violation) else (wdCheckin s n (Word.bits w 3 0) m, .ok)
  | 0x06 => (s.plainWrite WD_EVT w n, .ok)
  | 0x07 => (s.plainWrite WD_EVTEN w n, .ok)
  | 0x08 => wdConfig s n WD_OWNER0 w
  | 0x09 => wdConfig s n WD_OWNER1 w
  | 0x0A => wdConfig s n WD_OWNER2 w
  | 0x0B => wdConfig s n WD_OWNER3 w
  | 0x12 => (s.plainWrite WD_SLSEL w n, .ok)
  | 0x14 => writeWdCmd s n w
  | _ => (s, .ok)

/-- WDn_SLTIME: the selected slot's last check-in. -/
def wdSltime (s : State) (n : Nat) : Word := wordOf (cellGet 0 (s.wd n).times (s.fld WD_SLSEL_SLOT n))

/-- The clock that instance `n` uses runs, and it has not lost both (R399). -/
def wdClocked (s : State) (n : Nat) : Bool :=
  !(s.wd n).lost && (if s.flag WD_STAT_CLKINUSE n then s.flag CLK_STAT_CORELOCK else s.flag CLK_STAT_WDOSC_OK)

/-- The end of a tick and the start of the next for one instance (R389): a period that was served or has expired gives way to a fresh
one, and REMAIN of another counts down where its clock runs (R399). -/
def wdTickOne (s : State) (n : Nat) : State :=
  match (s.wd n).due with
  | .service => wdFresh (s.event WD_EVT_SERVICE n) n
  | .fresh => wdFresh s n
  | .nothing => if wdRuns s n && wdClocked s n then s.setFld WD_STAT_REMAIN (s.fld WD_STAT_REMAIN n - 1) n else s

/-- A tick of 1 µs. -/
def wdTick (s : State) : State := (List.range 8).foldl wdTickOne s

/-! ## The commands -/

/-- WINDOW_OPEN (R388). -/
def execWindowOpen (n : Fin 8) (s : State) : Out := s.on 0 (wdOpens s n)

/-- The ticks of the open window after which PREEXP is due (R391). -/
def wdWarnTicks (cfg : Word) : Nat := Word.bits cfg 23 20 * wdOpenTicks cfg / 16

/-- PREEXP (R391): at most once a period. -/
def execPreexp (n : Fin 8) (s : State) : Out :=
  let h := s.wd n
  s.on 0 (if s.fld WD_STAT_WINDOW n = wdOpen ∧ Word.bits h.cfg 23 20 ≠ 0 ∧ wdMissing s n ≠ 0 ∧ !wdBetween s n ∧ !h.warned
      ∧ wdWarnTicks h.cfg ≤ wdOpenTicks h.cfg - s.fld WD_STAT_REMAIN n then
    (s.setWd n { h with warned := true }).event WD_EVT_PREEXP n else s)

/-- MISSING_EXPIRY (R395): the open window has ended, and the evidence slot is the lowest missing one. -/
def execMissingExpiry (n : Fin 8) (s : State) : Out :=
  let m := wdMissing s n
  s.on 0 (if s.fld WD_STAT_WINDOW n = wdOpen ∧ s.fld WD_STAT_REMAIN n = 0 ∧ m ≠ 0 ∧ !wdBetween s n then
    wdExpire s n 1 (((List.range 16).find? (fun k => m.testBit k)).getD 0) else s)

/-- WD_EN_WRITE (R396). -/
def execWdEnWrite (n : Fin 8) (en : Bool) (s : State) : Out := s.on 0 (s.ifWritable (wdEnable s n en).1)

/-- The selected clock stops (R399): the instance goes to the other one. When that stops too it has lost both and stops counting. -/
def wdClockTrip (s : State) (n : Nat) : State :=
  if (s.wd n).tripped then s.setWd n { s.wd n with lost := true }
  else
    let s := s.setFlag WD_STAT_CLKINUSE (!s.flag WD_STAT_CLKINUSE n) n
    let s := s.setWd n { s.wd n with clkWritten := false, tripped := true }
    ((s.setFlag WD_STAT_CLKFAIL true n).event WD_EVT_CLKMON n).postFault 369 n 0 0

/-- CLOCK_MONITOR_TRIP (R399): where CK_WD is the clock that stopped, WDOSC_OK clears (R28; assumption log entry 162). -/
def execClockMonitorTrip (n : Fin 8) (s : State) : Out :=
  s.on 0 (wdClockTrip (if s.flag WD_STAT_CLKINUSE n then s else s.setFlag CLK_STAT_WDOSC_OK false) n)

/-- EVCLR (R401). -/
def execEvclr (n : Fin 8) (key : Fin 65536) (s : State) : Out := s.on 0 (s.ifWritable (wdEvclr s n key).1)

/-- WD_CLRCNT (R403). -/
def execWdClrcnt (n : Fin 8) (s : State) : Out := s.on 0 (s.ifWritable (wdClrcnt s n))

end Sys2Proof.Machine
end

