-- ==== Sys2Proof/Machine/Engine.lean ====
section
/-! DEFINITION. The Lannos engines (07_engines.md): programs and their rights, the engine states, freezing and fencing, signals and
barriers, checkpoints and migration, and the effects that leave an engine at retire. -/
namespace Sys2Proof.Machine

/-! ## Engines and programs (R163, R165, R171) -/

def esHalted : Nat := 0
def esRunning : Nat := 1
def esWaiting : Nat := 2
def esFrozen : Nat := 3
def esFenced : Nat := 4
def esRestoring : Nat := 5
def esDraining : Nat := 6

/-- The state of an engine. -/
def engState (s : State) (e : Nat) : Nat := s.fld ENG_STAT_STATE e
def setEngState (s : State) (e st : Nat) : State := s.setFld ENG_STAT_STATE st e

/-- The general registers: G`i` of engine `e` (R165), kept beside the register map, above its last word. -/
def ENG_G : Reg := { base := 0x8000, stride := 1, count := 768, copies := false, dom := fun n => engDomain (n / 16),
                     reset := fun _ => 0, fields := [] }
def State.g (s : State) (e i : Nat) : Word := s.reg ENG_G (16 * e + i)
def State.setG (s : State) (e i : Nat) (w : Word) : State := s.setReg ENG_G w (16 * e + i)

/-- A program runs on engine `e`: 0x3F stands for none. -/
def holdsProgram (s : State) (e : Nat) : Bool := progOf s e != 0x3F

/-- The flags of an engine set. -/
def setFlags (s : State) (e : Nat) (z n c v : Bool) : State :=
  (((s.setFlag ENG_FLAGS_Z z e).setFlag ENG_FLAGS_N n e).setFlag ENG_FLAGS_C c e).setFlag ENG_FLAGS_V v e

/-- The return stack set: its depth shows in ENGn_FLAGS (R187). -/
def setStack (s : State) (e : Nat) (l : List Nat) : State :=
  let s := s.setEng e { s.eng e with stack := l }
  (s.setFld ENG_FLAGS_RSDEPTH (l.length % 8) e).setFlag ENG_FLAGS_RSFULL (l.length == 8) e

/-- The rights of R21: program `p` owns, or is the delegate of, rail `n`. -/
def ownsRail (s : State) (p n : Nat) : Bool := cellGet 0xFF s.pmap.owner n == p
def delegatesRail (s : State) (p n : Nat) : Bool := cellGet 0xFF s.pmap.delegate n == p

/-- The STX rights of program `p`, bit `k` of ENGn_WRMASK (R168). -/
def wrBit (s : State) (p k : Nat) : Bool := s.fbit ENG_WRMASK_MASK k p

/-- The data RAM word of address `a` in program `p`'s data map (R167). -/
def dataWord (p a : Nat) : Option Nat :=
  if a < 0x100 then some (0x1000 + 0x100 * p + a)
  else if 0x1000 ≤ a ∧ a < 0x2000 then some (a - 0x1000)
  else none

/-! ## Freezing and sequence failures (R184, R66) -/

/-- Between program start and STANDBY, a failure of a program is a sequence failure (R66). -/
def seqFail (s : State) : State := if s.cur = modeWake ∧ s.boot.started then failDue s 0x30 else s

/-- The engine freezes for a cause, with the word address of an access cause (R184). -/
def freeze (s : State) (e cause addr : Nat) : State :=
  if engState s e = esRunning ∨ engState s e = esWaiting then
    let s := setEngState s e esFrozen
    let s := s.setEng e { s.eng e with wait := none }
    let s := revokeClause s e 8 false
    let s := (s.setFld ENG_FREEZE_CAUSE cause e).setFld ENG_FREEZE_ADDR (addr % 65536) e
    seqFail ((s.event ENG_EVT_FROZEN e).postFault 338 e cause (wordOf addr))
  else s

/-- A status of a posted instruction goes back to the engine (R184, R196). -/
def postStatus (s : State) (e : Nat) (st : Status) (frz addr : Nat) : State :=
  if st = .ok ∧ frz = 0 then s
  else s.setEng e { s.eng e with posted := (s.eng e).posted ++ [⟨st, frz, addr⟩] }

/-- POSTED_STATUS_RETURN (R184, R196): the oldest status of engine `e` arrives. -/
def postedReturn (s : State) (e : Nat) : State :=
  match (s.eng e).posted with
  | [] => s
  | p :: rest =>
    let s := s.setEng e { s.eng e with posted := rest }
    let s := if p.status = .modedeny then s.setFlag ENG_FLAGS_MODEDENY true e else s
    if p.freeze ≠ 0 then freeze s e p.freeze p.addr else s
def execPostedStatusReturn (e : Fin 48) (s : State) : Out := s.on (engDomain e) (postedReturn s e)

/-! ## Checkpoints (R181) -/

/-- Word `i` of program `p`'s checkpoint slot. -/
def ckWord (p i : Nat) : Nat := 512 * p + i

/-- The slot of program `p` is valid (R181): its valid word is a pair, and every line of it reads correctably. -/
def slotOk (s : State) (p : Nat) : Bool :=
  let w := s.word ckBase (ckWord p 0x12F)
  (w != 0 && Word.bits w 31 16 == 0xFFFF - Word.bits w 15 0) &&
    (List.range 64).all (fun i => s.damage 4 (64 * p + i) != .many)

/-- The slot of program `p` is read: every line with its reports (R367), and whether the slot is valid as it was read. -/
def readSlot (s : State) (p : Nat) : State × Bool :=
  let t := (List.range 64).foldl (fun s i => (s.readLine 4 (64 * p + i)).1) s
  (t, slotOk t p)

/-- The low 16 bits of the four-bit, or the low 32 bits of the eight-bit, counters of a list, as words. -/
def packBytes (l : List (Nat × Nat)) (k : Nat) : Word :=
  wordOf ((List.range 4).foldl (fun a j => a + cellGet 0 l (4 * k + j) * 256 ^ j) 0)

/-- The frame words 0x100–0x12E of program `p` on engine `e`, with the PC to resume at (R181). -/
def ckFrame (s : State) (e p pc : Nat) : List Word :=
  let st := (s.eng e).stack.reverse
  (List.range 16).map (s.g e) ++ [wordOf pc, wordOf (s.reg ENG_FLAGS e).toNat &&& 15]
    ++ (List.range 8).map (fun k => wordOf (st.getD k 0)) ++ [wordOf st.length, wordOf (s.fld ENG_BAR_BARMASK p), s.reg ENG_BARGEN p,
      s.reg ENG_RETIRED p, wordOf s.tbaseLo, wordOf (s.tbase / 2 ^ 32 % 2 ^ 24)]
    ++ (List.range 12).map (packBytes (s.prog p).sigTx) ++ [0, 0, 0]

/-- CKPT retires (R181): the valid word clears, the frame and the marks of the lines to copy are captured, and the marks start anew. -/
def ckStart (s : State) (e p pc : Nat) : State :=
  let frame := ckFrame s e p pc
  let s := (s.writeRam 4 (ckWord p 0x12F) 0).1
  let lines := (s.prog p).dirty
  let s := s.setProg p { s.prog p with dirty := 0 }
  s.setEng e { s.eng e with ckpt := some { prog := p, frame := frame, lines := lines } }

/-- The copy ends (R181): the dirty lines of the private window, the frame, and the valid word last. -/
def ckFinish (s : State) (e : Nat) : State :=
  match (s.eng e).ckpt with
  | none => s
  | some c =>
    let p := c.prog
    let s := (List.range 32).foldl (fun s i =>
      if c.lines.testBit i then
        (s.readLine 1 (512 + 32 * p + i)).1.writeLine 4 (64 * p + i) ((List.range 8).map (fun j => s.peekRam 1 (0x1000 + 0x100 * p + 8 * i + j))) else s) s
    let seq := (s.fld ENG_CKSTAT_SEQ p + 1) % 65536
    let tail := c.frame ++ [wordOf (seq + 65536 * (65535 - seq))] ++ List.replicate 208 0
    let s := (List.range 32).foldl (fun s i => s.writeLine 4 (64 * p + 32 + i) ((tail.drop (8 * i)).take 8)) s
    let s := (s.setFld ENG_CKSTAT_SEQ seq p).setFld ENG_CKTIME_TIME s.tbaseLo p
    s.setEng e { s.eng e with ckpt := none }
def execCheckpointComplete (e : Fin 48) (s : State) : Out := s.on 10 (ckFinish s e)

/-! ## Barriers (R174) -/

/-- The arrival count of program `p` at barrier `b`. -/
def barGen (s : State) (p b : Nat) : Nat := s.fld ENG_BARGEN_GEN p / 16 ^ b % 16
def setBarGen (s : State) (p b g : Nat) : State :=
  let w := s.fld ENG_BARGEN_GEN p
  s.setFld ENG_BARGEN_GEN (w - barGen s p b * 16 ^ b + g % 16 * 16 ^ b) p

/-- The programs that take part in barrier `b`. -/
def participants (s : State) (b : Nat) : List Nat :=
  (List.range 48).filter (fun p => s.fbit ENG_BAR_BARMASK b p && (s.engineOf p).isSome)

/-- Generation `g` of barrier `b` is complete: every participant that is not HALTED has reached it. -/
def barComplete (s : State) (b g : Nat) : Bool :=
  (participants s b).all (fun p =>
    decide ((barGen s p b + 16 - g) % 16 < 8) ||
      (match s.engineOf p with | some e => engState s e == esHalted | none => true))

/-- A barrier that completes lets every engine that waits on it run (R171, R174). -/
def barRelease (s : State) (b : Nat) : State :=
  (List.range 48).foldl (fun s e =>
    match (s.eng e).wait with
    | some (.sync b' g _ _ _) =>
      if engState s e = esWaiting ∧ b' = b ∧ barComplete s b g then
        setEngState (s.setEng e { s.eng e with wait := none }) e esRunning else s
    | _ => s) s
def execBarrierCompletion (b : Fin 8) (s : State) : Out := .next (barRelease s b)

/-- A program that will not be resumed leaves every barrier (R174), and each engine that waits on one of them is told. -/
def leaveBarriers (s : State) (p : Nat) : State :=
  let m := s.fld ENG_BAR_BARMASK p
  let s := s.setFld ENG_BAR_BARMASK 0 p
  (List.range 48).foldl (fun s e =>
    match (s.eng e).wait with
    | some (.sync b _ _ _ _) => if engState s e = esWaiting ∧ m.testBit b then s.event ENG_EVT_BARLOST e else s
    | _ => s) s

/-! ## Fencing and migration (R180, R182) -/

/-- The lowest-indexed free spare (R182): present, in SPAREMASK, HALTED, without a program, in a powered domain. -/
def freeSpare (s : State) : Option Nat :=
  (List.range 48).find? (fun e => s.engPresent e && s.pmap.spareMask.testBit e && engState s e == esHalted
    && !holdsProgram s e && s.powered (engDomain e))

/-- Migration of program `p` fails (R182): it is not resumed and leaves every barrier. -/
def migrationFails (s : State) (p : Nat) : State :=
  leaveBarriers (s.setProg p { s.prog p with awaiting := false }) p

/-- The migration controller acts for the program of the fenced engine `e` (R182 step 1): no valid slot, no free spare, or a
spare that begins its self-check. -/
def migrate (s : State) (e : Nat) : State :=
  let p := progOf s e
  let (s, ok) := readSlot (s.setProg p { s.prog p with awaiting := true }) p
  if !ok then migrationFails (s.postFault 337 p 0 0) p
  else match freeSpare s with
    | none => migrationFails (s.postCause 0x04 modeDegraded) p
    | some x =>
      let s := (setEngState s x esRestoring).setFld ENG_MIGR_FROM e x
      s.setEng x { s.eng x with restore := some { prog := p, src := e, checking := true, inPlace := false } }

/-- The word of block RLn whose matching host write a rail effect is (R204), with the value that the transfer carries. -/
def railTarget : Effect → Option (Nat × Word)
  | .enr n => some (0x1000 + 0x80 * n, 1)
  | .disr n => some (0x1000 + 0x80 * n, 0)
  | .setv n t _ => some (0x1002 + 0x80 * n, wordOf t)
  | .railField n off v => some (0x1000 + 0x80 * n + off, v)
  | .unfence n v => some (0x1018 + 0x80 * n, v)
  | .track n l m r => some (0x1006 + 0x80 * n, wordOf (65536 * r + 256 * m + l))
  | _ => none

/-- The engine is FENCED (R180): `cause` is 0xE for an execute disagreement, 0xF for a register pair. Its held and posted effects
do not reach its rails and their phases. -/
def fenceEngine (s : State) (e cause : Nat) : State :=
  let p := progOf s e
  let pc := s.fld ENG_PC_PC e
  let s := setEngState { s with flt := { s.flt with engF := s.flt.engF ||| 2 ^ e } } e esFenced
  let s := s.setEng e { s.eng e with wait := none, restore := none }
  let s := revokeClause s e 7 false
  let toRail (a : Nat) : Bool := decide (0x1000 ≤ a) && decide (a < 0x3000)
  let s := { s with armq := s.armq.filter (fun t => !(t.master == e && toRail t.addr)) }
  let s := s.setEng e { s.eng e with issue := (s.eng e).issue.filter (fun x => match x with
    | .stx a _ => !toRail a
    | _ => (railTarget x).isNone) }
  let s := (s.setFld ENG_FREEZE_CAUSE cause e).setFld ENG_FREEZE_ADDR pc e
  let s := (s.event ENG_EVT_FENCED e).postFault (if cause = 0xF then 336 else 192 + e) e p (wordOf pc)
  let s := seqFail s
  if p = 0x3F then s
  else
    let s := s.setProg p { s.prog p with retiredAtFence := s.fld ENG_RETIRED_COUNT p }
    if s.flag ENG_CTRL_MIGEN p then migrate s e else s

/-- A spare that fails leaves the program to the next one (R182). -/
def nextSpare (s : State) (r : Restore) : State :=
  if r.inPlace then s else migrate s r.src

/-- ENGINE_FENCE (R180): an execute disagreement, or a register pair mismatch. -/
def engineFence (s : State) (e : Nat) (pair : Bool) : State :=
  let st := engState s e
  let r := (s.eng e).restore
  if st = esRunning ∨ st = esWaiting ∨ st = esFrozen ∨ st = esRestoring then
    let s := fenceEngine s e (if pair then 0xF else 0xE)
    match r with
    | some r => nextSpare s r
    | none => s
  else s
def execEngineFence (e : Fin 48) (pair : Bool) (s : State) : Out := s.on (engDomain e) (engineFence s e pair)

/-- SPARE_SELF_CHECK_DONE (R182 step 2). -/
def selfCheckDone (s : State) (e : Nat) (pass : Bool) : State :=
  match (s.eng e).restore with
  | some r =>
    if !r.checking then s
    else if pass then s.setEng e { s.eng e with restore := some { r with checking := false } }
    else nextSpare (fenceEngine s e 0xE) r
  | none => s
def execSpareSelfCheckDone (e : Fin 48) (pass : Bool) (s : State) : Out := s.on (engDomain e) (selfCheckDone s e pass)

/-- The frame of program `p`'s slot restored into engine `e` (R182 step 3), after the private window's image. -/
def restoreFrame (s : State) (e p : Nat) : State :=
  let w (i : Nat) : Word := s.word ckBase (ckWord p i)
  let t := (List.range 32).foldl (fun t i =>
    t.writeLine 1 (512 + 32 * p + i) ((List.range 8).map (fun j => w (8 * i + j)))) s
  let t := (List.range 16).foldl (fun t i => t.setG e i (w (0x100 + i))) t
  let t := t.setFld ENG_PC_PC ((w 0x110).toNat % 65536) e
  let f := (w 0x111).toNat
  let t := setFlags t e (f.testBit 0) (f.testBit 1) (f.testBit 2) (f.testBit 3)
  let t := setStack t e (((List.range (min 8 (w 0x11A).toNat)).map (fun k => (w (0x112 + k)).toNat)).reverse)
  let t := (t.setFld ENG_BAR_BARMASK ((w 0x11B).toNat % 256) p).setReg ENG_BARGEN (w 0x11C) p
  let left := (((t.prog p).retiredAtFence : Int) - (w 0x11D).toNat) % 2 ^ 32
  let t := t.setReg ENG_RETIRED (w 0x11D) p
  let tx := (List.range 48).foldl (fun l q => cellSet 0 l q ((w (0x120 + q / 4)).toNat / 256 ^ (q % 4) % 256)) []
  let t := t.setProg p { t.prog p with sigTx := tx, dirty := 0, awaiting := false }
  (t.setEng e { t.eng e with replayLeft := left.toNat, wait := none, clause := none, held := [], posted := [], restore := none }).setFlag
    ENG_STAT_REPLAY (left != 0) e

/-- The registers of which every master has a copy that moves with a program (R163). -/
def movingCopies : List Reg :=
  [SYS_WINBANK, SUP_TELSEL, THM_NSEL, THM_LSEL, PAT_OFFIDX, PAT_OFFSTAT, PAT_OFFDATA0, PAT_OFFDATA1, PAT_OFFDATA2, PAT_OFFDATA3,
   PAT_OFFDATA4, PAT_OFFDATA5, PAT_OFFDATA6, PAT_OFFDATA7]

/-- The program's map, rights and per-master copies move from engine `a` to engine `b` (R182 step 4, R216). -/
def moveProgram (s : State) (a b p : Nat) : State :=
  let s := (s.setFld ENG_STAT_PROG p b).setFld ENG_STAT_PROG 0x3F a
  let s := movingCopies.foldl (fun s r => (s.setReg r (s.reg r a) b).resetReg r a) s
  let s := (List.range 16).foldl (fun s n => if s.fld IP_CTRL_ENG n = a then s.setFld IP_CTRL_ENG b n else s) s
  (s.setFld ENG_MIGR_TO b a).countTo ENG_MIGR_COUNT 0xFFFF a |>.countTo ENG_MIGR_COUNT 0xFFFF b

/-- The patina record of a migration (TYPE 0x05). -/
def migrateRecord (s : State) (a b p : Nat) : State :=
  s.postRecord { kind := 5, src := 0x43, time := s.tbase,
                 bytes := [a, b, p] ++ natBytes 2 (s.fld ENG_CKSTAT_SEQ p) ++ natBytes 2 (s.fld ENG_PC_PC b)
                   ++ natBytes 2 (s.fld ENG_FREEZE_ADDR a) }

/-- RESTORE_COMPLETE (R182 steps 3–5, R185): a slot found unreadable fails the migration or the restore. -/
def restoreComplete (s : State) (e : Nat) : State :=
  match (s.eng e).restore with
  | none => s
  | some r =>
    let (u, ok) := readSlot s r.prog
    if r.checking then s
    else if !ok then
      let s := (u.setEng e { s.eng e with restore := none }).postFault 337 r.prog 0 0
      if r.inPlace then setEngState s e esFrozen
      else migrationFails ((setEngState s e esHalted).setFld ENG_MIGR_FROM 0x3F e) r.prog
    else
      let s := restoreFrame u e r.prog
      if r.inPlace then (setEngState s e esRunning).event ENG_EVT_RESTORED e
      else
        let s := setEngState (moveProgram s r.src e r.prog) e esRunning
        migrateRecord (s.event ENG_EVT_MIGRATED e) r.src e r.prog
def execRestoreComplete (e : Fin 48) (s : State) : Out := s.on (engDomain e) (restoreComplete s e)

/-! ## Drain (R186) -/

/-- An engine drains for its domain's power-down. -/
def engineDrain (s : State) (e : Nat) : State :=
  if engState s e = esFenced ∨ !s.engPresent e then s
  else
    let s := revokeClause s e 9 false
    let s := s.setEng e { s.eng e with wait := none, restore := none, held := [] }
    setEngState s e esDraining

/-- The end of the drain: a copy in progress completes, ABORTED, HALTED. -/
def engineDrainEnd (s : State) (e : Nat) : State :=
  if engState s e = esDraining then setEngState ((ckFinish s e).event ENG_EVT_ABORTED e) e esHalted else s

/-! ## Commands (R172, R185, R187) -/

/-- Programs run in the mode (R36): in WAKE from program start on. -/
def programsRun (s : State) : Bool :=
  (s.cur == modeWake && s.boot.started) || (decide (modeStandby ≤ s.cur) && decide (s.cur ≤ modeService)) || s.cur == modeShutdown

/-- A command that does not apply (R172, R187). -/
def notApply (s : State) (e : Nat) : Status := if holdsProgram s e then .engrun else .spare

/-- START. -/
def engStart (s : State) (e : Nat) : State × Status :=
  if !holdsProgram s e then (s, .spare)
  else if engState s e ≠ esHalted then (s, .engrun)
  else if !programsRun s then (s, .modedeny)
  else (setEngState s e esRunning, .ok)

/-- HALT (R171): from RUNNING or WAITING with HALTED raised, where a host's revokes an open clause with reason HALT; from FROZEN without
a visible effect. -/
def engHalt (s : State) (m e : Nat) : State × Status :=
  let st := engState s e
  if st = esRunning ∨ st = esWaiting ∨ st = esFrozen then
    let s := s.setEng e { s.eng e with wait := none }
    let s := setEngState s e esHalted
    let s := if 48 ≤ m then revokeClause s e 10 false else s
    (if st = esFrozen then s else s.event ENG_EVT_HALTED e, .ok)
  else (s, notApply s e)

/-- SIGRAISE: a host's or a program's signal without a sequence. -/
def engSigraise (s : State) (e n : Nat) : State × Status :=
  if holdsProgram s e then (s.setFbit ENG_SIG_PENDING n true (progOf s e), .ok) else (s, .spare)

/-- CLRCNT. -/
def engClrcnt (s : State) (e : Nat) : State :=
  ((s.setFld ENG_NCONF_COUNT 0 e).setFld ENG_NREVK_COUNT 0 e).setEng e { s.eng e with satConf := false, satRevk := false }

/-- UNFREEZE. -/
def engUnfreeze (s : State) (e : Nat) : State × Status :=
  if engState s e = esFrozen then (setEngState s e esRunning, .ok) else (s, notApply s e)

/-- RESTORE: without a valid slot it fails under R182. -/
def engRestore (s : State) (e : Nat) : State × Status :=
  if engState s e ≠ esFrozen then (s, notApply s e)
  else
    let p := progOf s e
    let (s, ok) := readSlot s p
    if !ok then (s.postFault 337 p 0 0, .ok)
    else
      let s := s.setProg p { s.prog p with retiredAtFence := s.fld ENG_RETIRED_COUNT p }
      let s := s.setEng e { s.eng e with restore := some { prog := p, src := e, checking := false, inPlace := true } }
      (setEngState s e esRestoring, .ok)

/-- MIGRATE. -/
def engMigrate (s : State) (e : Nat) : State × Status :=
  if !holdsProgram s e then (s, .spare)
  else if engState s e ≠ esFenced ∨ (s.prog (progOf s e)).awaiting then (s, .engrun)
  else (migrate s e, .ok)

/-- The first refusal of a list of commands stands for the word's status. -/
def andThen (x : State × Status) (b : Bool) (f : State → State × Status) : State × Status :=
  if b then
    let y := f x.1
    (y.1, if x.2 = .ok then y.2 else x.2)
  else x

/-- A write of ENGn_CMD by master `m`: the keyed commands are the hosts' (R185). -/
def writeEngCmd (s : State) (m e : Nat) (w : Word) : State × Status :=
  let keyed := Word.bit w 3 || Word.bit w 4 || Word.bit w 5
  if keyed && decide (m < 48) then (s, .violation)
  else if keyed && Word.bits w 31 16 != 0x3F0E then (s, .keyerr)
  else
    let x : State × Status := (s, .ok)
    let x := andThen x (Word.bit w 0) (engStart · e)
    let x := andThen x (Word.bit w 1) (engHalt · m e)
    let x := andThen x (Word.bit w 3) (engUnfreeze · e)
    let x := andThen x (Word.bit w 4) (engRestore · e)
    let x := andThen x (Word.bit w 5) (engMigrate · e)
    let x := andThen x (Word.bit w 6) (fun s => (engClrcnt s e, .ok))
    andThen x (Word.bit w 7) (engSigraise · e (Word.bits w 11 8))

/-- A command of engine `e` acts while the engine exists and its domain is powered. -/
def State.onEng (s : State) (e : Nat) (t : State) : Out := .next (if s.engPresent e && s.powered (engDomain e) then t else s)

/-! ## Signals (R173) -/

/-- The sequence of the next signal from program `p` to program `q`. -/
def nextSigSeq (s : State) (p q : Nat) : Nat := (cellGet 0 (s.prog p).sigTx q + 1) % 256

/-- SIGNAL_DELIVERY (R173): the oldest signal reaches its receiver. -/
def deliverSignal (s : State) : State :=
  match s.sigs with
  | [] => s
  | m :: rest =>
    let s := { s with sigs := rest }
    let h := s.prog m.dst
    let d := (m.seq + 256 - cellGet 0 h.sigRx m.src) % 256
    let take (s : State) : State :=
      (s.setProg m.dst { h with sigRx := cellSet 0 h.sigRx m.src m.seq }).setFbit ENG_SIG_PENDING m.signo true m.dst
    if d = 1 then take s
    else if d = 0 ∨ 128 ≤ d then
      if m.replay then (match s.engineOf m.dst with | some e => s.event ENG_EVT_REPLAYDUP e | none => s)
      else s.postFault 339 m.dst m.src (wordOf m.seq)
    else (take s).postFault 339 m.dst m.src (wordOf m.seq)
def execSignalDelivery (s : State) : Out := .next (deliverSignal s)

/-! ## Effects (R169, R176, R204) -/

/-- A rail effect at rail `n`: what the matching host write gives (R204), or PDOFF where the transfer does not reach the loop (R24,
R26). -/
def railApply (s : State) (n : Nat) (f : State → State × Status) : State × Status :=
  if s.railOpen n then f s else (s, .pdoff)

/-- The RESUME point is passed (R213). -/
def passResume (s : State) : State := { s.setFlag SYS_MODE_RESUME false with mode := { s.mode with resumeBy := none } }

/-- BREQ outside a clause, or the lowering of one at its confirmation (R222). -/
def budgetRequest (s : State) (p k level : Nat) : State :=
  if s.powered 4 then s.setProgClaim p k ((s.progClaim p k).request level s.tbase) else s

/-- BREL (R209): the grant falls to the level; a level at or above it has no effect. -/
def budgetRelease (s : State) (p k level : Nat) : State :=
  let c := s.progClaim p k
  if s.powered 4 ∧ level < c.grant then
    s.setProgClaim p k { c with level := level, grant := level, subj := min c.subj level, pending := false, refused := false } else s

/-- The INTENT right (R216): SRC = 1 and ENG names the engine, in a port whose domain is powered. -/
def intentRight (s : State) (e port : Nat) : Bool := s.powered 4 && s.flag IP_CTRL_SRC port && s.fld IP_CTRL_ENG port == e

/-- The patina record of LOG (R215, R424 TYPE 0x03). -/
def logOf (s : State) (e p code : Nat) (a b : Word) (pc : Nat) : PatRecord :=
  { kind := 3, src := p, time := s.tbase, replay := s.flag ENG_STAT_REPLAY e,
    bytes := natBytes 2 code ++ natBytes 4 a.toNat ++ natBytes 4 b.toNat ++ natBytes 2 pc }

/-- Master `m` sends a transfer: its next sequence number, and the value with its complement (R16). -/
def armSend (s : State) (m a : Nat) (v : Word) (kind : XferKind) (act : Option Effect) : State × Transfer :=
  let q := cellGet 0 s.armSeq m
  ({ s with armSeq := cellSet 0 s.armSeq m ((q + 1) % 16) }, ⟨m, a, v, ~~~v, kind, q, act⟩)

/-- A posted write of master `m` enters its queue (R18). -/
def armPost (s : State) (m a : Nat) (v : Word) (act : Option Effect) : State :=
  let (t, x) := armSend s m a v .write act
  { t with armq := t.armq ++ [x] }

/-- The transfers of engine `e` that have not reached their targets (R18). -/
def ownCount (s : State) (e : Nat) : Nat := (s.armq.filter (fun t => t.master == e)).length

/-- A transfer of engine `e` is still on its way. -/
def ownTransfer (s : State) (e : Nat) : Bool := s.armq.any (fun t => t.master == e)

/-- The effects that leave as armature transfers (R169): the rail effects, STX, SIG and LOG. -/
def Effect.transfers (x : Effect) : Bool :=
  match x with
  | .stx _ _ | .sig _ _ | .log _ _ _ _ | .signal _ | .record _ => true
  | _ => (railTarget x).isSome

/-- An effect of engine `e` cannot leave yet (R18): the queue of four is full, or an effect that is no transfer would overtake one of
the engine's that is still on its way. A store to the data RAM is made in the engine's own pipeline. -/
def effectWaits (s : State) (e : Nat) (x : Effect) : Bool :=
  match x with
  | .stShared _ _ => false
  | _ => if x.transfers then decide (4 ≤ ownCount s e) else ownTransfer s e

/-- The word that a signal to program `q` travels to, and the one that a record travels to (assumption log entry 126). -/
def sigTarget (s : State) (q : Nat) : Nat := 0x3006 + 0x20 * (s.engineOf q).getD q
def recordTarget : Nat := 0xB00

/-- One effect of engine `e` leaves: at retire, or from the held queue at confirmation (R169, R178). DISR passes the program's RESUME
point as it leaves (R213). -/
def issueEffect (s : State) (e : Nat) (x : Effect) : State :=
  let p := progOf s e
  match x with
  | .stx a v => armPost s e a v none
  | .sig q n =>
    let m : SigMsg := ⟨p, q, n, nextSigSeq s p q, s.flag ENG_STAT_REPLAY e⟩
    armPost (s.setProg p { s.prog p with sigTx := cellSet 0 (s.prog p).sigTx q m.seq }) e (sigTarget s q) (wordOf (2 ^ n)) (some (.signal m))
  | .log code a b pc => armPost s e recordTarget a (some (.record (logOf s e p code a b pc)))
  | .brel k level => budgetRelease s p k level
  | .breqLower k level => budgetRequest s p k level
  | .stShared a v => (s.writeRam 1 a v).1
  | .out j b => rstoUpdate (s.setFlag RSTO_CFG_TERM b j)
  | .intent port c scale =>
    if intentRight s e port then (intentBeat s port c scale).1
    else s.setFlag ENG_FLAGS_INTDROP true e
  | .fence kind i => s.postFault 340 p (256 * kind + i) 0
  | .modeReq t sdend =>
    if t = modeStandby ∨ t = modeRun ∨ t = modeCharge ∨ t = modeAssist ∨ t = modeDegraded ∨ t = modeShutdown then
      s.postMode { src := .engine e, target := t, sdend := sdend }
    else postStatus s e .illegal 0 0
  | .modeResume =>
    if s.cur = modeShutdown then { s.setFlag SYS_MODE_RESUME true with mode := { s.mode with resumeBy := some p } }
    else postStatus s e .illegal 0 0
  | .modePass => passResume s
  | .disr n => armPost (if s.mode.resumeBy = some p then passResume s else s) e (0x1000 + 0x80 * n) 0 (some x)
  | _ =>
    match railTarget x with
    | some (a, v) => armPost s e a v (some x)
    | none => s

/-- The effects in their order, as far as they can leave; the rest wait (R178). -/
def issueList (e : Nat) : List Effect → State → State
  | [], s => s.setEng e { s.eng e with issue := [] }
  | x :: l, s => if effectWaits s e x then s.setEng e { s.eng e with issue := x :: l } else issueList e l (issueEffect s e x)

/-- SETV of engine `e` at its rail (R83, R84). Where it is that of the engine's confirmed clause, the clause's pre-bias begins to fall at
the rate of the move, and a refused one leaves it to the rail's rates (R178). -/
def setvArrives (s : State) (e n v rate : Nat) : State × Status :=
  let own := match (s.rail n).clause with
    | some t => decide (t.eng = e) && decide (t.phase = TermPhase.confirmed) && t.hasTarget && decide (t.target = v) && decide (t.rate = rate)
    | none => false
  let mv := moveRate s n rate (decide ((s.rail n).gen < v * 1024))
  let (t, st) := railSetTarget s n v rate e
  if own then
    (t.setRail n { t.rail n with clause := (t.rail n).clause.map (fun c =>
      { c with hasTarget := false, rate := if st = Status.ok then mv else 0 }) }, st)
  else (t, st)

/-- An effect of engine `e` reaches its target and is answered (R204). -/
def effectArrives (s : State) (e : Nat) (x : Effect) : State × Status :=
  match x with
  | .enr n => railApply s n (railEnable · n)
  | .disr n => railApply s n (railDisable · n)
  | .setv n t rate => railApply s n (fun s => setvArrives s e n t rate)
  | .railField n off v => railApply s n (fun s => railWrite s n off e v)
  | .unfence n v => railApply s n (fun s => railUnfence s n v)
  | .track n l m r => railApply s n (fun s => railTrack s n l m r)
  | .signal m => ({ s with sigs := s.sigs ++ [m] }, .ok)
  | .record r => (s.postRecord r, .ok)
  | _ => (s, .ok)

/-! ## Clauses (R177–R179) -/

/-- The clause of engine `e` touches rail `n`. -/
def touchRail (s : State) (e n : Nat) : State :=
  match (s.eng e).clause with
  | some c => if c.rails.contains n then s else s.setEng e { s.eng e with clause := some { c with rails := c.rails ++ [n] } }
  | none => s

/-- The clause term of engine `e` on rail `n`, a new one where none of its own stands. The pre-bias of an earlier term goes on falling,
and the phases that a revoked clause armed keep their CLSHDLY (R179). -/
def clauseTerm (s : State) (e n : Nat) : ClauseTerm :=
  match (s.rail n).clause with
  | some t =>
    if t.eng = e ∧ t.phase = .subj then t
    else { eng := e, pb := t.pb, olds := if t.armHeld then t.olds ++ [(t.eng, t.arm)] else t.olds }
  | none => { eng := e }

/-- SETV in a clause (R177, R207). -/
def clauseSetv (s : State) (e n target rate : Nat) : State :=
  let s := touchRail s e n
  let p : Int := (target : Int) - s.fld RL_VREF_VREF n
  if railState s n ≠ rsRegulate ∨ !s.railOpen n then revokeClause s e 4 true
  else if p < -63000 ∨ 63000 < p then revokeClause s e 6 true
  else
    let t := { clauseTerm s e n with setPb := some (p * 1024), target := target, rate := rate, hasTarget := true }
    s.setRail n { s.rail n with clause := some t }

/-- PHASE ARM in a clause (R177, R207): the armed count applies at the next loop update. -/
def clauseArm (s : State) (e n k : Nat) : State :=
  let s := touchRail s e n
  if railState s n ≠ rsRegulate ∨ !s.railOpen n then revokeClause s e 4 true
  else
    let t := { clauseTerm s e n with setArm := some (min k 31) }
    s.setRail n { s.rail n with clause := some t }

/-- The clause confirms on one rail (R178): its term waits for the SETV that formed P; the armed phases pass to the managed count. -/
def confirmRail (s : State) (e n : Nat) : State :=
  match (s.rail n).clause with
  | some t =>
    if t.eng = e ∧ t.phase = .subj then
      let t := { t with arm := t.setArm.getD t.arm, setArm := none, pb := t.setPb.getD t.pb, setPb := none }
      let s := s.setRail n { s.rail n with clause := some t }
      let nact := railNact s n
      let s := s.setRail n { s.rail n with clause := some { t with phase := .confirmed, arm := 0 } }
      if t.arm ≠ 0 then s.setRail n { s.rail n with managed := nact - railArmed s n } else s
    else s
  | none => s

/-- The SETV that formed the pre-bias of engine `e`'s clause on rail `n`, issued at confirmation as an ordinary SETV (R178). -/
def clauseSetvOf (s : State) (e n : Nat) : List Effect :=
  match (s.rail n).clause with
  | some t => if t.eng = e ∧ t.phase = .subj ∧ t.hasTarget then [.setv n t.target t.rate] else []
  | none => []

/-- The reservations of program `p` become grants (R178). -/
def confirmClaims (s : State) (p : Nat) : State :=
  (List.range 8).foldl (fun s k =>
    let c := s.progClaim p k
    if c.inClause then s.setProgClaim p k { c with subj := 0, inClause := false } else s) s

/-- The open clause of engine `e` confirms (R178): the SETVs of its rails are issued, then the held queue in program order, behind what
the engine issued before. -/
def confirmClause (s : State) (e : Nat) : State :=
  match (s.eng e).clause with
  | none => s
  | some c =>
    let held := c.rails.flatMap (clauseSetvOf s e) ++ (s.eng e).held
    let s := c.rails.foldl (fun s n => confirmRail s e n) s
    let s := confirmClaims s (progOf s e)
    let s := s.setEng e { s.eng e with clause := none, held := [] }
    let s := (s.setFld ENG_CLAUSE_STATE 0 e).setFld ENG_CLAUSE_HELD 0 e
    let s := issueList e ((s.eng e).issue ++ held) s
    engCount (s.event ENG_EVT_CONFIRMED e) ENG_NCONF_COUNT e true

/-- The phases that the oldest revoked clause of engine `e` still arms in the term are withdrawn. -/
def ClauseTerm.disarm (t : ClauseTerm) (e : Nat) : ClauseTerm :=
  if t.olds.any (fun x => x.1 == e) then { t with olds := t.olds.eraseP (fun x => x.1 == e) }
  else if t.eng = e ∧ t.armHeld then { t with arm := 0, armHeld := false }
  else t

/-- CLSHDLY after a revocation, the clause's arming is withdrawn (R179). -/
def clauseDisarm (s : State) (e : Nat) : State :=
  (List.range 32).foldl (fun s n =>
    match (s.rail n).clause with
    | some t =>
      let u := t.disarm e
      if u = t then s else s.setRail n { s.rail n with clause := if u.over then none else some u }
    | none => s) s
def execClauseDisarm (e : Fin 48) (s : State) : Out := .next (clauseDisarm s e)

/-- The window of the open clause of engine `e` has ended (R175, R179). -/
def clauseOver (s : State) (e : Nat) : Bool :=
  match (s.eng e).clause with
  | some c => timeOver s.tbase c.opened c.window
  | none => false

/-- CLAUSE_WINDOW_EXPIRY (R179). -/
def execClauseWindowExpiry (e : Fin 48) (s : State) : Out := s.onEng e (if clauseOver s e then revokeClause s e 1 true else s)

/-! ## Register access (R187) -/

/-- A host write of a private window of a program that is active is refused (R167). -/
def privateOf (w : Nat) : Option Nat := if 0x1000 ≤ w then some ((w - 0x1000) / 0x100) else none

/-- A write of word `off` of ENGe by master `m`. -/
def engWrite (s : State) (e off m : Nat) (w : Word) : State × Status :=
  let p := progOf s e
  let none' := !holdsProgram s e
  match off with
  | 0x00 =>
    if none' then (s, .spare)
    else
      let t := (s.setFld ENG_CTRL_CLSHDLY (Word.bits w 23 16) p)
      let t := if Word.bit w 8 then t.setFlag ENG_CTRL_WLOCK true p else t
      if m < 48 ∧ Word.bit w 0 ≠ s.flag ENG_CTRL_MIGEN p then (s, .violation) else (t.setFlag ENG_CTRL_MIGEN (Word.bit w 0) p, .ok)
  | 0x02 =>
    if engState s e = esHalted ∨ engState s e = esFrozen then (s.plainWrite ENG_PC w e, .ok) else (s, .engrun)
  | 0x03 => (s.plainWrite ENG_FLAGS w e, .ok)
  | 0x04 =>
    if none' then (s, .spare)
    else if s.flag ENG_CTRL_WLOCK p ∧ w ≠ s.reg ENG_FWIN p then (s, .violation)
    else if Word.bits w 31 16 < Word.bits w 15 0 then (s, .outofbound)
    else (s.setReg ENG_FWIN w p, .ok)
  | 0x05 =>
    if none' then (s, .spare)
    else if s.flag ENG_CTRL_WLOCK p ∧ writeFields ENG_WRMASK.fields (s.reg ENG_WRMASK p) w ≠ s.reg ENG_WRMASK p then (s, .violation)
    else (s.plainWrite ENG_WRMASK w p, .ok)
  | 0x07 => if none' then (s, .spare) else (s.plainWrite ENG_BAR w p, .ok)
  | 0x11 => (s.plainWrite ENG_GSEL w e, .ok)
  | 0x13 => (s.plainWrite ENG_CKIDX w e, .ok)
  | 0x15 => (s.plainWrite ENG_EVT w e, .ok)
  | 0x16 => (s.plainWrite ENG_EVTEN w e, .ok)
  | 0x17 => writeEngCmd s m e w
  | _ => (s, .ok)

/-- ENGe_GDATA: the selected register while the engine stands. -/
def gdata (s : State) (e : Nat) : Word × Status :=
  let st := engState s e
  let k := s.fld ENG_GSEL_SEL e
  if st = esHalted ∨ st = esFrozen ∨ st = esFenced then
    (if k < 16 then s.g e k else if k < 24 then wordOf ((s.eng e).stack.reverse.getD (k - 16) 0) else 0, .ok)
  else (0, .engrun)

/-- The view of word `off` of ENGe by master `m`, with its status. An engine without a program shows its program's fields at
their reset values. -/
def engRead (s : State) (e off m : Nat) : State × Word × Status :=
  let p := progOf s e
  let ofProg (r : Reg) : Word := if holdsProgram s e then s.reg r p else r.reset e
  match off with
  | 0x00 => (s, ofProg ENG_CTRL, .ok)
  | 0x04 => (s, ofProg ENG_FWIN, .ok)
  | 0x05 => (s, ofProg ENG_WRMASK, .ok)
  | 0x06 => (s, ofProg ENG_SIG, .ok)
  | 0x07 => (s, ofProg ENG_BAR, .ok)
  | 0x08 => (s, ofProg ENG_BARGEN, .ok)
  | 0x09 =>
    let left := match (s.eng e).clause with | some c => c.window - (s.tbase - c.opened) | none => 0
    (s, Word.setBits (s.reg ENG_CLAUSE e) 15 0 left, .ok)
  | 0x0C => (s, Word.setBits (ofProg ENG_CKSTAT) 31 31 (holdsProgram s e && slotOk s p).toNat, .ok)
  | 0x0D => (s, ofProg ENG_CKTIME, .ok)
  | 0x10 => (s, ofProg ENG_RETIRED, .ok)
  | 0x12 => (s, (gdata s e).1, (gdata s e).2)
  | 0x14 =>
    if m < 48 ∧ m ≠ e then (s, 0, .noaddr)
    else if !s.powered 10 then (s, 0, .pdoff)
    else
      let (t, w, ok) := s.readRam 4 (ckWord e (s.fld ENG_CKIDX_WORD e))
      (t, w, ramStatus ok)
  | 0x17 => (s, 0, .ok)
  | 0x01 => (s, s.reg ENG_STAT e, .ok)
  | 0x02 => (s, s.reg ENG_PC e, .ok)
  | 0x03 => (s, s.reg ENG_FLAGS e, .ok)
  | 0x0A => (s, s.reg ENG_NCONF e, .ok)
  | 0x0B => (s, s.reg ENG_NREVK e, .ok)
  | 0x0E => (s, s.reg ENG_FREEZE e, .ok)
  | 0x0F => (s, s.reg ENG_MIGR e, .ok)
  | 0x11 => (s, s.reg ENG_GSEL e, .ok)
  | 0x13 => (s, s.reg ENG_CKIDX e, .ok)
  | 0x15 => (s, s.reg ENG_EVT e, .ok)
  | 0x16 => (s, s.reg ENG_EVTEN e, .ok)
  | _ => (s, 0, .noaddr)

end Sys2Proof.Machine
end

