-- ==== Sys2Proof/Machine/Domain.lean ====
section
/-! DEFINITION. The power domains (R22–R24, R34): which domain holds a register, draining a domain, releasing it and powering
it up, and the reset of a block's registers. -/
namespace Sys2Proof.Machine

/-! ## Registers by block and domain -/

/-- The word address of a register key without its copy number. -/
def keyBase (k : Nat) : Nat := k % 0x10000

/-- The domain that holds the register of key `k` (R29 and the register maps). -/
def keyDomain (k : Nat) : Nat :=
  let a := keyBase k
  if a < 0x200 then 0
  else if a < 0x400 then 7
  else if a < 0x900 then 0
  else if a < 0xA00 then 1
  else if a < 0xC00 then 10
  else if a < 0xD00 then 11
  else if a < 0xED0 then 6
  else if a < 0xEF0 then 0
  else if a < 0xF00 then 11
  else if a < 0x1000 then 4
  else if a < 0x2000 then railDomain ((a - 0x1000) / 0x80)
  else if a < 0x3000 then (if 0x10000 ≤ k then 9 else if a < 0x2800 then 4 else 5)
  else if a < 0x3800 then engDomain ((a - 0x3000) / 0x20)
  else if a < 0x3C00 then 4
  else if a < 0x3E00 then 9
  else if a < 0x3F00 then 8
  else if a < 0x4000 then 0
  else engDomain ((a - 0x8000) / 16)

/-- The registers whose keys satisfy `p` return to their reset values. -/
def State.resetKeys (s : State) (p : Nat → Bool) : State :=
  { s with regs := cellKeep (fun k => !p k) s.regs, pairs := cellKeep (fun k => !p k) s.pairs }

/-- The registers at words `a` to `b` return to their reset values, copies included. -/
def State.resetRange (s : State) (a b : Nat) : State :=
  s.resetKeys (fun k => decide (a ≤ keyBase k) && decide (keyBase k ≤ b))

/-- The domain of the detector of a fault source (R23, R350). -/
def srcDomain (src inst : Nat) : Nat :=
  if src < 64 ∨ src = 326 ∨ src = 327 ∨ src = 328 then 6
  else if src < 96 then railDomain (src - 64)
  else if src = 324 ∨ src = 325 then railDomain inst
  else if src < 192 then linkDomain inst
  else if src < 240 then engDomain (src - 192)
  else if src < 288 then 2
  else if src < 312 then 9
  else if 329 ≤ src ∧ src ≤ 333 then 11
  else if 336 ≤ src ∧ src ≤ 340 then 2
  else if 341 ≤ src ∧ src ≤ 345 then 4
  else if 346 ≤ src ∧ src ≤ 350 then 8
  else if 351 ≤ src ∧ src ≤ 353 then 7
  else if src = 354 ∨ src = 367 then 1
  else if (356 ≤ src ∧ src ≤ 359) ∨ src = 368 then 10
  else 0

/-! ## The domains of a mode (R22, R34) -/

/-- The prerequisite of a domain (R22). -/
def domainPre (d : Nat) : Nat :=
  match d with
  | 2 | 4 | 6 | 7 | 8 | 10 => 1
  | 3 => 2
  | 5 => 4
  | 9 => 5
  | 11 => 6
  | _ => 0

/-- How many prerequisites a domain stands on (R22). -/
def domainDepth (d : Nat) : Nat :=
  match d with
  | 0 => 0 | 1 => 1 | 3 | 5 | 11 => 3 | 9 => 4 | _ => 2

/-- A list of domains with their prerequisites. -/
def withPrereqs (l : List Nat) : List Nat :=
  (List.range 12).filter (fun d => l.any (fun x =>
    x == d || domainPre x == d || domainPre (domainPre x) == d || domainPre (domainPre (domainPre x)) == d || d == 0))

/-- Step `k` of the plinth sequence as step 3 delivered it (R56, R411): END where it is not provisioned. -/
def plStep (s : State) (k : Nat) : Word := ((otpField s 0 (7 + k)).getD 0) &&& 0xFFFF0000

/-- The steps that the plinth sequencer runs: those before the first END (R69). -/
def plSteps (s : State) : List Word :=
  ((List.range 8).map (plStep s)).takeWhile (fun w => decide (1 ≤ Word.bits w 31 28) && decide (Word.bits w 31 28 ≤ 5))

/-- The plinth sequence names RL0 or RL1 (R34, R69). -/
def plinthRails (s : State) : Bool :=
  (plSteps s).any (fun w =>
    let op := Word.bits w 31 28
    let t := Word.bits w 27 24
    (op == 1 || op == 2 || op == 4) && (t == 4 || t == 5))

/-- The domains that mode `m` powers (R34), with their prerequisites. -/
def modeDomains (s : State) (m : Nat) : List Nat :=
  match m with
  | 0 => []
  | 1 => [0]
  | 3 => if plinthRails s then [0, 1, 4, 6, 7, 10] else [0, 1, 7, 10]
  | 4 => withPrereqs ([0, 1, 2, 3, 4, 6, 7, 10, 11] ++ [5, 8, 9].filter (fun d => (s.fld SYS_PDOPT_SB_OPT).testBit d))
  | 10 => withPrereqs ([0, 1, 7, 10] ++ [4, 6, 11].filter (fun d => (s.fld SYS_PDOPT_PV_OPT).testBit d))
  | 11 => (List.range 12).filter (fun d => s.fbit PDC_STAT_ON d)
  | _ => List.range 12

/-! ## Draining and releasing -/

/-- INTC drains (R348): routing stops and its balls are released. Its registers and stacks reset as PD7 loses power. -/
def intcDrain (s : State) : State := { s with intc := { s.intc with stopped := true } }

/-- The INTC block is reset (R354): its registers, stacks and pending state. The level of MODE_CHANGE is no part of it. -/
def intcReset (s : State) : State := { s.resetRange 0x200 0x3FF with intc := { modeLine := s.intc.modeLine } }

/-- The links of module `m` drain: after the module has (R256). -/
def lxLinksDrain (s : State) (m : Nat) : State := linkDrain (linkDrain s (lxA m)) (lxB m)

/-- The units of domain `d` begin to drain (R22, R34). -/
def domainDrain (s : State) (d : Nat) : State :=
  match d with
  | 1 => otpAbort s
  | 2 => (List.range 24).foldl engineDrain s
  | 3 => ((List.range 24).map (· + 24)).foldl engineDrain s
  | 4 =>
    let s := (List.range 16).foldl drainPort s
    (List.range 32).foldl linkDrain ((List.range 16).foldl railDrain s)
  | 5 => ((List.range 32).map (· + 32)).foldl linkDrain (((List.range 16).map (· + 16)).foldl railDrain s)
  | 6 => (List.range 2).foldl hadcDrain s
  | 7 => intcDrain s
  | 8 => chgDrain s
  | 9 => (List.range 4).foldl (fun s m =>
      let s := lxDrain s m
      if lxState s m = lxDraining then s else lxLinksDrain s m) s
  | 10 => patDrain (scanAbort s)
  | 11 => thmDrain s
  | _ => s

/-- A unit of domain `d` still drains. -/
def domainBusy (s : State) (d : Nat) : Bool :=
  match d with
  | 1 => s.otp.cmd.isSome
  | 2 => (List.range 24).any (fun e => engState s e == esDraining)
  | 3 => (List.range 24).any (fun e => engState s (24 + e) == esDraining)
  | 4 => (List.range 16).any (fun n => railState s n == rsDraining) || (List.range 32).any (fun l => (s.link l).draining != 0)
  | 5 => (List.range 16).any (fun n => railState s (16 + n) == rsDraining)
      || (List.range 32).any (fun l => (s.link (32 + l)).draining != 0)
  | 9 => (List.range 4).any (fun m => lxState s m == lxDraining) || (List.range 8).any (fun l => (s.link (64 + l)).draining != 0)
  | _ => false

/-- The maquette forgets everything but the marks of broken sensors, which stay until CLRBRK or a chip reset (R315). -/
def thmForget (s : State) : State := { s with thm := { tsBrk := s.thm.tsBrk, dieBrk := s.thm.dieBrk } }

/-- The register key `k` is one of THM_BRK, which shows those marks. -/
def brkKey (k : Nat) : Bool := decide (0xC89 ≤ keyBase k) && decide (keyBase k ≤ 0xC8B)

/-- What the units of domain `d` keep beside their registers is gone. -/
def dropUnits (s : State) (d : Nat) : State :=
  match d with
  | 1 => { s with armq := [], armSeq := [] }
  | 2 => { s with engs := cellKeep (fun e => decide (24 ≤ e)) s.engs, progs := [], pmap := {}, sigs := [] }
  | 3 => { s with engs := cellKeep (fun e => decide (e < 24)) s.engs }
  | 4 => { s with rails := cellKeep (fun n => decide (16 ≤ n)) s.rails, links := cellKeep (fun l => decide (32 ≤ l)) s.links,
                  ports := [], groups := [], bud := {} }
  | 5 => { s with rails := cellKeep (fun n => decide (n < 16)) s.rails,
                  links := cellKeep (fun l => decide (l < 32) || decide (64 ≤ l)) s.links }
  | 6 => { s with sup := { s.sup with since := [], gsRun := [], gsHi := 0, hadc := [] } }
  | 7 => { s with hosts := [], intc := { modeLine := s.intc.modeLine }, tap := { trst := s.tap.trst } }
  | 8 => { s with chg := {} }
  | 9 => { s with lx := [], links := cellKeep (fun l => decide (l < 64)) s.links }
  | 10 => { s with pat := {}, chk := { split := s.chk.split, xrst := s.chk.xrst, held := s.chk.held, fifo := s.chk.fifo } }
  | 11 => { thmForget s with sup := { s.sup with tel := [], telN := [], telAt := [], cnt := [], sat := [] } }
  | _ => s

/-- PD6 goes unpowered under enabled rails (R73): each goes OFF with RL_NOSENSE. -/
def railsNoSense (s : State) : State :=
  (List.range 32).foldl (fun s n =>
    let st := railState s n
    if st = rsSoftstart ∨ st = rsRegulate ∨ st = rsStopping ∨ st = rsHiccupOff then
      (railLeave s n rsOff 4 4).postFault 325 n 0 0
    else s) s

/-- Domain `d` becomes unpowered (R22, R23): its registers and its units' contents are gone, and its fault sources and reset
outputs follow. -/
def domainOff (s : State) (d : Nat) : State :=
  let s := if d = 6 then railsNoSense s else if d = 11 then (List.range 32).foldl throttleEnd s else s
  let s := s.setFbit PDC_STAT_ON d false
  let s := dropUnits (s.resetKeys (fun k => keyDomain k == d && d != 0 && !brkKey k)) d
  let s := if d = 10 then patReset s else s
  let s := if d = 1 then s.setFlag CLK_STAT_CORELOCK false else s
  let s := if d = 4 then (s.setFlag CLK_STAT_TIMELOCK false).setFlag CLK_STAT_TREFSEL false else s
  let lv := cellKeep (fun k => srcDomain (k / 65536) (k % 65536) != d) s.flt.level
  rstoUpdate { s with flt := { s.flt with level := lv } }

/-- The domains are released in reverse dependency order (R22). -/
def releaseDomains (s : State) (l : List Nat) : State :=
  [4, 3, 2, 1].foldl (fun s k => (l.filter (fun d => domainDepth d == k)).foldl domainOff s) s

/-- The recorded fences are applied as their domain comes up (R97); an engine stays FENCED until chip reset (R180). -/
def reapplyFences (s : State) : State :=
  let s := (List.range 32).foldl (fun s n =>
    if cellGet false s.flt.railF n && s.powered (railDomain n) && railState s n != rsFenced then setRailState s n rsFenced
    else s) s
  let s := (List.range 4).foldl (fun s m =>
    if cellGet false s.flt.lxF m && s.powered 9 && lxState s m != lxFenced then setLxState s m lxFenced else s) s
  (List.range 48).foldl (fun s e =>
    if s.flt.engF.testBit e && s.powered (engDomain e) && engState s e != esFenced then setEngState s e esFenced else s) s

/-- Domain `d` is powered and released from isolation: its registers hold their reset values and take what other domains kept
for them (R22, R97, R260, R317, R332, R432). A power-up resets the crossings into it (R382). -/
def domainOn (s : State) (d : Nat) : State :=
  let clear (s : State) (x : Nat) : State :=
    let s := ((s.setStopped x false).setOverrun x false).setLevel 360 x 0 0 false
    { s with chk := { s.chk with xrst := s.chk.xrst.filter (· != x), held := s.chk.held.filter (fun y => y.1 != x)
                                 fifo := cellErase s.chk.fifo x } }
  let s := s.setFbit PDC_STAT_ON d true
  let s := match d with
    | 2 | 3 => reapplyFences s
    | 4 =>
      let s := (List.range 4).foldl (fun s g => s.setFld IPT_GRP_IOSTAT (cellGet 0 s.pins.vddip g) g) s
      reapplyFences ((List.range 16).foldl (fun s n => clear s (4 + n)) s)
    | 5 => reapplyFences ((List.range 16).foldl (fun s n => clear s (20 + n)) s)
    | 6 => reapplyFences ((List.range 34).foldl (fun s n => clear s (112 + n)) s)
    | 7 => (List.range 3).foldl (fun s p => s.setFld SYS_HOSTVER_ACT 1 (masterHost p)) { s with hosts := [] }
    | 8 => s.setFlag CHG_STAT_BDIS s.pins.bdis
    | 9 => reapplyFences ((List.range 4).foldl (fun s m => clear s (36 + m)) s)
    | 10 => patReset s
    | 11 => s.setFlag THM_STAT_INIT true
    | _ => s
  rstoUpdate s

/-- The tiers in which a list of domains is powered up (R22): by depth, lowest first. -/
def domainTiers (l : List Nat) : List (List Nat) :=
  ([1, 2, 3, 4].map (fun k => l.filter (fun d => domainDepth d == k))).filter (fun t => !t.isEmpty)

end Sys2Proof.Machine
end

