-- ==== Sys2Proof/Machine/Intc.lean ====
section
/-! DEFINITION. The interrupt controller (14_host_interrupts.md): source lines, targets, routing, acknowledgement and its end, and
the non-maskable interrupts. -/
namespace Sys2Proof.Machine

/-- SYS_HEVTEN, word 0x0090 (R349): the layout of SYS_HEVT, RW with reset 0. -/
def SYS_HEVTEN : Reg := { base := 0x0090, stride := 0, count := 1, copies := false, dom := fun _ => 0, reset := fun _ => 0,
                          fields := [⟨8, 0, .rw, false⟩] }

/-! ## Source lines (R338) -/

/-- An event word and its enable word share a set bit, in a powered domain (R23). -/
def eventLine (s : State) (evt en : Reg) (n d : Nat) : Bool := s.powered d && (s.reg evt n &&& s.reg en n) != 0

/-- A line that comes through crossing `x`: while that is shut, as it was last received (R383). -/
def lineAcross (s : State) (x : Nat) (live : Bool) : Bool :=
  match xHeld s x with
  | some h => h.line
  | none => live

/-- The event line of rail `n`, and of module `m` of the link converter, at their sources. -/
def railLine (s : State) (n : Nat) : Bool := eventLine s RL_EVT RL_EVTEN n (railDomain n)
def lxLine (s : State) (m : Nat) : Bool := eventLine s LXM_EVT LXM_EVTEN m 9

/-- The crossing of a rail loop or an LX module shuts: the core side keeps what it last received (R383). -/
def holdCrossing (s : State) (x : Nat) : State :=
  if crossingShut s x ∨ x < 4 ∨ 40 ≤ x then s
  else
    let n := x - 4
    let raw : List (Nat × (Int × Bool)) := if 36 ≤ x then [] else
      [(n, telSource s 0 n), (64 + n, telSource s 1 n)]
        ++ (railPhases s n).flatMap (fun l => [3, 4, 5].map (fun k => (64 * k + l, telSource s k l)))
    let h : XHold := { line := if 36 ≤ x then lxLine s (x - 36) else railLine s n, raw := raw }
    { s with chk := { s.chk with held := s.chk.held.filter (fun y => y.1 != x) ++ [(x, h)], fifo := cellErase s.chk.fifo x } }

/-- Line `i` of INTC (R338). -/
def intcLine (s : State) (i : Nat) : Bool :=
  if i < 32 then lineAcross s (4 + i) (railLine s i)
  else if i < 96 then eventLine s PH_EVT PH_EVTEN (i - 32) (linkDomain (i - 32))
  else if i < 144 then eventLine s ENG_EVT ENG_EVTEN (i - 96) (engDomain (i - 96))
  else if i < 160 then eventLine s IP_EVT IP_EVTEN (i - 144) 4
  else if i < 164 then lineAcross s (36 + (i - 160)) (lxLine s (i - 160))
  else if i < 172 then eventLine s PH_EVT PH_EVTEN (64 + (i - 164)) 9
  else if i = 172 then eventLine s CHG_EVT CHG_EVTEN 0 8
  else if i = 173 then eventLine s BUD_EVT BUD_EVTEN 0 4
  else if i < 178 then eventLine s BUD_PINEVT BUD_PINEN (i - 174) 4
  else if i < 182 then eventLine s SUP_EVT SUP_EVTEN (i - 178) 6
  else if i = 182 then eventLine s SUP_GSEVT SUP_GSEVTEN 0 6
  else if i = 183 then eventLine s SUP_CNTEVT SUP_CNTEVTEN 0 11
  else if i < 186 then eventLine s HADC_EVT HADC_EVTEN (i - 184) 6
  else if i = 186 then eventLine s THM_EVT THM_EVTEN 0 11
  else if i = 187 then s.flag FLT_STAT_IRQ
  else if i = 188 then s.intc.modeLine
  else if i = 189 then s.flag CLK_STAT_TREFLOSS || s.flag CLK_STAT_XTALFAIL
  else if i < 198 then eventLine s WD_EVT WD_EVTEN (i - 190) 0
  else if i = 198 then eventLine s PAT_EVT PAT_EVTEN 0 10
  else if i = 199 then eventLine s CHK_EVT CHK_EVTEN 0 10
  else if i = 200 then eventLine s OTP_EVT OTP_EVTEN 0 1
  else if i = 201 then eventLine s SYS_HEVT SYS_HEVTEN 0 0
  else if 224 ≤ i then (s.fld INTC_SWISTAT_SWI).testBit (i - 224)
  else false

/-! ## Targets (R340) -/

/-- The engine behind target `t`, for T2 and T3. -/
def targetEng (t : Nat) : Nat := 44 + t

/-- The stack of target `t`, top first. -/
def intcStack (s : State) (t : Nat) : List (Nat × Nat) := cellGet [] s.intc.stk t
def setIntcStack (s : State) (t : Nat) (l : List (Nat × Nat)) : State :=
  { s with intc := { s.intc with stk := cellSet [] s.intc.stk t l } }

/-- Target `t` is available (R340). -/
def targetAvail (s : State) (t : Nat) : Bool :=
  s.powered 7 && s.flag INTC_TCTRL_EN t &&
    (decide (t < 2) || (s.powered 3 && (engState s (targetEng t) == esRunning || engState s (targetEng t) == esWaiting)))

/-- The running priority of target `t` (R340). -/
def targetRpri (s : State) (t : Nat) : Nat :=
  let top := match intcStack s t with | x :: _ => x.2 | [] => 0
  if t < 2 then max (s.fld INTC_TPRI_TPRI t) top else top

/-- Source `i` is routed to target `t` and not acknowledged. -/
def routedTo (s : State) (t i : Nat) : Bool := s.flag INTC_SRC_ROUTED i && s.fld INTC_SRC_TGT i == t

/-- INTP of target `t` (R342). -/
def targetIntp (s : State) (t : Nat) : Bool := (List.range 256).any (fun i => routedTo s t i)

/-- A target's stack is emptied and its sources lose ACTIVE (R345, R346). -/
def emptyStack (s : State) (t : Nat) : State :=
  let s := setIntcStack ((intcStack s t).foldl (fun s x => s.setFlag INTC_SRC_ACTIVE false x.1) s) t []
  { s with intc := { s.intc with stkPairs := cellKeep (fun k => k / 16 != t) s.intc.stkPairs } }

/-- INTC_STACK asserts (R345), and STKERR records the first since it was cleared. -/
def stackFault (s : State) (t kind named top : Nat) : State :=
  let s := s.postFault 353 t kind (wordOf (65536 * named + 256 * top))
  if s.fld INTC_STKERR_KIND = 0 then
    (((s.setFld INTC_STKERR_T t).setFld INTC_STKERR_NAMED named).setFld INTC_STKERR_TOP top).setFld INTC_STKERR_KIND kind
  else s

/-- A stack entry's pair does not match at a read (R345): the stack is emptied, with kind PAIR. -/
def stackPair (s : State) (t : Nat) : State :=
  let top := match intcStack s t with | x :: _ => x.1 | [] => 0
  stackFault (emptyStack s t) t 3 top top

/-- The stack of target `t` is read, every entry of it (R345; assumption log entry 167). -/
def stackRead (s : State) (t : Nat) : State :=
  if (List.range (intcStack s t).length).any (fun d => cellGet 0 s.intc.stkPairs (16 * t + d) != 0) then stackPair s t else s

/-! ## Routing (R341) -/

/-- The available target in the source's mask with the lowest running priority below PRI; ties to the lowest index. -/
def bestTarget (s : State) (i : Nat) : Option Nat :=
  (List.range 4).foldl (fun b t =>
    let r := targetRpri s t
    if targetAvail s t && s.fbit INTC_SRC_TMASK t i && decide (r < s.fld INTC_SRC_PRI i) then
      match b with
      | some c => if r < targetRpri s c then some t else b
      | none => some t
    else b) none

/-- Source `i` is routed, moved, withdrawn or left unrouted (R339, R341). -/
def routeSource (s : State) (i : Nat) : State :=
  let eligible := intcLine s i && s.fld INTC_SRC_PRI i != 0 && !s.flag INTC_SRC_ACTIVE i
  let t := s.fld INTC_SRC_TGT i
  let keeps := s.flag INTC_SRC_ROUTED i && targetAvail s t && s.fbit INTC_SRC_TMASK t i
  let s := s.setFbit INTC_UNRT_SRCS (i % 32) false (i / 32)
  if !eligible then s.setFlag INTC_SRC_ROUTED false i
  else if keeps && decide (targetRpri s t < s.fld INTC_SRC_PRI i) then s
  else match bestTarget s i with
    | some b => (s.setFlag INTC_SRC_ROUTED true i).setFld INTC_SRC_TGT b i
    | none =>
      if keeps then s
      else (s.setFlag INTC_SRC_ROUTED false i).setFbit INTC_UNRT_SRCS (i % 32) true (i / 32)

/-- The signal of a target's engine (R342, R347): a host-type signal without sequence to the program that it runs. -/
def targetSignal (s : State) (t n : Nat) : State :=
  let e := targetEng t
  if holdsProgram s e then s.setFbit ENG_SIG_PENDING n true (progOf s e) else s

/-- The source lines of INTC. -/
def intcSources : List Nat := (List.range 202) ++ (List.range 32).map (· + 224)

/-- INTERRUPT_ROUTING (R341, R342): the stacks are read, those of engine targets that became unavailable are emptied, every source is
routed, and an engine target whose INTP rises is signalled. In the drain routing has stopped (R348). -/
def intcRoute (s : State) : State :=
  if s.intc.stopped then s else
  let s := (List.range 4).foldl stackRead s
  let was := [2, 3].map (fun t => (t, targetIntp s t))
  let s := [2, 3].foldl (fun s t => if targetAvail s t then s else emptyStack s t) s
  let s := intcSources.foldl routeSource s
  was.foldl (fun s x => if targetIntp s x.1 && !x.2 then targetSignal s x.1 (s.fld INTC_TCTRL_SIGNO x.1) else s) s
def execInterruptRouting (s : State) : Out := s.on 7 (intcRoute s)

/-! ## Acknowledgement and end of interrupt (R343–R346) -/

/-- Master `m` is on the side of target `t` (R346): a host port for T0 and T1; for T2 and T3 the program on the target's engine,
with the INTC bit of its WRMASK. -/
def ownSide (s : State) (m t : Nat) : Bool :=
  if t < 2 then decide (masterHost 0 ≤ m) && decide (m ≤ masterHost 2)
  else m == targetEng t && holdsProgram s m && wrBit s (progOf s m) 2

/-- A write of source `i` to INTC_ACKt (R344). -/
def intcAck (s : State) (m t i : Nat) : State × Status :=
  let s := if ownSide s m t then stackRead s t else s
  let l := intcStack s t
  let top := match l with | x :: _ => x.1 | [] => 0
  if !ownSide s m t then (s, .violation)
  else if !(routedTo s t i && decide (targetRpri s t < s.fld INTC_SRC_PRI i)) then (s, .illegal)
  else if 16 ≤ l.length then (stackFault s t 4 i top, .illegal)
  else
    let s := setIntcStack s t ((i, s.fld INTC_SRC_PRI i) :: l)
    let s := (s.setFlag INTC_SRC_ACTIVE true i).setFlag INTC_SRC_ROUTED false i
    (if i = 188 then { s with intc := { s.intc with modeLine := false } } else s, .ok)

/-- A write of source `i` to INTC_EOIt (R345). -/
def intcEoi (s : State) (m t i : Nat) : State × Status :=
  let s := if ownSide s m t then stackRead s t else s
  let l := intcStack s t
  let top := match l with | x :: _ => x.1 | [] => 0
  if !ownSide s m t then (s, .violation)
  else if !l.any (fun x => x.1 == i) then (stackFault s t 2 i top, .illegal)
  else
    let s := (setIntcStack s t (l.eraseP (fun x => x.1 == i))).setFlag INTC_SRC_ACTIVE false i
    (if top = i then s else stackFault s t 1 i top, .ok)

/-! ## Software and non-maskable interrupts (R338, R347) -/

/-- SWISET and SWICLR. -/
def swiSet (s : State) (w : Word) : State := s.setReg INTC_SWISTAT (s.reg INTC_SWISTAT ||| w)
def swiClr (s : State) (w : Word) : State := s.setReg INTC_SWISTAT (s.reg INTC_SWISTAT &&& ~~~w)
def execSwiset (w : Word) (s : State) : Out := s.on 7 (s.ifWritable (swiSet s w))
def execSwiclr (w : Word) (s : State) : Out := s.on 7 (s.ifWritable (swiClr s w))

/-- A reaction of kind NMI (R347). -/
def raiseNmi (s : State) : State :=
  if !s.powered 7 then s
  else
    let ts := (List.range 4).filter (fun t => s.flag INTC_TCTRL_NMIEN t)
    let t := if (List.range 4).any (fun t => s.fbit INTC_NMI_PEND t) then s.countTo INTC_NMICNT_COUNT 0xFFFFFFFF else s
    (ts.filter (fun t => !s.fbit INTC_NMI_PEND t)).foldl (fun s t =>
      let s := s.setFbit INTC_NMI_PEND t true
      if t < 2 then s else targetSignal s t (s.fld INTC_TCTRL_NMISIG t)) t

/-- INTt_N and NMIt_N are low (R342, R347), for T0 and T1: while the target's INTP, or its PEND, stands. INTC's drain releases them, and an
unpowered INTC drives none (R348). -/
def intLow (s : State) (t : Nat) : Bool := s.powered 7 && !s.intc.stopped && targetIntp s t
def nmiLow (s : State) (t : Nat) : Bool := s.powered 7 && !s.intc.stopped && s.fbit INTC_NMI_PEND t

/-- NMICNT_READ (R347): the count is cleared by its read. -/
def nmicntRead (s : State) : State × Word := (s.setReg INTC_NMICNT 0, s.reg INTC_NMICNT)
def execNmicntRead (s : State) : Out := s.on 7 (nmicntRead s).1

/-- STKERR_CLR (R345). -/
def stkerrClr (s : State) : State := s.setReg INTC_STKERR 0
def execStkerrClr (s : State) : Out := s.on 7 (s.ifWritable (stkerrClr s))

/-! ## Register access (R349) -/

/-- A write of an INTC word at offset `off` of 0x0200 by master `m`. -/
def intcWrite (s : State) (off m : Nat) (w : Word) : State × Status :=
  if off < 0x100 then
    if 202 ≤ off ∧ off < 224 then (s, .noaddr) else (s.plainWrite INTC_SRC w off, .ok)
  else if off < 0x180 then
    let t := (off - 0x100) / 0x20
    match (off - 0x100) % 0x20 with
    | 0 => (s.plainWrite INTC_TCTRL w t, .ok)
    | 1 => if t < 2 then (s.plainWrite INTC_TPRI w t, .ok) else (s, .ok)
    | 3 => intcAck s m t (Word.bits w 7 0)
    | 4 => intcEoi s m t (Word.bits w 7 0)
    | 5 => (s.plainWrite INTC_STKSEL w t, .ok)
    | _ => (s, .ok)
  else match off with
    | 0x188 => (swiSet s w, .ok)
    | 0x189 => (swiClr s w, .ok)
    | 0x18C =>
      let own := (List.range 4).filter (fun t => Word.bit w t && ownSide s m t)
      (own.foldl (fun s t => s.setFbit INTC_NMI_PEND t false) s, .ok)
    | 0x18E => (if Word.bit w 3 then stkerrClr s else s, .ok)
    | _ => (s, .ok)

/-- A read of an INTC word at offset `off` of 0x0200. -/
def intcRead (s : State) (off : Nat) : State × Word × Status :=
  if off < 0x100 then
    if 202 ≤ off ∧ off < 224 then (s, 0, .noaddr)
    else (s, Word.setBit (s.reg INTC_SRC off) 31 (intcLine s off), .ok)
  else if off < 0x180 then
    let t := (off - 0x100) / 0x20
    let s := if (off - 0x100) % 0x20 = 2 ∨ (off - 0x100) % 0x20 = 6 then stackRead s t else s
    let l := intcStack s t
    match (off - 0x100) % 0x20 with
    | 0 => (s, s.reg INTC_TCTRL t, .ok)
    | 1 => (s, s.reg INTC_TPRI t, .ok)
    | 2 =>
      let top := match l with | x :: _ => x.1 | [] => 0
      (s, wordOf (2 ^ 28 * targetRpri s t + 65536 * l.length + 256 * top + 2 * (targetAvail s t).toNat + (targetIntp s t).toNat), .ok)
    | 3 | 4 => (s, 0, .ok)
    | 5 => (s, s.reg INTC_STKSEL t, .ok)
    | 6 =>
      (s, match l.reverse[s.fld INTC_STKSEL_IDX t]? with
          | some x => wordOf (2 ^ 31 + 256 * x.2 + x.1)
          | none => 0, .ok)
    | 8 | 9 | 10 | 11 | 12 | 13 | 14 | 15 =>
      let b := 32 * ((off - 0x100) % 0x20 - 8)
      (s, wordOf ((List.range 32).foldl (fun a j => if routedTo s t (b + j) then a + 2 ^ j else a) 0), .ok)
    | _ => (s, 0, .noaddr)
  else match off with
    | 0x188 | 0x189 => (s, 0, .ok)
    | 0x18A => (s, s.reg INTC_SWISTAT, .ok)
    | 0x18C => (s, s.reg INTC_NMI, .ok)
    | 0x18D => ((nmicntRead s).1, (nmicntRead s).2, .ok)
    | 0x18E => (s, s.reg INTC_STKERR, .ok)
    | _ => if 0x180 ≤ off ∧ off < 0x188 then (s, s.reg INTC_UNRT (off - 0x180), .ok) else (s, 0, .noaddr)

end Sys2Proof.Machine
end

