-- ==== Sys2Proof/Machine/Fault.lean ====
section
/-! DEFINITION. Fault collection (15_faults.md): fences, reactions, the error pair, the first-fault record and injection. -/
namespace Sys2Proof.Machine

/-! ## Fences (R351, R352) -/

/-- A fence is counted (R351). -/
def noteFence (s : State) : State :=
  let s := (s.countTo FLT_FENCECNT_COUNT 0xFFFFFFFF).event FLT_STAT_FENCEEV
  if s.flag SYS_MODECFG_FENCEDEG then s.postCause 3 modeDegraded else s

/-- The source has a unit in the Fence column (R352). -/
def fenceWritable (src : Nat) : Bool :=
  decide (src < 192) || (decide (288 ≤ src) && decide (src ≤ 311)) || (decide (320 ≤ src) && decide (src ≤ 324))
    || src == 326 || src == 329 || src == 330

/-- AUX3 has left the state `was`: out of CHARGER, charger duty is withdrawn and the BATH path suspended with NOSOURCE (R302). -/
def endDuty (s : State) (was : Nat) : State := if was = axCharger then hSuspend (s.setFlag CHG_CTRL_AUXCHG false) 11 else s

/-- A unit is fenced by FLT: kind 0 a rail loop, 1 an LX module, 2 an AUX regulator. A fence already in force is left. -/
def fenceUnit (s : State) (kind i : Nat) : State :=
  match kind with
  | 0 => if cellGet false s.flt.railF i then s else if s.powered (railDomain i) then noteFence (railFence s i)
         else noteFence { s with flt := { s.flt with railF := cellSet false s.flt.railF i true } }
  | 1 => if cellGet false s.flt.lxF i then s else if s.powered 9 then noteFence (lxFence s i)
         else noteFence { s with flt := { s.flt with lxF := cellSet false s.flt.lxF i true } }
  | 2 => if cellGet false s.flt.auxF i then s else noteFence (endDuty (auxFence s i) (auxState s i))
  | _ => s

/-- The unit that FENCE = 1 of a source fences, by kind and index (the Fence column of R350). -/
def fenceTarget (s : State) (f : FaultPost) : Option (Nat × Nat) :=
  if f.src < 96 then some (0, f.src % 32)
  else if f.src < 192 then some (0, f.data1.toNat % 32)
  else if 288 ≤ f.src ∧ f.src ≤ 311 then some (1, f.inst % 4)
  else if 320 ≤ f.src ∧ f.src ≤ 323 then some (2, f.src - 320)
  else if f.src = 324 ∨ f.src = 326 then some (0, f.inst % 32)
  else if f.src = 329 then (railOfPhase s f.inst).map (fun n => (0, n))
  else if f.src = 330 then some (2, f.inst % 4)
  else none

/-- The fences of an assertion (R351): an engine's is recorded, the configured one and that of ENG_FENCEREQ are applied. -/
def faultFences (s : State) (f : FaultPost) : State :=
  if (192 ≤ f.src ∧ f.src < 240) ∨ f.src = 336 then noteFence s
  else if f.src = 340 then
    let k := f.detail / 256 % 4
    let i := f.detail % 256
    let present := if k = 0 then s.railPresent i else i < 4
    if present then fenceUnit s k i else s
  else if s.flag FLT_CFG_FENCE f.src then
    match fenceTarget s f with
    | some (k, i) => fenceUnit s k i
    | none => s
  else s

/-! ## Block resets (R354) -/

/-- The registers of supervisor `n`. -/
def supKeys (n k : Nat) : Bool := decide (0xE00 + 4 * n ≤ keyBase k) && decide (keyBase k < 0xE04 + 4 * n)

/-- A rail is reset: its drain ends, and RLn, SUPn and the PHn of every phase it mapped return to their reset values. Its
fences stay (R97). -/
def railReset (s : State) (n : Nat) : State :=
  if !s.powered (railDomain n) then s
  else
    let phs := railPhases s n
    let s := railDrainEnd (railDrain s n) n
    let s := phs.foldl (fun s ph =>
      { s with links := cellErase s.links ph }.resetKeys (fun k => decide (0x2000 + 64 * ph ≤ k) && decide (k < 0x2040 + 64 * ph))) s
    let fence := s.reg RL_FENCE n
    let s := s.resetKeys (fun k => (decide (0x1000 + 128 * n ≤ k) && decide (k < 0x1080 + 128 * n)) || supKeys n k)
    reapplyFences (({ s with rails := cellErase s.rails n }).setReg RL_FENCE fence n)

/-- A module is reset: drained, then its registers; the link registers are kept. -/
def lxReset (s : State) (m : Nat) : State :=
  if !s.powered 9 then s
  else
    let s := lxDrainEnd (lxDrain s m) m
    let s := s.resetKeys (fun k => decide (0x3D40 + 32 * m ≤ k) && decide (k < 0x3D60 + 32 * m))
    reapplyFences { s with lx := cellErase s.lx m }

/-- An AUX regulator is disabled and its registers reset (R302, R354); a fenced one stays as it is but for its other registers. AUX3 leaves
charger duty, and the BATH path its source. -/
def auxReset (s : State) (n : Nat) : State :=
  let was := auxState s n
  let why := if was = axFenced then s.fld AUX_STAT_LASTOFF n else 5
  let s := endDuty (auxStop s n axOff 5) was
  let s := s.resetKeys (fun k => decide (0x3F10 + 4 * n ≤ k) && decide (k < 0x3F14 + 4 * n))
  let s := s.setFld AUX_STAT_LASTOFF why n
  if was = axFenced then setAuxState s n axFenced else s

/-- A port drains and its registers reset (R160); an allowance reduction in progress goes on (R138). -/
def portReset (s : State) (p : Nat) : State :=
  if !s.powered 4 then s
  else
    let s := drainPort s p
    let h := s.port p
    (s.setPort p { cut := h.cut, cutSeq := h.cutSeq, capCut := h.capCut, drawn := h.drawn }).resetKeys (fun k => decide (0x3900 + 16 * p ≤ k) && decide (k < 0x3910 + 16 * p))

/-- A host port returns to HPv1 with its ALIVE reference open (R332); a freeze stands. -/
def hostReset (s : State) (p : Nat) : State :=
  if !s.powered 7 then s
  else (s.setHost p { s.host p with aliveOpen := true }).setFld SYS_HOSTVER_ACT 1 (masterHost p)

/-- A converter drains and its registers reset (R299). -/
def hadcReset (s : State) (c : Nat) : State :=
  if !s.powered 6 then s
  else
    let s := hadcDrain s c
    let s := s.resetKeys (fun k => (decide (0xD00 + 16 * c ≤ k) && decide (k < 0xD10 + 16 * c))
      || (decide (0xD40 + 32 * c ≤ k) && decide (k < 0xD60 + 32 * c)))
    s.setHadc c {}

/-- The block reset of an assertion (the Block column of R350, R354). Sources without a block have none. -/
def blockReset (s : State) (f : FaultPost) : State :=
  if f.src < 96 then railReset s (f.src % 32)
  else if f.src < 192 then railReset s (f.data1.toNat % 32)
  else if 288 ≤ f.src ∧ f.src ≤ 311 then lxReset s (f.inst % 4)
  else if 320 ≤ f.src ∧ f.src ≤ 323 then auxReset s (f.src - 320)
  else if f.src = 324 ∨ f.src = 326 then railReset s (f.inst % 32)
  else if f.src = 328 then hadcReset s (f.inst % 2)
  else if 329 ≤ f.src ∧ f.src ≤ 333 then
    if s.powered 11 then thmForget ((thmDrain s).resetKeys (fun k => decide (0xC00 ≤ keyBase k) && decide (keyBase k ≤ 0xCFF) && !brkKey k)) else s
  else if f.src = 341 then (List.range 4).foldl (fun s i => portReset s (4 * (f.inst % 4) + i)) s
  else if f.src = 342 ∨ f.src = 343 then portReset s (f.inst % 16)
  else if 346 ≤ f.src ∧ f.src ≤ 350 then
    if s.powered 8 then (((chgDrain s).resetRange 0x3E00 0x3EFF)).setFlag CHG_STAT_BDIS s.pins.bdis else s
  else if f.src = 351 then hostReset s (f.inst % 3)
  else if f.src = 353 then (if s.powered 7 then intcReset s else s)
  else if f.src = 358 then (if s.powered 10 then { s.resetRange 0xA00 0xAFF with chk := { split := s.chk.split, xrst := s.chk.xrst } } else s)
  else if f.src = 368 then (if s.powered 10 then (patReset (markWrite s)).resetRange 0xB00 0xBFF else s)
  else s

/-- The source's Block column names a block (R353). -/
def hasBlock (src : Nat) : Bool :=
  decide (src < 192) || (decide (288 ≤ src) && decide (src ≤ 311)) || (decide (320 ≤ src) && decide (src ≤ 324)) || src == 326
    || (decide (328 ≤ src) && decide (src ≤ 333)) || (decide (341 ≤ src) && decide (src ≤ 343))
    || (decide (346 ≤ src) && decide (src ≤ 351)) || src == 353 || src == 358 || src == 368

/-! ## Reactions and the error pair (R353, R355, R357) -/

/-- A chip reset is due (R355): in a start of WAKE it is a failed start; otherwise CHIP_RESET follows. -/
def chipResetDue (s : State) (src : Nat) : State :=
  if s.cur = modeWake ∧ s.boot.failing.isNone ∧ !s.flag SYS_BOOTSTAT_OTPHOLD then
    failDue s (if 312 ≤ src ∧ src < 320 then 0x40 else if s.boot.started then 0x30 else 0x20)
  else { s with flt := { s.flt with chipReset := some src } }

/-- The reactions above level `lo` up to `hi` (R353). -/
def applyReactions (s : State) (f : FaultPost) (lo hi : Nat) : State :=
  let s := if lo < 1 ∧ 1 ≤ hi then s.event FLT_STAT_IRQ else s
  let s := if lo < 2 ∧ 2 ≤ hi then raiseNmi s else s
  let s := if lo < 3 ∧ 3 ≤ hi then blockReset s f else s
  if lo < 4 ∧ 4 ≤ hi then chipResetDue s f.src else s

/-- The pair changes to fault. -/
def pairFault (s : State) : State :=
  if s.flag FLT_STAT_EPSTATE then s
  else { s.setFlag FLT_STAT_EPSTATE true with flt := { s.flt with epSince := s.tbase } }

/-! ## The first-fault record (R359) -/

/-- A first fault latches, with what applied, and its patina record (R359, R426). -/
def faultLatch (s : State) (f : FaultPost) (inj : Bool) (react : Nat) (ep : Bool) : State :=
  let src := 2 ^ 31 + (if inj then 2 ^ 29 else 0) + (if ep then 2 ^ 19 else 0) + 2 ^ 16 * react + f.src
  let s := (s.setReg FLT_FFSRC (wordOf src)).setReg FLT_FFTIMEL (wordOf s.tbaseLo)
  let s := s.setReg FLT_FFTIMEH (wordOf (s.tbase / 2 ^ 32 % 2 ^ 24))
  let s := (s.setReg FLT_FFDATA0 (faultData0 f)).setReg FLT_FFDATA1 f.data1
  s.postRecord { kind := 6, src := 0x44, time := s.tbase, inj := inj,
                 bytes := natBytes 2 f.src ++ [react, ep.toNat] ++ natBytes 4 (faultData0 f).toNat ++ natBytes 4 f.data1.toNat }

/-- A later assertion merges (R359). -/
def faultMerge (s : State) (f : FaultPost) (inj : Bool) (react : Nat) (ep : Bool) : State :=
  let applied := s.fld FLT_FFSRC_APPLIED
  let s := (s.setFlag FLT_FFSRC_OVF true).countTo FLT_FFCNT_COUNT 0xFFFF
  let s := s.setReg FLT_FFLAST (wordOf ((if inj then 2 ^ 29 else 0) + f.src))
  let s := if applied < react then
      ((applyReactions s f applied react).setFld FLT_FFSRC_APPLIED react).setFlag FLT_FFSRC_ESC true
    else s
  if ep && !s.flag FLT_FFSRC_EPAPPL then
    ((pairFault s).setFlag FLT_FFSRC_EPAPPL true).setFlag FLT_FFSRC_ESC true
  else s

/-- FLT evaluates an assertion (R350–R359). -/
def faultEval (s : State) (f : FaultPost) (inj : Bool) : State :=
  let s := s.setFbit FLT_STS_SRCS (f.src % 32) true (f.src / 32)
  let s := faultFences s f
  let react := s.fld FLT_CFG_REACT f.src
  let ep := s.flag FLT_CFG_EP f.src
  let s := if ep then s.setFlag FLT_STAT_EPPEND false else s
  if react = 0 ∧ !ep then s
  else if s.flag FLT_FFSRC_ACTIVE then faultMerge s f inj react ep
  else
    let s := faultLatch s f inj react ep
    let s := if ep then pairFault s else s
    applyReactions s f 0 react

/-- A violation freezes the port (R336): 1 WRITE, 2 LOCK, 3 KEY, 4 reserved to others. -/
def hostFreeze (s : State) (p cause a : Nat) : State :=
  let s := ((s.setFlag SYS_HSTAT_FROZEN true p).setFld SYS_HSTAT_CAUSE cause p).setFld SYS_HSTAT_ADDR a p
  let s := s.setHost p { s.host p with hold := none }
  (s.setFbit SYS_HEVT_EVENTS (3 * p + 1) true).postFault 352 p cause (wordOf a)

/-! ## Injection (R361–R364) -/

/-- The Inject column of R350: the kinds C, K and P that a source takes, and the online subset. -/
def injectKinds (src : Nat) : Bool × Bool × Bool × Bool :=
  let online := decide (src < 64) || [326, 327, 328, 333, 339, 351, 354, 355, 356, 357, 358, 369].contains src
  if src = 343 ∨ (356 ≤ src ∧ src ≤ 358) ∨ src = 368 then (false, true, false, online)
  else if src = 336 ∨ src = 354 ∨ src = 355 ∨ src = 367 ∨ src = 371 then (false, false, true, online)
  else if src = 353 then (true, false, true, online)
  else (decide (src < 372), false, false, online)

/-- How many instances a shared source has; none where INST is not looked at. The hops of ARM_PAIR are not numbered in the spec: every value
of INST names one (assumption log entry 86). -/
def injectInstances (src : Nat) : Option Nat :=
  if 96 ≤ src ∧ src < 192 then some 64
  else match src with
    | 324 | 325 | 326 => some 32
    | 327 | 342 | 343 => some 16
    | 328 => some 2
    | 329 | 333 | 360 => some 64
    | 330 | 341 | 353 => some 4
    | 335 => some 9
    | 336 | 337 | 338 | 339 | 340 => some 48
    | 344 | 345 | 369 => some 8
    | 346 | 348 => some 2
    | 347 | 349 | 350 | 351 | 352 => some 3
    | 354 => some 64
    | 355 => some 23
    | 356 | 357 => some 6
    | 362 => some 12
    | 367 => some 15
    | _ => none

/-- An instance that the part does not have (R3), or that the source does not: a charge path that the rule of the source does not name (R269,
R278, R280), a crossing that reports in another way (R382), and KEYHASH, which is no critical field (R411). -/
def injectAbsent (s : State) (src i : Nat) : Bool :=
  if 240 ≤ src ∧ src < 288 then !s.engPresent (src - 240)
  else if src = 333 then !nodePresent s i
  else if src = 348 then i == 0
  else if src = 349 ∨ src = 350 then i != 2
  else if src < 96 then !s.railPresent (src % 32)
  else if src < 192 then !s.railPresent (src % 32) || !s.phPresent i
  else if src < 240 then !s.engPresent (src - 192)
  else if src = 324 ∨ src = 325 ∨ src = 326 then !s.railPresent i
  else if src = 329 then !s.phPresent i
  else if src = 336 ∨ src = 338 then !s.engPresent i
  else if src = 360 then decide (i < 4) || decide (40 ≤ i) || (decide (i < 36) && !s.railPresent (i - 4))
  else if src = 367 then i == 6
  else false

/-- The instance that the fault data of an injected assertion names. -/
def injectInst (src i : Nat) : Nat :=
  if src < 96 then src % 32
  else if 192 ≤ src ∧ src < 240 then src - 192
  else if 240 ≤ src ∧ src < 288 then src - 240
  else if 288 ≤ src ∧ src < 312 then (src - 288) % 4
  else if 312 ≤ src ∧ src < 320 then src - 312
  else if 320 ≤ src ∧ src < 324 then src - 320
  else match injectInstances src with | some _ => i | none => 0

/-- Arming the injection prepared in FLT_INJSEL (R361, R362). -/
def injectArm (s : State) : State × Status :=
  let src := s.fld FLT_INJSEL_SRC
  let kind := s.fld FLT_INJSEL_KIND
  let i := s.fld FLT_INJSEL_INST
  let k := injectKinds src
  let kindOk := (kind == 0 && k.1) || (kind == 1 && k.2.1) || (kind == 2 && k.2.2.1)
  let modeOk := s.cur == modeService || (s.cur == modeRun && k.2.2.2)
  let instOk := match injectInstances src with | some c => decide (i < c) | none => true
  if !modeOk then (s, .modedeny)
  else if !kindOk || decide (372 ≤ src) || !instOk || injectAbsent s src i then (s, .illegal)
  else if s.flt.armed.isSome then (s, .busy)
  else
    let rec' := s.flag FLT_INJSEL_REC || s.cur == modeRun
    let s := { s with flt := { s.flt with armed := some (src, kind, injectInst src i, rec') } }
    (s.setFld FLT_INJSTAT_STATE 1, .ok)

/-- An armed injection ends without firing, in INJSTAT state `st` (3 NOFIRE, 4 DISARMED). -/
def injectEnd (s : State) (st : Nat) : State :=
  match s.flt.armed with
  | some _ => { s.setFld FLT_INJSTAT_STATE st with flt := { s.flt with armed := none } }
  | none => s

/-- A write of FLT_INJARM (R362, R363). -/
def writeInjarm (s : State) (w : Word) : State × Status :=
  if Word.bit w 0 then
    if Word.bits w 31 16 = 0x6B1D then
      injectArm (if Word.bit w 1 then injectEnd s 4 else s)
    else (s, .keyerr)
  else (if Word.bit w 1 then injectEnd s 4 else s, .ok)

/-- A fault source of an instance that the part does not have (R3): it never asserts, and its reaction fields read zero. -/
def srcAbsent (s : State) (src : Nat) : Bool :=
  if src < 192 then !s.railPresent (src % 32)
  else if src < 240 then !s.engPresent (src - 192)
  else if src < 288 then !s.engPresent (src - 240)
  else false

/-- The oldest assertion due of source `src` and instance `inst` is evaluated, if there is one. -/
def evalDue (s : State) (src inst : Nat) : State :=
  match s.flt.due.find? (fun f => f.src == src && f.inst == inst) with
  | some f => faultEval { s with flt := { s.flt with due := s.flt.due.erase f } } f false
  | none => s

/-- ERRIN and ERRIN_RELEASE (R358). -/
def execErrin (s : State) : Out := s.on 0 ((s.setLevel 370 0 0 0 true).setErrin true)
def execErrinRelease (s : State) : Out :=
  s.on 0 ((s.setLevel 370 0 0 0 false).setErrin false)

/-- A clear of the error pair is requested (R357). -/
def epclr (s : State) : State × Status :=
  if (s.cur = modeWake ∧ !s.boot.started) ∨ s.cur = modePlinth ∨ s.flag SYS_BOOTSTAT_OTPHOLD then (s, .modedeny)
  else (s.setFlag FLT_STAT_EPPEND true, .ok)

/-- A source with EP = 1 is at level 1 (R357). -/
def epHeld (s : State) : Bool := s.flt.level.any (fun x => x.2 && s.flag FLT_CFG_EP (x.1 / 65536))

/-- EP_CLEAR_EFFECT (R357): the pair has shown fault for MINT ms and no source with EP = 1 is at level 1; never in PLINTH or in the
hold of R55, throughout which the pair shows fault. -/
def epClearEffect (s : State) : State :=
  if s.writesOpen && s.flag FLT_STAT_EPPEND && decide (s.flt.epSince + 1000 * max 1 (s.fld FLT_EPCTRL_MINT) ≤ s.tbase) && !epHeld s then
    (s.setFlag FLT_STAT_EPPEND false).setFlag FLT_STAT_EPSTATE false
  else s
def execEpClearEffect (s : State) : Out := s.on 0 (epClearEffect s)

/-- EPMISM (R356): a ball of the pair has read back wrong for 1 µs, or the internal pair differs; the condition holds while each
microsecond reports it (assumption log entry 168). The kind in FLT_SELF's detail is a free value. -/
def epMism (s : State) : State :=
  let (w, s) := s.free
  State.setLevel { s.event FLT_STAT_EPMISM with flt := { s.flt with epSeen := true } } 371 0 (w.toNat % 65536) 0 true
def execEpmism (s : State) : Out := s.on 0 (epMism s)

/-- The end of a microsecond for the condition of FLT_SELF (R350): false where none was reported in it. -/
def epmismUs (s : State) : State :=
  if s.flt.epSeen then { s with flt := { s.flt with epSeen := false } }
  else if cellGet false s.flt.level (65536 * 371) then s.setLevel 371 0 0 0 false
  else s

/-- FFCLR (R360): the record clears, and the lowest source still at level 1 that takes part latches anew, with no reaction. -/
def ffclr (s : State) : State :=
  let s := s.resetReg FLT_FFCNT
  let s := ((((s.setFlag FLT_FFSRC_ACTIVE false).setFlag FLT_FFSRC_OVF false).setFlag FLT_FFSRC_ESC false).setFld
    FLT_FFSRC_APPLIED 0).setFlag FLT_FFSRC_EPAPPL false
  match s.flt.level.find? (fun x => x.2 && (s.fld FLT_CFG_REACT (x.1 / 65536) != 0 || s.flag FLT_CFG_EP (x.1 / 65536))) with
  | some x =>
    let d := cellGet (0, 0) s.flt.data x.1
    faultLatch s ⟨x.1 / 65536, x.1 % 65536, d.1, d.2⟩ false 0 false
  | none => s

/-- A write of FLT_CMD (R357, R360, R365). -/
def writeFltCmd (s : State) (w : Word) : State × Status :=
  if !Word.bit w 0 && !Word.bit w 1 then (s, .ok)
  else if Word.bits w 31 16 ≠ 0x7C1E then (s, .keyerr)
  else
    let s := if Word.bit w 0 then ffclr s else s
    if Word.bit w 1 then epclr s else (s, .ok)
/-- EPCLR and FFCLR with the key that the write carries. -/
def execEpclr (key : Fin 65536) (s : State) : Out := s.on 0 (s.ifWritable (writeFltCmd s (wordOf (65536 * key + 2))).1)
def execFfclr (key : Fin 65536) (s : State) : Out := s.on 0 (s.ifWritable (writeFltCmd s (wordOf (65536 * key + 1))).1)

/-- INJECTION_ARM, with its key, and INJECTION_DISARM (R362, R363). -/
def execInjectionArm (key : Fin 65536) (s : State) : Out := s.on 0 (writeInjarm s (wordOf (65536 * key + 1))).1
def execInjectionDisarm (s : State) : Out := s.on 0 (s.ifWritable (injectEnd s 4))
/-- INJECTION_NOFIRE (R363). -/
def execInjectionNofire (s : State) : Out := s.on 0 (injectEnd s 3)

/-! ## Writes (R365) -/

/-- A write of FLT_CFGs (R352, R353). -/
def writeFltCfg (s : State) (src : Nat) (w : Word) : State × Status :=
  if 371 ≤ src ∨ srcAbsent s src then (s, .ok)
  else
    let r := Word.bits w 2 0
    let fence := if fenceWritable src then Word.bits w 8 8 else s.fld FLT_CFG_FENCE src
    let v := wordOf (256 * fence + 16 * Word.bits w 4 4 + r)
    if s.flag FLT_CTRL_LOCK then (s, if v = s.reg FLT_CFG src then .ok else .violation)
    else if 5 ≤ r ∨ (r = 3 ∧ !hasBlock src) then (s, .illegal)
    else (s.setReg FLT_CFG v src, .ok)

/-- A write of an FLT word (R11, R475) at offset `off` of 0x0400. -/
def fltWrite (s : State) (off : Nat) (w : Word) : State × Status :=
  if 0x100 ≤ off then writeFltCfg s (off - 0x100) w
  else if 0x20 ≤ off ∧ off < 0x2D then (s.plainWrite FLT_STS w (off - 0x20), .ok)
  else match off with
    | 0x00 => if s.flag FLT_CTRL_LOCK && !Word.bit w 31 then (s, .violation) else (s.plainWrite FLT_CTRL w, .ok)
    | 0x01 => (s.plainWrite FLT_STAT w, .ok)
    | 0x02 => writeFltCmd s w
    | 0x10 =>
      if s.flag FLT_CTRL_LOCK ∧ Word.bits w 7 0 ≠ s.fld FLT_EPCTRL_MINT then (s, .violation) else (s.plainWrite FLT_EPCTRL w, .ok)
    | 0x18 =>
      let t := s.plainWrite FLT_INJSEL w
      (if s.cur = modeRun then t.setFlag FLT_INJSEL_REC (s.flag FLT_INJSEL_REC) else t, .ok)
    | 0x19 => writeInjarm s w
    | _ => (s, .ok)

/-- FLT_LVLw (R350): a source is at level 1 while any of its instances is. -/
def fltLevel (s : State) (w : Nat) : Word :=
  wordOf ((List.range 32).foldl (fun a b =>
    if s.flt.level.any (fun x => x.2 && x.1 / 65536 == 32 * w + b) then a + 2 ^ b else a) 0)

end Sys2Proof.Machine
end

