-- ==== Sys2Proof/Machine/Mode.lean ====
section
/-! DEFINITION. The mode controller (02_modes.md, 03_start_up.md): requests and their arbitration, transitions, SHUTDOWN and its end,
the entries to WAKE, chip reset, PD0 power-up, the hour counters, and the clock references. -/
namespace Sys2Proof.Machine

/-! ## Requests (R41–R43) -/

/-- The place of a request in the order of R41: its class in steps of 0x1000 (0 hardware safety, 1 SHUTDOWN, 2 other hardware,
3 host, 4 engines), and its order inside the class. -/
def reqRank (r : ModeReq) : Nat :=
  let sd := r.target == modeShutdown
  match r.src with
  | .hw c => if c = 1 ∨ c = 2 then c else if sd then 0x1000 + c else 0x2000 + c
  | .host p => if sd then 0x1100 + p else 0x3000 + p
  | .engine e => if sd then 0x1200 + e else 0x4000 + e

def reqClass (r : ModeReq) : Nat := reqRank r / 0x1000

/-- The code of an answer in SYS_MODEREQ.STATUS. -/
def modeStatusCode : Status → Nat
  | .ok => 2 | .overruled => 3 | .illegal => 4 | .keyerr => 5 | .otpdeny => 6 | .superseded => 7 | .modedeny => 8 | _ => 1

/-- A request is answered: a host in its SYS_MODEREQ.STATUS, an engine by a status on its way back (R184). -/
def answerReq (s : State) (r : ModeReq) (st : Status) : State :=
  match r.src with
  | .hw _ => s
  | .host p => s.setFld SYS_MODEREQ_STATUS (modeStatusCode st) (masterHost p)
  | .engine e => postStatus s e st 0 0

/-- The mode key that a host's request for `t` needs in the present mode (R43). -/
def modeKey (s : State) (t : Nat) : Option Nat :=
  if t = modeService then some 0x5E7C
  else if t = modeProvision then some 0xB0F1
  else if t = modeRun ∧ s.cur = modeDegraded then some 0x0DE6
  else none

/-- The transitions of R45 that a request may ask for. -/
def reqLegal (s : State) (r : ModeReq) : Bool :=
  let c := s.cur
  let t := r.target
  let host := match r.src with | .host _ => true | _ => false
  let safety := reqClass r == 0
  let branch := match r.src with | .engine e => s.mode.resumeBy == some (progOf s e) && !s.pins.inputLow | _ => false
  let keyed := host && (match modeKey s t with | some k => r.key == k | none => true)
  if c = modeWake then
    (t == modeShutdown && safety) ||
      (t == modeStandby && s.boot.started && s.boot.failDue.isNone && s.boot.failing.isNone && (match r.src with | .hw _ => false | _ => true))
  else if c = modePlinth then (t == modeWake && host) || (t == modeProvision && keyed) || t == modeShutdown
  else if c = modeStandby then
    [modeRun, modeCharge, modeAssist, modeDegraded, modeShutdown].contains t || ((t == modeService || t == modeProvision) && keyed)
  else if c = modeRun then
    [modeStandby, modeCharge, modeAssist, modeDegraded, modeShutdown].contains t || (t == modeService && keyed)
  else if c = modeCharge ∨ c = modeAssist then [modeRun, modeStandby, modeDegraded, modeShutdown].contains t
  else if c = modeDegraded then t == modeStandby || t == modeShutdown || ((t == modeRun || t == modeService) && keyed)
  else if c = modeService then (t == modeStandby && host) || t == modeShutdown
  else if c = modeProvision then t == modeShutdown
  else if c = modeShutdown then t == modeStandby && branch && !s.mode.rearm
  else false

/-! ## Records and registers of a transition -/

/-- SYS_MODESRC of a transition (R45, R48). -/
def srcWord (r : ModeSrc) (frm dst : Nat) : Word :=
  wordOf (16 * dst + frm + match r with
    | .hw c => c * 2 ^ 24
    | .host p => (p + 1) * 2 ^ 8
    | .engine e => e * 2 ^ 12 + 4 * 2 ^ 8)

/-- The MODE record of a transition (R426). -/
def modeRecord (s : State) (r : ModeSrc) (frm dst : Nat) : PatRecord :=
  { kind := 1, src := 0x40, time := s.tbase, bytes := [frm, dst] ++ natBytes 4 (srcWord r frm dst).toNat }

/-- The queue of records is written out (R433), after a clear or a rebuild that still runs (assumption log entry 170). -/
def flushRecords (s : State) : State :=
  (List.range 12).foldl (fun s _ => markWrite (recordWrite s)) (rebuildComplete (clearComplete (markWrite s)))

/-- The start-up records' step times (R71, R426): the time of reaching `step`, in ms from the start of this WAKE. -/
def stepReached (s : State) (step : Nat) : State :=
  let ms := min 254 ((s.tbase - s.boot.wakeStart) / 1000)
  let s := s.setFld SYS_BOOTSTAT_STEP step
  { s with boot := { s.boot with stepMs := cellSet 255 s.boot.stepMs step ms } }

/-- Word `i` of the image's header. -/
def headerWord (l : List Byte) (off : Nat) : Nat := (List.range 4).foldl (fun a k => a + (l.getD (off + k) 0).toNat * 256 ^ k) 0

/-- IMGVER of the image loaded; zero without one. -/
def imageVersion (s : State) : Nat := match s.boot.image with | some x => headerWord x.2 8 | none => 0

/-- A start-up record of a point (R71): to the ring of PD0 with the ring's own sequence, and to the patina log. -/
def startupRecord (s : State) (point : Nat) : State :=
  let first := match s.boot.tried with | x :: _ => x.2 | [] => 0
  let r : PatRecord :=
    { kind := 2, src := 0x41, time := s.tbase, mode := some s.cur
      bytes := natBytes 4 (s.reg SYS_BOOTSTAT).toNat
        ++ [(s.reg SYS_WAKESRC).toNat % 256, s.boot.before * 16 + s.fld SYS_BOOTCNT_FAILS] ++ natBytes 4 (imageVersion s)
        ++ [first, point] ++ (List.range 6).map (fun k => cellGet 255 s.boot.stepMs (k + 4)) }
  let img := recordHead r s.boot.ringSeq s.cur false true ++ [0, 0xA5]
  let ring := (img :: s.boot.ring).take 64
  let s := { s with boot := { s.boot with ring := ring, ringSeq := (s.boot.ringSeq + 1) % 65536 } }
  (s.setFld SYS_SURIDX_COUNT ring.length).postRecord r

/-- The mode registers show a transition done (R46 steps 4 and 5): CUR, PREV, TARGET, MODESRC, MODE_CHANGE. -/
def setMode (s : State) (src : ModeSrc) (old m : Nat) (trans : Bool) : State :=
  let s := s.noteMode ((((s.setFld SYS_MODE_PREV old).setFld SYS_MODE_TARGET m).setFlag SYS_MODE_TRANS trans).setFld SYS_MODECUR_CUR m)
  let s := (s.setReg SYS_MODESRC (srcWord src old m)).setFlag SYS_MODE_RESUME false
  { s with mode := { s.mode with resumeBy := none }, intc := { s.intc with modeLine := true } }

/-- What leaving mode `old` for `m` does in the units (R40, R274, R398). -/
def leaveMode (s : State) (old m : Nat) : State :=
  let s := chgModeChange (wdModeChange s old m)
  let s := if old = modePlinth then { s with boot := { s.boot with plRun := false, plWait := 0 } } else s
  let s := if old = modeService ∨ old = modeProvision then shadowRelAll (injectEnd s 4) else s
  rstoUpdate (if old = modeProvision then otpAbort s else s)

/-! ## Domains in the present mode (R35) -/

/-- Domains of a list whose switches have not failed, prerequisites included. -/
def switchable (s : State) (l : List Nat) : List Nat :=
  let bad (d : Nat) : Bool := s.fbit PDC_STAT_SWFAULT d
  l.filter (fun d => !bad d && !bad (domainPre d) && !bad (domainPre (domainPre d)) && !bad (domainPre (domainPre (domainPre d))))

/-- The domains to add and to remove for mode `m`. -/
def domainsToAdd (s : State) (m : Nat) : List Nat := switchable s ((modeDomains s m).filter (fun d => !s.fbit PDC_STAT_ON d))
def domainsToRemove (s : State) (m : Nat) : List Nat :=
  (List.range 12).filter (fun d => d != 0 && s.fbit PDC_STAT_ON d && !(modeDomains s m).contains d)

/-- The units of the domains drain, deepest domain first (R22). -/
def drainDomains (s : State) (l : List Nat) : State :=
  [4, 3, 2, 1].foldl (fun s k => (l.filter (fun d => domainDepth d == k)).foldl domainDrain s) s

/-- OPT of the present mode has changed (R35): the tiers of the domains added begin to be powered, domains removed begin to drain. -/
def applyOpt (s : State) : State :=
  let rem := domainsToRemove s s.cur
  let add := domainTiers (domainsToAdd s s.cur)
  let s := drainDomains s rem
  { s with mode := { s.mode with optRelease := rem, optTiers := add } }

/-! ## Transitions (R46) -/

/-- The plinth sequencer starts (R69, R357). -/
def plinthEnter (s : State) : State :=
  let s := ((s.setFld SYS_BOOTSTAT_STEP 0xB).setFld SYS_BOOTSTAT_PLSTEP 0).setFlag SYS_BOOTCTL_WAITHOST false
  let s := { s with boot := { s.boot with plRun := true, plWait := 0, plNext := 0 }, sup := { s.sup with plRel := 0 } }
  startupRecord (pairFault (rstoUpdate s)) 4

/-- What the mode entered does besides (R47, R71). A choice of PLINTH held under R67 stays held (R72). -/
def enterMode (s : State) (r : ModeReq) (old m : Nat) : State :=
  if m = modeShutdown then
    let s := s.setFlag SYS_BOOTCTL_WAITHOST false
    let s := { s with boot := { s.boot with failDue := none, failing := none, carry := s.boot.carry || s.boot.failing == some true } }
    { s with mode := { s.mode with shutdown := some r, deadline := false, rearm := false, wakeTimer := false } }
  else if m = modeStandby ∧ old = modeWake then
    let s := (s.setFld SYS_BOOTSTAT_STEP 10)
    startupRecord { s with mode := { s.mode with wakeTimer := false } } 3
  else if m = modePlinth then plinthEnter s
  else if m = modeShip then { s with pins := { s.pins with armed := true } }
  else s

/-- Requests that arrive during a transition are held, one for each rank, the newest (R42). -/
def holdRequests (s : State) : State :=
  let x := s.mode.reqs.foldl (fun (x : State × List ModeReq) r =>
    let r := { r with held := true }
    match x.2.find? (fun o => reqClass o == reqClass r) with
    | some o => (answerReq x.1 o .superseded, x.2.erase o ++ [r])
    | none => (x.1, x.2 ++ [r])) (s, [])
  { x.1 with mode := { x.1.mode with reqs := x.2 } }

/-- The transition in progress completes (R46 steps 4 and 5): anticipation's part holds for what has arrived since it began (R39), and the
requests that arrived are held (R42). -/
def completeTransition (s : State) (t : Transition) : State :=
  let s := anticipationModeChange (holdRequests s) t.old t.target
  let s := { s with mode := { s.mode with trans := none } }
  let s := leaveMode (setMode s t.req.src t.old t.target false) t.old t.target
  let s := s.postRecord (modeRecord s t.req.src t.old t.target)
  let s := if t.old = modeShutdown then { s with mode := { s.mode with shutdown := none, deadline := false } } else s
  let s := enterMode s t.req t.old t.target
  if s.mode.optDue then applyOpt { s with mode := { s.mode with optDue := false } } else s

/-- Domain `d` waits for its drains to be released. -/
def releasing (s : State) (d : Nat) : Bool :=
  s.mode.optRelease.contains d || (match s.mode.trans with | some t => t.release.contains d | none => false)

/-- A transition goes as far as it can: the removed domains are released once their units have drained, and with no domain left to
add it completes. Leaving ASSIST waits for the end of the session (R45). An entry to WAKE is carried by the WAKE sequence. -/
def modeProgress (s : State) : State :=
  match s.mode.trans with
  | none =>
    if s.mode.optRelease ≠ [] ∧ s.mode.optRelease.all (fun d => !domainBusy s d) then
      { releaseDomains s s.mode.optRelease with mode := { s.mode with optRelease := [] } }
    else s
  | some t =>
    if t.target = modeWake ∨ (t.old = modeAssist ∧ aActive s) ∨ t.release.any (domainBusy s) then s
    else
      let s := releaseDomains s t.release
      let t := { t with release := [] }
      if t.tiers.isEmpty then completeTransition s t else { s with mode := { s.mode with trans := some t } }

/-- The assist session as its mode is left (R278, R280): a hardware request for SHUTDOWN ends it by the fallback. -/
def assistLeave (s : State) (r : ModeReq) : State :=
  match r.src with
  | .hw _ => if r.target = modeShutdown then (if aActive s then aFall s else s) else asstop s 10
  | _ => asstop s 10

/-- A transition begins (R46): TRANS and TARGET, anticipation's part (R39), the drain of the domains to be removed. -/
def beginTransition (s : State) (r : ModeReq) : State :=
  let old := s.cur
  let s := { s with mode := { s.mode with optRelease := [], optTiers := [] } }
  let s := s.noteMode ((s.setFld SYS_MODE_TARGET r.target).setFlag SYS_MODE_TRANS true)
  if r.target = modeWake then
    { s with mode := { s.mode with trans := some { req := r, old := old, target := modeWake, release := [], tiers := [] } } }
  else
    let s := { s with mode := { s.mode with trans := some { req := r, old := old, target := r.target, release := [], tiers := [] } } }
    let s := anticipationModeChange s old r.target
    let s := if old = modeAssist then assistLeave s r else s
    let sdRem := (List.range 12).filter (fun d => d != 0 && s.fbit PDC_STAT_ON d && !(modeDomains s old).contains d)
    let rem := if r.target = modeShutdown then sdRem else domainsToRemove s r.target
    let tiers := if r.target = modeShutdown then [] else domainTiers (domainsToAdd s r.target)
    let s := drainDomains s rem
    modeProgress { s with mode := { s.mode with trans := some { req := r, old := old, target := r.target, release := rem, tiers := tiers } } }

/-! ## Arbitration (R41, R42) -/

/-- A SHUTDOWN request in SHUTDOWN (R48): the end state of the highest-ranked one stands. -/
def takeShutdown (s : State) (r : ModeReq) : State :=
  let s := answerReq s r .ok
  match s.mode.shutdown with
  | some o => if reqRank r < reqRank o then { s with mode := { s.mode with shutdown := some r } } else s
  | none => { s with mode := { s.mode with shutdown := some r } }

/-- The highest-ranked request of a list. -/
def bestReq (l : List ModeReq) : Option ModeReq :=
  l.foldl (fun b r => match b with
    | some x => if reqRank r < reqRank x then some r else some x
    | none => some r) none

/-- The requests are judged against the present mode: the highest-ranked legal one is taken, the others are refused or held. -/
def evaluateRequests (s : State) : State :=
  let sd (r : ModeReq) : Bool := r.target == modeShutdown
  let all := s.mode.reqs
  let s := { s with mode := { s.mode with reqs := [] } }
  let all := if s.cur = modeDormant then all.filter (fun r => !sd r) else all
  let here := if s.cur = modeShutdown then all.filter sd else []
  let all := if s.cur = modeShutdown then all.filter (fun r => !sd r) else all
  let s := here.foldl takeShutdown s
  let good := all.filter (reqLegal s)
  let bad := all.filter (fun r => !reqLegal s r)
  let keep := bad.filter (fun r => sd r && r.held)
  let s := (bad.filter (fun r => !(sd r && r.held))).foldl (fun s r => answerReq s r .illegal) s
  match bestReq good with
  | none => { s with mode := { s.mode with reqs := keep } }
  | some w =>
    let rest := good.erase w
    let pend := (rest.filter sd).map (fun r => { r with held := true })
    let s := (rest.filter (fun r => !sd r)).foldl (fun s r => answerReq s r .overruled) s
    beginTransition { answerReq s w .ok with mode := { s.mode with reqs := keep ++ pend } } w

/-- MODE_ARBITRATION (R41, R42): one evaluation of the mode controller. -/
def modeArbitration (s : State) : State :=
  if s.mode.trans.isSome then
    let s := modeProgress (holdRequests s)
    if s.mode.trans.isSome then s else evaluateRequests s
  else evaluateRequests (modeProgress s)
def execModeArbitration (s : State) : Out := s.on 0 (modeArbitration s)

/-- A hardware safety request aborts an up-transition at its domain step (R42). -/
def safetyAborts (s : State) : Bool := s.mode.reqs.any (fun r => reqClass r == 0)

/-- The up-transition in progress is aborted, and the requests are judged from the mode that it left. -/
def abortTransition (s : State) : State :=
  let s := holdRequests s
  let s := { s with mode := { s.mode with trans := none } }
  evaluateRequests (s.noteMode ((s.setFld SYS_MODE_TARGET s.cur).setFlag SYS_MODE_TRANS false))

/-- WAKE step 4 ends once its domains are up and the timing PLL is locked: TRANS clears, step 5 begins (R46, R54). -/
def wakeStep4End (s : State) : State :=
  match s.mode.trans with
  | some t =>
    if t.target = modeWake ∧ s.cur = modeWake ∧ s.fld SYS_BOOTSTAT_STEP = 4 ∧ t.tiers.isEmpty ∧ s.flag CLK_STAT_TIMELOCK then
      let s := holdRequests s
      let s := { s with mode := { s.mode with trans := none } }
      evaluateRequests (stepReached (s.noteMode (s.setFlag SYS_MODE_TRANS false)) 5)
    else s
  | none => s

/-- DOMAIN_TIER_COMPLETE (R22, R42, R46): the tier being powered is up. -/
def tierComplete (s : State) : State :=
  match s.mode.trans with
  | some t =>
    match t.tiers with
    | [] => s
    | d :: rest =>
      if t.release ≠ [] then s
      else
        let s := d.foldl domainOn s
        let t := { t with tiers := rest }
        let s := { s with mode := { s.mode with trans := some t } }
        if rest ≠ [] ∧ safetyAborts s then abortTransition s
        else if t.target = modeWake then wakeStep4End s
        else
          let s := modeProgress s
          if s.mode.trans.isSome then s else evaluateRequests s
  | none =>
    match s.mode.optTiers with
    | [] => s
    | d :: rest => { d.foldl domainOn s with mode := { s.mode with optTiers := rest } }
def execDomainTierComplete (s : State) : Out := s.on 0 (tierComplete s)

/-- A tier list without domain `d` and those that stand on it. -/
def withoutDomain (d : Nat) (l : List (List Nat)) : List (List Nat) :=
  (l.map (fun t => t.filter (fun x =>
    !(x == d || domainPre x == d || domainPre (domainPre x) == d || domainPre (domainPre (domainPre x)) == d)))).filter (fun t => !t.isEmpty)

/-- The switch of domain `d` can miss its limit: the domain is unpowered or being powered, which PD1 is in WAKE step 1 (R24, R54). -/
def switching (s : State) (d : Nat) : Bool :=
  !s.fbit PDC_STAT_ON d || (d == 1 && s.cur == modeWake && s.fld SYS_BOOTSTAT_STEP == 1)

/-- PD_SWITCH (R24, R46): the switch of domain `d` has not reached its state within 100 µs. The domain counts as unpowered, and so do
those that stand on it. -/
def pdSwitch (s : State) (d : Nat) : State :=
  if d = 0 ∨ !switching s d then s
  else
    let s := if s.fbit PDC_STAT_ON d then domainOff s d else s
    let s := (s.setFbit PDC_STAT_SWFAULT d true).postFault 362 d 0 0
    match s.mode.trans with
    | some t => wakeStep4End (modeProgress { s with mode := { s.mode with trans := some { t with tiers := withoutDomain d t.tiers } } })
    | none => { s with mode := { s.mode with optTiers := withoutDomain d s.mode.optTiers } }
def execPdSwitch (d : Fin 12) (s : State) : Out := s.on 0 (pdSwitch s d)

/-- A write of SYS_PDOPT_SB or, with `pv`, SYS_PDOPT_PV (R35): the writable bits, then the domains of the present mode. -/
def pdoptWrite (s : State) (pv : Bool) (w : Word) : State :=
  let s := if pv then s.setFld SYS_PDOPT_PV_OPT (w.toNat &&& 0x850) else s.setFld SYS_PDOPT_SB_OPT (w.toNat &&& 0x320)
  let m := if pv then modeProvision else modeStandby
  match s.mode.trans with
  | some t => if t.target = m ∨ (t.old = m ∧ s.cur = m) then { s with mode := { s.mode with optDue := true } } else s
  | none => if s.cur = m then modeProgress (applyOpt s) else s
def execPdoptWrite (pv : Bool) (w : Word) (s : State) : Out := s.on 0 (s.ifWritable (pdoptWrite s pv w))

/-- A write of SYS_MODEREQ by host port `p` (R33, R43): the request, checked for its target and its key. -/
def modeReqWrite (s : State) (p : Nat) (w : Word) : State × Status :=
  let m := masterHost p
  let t := Word.bits w 3 0
  let sd := Word.bits w 9 8
  let key := Word.bits w 31 16
  let s := (s.setFld SYS_MODEREQ_TARGET t m).setFld SYS_MODEREQ_SDEND sd m
  let done (st : Status) : State × Status := (s.setFld SYS_MODEREQ_STATUS (modeStatusCode st) m, st)
  if s.flag SYS_BOOTSTAT_OTPHOLD then done .modedeny
  else if 0xC ≤ t then done .illegal
  else if t = modeProvision ∧ s.otp.provdis then done .otpdeny
  else match modeKey s t with
    | some k =>
      if key = k then
        ((s.setFld SYS_MODEREQ_STATUS 1 m).postMode { src := .host p, target := t, sdend := sd, key := key }, .ok)
      else done .keyerr
    | none => ((s.setFld SYS_MODEREQ_STATUS 1 m).postMode { src := .host p, target := t, sdend := sd, key := key }, .ok)
/-- The fields of SYS_BOOTSTAT but REASON, at their reset values, with a step. -/
def bootstatFresh (s : State) (step : Nat) : State :=
  s.setReg SYS_BOOTSTAT (wordOf (2 ^ 24 * s.fld SYS_BOOTSTAT_REASON + 2 ^ 20 * step))

/-- Entry to WAKE from `old`: CUR, TRANS and TARGET at once, the MODE record held in PD0, SYS_WAKESRC rewritten, and the start's
own bookkeeping afresh. -/
def enterWake (s : State) (src : ModeSrc) (shown old wakesrc step : Nat) : State :=
  let was := s.cur
  let s := setMode s src shown modeWake true
  let s := (bootstatFresh (s.setReg SYS_WAKESRC (wordOf wakesrc)) step).setFlag SYS_BOOTCTL_WAITHOST false
  let req : ModeReq := { src := src, target := modeWake, sdend := 0 }
  let s := { s with
    mode := { s.mode with
      trans := some { req := req, old := shown, target := modeWake, release := [], tiers := [] }
      shutdown := none, deadline := false, optRelease := [], optDue := false, rearm := false, wakeTimer := false
      heldRecord := some (modeRecord s src shown modeWake) }
    boot := { ring := s.boot.ring, ringSeq := s.boot.ringSeq, wakeStart := s.tbase, before := old, carry := s.boot.carry
              qspiAdr := s.boot.qspiAdr, qspiDat := s.boot.qspiDat } }
  rstoUpdate (wdModeChange s was modeWake)

/-- The registers of PD0 that a chip reset keeps (R72, R322, R397): SYS_BOOTCNT, REASON, the start-up ring's count, SYS_HOURm,
SYS_DIELIM for the levels it shows, the first-fault record, the WD evidence, and the status of the supplies. -/
def keptByReset (k : Nat) : Bool :=
  let a := keyBase k
  a == 0x30 || (decide (0x40 ≤ a) && decide (a ≤ 0x4B)) || a == 0x54 || a == 0x55 || a == 0x60
    || (decide (0x404 ≤ a) && decide (a ≤ 0x40A)) || (decide (0x800 ≤ a) && decide (a ≤ 0x8FF)) || a == 0x3F00

/-- The device as a chip reset leaves it (R72): everything but the column's "Kept" rows at its reset value, RAM contents included
in what is kept, and no domain but PD0 and PD1 powered. -/
def resetState (s : State) : State :=
  let s := otpReset s
  let lv := cellKeep (fun k => k / 65536 == 334 || (k / 65536 == 370 && s.flt.errin)) s.flt.level
  let normal := !s.flag FLT_STAT_EPSTATE
  let s := { s.resetKeys (fun k => !keptByReset k) with
    armq := [], armSeq := [], bud := {}, groups := [], ports := [], rails := [], engs := [], progs := [], pmap := {}, sigs := [], pat := {}
    flt := { level := lv, data := s.flt.data, errin := s.flt.errin, epSince := if normal then s.tbase else s.flt.epSince }
    sup := { rstT := s.sup.rstT }, pins := { s.pins with assistEn := false }, links := [], lx := [], chg := {}, thm := {}, chk := {}
    otp := { weak := s.otp.weak, cut := s.otp.cut }, hosts := [], intc := {}, tap := { trst := s.tap.trst }
    boot := { s.boot with qspiAdr := 0, qspiDat := 0 }
    mode := { hourAcc := s.mode.hourAcc } }
  let s := (s.setFld HKR_STAT_AUXPG 0).setFld SYS_SURIDX_IDX 0
  wdReset ((s.setFlag SYS_DIELIM_TRIP false).setFlag SYS_DIELIM_SINGLE false)

/-- CHIP_RESET (R355, R67, R72): WAKE begins at step 2 with the supplies running, at step 1 from DORMANT. -/
def chipReset (s : State) : State :=
  let old := s.cur
  let carry := s.boot.carry || s.boot.failing == some true
  let step := if s.fbit PDC_STAT_ON 1 then 2 else 1
  let s := resetState s
  let s := s.setFld PDC_STAT_ON (if step = 2 then 3 else 1)
  let s := { s with boot := { s.boot with carry := carry } }
  (enterWake s (.hw 8) modeWake old 0x20 step).setFld SYS_MODE_PREV 0
def execChipReset (s : State) : Out := s.on 0 (if s.flt.chipReset.isSome then chipReset s else s)

/-- PLINTH_WAKE (R476): a host request for WAKE in PLINTH is carried out. -/
def plinthWake (s : State) : State :=
  match s.mode.trans with
  | some t =>
    if t.target = modeWake ∧ s.cur = modePlinth then
      let s := resetState s
      enterWake (s.setFld SYS_MODECUR_CUR modePlinth) t.req.src modePlinth modePlinth 0x100 2
    else s
  | none => s
def execPlinthWake (s : State) : Out := s.on 0 (plinthWake s)

/-- PD0 comes up through a power-on reset (R35, R52, R72): OTP arrays, balls and what the model keeps outside the device stay. The latch
keeps the disconnect as it is, and closes it on a latch wake only (R260). -/
def powerUp (s : State) (latch : Bool) (bits : Nat) : State :=
  let t := { State.reset with
    part := s.part, mem := cellKeep (fun a => decide (otpConfigBase ≤ a)) s.mem, freeCtr := s.freeCtr, pending := s.pending
    otp := { weak := s.otp.weak, cut := s.otp.cut }, tap := { trst := s.tap.trst }, pins := { s.pins with armed := false, preOff := false, bdis := latch || s.pins.bdis, assistEn := false } }
  if latch then t.setReg SYS_WAKESRC (wordOf (0xC0 + bits)) else t

/-- PD0_POWER_UP (R52, R72), unless the ship latch holds PRE off (R277). -/
def execPd0PowerUp (s : State) : Out := .next (if s.pins.preOff then s else powerUp s false 0)

/-- The wake bits of SYS_WAKESRC for the inputs named. -/
def wakeBits (btn src errin : Bool) : Nat := btn.toNat + 2 * src.toNat + 4 * errin.toNat

/-- LATCH_WAKE (R51, R52): in SHIP, WAKE_BTN or SRCDET has held past its filter. -/
def execLatchWake (btn src : Bool) (s : State) : Out :=
  .next (if s.cur = modeShip ∧ (btn || src) then
    (powerUp s true (wakeBits btn src false)).setWakePins btn src else s)

/-- The device wakes from DORMANT by the sources in `bits` (R53, cause 0x06); the die limit holds it (R322). -/
def dormantWake (s : State) (bits : Nat) : State :=
  if s.flag SYS_DIELIM_ASSERT then { s with mode := { s.mode with heldWakes := s.mode.heldWakes ||| bits } }
  else { enterWake s (.hw 6) modeDormant modeDormant bits 1 with mode :=
    { (enterWake s (.hw 6) modeDormant modeDormant bits 1).mode with heldWakes := 0 } }

/-- ERRIN_N has been low for 10 µs (R358): the source asserts, and in DORMANT it is recorded and drives the pair before the wake proceeds. -/
def errinAsserts (s : State) : State :=
  let t := (s.setLevel 370 0 0 0 true).setErrin true
  if s.cur = modeDormant then evalDue t 370 0 else t

/-- A wake source occurs (R53): in DORMANT an enabled one wakes, and during the WAKE that another caused its bit is recorded. -/
def wakeEvent (s : State) (bits : Nat) : State :=
  if s.cur = modeDormant then
    let on := bits &&& (s.reg SYS_WAKECFG).toNat % 16
    if on = 0 then s else dormantWake s on
  else if s.cur = modeWake ∧ s.fld SYS_MODESRC_HWCAUSE = 6 then s.setReg SYS_WAKESRC (s.reg SYS_WAKESRC ||| wordOf bits)
  else s
def execDormantWake (btn src errin : Bool) (s : State) : Out :=
  s.on 0 (let t := s.setWakePins btn src
          wakeEvent (if errin then errinAsserts t else t) (wakeBits btn src errin))

/-- WAKE_ALARM (R53): the alarm's seconds have passed since the entry to DORMANT. -/
def execWakeAlarm (s : State) : Out := s.on 0 (if s.fld SYS_WAKEALM_SECONDS = 0 then s else wakeEvent s 8)

/-- The comparators that stay asserted as the limit is released: after ASSERT at most one, which one is free (R322, assumption log entry
159). -/
def dieLeft (s : State) : State × Nat :=
  if s.flag SYS_DIELIM_ASSERT then
    let (q, s) := s.free
    let k := q.toNat % 10
    (s, if k < 9 ∧ (s.fld SYS_DIELIM_SENS).testBit k then 2 ^ k else 0)
  else (s, 0)

/-- DIE_LIMIT_RELEASE (R322): ASSERT clears, and the wake events held are acted on. SENS follows the comparators: where one alone stood
asserted, it has been released. -/
def dieRelease (s : State) : State :=
  let (s, left) := dieLeft s
  let s := s.setFld SYS_DIELIM_SENS left
  if s.flag SYS_DIELIM_ASSERT then
    let t := (s.setFlag SYS_DIELIM_ASSERT false).setLevel 334 0 0 0 false
    let held := t.mode.heldWakes
    let t := { t with mode := { t.mode with heldWakes := 0 } }
    if held ≠ 0 ∧ t.cur = modeDormant then dormantWake t held else t
  else s
def execDieLimitRelease (s : State) : Out := s.on 0 (dieRelease s)

/-! ## SHUTDOWN and its end (R47, R48, R276, R277) -/

/-- The input-loss threshold at PREIN in mV: the field INLOSS, 14.00 V where it is not PROVISIONED (R411). -/
def inlossThreshold (s : State) : Nat :=
  10 * (match otpField s 0 5 with | some v => Word.bits v 11 0 | none => 1400)

/-- INPUT_SUPPLY_LOST (R40, cause 0x01): PREIN has stood at `prein` mV for 50 µs. Below the input-loss threshold it gives the cause, once
until a PREIN above the threshold is reported (assumption log entry 63). -/
def execInputSupplyLost (prein : Nat) (s : State) : Out :=
  let low := decide (prein < inlossThreshold s)
  let t := { s with pins := { s.pins with inputLow := low } }
  s.on 0 (if low && !s.pins.inputLow then t.postCause 1 modeShutdown else t)

/-- An engine that holds a program still runs it (R47). -/
def downRunning (s : State) : Bool :=
  (List.range 48).any (fun e => s.powered (engDomain e) && holdsProgram s e &&
    [esRunning, esWaiting, esRestoring, esDraining].contains (engState s e))

/-- The end state of the SHUTDOWN request that stands (R48): 0 DORMANT, 1 SHIP, 2 RESTART. -/
def shutdownEnd (s : State) : Nat :=
  match s.mode.shutdown with
  | some r => (match r.src with | .hw _ => 0 | _ => if r.sdend = 3 then 0 else r.sdend)
  | none => 0

/-- The source that the transition out of SHUTDOWN shows (R48). -/
def shutdownSource (s : State) : ModeSrc :=
  if s.mode.deadline then .hw 7 else match s.mode.shutdown with | some r => r.src | none => .hw 0

/-- The entry to DORMANT or SHIP begins (R433): its MODE record is written before the domains drain. -/
def goDown (s : State) (m : Nat) : State :=
  let src := shutdownSource s
  let s := s.noteMode ((s.setFld SYS_MODE_TARGET m).setFlag SYS_MODE_TRANS true)
  let s := flushRecords s
  let s := s.postRecord (modeRecord s src modeShutdown m)
  let s := if m = modeShip then s.postRecord
      { kind := 8, src := 0x40, time := s.tbase, bytes := [s.fld SYS_BOOTCNT_FAILS] ++ natBytes 4 (s.reg FLT_FFSRC).toNat } else s
  let rem := (List.range 12).filter (fun d => d != 0 && s.fbit PDC_STAT_ON d)
  let s := drainDomains (flushRecords s) rem
  let req : ModeReq := { src := src, target := m, sdend := 0 }
  modeProgress { s with mode := { s.mode with
    trans := some { req := req, old := modeShutdown, target := m, release := rem, tiers := [] } } }

/-- The conditions that block SHIP (R276), as the SHIPBLOCK record names them. -/
def shipBlock (s : State) : Nat :=
  s.pins.wakeBtn.toNat + 2 * s.pins.srcdet.toNat
    + (if s.powered 9 && (List.range 4).any (fun m => !(lxState s m == lxOff || lxState s m == lxTripped || lxState s m == lxFenced))
       then 4 else 0)

/-- The down-sequence has ended: the end state, or the re-arm of a restart (R47, R48). -/
def downEnd (s : State) : State :=
  if s.cur ≠ modeShutdown ∨ s.mode.trans.isSome ∨ s.mode.rearm ∨ (downRunning s ∧ !s.mode.deadline) then s
  else
    let last := shutdownEnd s
    let byLoss := s.fld SYS_MODESRC_HWCAUSE == 1
    let s := (List.range 4).foldl (fun s n => auxTurnOff s n 4) s
    if last = 2 ∨ (last = 0 ∧ byLoss ∧ !s.pins.inputLow) then
      let rem := (List.range 12).filter (fun d => d != 0 && s.fbit PDC_STAT_ON d)
      let s := drainDomains s rem
      modeProgress { s with mode := { s.mode with rearm := true, optRelease := rem } }
    else if last = 1 then
      let s := if s.powered 8 then chgDrain s else s
      let b := shipBlock s
      if b = 0 then goDown s modeShip
      else goDown (s.postRecord { kind := 7, src := 0x40, time := s.tbase, bytes := [b] }) modeDormant
    else goDown s modeDormant

/-- DOWN_SEQUENCE_END, with the levels of WAKE_BTN and SRCDET at that moment (R47, R276). -/
def execDownSequenceEnd (btn src : Bool) (s : State) : Out :=
  s.on 0 (downEnd (s.setWakePins btn src))

/-- SHUTDOWN_DEADLINE (R47): the fault, every enabled rail off at once, LX and CHG drained; the end state applies as if the sequence had
ended. -/
def shutdownDeadline (s : State) : State :=
  if s.cur ≠ modeShutdown ∨ s.mode.trans.isSome ∨ s.mode.rearm ∨ s.mode.deadline then s
  else
    let s := s.postFault 363 0 0 0
    let s := (List.range 32).foldl (fun s n =>
      let st := railState s n
      if s.powered (railDomain n) ∧ (st = rsSoftstart ∨ st = rsRegulate ∨ st = rsStopping ∨ st = rsHiccupOff ∨ st = rsLatched)
      then railLeave s n rsOff 4 4 else s) s
    let s := if s.powered 9 then (List.range 4).foldl lxDrain s else s
    let s := if s.powered 8 then chgDrain s else s
    downEnd { s with mode := { s.mode with deadline := true } }
def execShutdownDeadline (s : State) : Out := s.on 0 (shutdownDeadline s)

/-- REARM_EXPIRED (R47): the restart through WAKE, with cause 0x09. -/
def rearmExpired (s : State) : State :=
  if s.cur = modeShutdown ∧ s.mode.rearm ∧ s.mode.optRelease = [] then enterWake s (.hw 9) modeShutdown modeShutdown 0x10 1 else s
def execRearmExpired (s : State) : Out := s.on 0 (rearmExpired s)

/-- WAKE_DEADLINE (R49). -/
def execWakeDeadline (s : State) : Out :=
  s.on 0 (if s.cur = modeWake ∧ s.mode.wakeTimer then failDue { s with mode := { s.mode with wakeTimer := false } } 0x31 else s)

/-! ## The ends of drains -/

/-- RAIL_DRAIN_END, LINK_DRAIN_END, ENGINE_DRAIN_END and LX_DRAIN_END: the unit's drain ends, and a transition that waits for it
goes on (R22, R46). -/
def execRailDrainEnd (n : Fin 32) (s : State) : Out :=
  s.on (railDomain n) (if railState s n = rsDraining then modeProgress (railDrainEnd s n) else s)
def execLinkDrainEnd (l : Fin 72) (s : State) : Out :=
  s.on (linkDomain l) (linkDrainEnd s l)
def execEngineDrainEnd (e : Fin 48) (s : State) : Out := s.on (engDomain e) (modeProgress (engineDrainEnd s e))
def execLxDrainEnd (m : Fin 4) (s : State) : Out :=
  s.on 9 (if lxState s m = lxDraining then
    let t := lxDrainEnd s m
    modeProgress (if releasing s 9 then lxLinksDrain t m else t) else s)

/-! ## Hour counters (R50) -/

/-- HOUR_SECOND_ELAPSED: the accumulator of the present mode holds a second. -/
def hourSecond (s : State) : State :=
  let m := s.cur
  let a := cellGet 0 s.mode.hourAcc m
  if a < 1000000 ∨ m = modeShip then s
  else
    let s := { s with mode := { s.mode with hourAcc := cellSet 0 s.mode.hourAcc m (a - 1000000) } }
    s.countTo SYS_HOUR_SECONDS 0xFFFFFFFF m
def execHourSecondElapsed (s : State) : Out := s.on 0 (hourSecond s)

/-- A write of SYS_HOURm: the keyed clear. -/
def hourWrite (s : State) (m : Nat) (w : Word) : State × Status :=
  if Word.bits w 31 16 ≠ 0x0C1E then (s, .keyerr)
  else if s.cur ≠ modeService ∧ s.cur ≠ modeProvision then (s, .modedeny)
  else if Word.bits w 15 0 ≠ 0 then (s, .illegal)
  else (s.setReg SYS_HOUR 0 m, .ok)
def execHourClear (m : Fin 12) (w : Word) (s : State) : Out := s.on 0 (s.ifWritable (hourWrite s m w).1)

/-! ## Clock references (R27, R28, R382) -/

/-- TREF_LOSS (R27): the timing PLL moves to the crystal. DESIGN CHOICE: with the crystal dead, and the core PLL unlocked with it, TIMELOCK
clears, which the spec leaves open (assumption log entry 128). -/
def execTrefLoss (s : State) : Out :=
  s.on 4 (if s.flag CLK_STAT_TREFSEL then
    let t := (s.setFlag CLK_STAT_TREFSEL false).event CLK_STAT_TREFLOSS
    if s.flag CLK_STAT_CORELOCK then t else t.setFlag CLK_STAT_TIMELOCK false else s)
/-- TREF_RETURN (R27): TREF has been valid for 1 ms. DESIGN CHOICE: TIMELOCK reads 1 once the timing PLL is back on TREF, though it was not
locked before (assumption log entry 129). -/
def execTrefReturn (s : State) : Out := s.on 4 ((s.setFlag CLK_STAT_TREFSEL true).setFlag CLK_STAT_TIMELOCK true)
/-- XTAL_LOSS (R28): the core PLL is held reset, and the timing PLL keeps its lock only on TREF. -/
def execXtalLoss (s : State) : Out :=
  s.on 1 (let t := ((s.event CLK_STAT_XTALFAIL).setFlag CLK_STAT_CORELOCK false).setLevel 361 0 0 0 true
    if s.flag CLK_STAT_TREFSEL then t else t.setFlag CLK_STAT_TIMELOCK false)
/-- CORE_PLL_RELOCK (R28): the crystal is back after an XTAL_LOSS that did not reset the chip. -/
def execCorePllRelock (s : State) : Out :=
  s.on 1 (if cellGet false s.flt.level (65536 * 361) then
    s.coreLocked.setFlag CLK_STAT_TIMELOCK (s.powered 4) else s)

end Sys2Proof.Machine
end

