-- ==== Sys2Proof/Machine/Boot.lean ====
section
/-! DEFINITION. Start-up (03_start_up.md): the WAKE sequence, images, the host load, the boot flash, failed starts, and the plinth
sequencer. -/
namespace Sys2Proof.Machine

/-! ## Steps 1–5 (R54–R58) -/

/-- The WAKE sequence is at `step`, with no failed start due or waiting. -/
def wakeAt (s : State) (step : Nat) : Bool :=
  s.cur == modeWake && s.fld SYS_BOOTSTAT_STEP == step && s.boot.failDue.isNone && s.boot.failing.isNone && !s.flag SYS_BOOTSTAT_OTPHOLD

/-- CORE_SOFT_START_DONE: step 1 ends with PD1 powered. A safety request aborts here (R42). -/
def softStartDone (s : State) : State :=
  if !wakeAt s 1 ∨ s.fbit PDC_STAT_SWFAULT 1 then s
  else
    let s := domainOn s 1
    if safetyAborts s then abortTransition s else stepReached s 2
def execCoreSoftStartDone (s : State) : Out := s.on 0 (softStartDone s)

/-- CORE_PLL_LOCK: step 2 ends. -/
def execCorePllLock (s : State) : Out :=
  s.on 1 (if wakeAt s 2 then stepReached s.coreLocked 3 else s)

/-- BOOTOPT as step 3 delivered it: BOOTK 3 and HOSTLOAD 1 where it is not PROVISIONED (R56, R411). -/
def bootOpt (s : State) : Nat := match otpField s 0 0 with | some v => v.toNat % 128 | none => 0x0B
def bootK (s : State) : Nat := if bootOpt s % 8 = 0 then 3 else bootOpt s % 8
def hostLoadOn (s : State) : Bool := (bootOpt s).testBit 3
def sigReq (s : State) : Bool := (bootOpt s).testBit 4

/-- SYS_MODECFG from the field MODECFG (R56, R411). -/
def modeCfgWord (s : State) : Word :=
  match otpField s 0 4 with
  | some v => wordOf (Word.bits v 7 0 * 2 ^ 24 + Word.bits v 8 8 * 2 ^ 20 + Word.bits v 18 9 * 2 ^ 10 + Word.bits v 28 19)
  | none => wordOf (50 * 2 ^ 24 + 2 ^ 20 + 100 * 2 ^ 10 + 500)

/-- KEYHASH as delivered: its 32 bytes, none where it is blank. -/
def keyHash (s : State) : Option (List Nat) :=
  let ws := (List.range 8).map (fun k => otpSnap s 0 (16 + k))
  if ws.all (fun w => w == 0) then none else some (ws.flatMap (fun w => natBytes 4 w.toNat))

/-- A required field of region 0 is not PROVISIONED (R56). -/
def bootUnprov (s : State) : Bool :=
  (List.range 6).any (fun f => (otpField s 0 f).isNone) || ((otpField s 0 0).isSome && sigReq s && (keyHash s).isNone)

/-- OTP_LOAD: step 3 (R55, R56), given the bits of TRIM that read otherwise than they were burnt, and the mask of the fields whose pair
fails on its wires. An integrity failure holds the device; otherwise the fields are delivered and step 4 begins, or PLINTH where that choice was held (R67). -/
def otpLoad (s : State) (damage : List (Fin 128 × Word)) (wires : Nat) : State :=
  if !wakeAt s 3 then s
  else if !otpIntegrity s damage wires then
    startupRecord (rstoUpdate (pairFault (wdHold (domainOn (s.setFlag SYS_BOOTSTAT_OTPHOLD true) 7)))) 5
  else
    let s := otpDeliver s damage wires
    let s := wdDeliver s (match otpField s 0 1 with | some v => v.toNat % 256 | none => 0)
    let s := (s.setFld SYS_BOOTCNT_LIMIT (bootK s)).setReg SYS_MODECFG (modeCfgWord s)
    let s := s.setFlag SYS_BOOTSTAT_UNPROV (bootUnprov s)
    if s.boot.carry then
      beginTransition { s with mode := { s.mode with trans := none }, boot := { s.boot with carry := false } }
        { src := .hw 5, target := modePlinth, sdend := 0 }
    else
      let s := stepReached s 4
      match s.mode.trans with
      | some t => { s with mode := { s.mode with trans := some { t with tiers := domainTiers (domainsToAdd s modeWake) } } }
      | none => s
def execOtpLoad (damage : List (Fin 128 × Word)) (wires : Fin 1048576) (s : State) : Out := s.on 1 (otpLoad s damage wires)

/-- TIMING_PLL_LOCK: the timing PLL is locked, on TREF or on the crystal (R27). -/
def execTimingPllLock (onTref : Bool) (s : State) : Out :=
  s.on 4 (wakeStep4End ((s.setFlag CLK_STAT_TIMELOCK true).setFlag CLK_STAT_TREFSEL onTref))

/-- The lines of RAM `r` that hold damage. -/
def damagedLines (s : State) (r : Nat) : List Nat :=
  (s.lines.filter (fun c => decide (ramBase r / 32 ≤ c.1) && decide (c.1 < ramBase r / 32 + ramLines r))).map
    (fun c => c.1 - ramBase r / 32)

/-- A RAM becomes `l`, zero beyond, every line encoded afresh. -/
def loadRam (s : State) (r : Nat) (l : List Byte) : State :=
  let s := (damagedLines s r).foldl (fun s i => repairLine s r i) s
  s.fillBytes (ramBase r) (4 * ramWords r) l

/-- SELF_TEST: step 5 (R57), given the tests that fail. -/
def selfTest (s : State) (fails : Nat) : State :=
  if !wakeAt s 5 then s
  else
    let s := s.setReg SYS_STRES (wordOf fails)
    let s := loadRam s 4 []
    let s := [3, 5].foldl (fun s r => (damagedLines s r).foldl (fun s i => (s.readLine r i).1) s) s
    if fails ≠ 0 then failDue s 0x20 else stepReached s 6
def execSelfTest (fails : Fin 1024) (s : State) : Out := s.on 1 (selfTest s fails)

/-! ## Images (R59–R64) -/

/-- The 32 bytes of a digest, first byte first. -/
def digestBytes (d : Nat) : List Nat := (List.range 32).map (fun i => (d >>> (8 * (31 - i))) % 256)

/-- Bytes `off` to `off + k - 1` of an image. -/
def imgBytes (l : List Byte) (off k : Nat) : List Byte := (l.drop off).take k
def imgNats (l : List Byte) (off k : Nat) : List Nat := (imgBytes l off k).map (fun b => b.toNat)
/-- The number that bytes make, lowest first. -/
def imgNum (l : List Byte) (off k : Nat) : Nat := (imgNats l off k).reverse.foldl (fun a b => a * 256 + b) 0

def imgMaskBits (l : List Byte) (off : Nat) : List Nat := (List.range 64).filter (fun e => (imgNum l off 8).testBit e)

/-- The least IMGVER accepted (R56). -/
def minImgVer (s : State) : Nat := match otpField s 0 2 with | some v => v.toNat | none => 0

/-- A slot is a candidate (R60). -/
def imgCandidate (s : State) (l : List Byte) : Bool :=
  let zero (off k : Nat) : Bool := (imgNats l off k).all (fun b => b == 0)
  let ps := imgNum l 0x10 4
  let dr := imgNum l 0x14 4
  let it := imgNum l 0x18 4
  decide (512 ≤ l.length)
    && imgNats l 0 4 == [0x4C, 0x4E, 0x49, 0x4D] && imgNum l 4 2 == 1 && decide (imgNum l 6 2 < 2)
    && zero 0xF 1 && zero 0x110 112
    && imgNats l 0x1E0 32 == digestBytes (sha256 (imgBytes l 0 0x1E0))
    && decide (1 ≤ ps) && decide (ps ≤ 65536) && decide (dr ≤ 65536) && dr % 4 == 0 && decide (it ≤ 8192)
    && imgNum l 0x1C 4 == 4 * ps + dr + 16 * it
    && (imgNum l 0x20 8 &&& imgNum l 0x28 8) == 0
    && decide (minImgVer s ≤ imgNum l 8 4)

/-- Steps 1–3 of R61 on a slot: the reason of its failure, or none. -/
def imgFailure (s : State) (l : List Byte) : Option Nat :=
  let eng (e : Nat) : Bool := decide (e < 48) && s.engPresent e
  let decl := s.railPresent (imgNum l 0xC 1) && s.phPresent (imgNum l 0xD 1) && eng (imgNum l 0xE 1)
    && (imgMaskBits l 0x20 ++ imgMaskBits l 0x28).all eng
    && (imgNats l 0x30 64).all (fun b => b == 0xFF || eng b)
  let signed := imgNum l 6 2 % 2 == 1
  let body := imgBytes l 512 (imgNum l 0x1C 4)
  if !decl then some 0x15
  else if !signed && sigReq s then some 0x12
  else if signed && (match keyHash s with
      | some h => digestBytes (sha256 (imgBytes l 0xD0 64)) != h
      | none => false) then some 0x13
  else if imgNats l 0x180 32 ≠ digestBytes (sha256 body) then some 0x11
  else none

/-- The body goes into the program store, the data RAM and the Intent Table, zero beyond (R59). -/
def loadBody (s : State) (l : List Byte) : State :=
  let ps := 4 * imgNum l 0x10 4
  let dr := imgNum l 0x14 4
  let s := loadRam s 0 (imgBytes l 512 ps)
  let s := loadRam s 1 (imgBytes l (512 + ps) dr)
  loadRam s 2 (imgBytes l (512 + ps + dr) (16 * imgNum l 0x18 4))

/-- The slot `k` (0 A, 1 B, 2 the host's stream) has loaded: step 7 follows for a signed image, step 8 otherwise. -/
def imgLoaded (s : State) (k : Nat) (l : List Byte) : State :=
  let s := loadBody { s with boot := { s.boot with image := some (k, l.take 512) } } l
  let s := s.setFlag SYS_BOOTSTAT_ALTSLOT (decide (k < 2) && !s.boot.tried.isEmpty)
  let s := (s.setFld SYS_BOOTSTAT_SLOT (k % 2)).setFlag SYS_BOOTSTAT_HOSTIMG (k == 2)
  stepReached s (if imgNum l 6 2 % 2 = 1 then 7 else 8)

/-- A slot is tried (R61): it loads, or its failure is kept. -/
def trySlot (s : State) (x : Nat × List Byte) : State :=
  match imgFailure s x.2 with
  | some r => { s with boot := { s.boot with tried := s.boot.tried ++ [(x.1, r)] } }
  | none => imgLoaded s x.1 x.2

/-- The candidates of flash not tried yet, the highest IMGVER first and slot A first among equals (R60). -/
def flashCandidates (s : State) (a b : List Byte) : List (Nat × List Byte) :=
  let l := [(0, a), (1, b)].filter (fun x => imgCandidate s x.2 && !s.boot.tried.any (fun t => t.1 == x.1))
  match l with
  | [x, y] => if imgNum x.2 8 4 < imgNum y.2 8 4 then [y, x] else [x, y]
  | l => l

/-- The bytes that the host has written (R63). -/
def hostStream (s : State) : List Byte := s.boot.hostWords.reverse.flatMap wordBytes

/-- The host's stream is as long as its header says. -/
def hostStreamDone (s : State) : Bool :=
  let l := hostStream s
  decide (512 ≤ l.length) && (!imgCandidate s l || decide (512 + imgNum l 0x1C 4 ≤ l.length))

/-- The start fails with the reason of the last slot tried, or 0x10. -/
def loadFails (s : State) : State := failDue s (match s.boot.tried.getLast? with | some x => x.2 | none => 0x10)

/-- IMAGE_LOAD: step 6 (R60–R63), given what the two flash slots hold. -/
def imageLoad (s : State) (a b : List Byte) : State :=
  if !wakeAt s 6 ∨ s.flag SYS_BOOTCTL_WAITHOST then s
  else if s.boot.hostReq then
    if !hostStreamDone s then s
    else
      let l := hostStream s
      let s := if imgCandidate s l then trySlot s (2, l) else s
      if s.boot.image.isSome then s else loadFails s
  else
    let s := (flashCandidates s a b).foldl (fun s x => if s.boot.image.isSome then s else trySlot s x) s
    if s.boot.image.isSome then s
    else if s.boot.tried.isEmpty ∧ hostLoadOn s then s.setFlag SYS_BOOTCTL_WAITHOST true
    else loadFails s

/-- The base of slot B as the flash is addressed (R56, R411): SLOTB in 64 KiB units, with three address bytes unless QSPIOPT bit 0 asks
for four. QSPIOPT bit 1 is the rate of QSCK, which is timing. -/
def slotBBase (s : State) : Nat :=
  let b := 65536 * (match otpField s 0 3 with | some v => v.toNat % 65536 | none => 0x10)
  if (bootOpt s).testBit 5 then b else b % 2 ^ 24

/-- What the flash holds from address `a` on: the part that begins there. -/
def flashFrom (flash : List (Nat × List Byte)) (a : Nat) : List Byte :=
  match flash.find? (fun x => x.1 == a) with
  | some x => x.2
  | none => []

/-- IMAGE_LOAD, with the contents of the flash: `flashA` from address 0, where slot A begins, and `flashB` further parts from their
addresses; slot B begins at its base. -/
def execImageLoad (flashA : List Byte) (flashB : List (Nat × List Byte)) (s : State) : Out :=
  s.on 1 (imageLoad s flashA (flashFrom ((0, flashA) :: flashB) (slotBBase s)))

/-- FLASH_BUSY_TIMEOUT (R62). -/
def execFlashBusyTimeout (s : State) : Out :=
  s.on 1 (if wakeAt s 6 && !s.boot.hostReq && s.boot.tried.isEmpty && !s.flag SYS_BOOTCTL_WAITHOST then failDue s 0x16 else s)

/-- WAITHOST_EXPIRED (R63, R66). -/
def execWaithostExpired (s : State) : Out :=
  s.on 1 (if wakeAt s 6 && s.flag SYS_BOOTCTL_WAITHOST then failDue (s.setFlag SYS_BOOTCTL_WAITHOST false) 0x10 else s)

/-- The signature of the loaded header holds (R61); it is not checked while KEYHASH is blank (R56). -/
def signatureGood (s : State) (h : List Byte) : Bool :=
  (keyHash s).isNone ||
    ecdsaHolds ((imgNats h 0xD0 64).foldl (fun a b => a * 256 + b) 0) (sha256 (imgBytes h 0 0x1A0))
      ((imgNats h 0x1A0 64).foldl (fun a b => a * 256 + b) 0)

/-- SIGNATURE_VERIFICATION: step 7 (R61). A failure discards what the slot wrote and returns to step 6. -/
def verifySignature (s : State) : State :=
  match s.boot.image with
  | some x =>
    if !wakeAt s 7 then s
    else if signatureGood s x.2 then stepReached s 8
    else
      let s := loadRam (loadRam (loadRam s 0 []) 1 []) 2 []
      let s := { s with boot := { s.boot with image := none, tried := s.boot.tried ++ [(x.1, 0x12)] } }
      let s := (s.setFlag SYS_BOOTSTAT_ALTSLOT false).setFlag SYS_BOOTSTAT_HOSTIMG false
      let s := s.setFld SYS_BOOTSTAT_STEP 6
      if x.1 = 2 then failDue s 0x12 else s
  | none => s
def execSignatureVerification (s : State) : Out := s.on 1 (verifySignature s)

/-- INSTALLATION: step 8 (R64). A spare holds no program (R163), and an engine fenced since the last chip reset stays fenced (R180). -/
def install (s : State) : State :=
  match s.boot.image with
  | some x =>
    if !wakeAt s 8 then s
    else
      let h := x.2
      let who (k : Nat) : List (Nat × Nat) :=
        (List.range 32).foldl (fun a n => cellSet 0xFF a n (imgNum h (0x30 + 2 * n + k) 1)) []
      let spare := imgNum h 0x28 8
      let run := imgNum h 0x20 8
      let s := { s with pmap := { owner := who 0, delegate := who 1, spareMask := spare, runMask := run } }
      let s := (List.range 48).foldl (fun s p => (s.writeRam 4 (ckWord p 0x12F) 0).1) s
      let s := (List.range 48).foldl (fun s e =>
        let s := s.setFld ENG_PC_PC (imgNum h (0x70 + 2 * e) 2) e
        s.setFld ENG_STAT_PROG (if spare.testBit e then 0x3F else e) e) s
      let s := (List.range 48).foldl (fun s e =>
        if run.testBit e && !spare.testBit e && engState s e != esFenced then setEngState s e esRunning else s) s
      let s := stepReached { s with boot := { s.boot with started := true }, mode := { s.mode with wakeTimer := true } } 9
      startupRecord s 1
  | none => s
def execInstallation (s : State) : Out := s.on 1 (install s)

/-- BOOT_LOADER_CHECK_IN (R58): every enabled slot of every running instance, until program start. -/
def execBootLoaderCheckIn (s : State) : Out :=
  s.on 1 (if s.cur = modeWake ∧ !s.boot.started ∧ s.boot.failing.isNone then (List.range 8).foldl wdBootCheckin s else s)

/-! ## The host load and the boot flash (R63, R65) -/

/-- A write of SYS_BOOTCTL by master `m` (R63). -/
def bootctlWrite (s : State) (m : Nat) (w : Word) : State × Status :=
  if !Word.bit w 0 then (s, .ok)
  else if Word.bits w 31 16 ≠ 0x4C0D then (s, .keyerr)
  else if !hostLoadOn s then (s, .otpdeny)
  else if m = masterHost 0 ∧ (wakeAt s 4 ∨ wakeAt s 5 ∨ (wakeAt s 6 ∧ s.flag SYS_BOOTCTL_WAITHOST)) then
    ({ s.setFlag SYS_BOOTCTL_WAITHOST false with boot := { s.boot with hostReq := true, hostWords := [] } }, .ok)
  else (s, .modedeny)
/-- A write of SYS_BOOTDATA by master `m` (R63). -/
def bootdataWrite (s : State) (m : Nat) (w : Word) : State × Status :=
  if m ≠ masterHost 0 then (s, .violation)
  else (if s.boot.hostReq ∧ s.boot.image.isNone then { s with boot := { s.boot with hostWords := w :: s.boot.hostWords } } else s, .ok)
/-- HOST_LOAD_TIMEOUT (R63): 2 s between words. -/
def execHostLoadTimeout (s : State) : Out :=
  s.on 1 (if wakeAt s 6 && s.boot.hostReq && !hostStreamDone s then failDue s 0x17 else s)

/-- A write of SYS_QSPICMD, QSPIADR or QSPIDAT, at word 0x70, 0x71 or 0x72, by master `m` (R65). -/
def qspiWrite (s : State) (m a : Nat) (w : Word) : State × Status :=
  if m < 48 ∨ masterHost 2 < m then (s, .violation)
  else match a with
    | 0x71 => ({ s with boot := { s.boot with qspiAdr := w } }, .ok)
    | 0x72 => ({ s with boot := { s.boot with qspiDat := w } }, .ok)
    | _ =>
      if !Word.bit w 0 then (s.plainWrite SYS_QSPICMD w, .ok)
      else if s.cur = modeWake ∧ 5 ≤ s.fld SYS_BOOTSTAT_STEP ∧ s.fld SYS_BOOTSTAT_STEP ≤ 8 then (s, .modedeny)
      else if s.flag SYS_QSPICMD_BUSY then (s, .busy)
      else ((s.plainWrite SYS_QSPICMD w).setFlag SYS_QSPICMD_BUSY true, .ok)
/-- QSPI_COMMAND_COMPLETE (R65): BUSY clears, and a read's bytes land in SYS_QSPIDAT. -/
def execQspiCommandComplete (data : Word) (s : State) : Out :=
  s.on 1 (if s.flag SYS_QSPICMD_BUSY then
    let t := s.setFlag SYS_QSPICMD_BUSY false
    let n := min 4 (s.fld SYS_QSPICMD_DLEN)
    if s.flag SYS_QSPICMD_DIR ∧ n ≠ 0 then
      { t with boot := { t.boot with qspiDat := Word.setBits t.boot.qspiDat (8 * n - 1) 0 (Word.bits data (8 * n - 1) 0) } }
    else t
  else s)

/-! ## Failed starts (R66–R68) -/

/-- A transition to STANDBY in progress ends with the start that has failed, which waits in WAKE (assumption log entry 130). -/
def stopStandby (s : State) : State :=
  match s.mode.trans with
  | some t =>
    if t.target = modeStandby then
      let s := { s with mode := { s.mode with trans := none } }
      s.noteMode ((s.setFld SYS_MODE_TARGET modeWake).setFlag SYS_MODE_TRANS false)
    else s
  | none => s

/-- FAILED_START (R67 steps 1 and 2). -/
def failedStart (s : State) : State :=
  match s.boot.failDue with
  | some reason =>
    if s.cur ≠ modeWake ∨ s.boot.failing.isSome then s
    else
      let s := (List.range 32).foldl (fun s n =>
        let st := railState s n
        if s.powered (railDomain n) ∧ (st = rsSoftstart ∨ st = rsRegulate ∨ st = rsStopping ∨ st = rsHiccupOff ∨ st = rsLatched)
        then railLeave s n rsOff 4 4 else s) s
      let s := (List.range 4).foldl (fun s n => auxTurnOff s n 4) s
      let s := if s.powered 9 then (List.range 4).foldl (fun s m => if lxEnabled (lxState s m) then lxStop s m lxOff else s) s else s
      let s := s.countTo SYS_BOOTCNT_FAILS 15
      let s := (s.setFld SYS_BOOTSTAT_REASON reason).setFlag SYS_BOOTCTL_WAITHOST false
      let plinth := decide (s.fld SYS_BOOTCNT_LIMIT ≤ s.fld SYS_BOOTCNT_FAILS)
      let s := { s with boot := { s.boot with failDue := none, failing := some plinth }, mode := { s.mode with wakeTimer := false } }
      startupRecord (rstoUpdate (stopStandby s)) 2
  | none => s
def execFailedStart (s : State) : Out := s.on 0 (failedStart s)

/-- FAILED_START_REARM_END (R45, R67 steps 3 and 4): in WAKE, PLINTH with cause 0x05, or a chip reset. -/
def rearmEnd (s : State) : State :=
  if s.cur ≠ modeWake then s
  else match s.boot.failing with
  | some true =>
    beginTransition { s with boot := { s.boot with failing := none }, mode := { s.mode with trans := none } }
      { src := .hw 5, target := modePlinth, sdend := 0 }
  | some false => chipReset s
  | none => s
def execFailedStartRearmEnd (s : State) : Out := s.on 0 (rearmEnd s)

/-- FAILS_CLEAR_TIMER (R68). -/
def execFailsClearTimer (s : State) : Out :=
  s.on 0 (if s.cur = modeStandby ∨ s.cur = modeRun then s.setFld SYS_BOOTCNT_FAILS 0 else s)

/-- A write of SYS_BOOTCNT (R68). -/
def bootcntWrite (s : State) (w : Word) : State × Status :=
  if Word.bits w 31 16 ≠ 0xB007 then (s, .keyerr)
  else if s.cur ≠ modePlinth ∧ s.cur ≠ modeService then (s, .modedeny)
  else if Word.bits w 15 0 ≠ 0 then (s, .illegal)
  else (s.setFld SYS_BOOTCNT_FAILS 0, .ok)
def execBootcntClear (w : Word) (s : State) : Out := s.on 0 (bootcntWrite s w).1

/-- Word `k` of the start-up record that SYS_SURIDX presents (R71). -/
def surWord (s : State) (k : Nat) : Word :=
  match s.boot.ring[s.fld SYS_SURIDX_IDX]? with
  | some l => wordOf ((List.range 4).foldl (fun a j => a + l.getD (4 * k + j) 0 * 256 ^ j) 0)
  | none => 0

/-! ## The plinth sequencer (R69, R413) -/

/-- The sequence stops at a step, with PLFAIL or with both flags. -/
def plStop (s : State) (deflt : Bool) : State :=
  let s := (s.setFlag SYS_BOOTSTAT_PLFAIL true).setFlag SYS_BOOTSTAT_PLDEF deflt
  { s with boot := { s.boot with plRun := false, plWait := 0 } }

/-- ENABLE of AUX `n`: its OTP default, then EN (R303, R413). -/
def plEnableAux (s : State) (n : Nat) : State :=
  match otpField s 2 n with
  | none => plStop s true
  | some v =>
    match auxEnable (s.setReg AUX_CFG (wordOf (v.toNat % 2 ^ 27)) n) n true with
    | (t, .ok) => t
    | (t, _) => plStop t false

/-- The OTP defaults of rail `n` as writes of its registers: offset and word (R413). -/
def plRailWrites (s : State) (n : Nat) : Option (List (Nat × Word)) :=
  let b := 4 + 6 * n
  match otpField s 2 b, otpField s 2 (b + 1), otpField s 2 (b + 2), otpField s 2 (b + 3), otpField s 2 (b + 4), otpField s 2 (b + 5) with
  | some vset, some ilim, some pmap, some ctrl, some c0, some c1 =>
    some [(0x00, Word.setBits (s.reg RL_CTRL n) 11 8 (Word.bits ctrl 3 0)), (0x0D, wordOf (Word.bits ctrl 20 4)), (0x02, vset),
      (0x19, ilim), (0x10, pmap), (0x08, c0), (0x09, c1)]
  | _, _, _, _, _, _ => none

/-- ENABLE of rail `n`: its OTP defaults, each under its register's own rules, then ENR. Neither the write of RLn_CTRL of a rail that
runs already nor ENR meets the refusal of the mode (R69). -/
def plEnableRail (s : State) (n : Nat) : State :=
  match plRailWrites s n with
  | none => plStop s true
  | some ws =>
    if !s.railOpen n then plStop s false else
    let write (t : State) (w : Nat × Word) : State × Status :=
      if w.1 = 0 then railCtrlIf t n w.2 true else railWrite t n w.1 masterPlinth w.2
    let x := ws.foldl (fun (x : State × Status) w => if x.2 = .ok then write x.1 w else x) (s, .ok)
    match if x.2 = .ok then railEnableIf x.1 n true else x with
    | (t, .ok) => t
    | (t, _) => plStop t false

/-- PLINTH_STEP (R69): the next step of the sequence. -/
def plinthStep (s : State) : State :=
  if s.cur ≠ modePlinth ∨ !s.boot.plRun ∨ s.boot.plWait ≠ 0 then s
  else if 8 ≤ s.boot.plNext then { s with boot := { s.boot with plRun := false } }
  else
    let w := plStep s s.boot.plNext
    let op := Word.bits w 31 28
    let t := Word.bits w 27 24
    let s := (s.setFld SYS_BOOTSTAT_PLSTEP s.boot.plNext)
    let s := { s with boot := { s.boot with plNext := s.boot.plNext + 1 } }
    if op = 3 then { s with boot := { s.boot with plWait := 1 } }
    else if op = 1 ∨ op = 2 ∨ op = 4 then
      if 6 ≤ t then plStop s false
      else if op = 1 then (if t < 4 then plEnableAux s t else plEnableRail s (t - 4))
      else if op = 2 then (if t < 4 then auxDisable s t else if s.railOpen (t - 4) then (railDisable s (t - 4)).1 else s)
      else { s with boot := { s.boot with plWait := 2 } }
    else if op = 5 then
      if 8 ≤ t then plStop s false
      else rstoUpdate { s with sup := { s.sup with plRel := s.sup.plRel ||| (1 <<< t) } }
    else { s with boot := { s.boot with plRun := false } }
def execPlinthStep (s : State) : Out := s.on 0 (plinthStep s)

/-- PLINTH_WAIT_END. -/
def execPlinthWaitEnd (s : State) : Out :=
  s.on 0 (if s.boot.plRun ∧ s.boot.plWait = 1 then { s with boot := { s.boot with plWait := 0 } } else s)

/-- The power-good that the present CHECKPG step waits for. -/
def plPg (s : State) : Bool :=
  let t := Word.bits (plStep s (s.boot.plNext - 1)) 27 24
  if t < 4 then s.flag AUX_STAT_PG t else s.powered 6 && s.fbit SUP_STAT_RAILS (t - 4) 2

/-- PLINTH_CHECKPG_PASS and PLINTH_CHECKPG_TIMEOUT. -/
def execPlinthCheckpgPass (s : State) : Out :=
  s.on 0 (if s.boot.plRun ∧ s.boot.plWait = 2 ∧ plPg s then { s with boot := { s.boot with plWait := 0 } } else s)
def execPlinthCheckpgTimeout (s : State) : Out :=
  s.on 0 (if s.boot.plRun ∧ s.boot.plWait = 2 then plStop s false else s)

end Sys2Proof.Machine
end

