-- ==== Sys2Proof/Machine/Cross.lean ====
section
/-! DEFINITION. Clock crossings (R382–R385): the paired resets that CLK_XRST starts, and their release. -/
namespace Sys2Proof.Machine

/-- The paired reset of crossing `x` is started by CLK_XRST (the last column of R382). -/
def xrstManual (x : Nat) : Bool :=
  (decide (4 ≤ x) && decide (x ≤ 39)) || (decide (112 ≤ x) && decide (x ≤ 145)) || x == 148

/-- The paired reset of crossing `x` begins: the rail or the module of a loop crossing drains first (R385). -/
def xrstBegin (s : State) (x : Nat) : State :=
  if s.chk.xrst.contains x then s
  else
    let s := if 4 ≤ x ∧ x ≤ 35 ∧ s.railPresent (x - 4) ∧ s.powered (railDomain (x - 4)) then railDrain s (x - 4)
      else if 36 ≤ x ∧ x ≤ 39 ∧ s.powered 9 then lxDrain s (x - 36)
      else s
    let s := holdCrossing s x
    { s with chk := { s.chk with xrst := s.chk.xrst ++ [x] } }

/-- A write of CLK_XRST (R387). -/
def clkXrst (s : State) (w : Word) : State × Status :=
  let x := Word.bits w 7 0
  if Word.bits w 31 16 ≠ 0x2C5A then (s, .keyerr)
  else if 149 ≤ x then (s, .illegal)
  else (if xrstManual x then xrstBegin s x else s, .ok)
def execClkXrst (key : Fin 65536) (x : Fin 256) (s : State) : Out :=
  s.on 0 (s.ifWritable (clkXrst s (wordOf (65536 * key + x))).1)

/-- The drain before the paired reset of crossing `x` has ended (R385). -/
def xrstDrained (s : State) (x : Nat) : Bool :=
  !(decide (4 ≤ x) && decide (x ≤ 35) && s.powered (railDomain (x - 4)) && railState s (x - 4) == rsDraining)
    && !(decide (36 ≤ x) && decide (x ≤ 39) && s.powered 9 && lxState s (x - 36) == lxDraining)

/-- PAIRED_RESET_RELEASE (R385): both sides have counted their edges. TIMEOUT, the overrun and CLK_XSTOP's condition end. -/
def xrstRelease (s : State) (x : Nat) : State :=
  if s.chk.xrst.contains x ∧ xrstDrained s x then
    let s := { s with chk := { s.chk with xrst := s.chk.xrst.filter (· != x), held := s.chk.held.filter (fun y => y.1 != x) } }
    ((s.setStopped x false).setOverrun x false).setLevel 360 x 0 0 false
  else s
def execPairedResetRelease (x : Fin 149) (s : State) : Out := .next (xrstRelease s x)

end Sys2Proof.Machine
end

