-- ==== Sys2Proof/Machine/Access.lean ====
section
/-! DEFINITION. Register and window access over the armature (R16–R19, R24, R29, R30, R70, R168, R335, R336, R372–R374, R475): where a
word address leads, what a read shows, what a write does for each master, and the transfers of the armature. -/
namespace Sys2Proof.Machine

/-! ## The address map (R29) -/

/-- The register words of each block. -/
def sysRegs : List Reg :=
  [SYS_IDENT, SYS_REVCNT, SYS_WINBANK, SYS_PDOPT_SB, SYS_PDOPT_PV, SYS_HOUR, SYS_MODE, SYS_MODECUR, SYS_MODEREQ,
   SYS_MODECFG, SYS_MODESRC, SYS_WAKECFG, SYS_WAKEALM, SYS_WAKESRC, SYS_STRES, SYS_BOOTCTL, SYS_QSPICMD, SYS_BOOTCNT,
   SYS_BOOTSTAT, SYS_SURIDX, SYS_DIELIM, SYS_HOSTVER, SYS_HPERM1, SYS_HPERMS, SYS_HSTAT, SYS_HERR, SYS_UNFRZ,
   SYS_SFRZ, SYS_HEVT, SYS_HCMD, SYS_HEVTEN]
def pdcRegs : List Reg :=
  [PDC_STAT, CLK_STAT, CLK_XSTOP, CLK_XOVR, CLK_XRST]
def intcRegs : List Reg :=
  [INTC_SRC, INTC_TCTRL, INTC_TPRI, INTC_TSTAT, INTC_ACK, INTC_EOI, INTC_STKSEL, INTC_STKDATA, INTC_UNRT,
   INTC_SWISET, INTC_SWICLR, INTC_SWISTAT, INTC_NMI, INTC_NMICNT, INTC_STKERR]
def fltRegs : List Reg :=
  [FLT_CTRL, FLT_STAT, FLT_CMD, FLT_FENCECNT, FLT_FFSRC, FLT_FFTIMEL, FLT_FFTIMEH, FLT_FFDATA0, FLT_FFDATA1,
   FLT_FFCNT, FLT_FFLAST, FLT_EPCTRL, FLT_INJSEL, FLT_INJARM, FLT_INJSTAT, FLT_INJTIME, FLT_INJDATA, FLT_STS,
   FLT_LVL, FLT_CFG]
def wdRegs : List Reg :=
  [WD_CTRL, WD_CFG, WD_SLOTEN, WD_OWNER0, WD_OWNER1, WD_OWNER2, WD_OWNER3, WD_STAT, WD_CHECKED, WD_HKICK, WD_SLSEL,
   WD_SLTIME, WD_EVCAUSE, WD_EVMISS, WD_EVPC, WD_EVSVC, WD_EVTIME, WD_EXPCNT, WD_CMD, WD_EVT, WD_EVTEN]
def otpRegs : List Reg :=
  [OTP_STAT, OTP_CMD, OTP_PADDR, OTP_PDATA, OTP_PCFG, OTP_PRES, OTP_RADDR, OTP_RDATA, OTP_RGNSTAT, OTP_PROVSTAT,
   OTP_CMPL, OTP_EVT, OTP_EVTEN, OTP_SHSEL, OTP_SHDATA, OTP_SHCTRL, OTP_SHMASK]
def chkRegs : List Reg :=
  [CHK_CTRL, CHK_SCPASS, CHK_CMD, CHK_CECNT, CHK_UECNT, CHK_UELOG, CHK_EVT, CHK_EVTEN, CHK_CRCCFG, CHK_CRCDATA,
   CHK_CRCDATAB, CHK_CRCRES, CHK_SJCTRL, CHK_SJADDR, CHK_SJLEN, CHK_SJEXP, CHK_SJPAT, CHK_SJSTAT, CHK_SJRES,
   CHK_SJPOS, CHK_ALV, CHK_ALVSTAT]
def patRegs : List Reg :=
  [PAT_CTRL, PAT_STAT, PAT_HEAD, PAT_GEN, PAT_LOST, PAT_NEW, PAT_CMD, PAT_EVT, PAT_EVTEN, PAT_OFFIDX, PAT_OFFSTAT,
   PAT_OFFDATA0, PAT_OFFDATA1, PAT_OFFDATA2, PAT_OFFDATA3, PAT_OFFDATA4, PAT_OFFDATA5, PAT_OFFDATA6, PAT_OFFDATA7]
def thmRegs : List Reg :=
  [THM_CTRL, THM_STAT, THM_AMB, THM_AMBCAL, THM_XCHK, THM_CMD, THM_EVT, THM_EVTEN, THM_NSEL, THM_NCFG, THM_NNBR,
   THM_NTH0, THM_NTH1, THM_NTEMP, THM_LSEL, THM_LDATA, THM_LP0, THM_LP1, THM_RTHR, THM_RLIVE, THM_LVL, THM_BRK]
def hadcRegs : List Reg :=
  [HADC_CTRL, HADC_MASK, HADC_PER, HADC_STAT, HADC_MISS, HADC_CMD, HADC_EVT, HADC_EVTEN, HADC_ORMASK, HADC_RES]
def supRegs : List Reg :=
  [SUP_UVOV, SUP_PG, SUP_EW, SUP_CFG, SUP_STAT, SUP_EVT, SUP_EVTEN, GS_CFG, GS_LO, GS_HI, SUP_GSSTAT, SUP_GSEVT,
   SUP_GSEVTEN, RSTO_RMASK, RSTO_SMASK, RSTO_CFG, RSTO_STAT, SUP_CNTSEL, SUP_CNTDATA, SUP_CNTEVT, SUP_CNTEVTEN,
   SUP_TELCFG, SUP_TELSEL, SUP_TELDATA]
def budRegs : List Reg :=
  [BUD_CFG, BUD_EVT, BUD_EVTEN, BUD_PCFG, BUD_PCAPEFF, BUD_PGRANTED, BUD_PALLOWED, BUD_PRESERVED, BUD_PFREE,
   BUD_PMEAS, BUD_PSTAT, BUD_IPCFG, BUD_HWREQ, BUD_HWGNT, BUD_RIGHT, BUD_PSEL, BUD_PREQ, BUD_PGNT, BUD_RLPOOL,
   BUD_PINPERS, BUD_PINEVT, BUD_PINEN, BUD_OVR, BUD_PINSEL, BUD_PINTIME]
def rlRegs : List Reg :=
  [RL_CTRL, RL_STAT, RL_VSET, RL_SLEW, RL_VREF, RL_VSTAT, RL_TRACK, RL_COMP0, RL_COMP1, RL_COMP2, RL_COMP3, RL_DLIM,
   RL_PERIOD, RL_LPH, RL_PMAP, RL_PHTH, RL_PHDLY, RL_BAL, RL_PHACT, RL_PHSVC, RL_PHARM, RL_FENCE, RL_UNFENCE,
   RL_ILIM, RL_ILIMEFF, RL_HICC, RL_HSTAT, RL_VFLOOR, RL_VCEIL, RL_PHBND, RL_PERMAX, RL_PERMIN, RL_DERMAX, RL_EVT,
   RL_EVTEN, RL_PBLIVE, RL_FFLIVE, RL_VIN, RL_DUTY, RL_IRAIL, RL_ERR]
def phRegs : List Reg :=
  [PH_FXCTRL, PH_FXSTAT, PH_FXCAP, PH_RTT, PH_DLYTRIM, PH_PKLIM, PH_FXCMD, PH_ERRCNT, PH_DNERRCNT, PH_LOSSCNT,
   PH_TELI, PH_TELV, PH_TELT, PH_TELPV, PH_STSTAT, PH_EVT, PH_EVTEN]
def engRegs : List Reg :=
  [ENG_CTRL, ENG_STAT, ENG_PC, ENG_FLAGS, ENG_FWIN, ENG_WRMASK, ENG_SIG, ENG_BAR, ENG_BARGEN, ENG_CLAUSE, ENG_NCONF,
   ENG_NREVK, ENG_RETIRED, ENG_CKSTAT, ENG_CKTIME, ENG_FREEZE, ENG_MIGR, ENG_GSEL, ENG_GDATA, ENG_CKIDX, ENG_CKDATA,
   ENG_EVT, ENG_EVTEN, ENG_CMD]
def iptRegs : List Reg :=
  [IPT_REFUND, IPT_STALE, IPT_GRP, IP_CTRL, IP_STAT, IP_BANK, IP_ALLOW, IP_OPENT, IP_BASE, IP_OPEN, IP_NCONF,
   IP_NREVK, IP_NDEFER, IP_NREFUSE, IP_REVRSN, IP_EVT, IP_EVTEN, IP_CMD, IPT_RSLOT]
def lxRegs : List Reg :=
  [LX_PERIOD, LX_GROUP, LX_PCCFG, LX_PCTIME, LXM_CTRL, LXM_STAT, LXM_VTGT, LXM_ITGT, LXM_ILIMF, LXM_ILIMR, LXM_VSLEW,
   LXM_XFMR, LXM_S1, LXM_S2, LXM_PHI, LXM_DT, LXM_KV, LXM_KI, LXM_HVOV, LXM_HVUV, LXM_LVOV, LXM_LVUV, LXM_TRIP,
   LXM_CMD, LXM_VHV, LXM_VLV, LXM_IHV, LXM_ILV, LXM_PWR, LXM_PHILIVE, LXM_WLIVE, LXM_EVT, LXM_EVTEN]
def chgRegs : List Reg :=
  [CHG_CTRL, CHG_STAT, CHG_CMD, CHG_ICHG, CHG_VCELL, CHG_VTHR, CHG_ITHR, CHG_TIME, CHG_TCOMP, CHG_BTWIN, CHG_HTWIN,
   CHG_BIFRAC, CHG_HIFRAC, CHG_BVDROP, CHG_BNTC, CHG_HNTC, CHG_HICHG, CHG_HCELL, CHG_HTERM, CHG_HTIME, CHG_ASCFG,
   CHG_ASV, CHG_ASI, CHG_ASTHR, CHG_ASWIN, CHG_ASSTAT, CHG_VBAT, CHG_VHB, CHG_VAS, CHG_IBAT, CHG_IHB, CHG_IAS,
   CHG_ISYS, CHG_ILIM, CHG_TEMPS, CHG_BTMR, CHG_HTMR, CHG_ATMR, CHG_EVT, CHG_EVTEN]
def hkrRegs : List Reg :=
  [HKR_STAT, AUX_CTRL, AUX_CFG, AUX_STAT, AUX_CMD]

/-- The registers of the block at address `a`. -/
def blockRegs (a : Nat) : List Reg :=
  if a < 0x100 then sysRegs else if a < 0x200 then pdcRegs else if a < 0x400 then intcRegs else if a < 0x800 then fltRegs
  else if a < 0x900 then wdRegs else if a < 0xA00 then otpRegs else if a < 0xB00 then chkRegs else if a < 0xC00 then patRegs
  else if a < 0xD00 then thmRegs else if a < 0xE00 then hadcRegs else if a < 0xF00 then supRegs else if a < 0x1000 then budRegs
  else if a < 0x2000 then rlRegs else if a < 0x3000 then phRegs else if a < 0x3800 then engRegs else if a < 0x3C00 then iptRegs
  else if a < 0x3E00 then lxRegs else if a < 0x3F00 then chgRegs else hkrRegs

/-- Where an address leads: a register word, a word of SYS without storage of its own, or a word of a window. -/
inductive Loc where
  | reg (r : Reg) (n : Nat)
  | sys
  | ram (ram i : Nat)

/-- The register of a block whose words cover address `a`, with its instance. -/
def regAt (l : List Reg) (a : Nat) : Option (Reg × Nat) := l.findSome? (fun r => (r.atAddr a).map (fun n => (r, n)))

/-- The instance that master `m` reaches: its own copy, or the node or link it has selected (R30). -/
def instanceOf (s : State) (m a : Nat) (r : Reg) (n : Nat) : Nat :=
  if r.copies then m else if 0xC09 ≤ a ∧ a ≤ 0xC0D then selNode s m else if a = 0xC11 then selLink s m else n

/-- The words of absent instances, and of reserved sources, are not present (R3, R24, R349). -/
def wordPresent (s : State) (a n : Nat) : Bool :=
  if 0x2CA ≤ a ∧ a ≤ 0x2DF then false
  else if 0xC09 ≤ a ∧ a ≤ 0xC0D then nodePresent s n
  else if a = 0xC11 then decide (n < 160)
  else if 0xC40 ≤ a ∧ a < 0xC80 then s.railPresent (a % 0x20)
  else if 0xE00 ≤ a ∧ a < 0xE80 then s.railPresent ((a - 0xE00) / 4)
  else if 0xF80 ≤ a ∧ a < 0xFB0 then s.engPresent (a - 0xF80)
  else if 0x1000 ≤ a ∧ a < 0x2000 then s.railPresent n
  else if 0x2000 ≤ a ∧ a < 0x3000 then s.phPresent n
  else if 0x3000 ≤ a ∧ a < 0x3600 then s.engPresent ((a - 0x3000) / 0x20)
  else if 0x3A00 ≤ a ∧ a < 0x3A20 then s.railPresent (a - 0x3A00)
  else true

/-- A register below 0x4000, with its instance as master `m` reaches it. The pending words stand at +0x8 to +0xF of a target's registers, and
no register at +0x7 or beyond +0xF (R349). -/
def locateReg (s : State) (m a : Nat) : Option Loc :=
  if a = 0x57 ∨ (0x61 ≤ a ∧ a ≤ 0x68) ∨ a = 0x71 ∨ a = 0x72 then some .sys
  else if 0x300 ≤ a ∧ a < 0x380 ∧ 8 ≤ a % 0x20 ∧ a % 0x20 ≤ 15 then some (.reg INTC_PEND 0)
  else if 0x3C40 ≤ a ∧ a < 0x3D40 then
    (regAt phRegs (0x2000 + a % 0x20)).map (fun x => .reg x.1 (64 + (a - 0x3C40) / 0x20))
  else match regAt (blockRegs a) a with
    | some (r, n) =>
      let n := instanceOf s m a r n
      if wordPresent s a n then some (.reg r n) else none
    | none => none

/-- Where address `a` leads for master `m`, under its own SYS_WINBANK (R29, R30); none for a reserved or absent word. -/
def locate (s : State) (m a : Nat) : Option Loc :=
  if a < 0x4000 then locateReg s m a
  else if a < 0x5000 then some (.ram 0 (4096 * s.fld SYS_WINBANK_PSBANK m + a % 4096))
  else if a < 0x6000 then some (.ram 1 (4096 * s.fld SYS_WINBANK_DRBANK m + a % 4096))
  else if a < 0x7000 then some (.ram 2 (4096 * s.fld SYS_WINBANK_ITBANK m + a % 4096))
  else if a < 0x8000 then some (.ram 3 (4096 * s.fld SYS_WINBANK_PRBANK m + a % 4096))
  else none

/-- The crossing that a transfer to a register passes (R26, R382). -/
def locCrossing (a : Nat) : Option Nat :=
  if 0x1000 ≤ a ∧ a < 0x2000 then some (4 + (a - 0x1000) / 0x80)
  else if 0x3D40 ≤ a ∧ a < 0x3DC0 then some (36 + (a - 0x3D40) / 0x20)
  else if 0xD00 ≤ a ∧ a < 0xD20 then some (144 + (a - 0xD00) / 0x10)
  else if 0xD40 ≤ a ∧ a < 0xD80 then some (144 + (a - 0xD40) / 0x20)
  else none

/-- The word's domain is powered, and its crossing is open (R24, R383, R385). -/
def locOpen (s : State) (a : Nat) (l : Loc) : Bool :=
  (match l with
    | .reg r n => s.powered (r.dom n)
    | .sys => true
    | .ram r _ => s.powered (ramDomain r))
  && (match locCrossing a with | some x => !crossingShut s x | none => true)

/-- The word holds a complement-paired field. -/
def Loc.paired : Loc → Bool
  | .reg r _ => r.fields.any (fun f => f.cp)
  | _ => false

/-- The W1C bits of a word. -/
def Loc.w1c : Loc → Word
  | .reg r _ => r.fields.foldl (fun w f => if f.acc = .w1c then Word.setBits w f.hi f.lo (2 ^ 32 - 1) else w) 0
  | _ => 0

/-! ## Reads -/

/-- What a plain read shows of a word: WO and key fields read zero (R11). -/
def readFields (fs : List FieldRow) (w : Word) : Word :=
  fs.foldl (fun w f => if f.acc = .wo ∨ f.acc = .key then Word.setBits w f.hi f.lo 0 else w) w

/-- The word of map positions for some phases of a rail (R100). -/
def phaseMask (s : State) (n : Nat) (l : List Nat) : Word :=
  wordOf ((railPhases s n).zipIdx.foldl (fun a x => if l.contains x.1 then a + 2 ^ x.2 else a) 0)

/-- The fence that RLn_FENCE shows: the last one, or a fence recorded by FLT for a phase that the map names now (R97). -/
def fenceView (s : State) (n : Nat) : Word :=
  match (railPhases s n).find? (fun ph => cellGet 0 s.flt.phF ph != 0) with
  | some ph =>
    if s.fld RL_FENCE_CAUSE n ≠ 0 then s.reg RL_FENCE n
    else Word.setBits (Word.setBits (s.reg RL_FENCE n) 13 8 ph) 2 0 (cellGet 0 s.flt.phF ph)
  | none => s.reg RL_FENCE n

/-- The view of word `off` of rail `n`. -/
def railRead (s : State) (n off : Nat) (w : Word) : Word :=
  match off with
  | 0x01 =>
    Word.setBit (Word.setBits (Word.setBits (Word.setBits w 29 24 (railNact s n)) 21 16 (railNsvc s n)) 13 8 (railNmap s n)) 7
      (railSubj s n)
  | 0x14 => phaseMask s n (railActive s n)
  | 0x15 => phaseMask s n (railService s n)
  | 0x16 => phaseMask s n ((railActive s n).drop (s.rail n).managed)
  | 0x1A => wordOf (railIlimEff s n)
  | 0x17 => fenceView s n
  | 0x2D => if s.powered 6 then w else 0
  | _ => w

/-- The status and cause bits of a claim (R235). -/
def claimBits (c : Claim) : Nat :=
  2 ^ 30 * (if c.pending then 1 else if c.refused then 2 else 0) + 2 ^ 29 * (c.pending && c.causeSubj).toNat

/-- The view of a BUD word at offset `off` of 0x0F00 (R219, R235). -/
def budRead (s : State) (off : Nat) (w : Word) : Word :=
  if 0x10 ≤ off ∧ off < 0x50 then
    let k := (off - 0x10) / 8
    match (off - 0x10) % 8 with
    | 1 => wordOf (poolCapEff s k)
    | 2 => wordOf (poolGranted s k)
    | 3 => wordOf (poolAllowed s k)
    | 4 => wordOf (poolReserved s k)
    | 5 => wordOf (poolFree s k).toNat
    | 7 => Word.setBits (Word.setBits (Word.setBit w 29 (poolCapPend s k)) 25 24 (poolDepth s 8 k)) 19 0 (poolPending s k)
    | _ => w
  else if 0x60 ≤ off ∧ off < 0x74 ∧ off % 2 = 1 then
    let c := s.hwClaim ((off - 0x60) / 2)
    wordOf (claimBits c + c.grant)
  else
    let c := s.progClaim (s.fld BUD_PSEL_PROG) (s.fld BUD_PSEL_POOL)
    match off with
    | 0xB1 => wordOf (claimBits c + 2 ^ 28 * (c.subj != 0).toNat + c.level)
    | 0xB2 => wordOf (c.grant - c.subj)
    | 0xCC => wordOf ((List.range 32).foldl (fun a n => if railOverridden s n then a + 2 ^ n else a) 0)
    | 0xCD => Word.setBit w 31 (cellGet false s.bud.pinSat (4 * s.fld BUD_PINSEL_RAIL + s.fld BUD_PINSEL_QTY))
    | 0xCE => wordOf (cellGet 0 s.bud.pinMs (4 * s.fld BUD_PINSEL_RAIL + s.fld BUD_PINSEL_QTY))
    | _ => w

/-- The view of a word of SYS without storage of its own (R63, R65, R71). -/
def sysRead (s : State) (a : Nat) : Word :=
  if 0x61 ≤ a ∧ a ≤ 0x68 then surWord s (a - 0x61)
  else if a = 0x71 then s.boot.qspiAdr
  else if a = 0x72 then s.boot.qspiDat
  else 0

/-- ENGCNT, PHCNT and RLCNT of SYS_REVCNT, bits 23–0 (R6). -/
def instanceCounts (s : State) : Nat := match s.part with | .olr7264 => 0x304020 | .olr7248 => 0x243018

/-- THM_RLIVEn (R320, R324): the derate and the period in force on the rail, 0 while it is OFF. -/
def rliveView (s : State) (n : Nat) : Word :=
  if railState s n = rsOff then 0
  else Word.setBits (Word.setBits 0 31 24 (s.rail n).derate) 16 0 (s.rail n).period

/-- The view of a register word at address `a` by master `m`; `w` is what a plain read shows. A read of an RC field clears
it, and some words answer with a status of their own. -/
def regRead (s : State) (m a n : Nat) (w : Word) : State × Word × Status :=
  if 0x1000 ≤ a ∧ a < 0x2000 then (s, railRead s n (a % 0x80) w, .ok)
  else if 0x3000 ≤ a ∧ a < 0x3600 then engRead s ((a - 0x3000) / 0x20) (a % 0x20) m
  else if 0x200 ≤ a ∧ a < 0x400 then intcRead s (a - 0x200)
  else if 0xF00 ≤ a ∧ a < 0x1000 then (s, budRead s (a - 0xF00) w, .ok)
  else if 0xD40 ≤ a ∧ a < 0xD80 then (s.setFlag HADC_RES_NEW false (a - 0xD40), w, .ok)
  else if 0x3A00 ≤ a ∧ a < 0x3A20 then (s, rslotView s (a - 0x3A00), .ok)
  else if 0x3F10 ≤ a ∧ a < 0x3F20 ∧ a % 4 = 2 then (s, auxStatView s ((a - 0x3F10) / 4), .ok)
  else if 0xED0 ≤ a ∧ a < 0xEF0 ∧ a % 4 = 3 then (s, rstoView s ((a - 0xED0) / 4), .ok)
  else if 0x800 ≤ a ∧ a < 0x900 ∧ a % 0x20 = 0x13 then (s, wdSltime s ((a - 0x800) / 0x20), .ok)
  else if 0x440 ≤ a ∧ a < 0x44D then (s, fltLevel s (a - 0x440), .ok)
  else if 0xC60 ≤ a ∧ a < 0xC80 then (s, rliveView s (a - 0xC60), .ok)
  else if 0x500 ≤ a ∧ a < 0x6A0 then (s, if srcAbsent s (a - 0x500) then 0 else w, .ok)
  else if 0x84 ≤ a ∧ a ≤ 0x86 then (s, Word.setBits w 3 0 (s.fld SYS_HOSTVER_ACT (masterHost (a - 0x84))), .ok)
  else match a with
    | 0x0000 => (s, Word.setBits w 15 0 (partCode s), .ok)
    | 0x0001 => (s, Word.setBits w 23 0 (instanceCounts s), .ok)
    | 0x0418 => (s, Word.setBit w 11 (Word.bit w 11 || s.cur == modeRun), .ok)
    | 0x0907 => (s, (otpRdata s).1, (otpRdata s).2)
    | 0x0B01 => (s, patStatView s w, .ok)
    | 0x0B18 => let t := offSnapshot s m
                (t, t.reg PAT_OFFDATA0 m, .ok)
    | 0x0B1F => (offAdvance s m, w, .ok)
    | 0x0EF0 => (s, cntselView s, .ok)
    | 0x0EF1 => (s, (cntdataView s).1, (cntdataView s).2)
    | 0x0EF6 => teldataRead s m
    | _ => (s, w, .ok)

/-- A read of the located word. -/
def readLoc (s : State) (m a : Nat) : Loc → State × Word × Status
  | .sys => (s, sysRead s a, .ok)
  | .ram r i => let (t, w, ok) := s.readRam r i
                (t, w, ramStatus ok)
  | .reg r n =>
    let (t, w, st) := regRead s m a n (readFields r.fields (s.reg r n))
    if (Loc.reg r n).paired then
      let u := pairCheck t a
      if u.pairBad a then (u, w ^^^ (cellGet (0, 0) u.pairs a).1, .pairerr) else (u, w, st)
    else (t, w, st)

/-- PAIR_CHECK (R372): the checker of a block visits the word at address `a`. -/
def execPairCheck (a : Fin 65536) (s : State) : Out :=
  .next (match locate s (masterHost 0) a with
    | some l => if l.paired && locOpen s a l then pairCheck s a else s
    | none => s)

/-- No copy for an engine, and no way into the data RAM for one (R43, R168); SYS_HOSTVER is the host ports' alone (R332). -/
def closedToEngines (m a : Nat) : Bool :=
  (decide (m < 48) && (a == 0x22 || (decide (0x5000 ≤ a) && decide (a < 0x6000))))
    || (a == 0x02 && (decide (m < masterHost 0) || decide (masterHost 2 < m)))

/-- A read of word `a` by master `m` (R24, R29). -/
def readWord (s : State) (m a : Nat) : State × Word × Status :=
  if closedToEngines m a then (s, 0, .noaddr)
  else match locate s m a with
    | none => (s, 0, .noaddr)
    | some l => if locOpen s a l then readLoc s m a l else (s, 0, .pdoff)

/-! ## Writes -/

/-- An RWL field would change (R11). -/
def rwlChanges (r : Reg) (old w : Word) : Bool :=
  r.fields.any (fun f => f.acc == .rwl && Word.bits old f.hi f.lo != Word.bits w f.hi f.lo)

/-- A write of a word whose RWL fields `locked` closes (R475). -/
def lockedWrite (s : State) (r : Reg) (n : Nat) (w : Word) (locked : Bool) : State × Status :=
  if locked && rwlChanges r (s.reg r n) w then (s, .violation) else (s.plainWrite r w n, .ok)

/-- The freeze of a master ends (R337): a host port returns to HPv1 with an open ALIVE reference, the scan engine is idle. -/
def unfreezeHost (s : State) (p : Nat) : State :=
  if s.flag SYS_HSTAT_FROZEN p then
    ((s.setFlag SYS_HSTAT_FROZEN false p).setFld SYS_HOSTVER_ACT 1 (masterHost p)).setHost p { s.host p with aliveOpen := true }
  else s
def unfreezeScan (s : State) : State :=
  if s.flag SYS_SFRZ_FROZEN then (s.setFlag SYS_SFRZ_FROZEN false).setFld CHK_SJSTAT_STATE sjAborted else s

/-- A write of SYS_UNFRZ by master `m` (R337). -/
def unfrzWrite (s : State) (m : Nat) (w : Word) : State × Status :=
  if m < masterHost 0 ∨ masterHost 2 < m then (s, .violation)
  else if Word.bits w 31 16 ≠ 0x5F12 then (s, .keyerr)
  else
    let s := (List.range 3).foldl (fun s p => if Word.bit w p && masterHost p != m then unfreezeHost s p else s) s
    (if Word.bit w 3 then unfreezeScan s else s, .ok)

/-- A write of SYS_HOSTVER by master `m` (R332). -/
def hostverWrite (s : State) (m : Nat) (w : Word) : State × Status :=
  let v := Word.bits w 3 0
  if m < masterHost 0 ∨ masterHost 2 < m then (s, .violation)
  else if v < s.fld SYS_HOSTVER_MINVER m ∨ s.fld SYS_HOSTVER_MAXVER m < v then (s, .illegal)
  else (s.setFld SYS_HOSTVER_ACT v m, .ok)

/-- CLRCNT of SYS_HCMD (R349). -/
def hostClrcnt (s : State) : State := ((s.setFld SYS_HERR_COUNT 0 0).setFld SYS_HERR_COUNT 0 1).setFld SYS_HERR_COUNT 0 2

/-- A write of a SYS word by master `m`. -/
def sysWrite (s : State) (m a : Nat) (r : Option (Reg × Nat)) (w : Word) : State × Status :=
  match a with
  | 0x02 => hostverWrite s m w
  | 0x22 => if m < masterHost 0 ∨ masterHost 2 < m then (s, .violation) else modeReqWrite s (m - 0x30) w
  | 0x26 => (pdoptWrite s false w, .ok)
  | 0x27 => (pdoptWrite s true w, .ok)
  | 0x55 => bootcntWrite s w
  | 0x56 => bootctlWrite s m w
  | 0x57 => bootdataWrite s m w
  | 0x70 | 0x71 | 0x72 => qspiWrite s m a w
  | 0x80 => lockedWrite s SYS_HPERM1 0 w (s.flag SYS_HPERM1_LOCK)
  | 0x81 => lockedWrite s SYS_HPERMS 0 w (s.flag SYS_HPERMS_LOCK)
  | 0x8C => unfrzWrite s m w
  | 0x8F => (if Word.bit w 0 then hostClrcnt s else s, .ok)
  | _ =>
    if 0x40 ≤ a ∧ a < 0x4C then hourWrite s (a - 0x40) w
    else match r with
      | some (r, n) => (s.plainWrite r w n, .ok)
      | none => (s, .ok)

/-- A write of a BUD word by master `m` (R235). -/
def budWrite (s : State) (m a : Nat) (r : Reg) (n : Nat) (w : Word) : State × Status :=
  let off := a - 0xF00
  let lock := s.flag BUD_CFG_LOCK
  if off = 0 then lockedWrite s BUD_CFG 0 w lock
  else if 0x10 ≤ off ∧ off < 0x50 then (if off % 8 = 0 then writeCap s ((off - 0x10) / 8) w else (s, .ok))
  else if 0x50 ≤ off ∧ off < 0x60 then writeAlmax s (off - 0x50) w
  else if 0x60 ≤ off ∧ off < 0x74 then (if off % 2 = 0 then writeHwReq s ((off - 0x60) / 2) w else (s, .ok))
  else if 0x80 ≤ off ∧ off < 0xB0 then lockedWrite s BUD_RIGHT (off - 0x80) w lock
  else if 0xB4 ≤ off ∧ off < 0xB8 then lockedWrite s BUD_RLPOOL (off - 0xB4) w lock
  else match off with
    | 0xB1 => if m < 48 then (s, .violation) else writePreq s w
    | 0xCD =>
      let t := s.plainWrite BUD_PINSEL w
      (if Word.bit w 30 then pinselClear t (t.fld BUD_PINSEL_RAIL) (t.fld BUD_PINSEL_QTY) else t, .ok)
    | _ => (s.plainWrite r w n, .ok)

/-- A write of an IPT word (R162). -/
def iptWrite (s : State) (a : Nat) (r : Reg) (n : Nat) (w : Word) : State × Status :=
  if 0x3900 ≤ a ∧ a < 0x3A00 then
    let p := (a - 0x3900) / 0x10
    match a % 0x10 with
    | 0 => writeIpCtrl s p w
    | 2 => (bankWrite s p w, .ok)
    | 15 => (if Word.bit w 0 then ipClrcnt s p else s, .ok)
    | _ => (s.plainWrite r w n, .ok)
  else (s.plainWrite r w n, .ok)

/-- The master is a host port. -/
def isHost (m : Nat) : Bool := decide (masterHost 0 ≤ m) && decide (m ≤ masterHost 2)

/-- The command and address words of the OTP block, which only host ports write (R416). -/
def otpHostWord (a : Nat) : Bool := [0x901, 0x902, 0x906, 0x920, 0x922].contains a

/-- A write of a register word at address `a` by master `m`, to the block that holds it. -/
def regWrite (s : State) (m a : Nat) (r : Reg) (n : Nat) (w : Word) : State × Status :=
  if a < 0x100 then sysWrite s m a (some (r, n)) w
  else if a = 0x130 then clkXrst s w
  else if a < 0x200 then (s.plainWrite r w n, .ok)
  else if a < 0x400 then intcWrite s (a - 0x200) m w
  else if a < 0x800 then fltWrite s (a - 0x400) w
  else if a < 0x900 then wdWrite s ((a - 0x800) / 0x20) (a % 0x20) m w
  else if a < 0xA00 then (if otpHostWord a && !isHost m then (s, .violation) else otpWrite s (a - 0x900) w)
  else if a < 0xB00 then chkWrite s (a - 0xA00) m w
  else if a < 0xC00 then patWrite s (a - 0xB00) m w
  else if a < 0xD00 then thmWrite s (a - 0xC00) m w
  else if a < 0xE00 then (if a < 0xD20 then hadcWrite s ((a - 0xD00) / 0x10) (a % 0x10) w else (s, .ok))
  else if a < 0xF00 then supWrite s (a - 0xE00) m w
  else if a < 0x1000 then budWrite s m a r n w
  else if a < 0x2000 then railWrite s ((a - 0x1000) / 0x80) (a % 0x80) m w
  else if a < 0x3000 then anyLinkWrite s ((a - 0x2000) / 0x40) (a % 0x40) w
  else if a < 0x3800 then engWrite s ((a - 0x3000) / 0x20) (a % 0x20) m w
  else if a < 0x3C00 then iptWrite s a r n w
  else if a < 0x3C40 then lxGlobalWrite s (a - 0x3C00) w
  else if a < 0x3D40 then anyLinkWrite s (64 + (a - 0x3C40) / 0x20) (a % 0x20) w
  else if a < 0x3E00 then lxWrite s ((a - 0x3D40) / 0x20) (a % 0x20) w
  else if a < 0x3F00 then chgWrite s (a - 0x3E00) w
  else hkrWrite s (a - 0x3F00) w

/-- A host's write of data RAM word `i` (R167): a private window is closed while the engine of its program is active, and the
line counts as written (R181). -/
def dataWrite (s : State) (i : Nat) (w : Word) : State × Status :=
  match privateOf i with
  | some p =>
    if progActive s p then (s, .engrun)
    else
      let (t, ok) := s.writeRam 1 i w
      (t.markWritten i, ramStatus ok)
  | none =>
    let (t, ok) := s.writeRam 1 i w
    (t, ramStatus ok)

/-- A write of the located word; a correct pair ends a mismatch, and discards the split pair that waits at the word
(R372, R373). -/
def writeLoc (s : State) (m a : Nat) (l : Loc) (w : Word) : State × Status :=
  match l with
  | .sys => sysWrite s m a none w
  | .ram 1 i => dataWrite s i w
  | .ram 2 i => writeIntentTable s i w
  | .ram r i => let (t, ok) := s.writeRam r i w
                (t, ramStatus ok)
  | .reg r n =>
    let (t, st) := regWrite s m a r n w
    if st = .ok ∧ (Loc.reg r n).paired then (pairWritten t m a, .ok) else (t, st)

/-- A write of word `a` by master `m`, whose rights are settled (R24, R29). -/
def writeWord (s : State) (m a : Nat) (w : Word) : State × Status :=
  match locate s m a with
  | none => (s, .noaddr)
  | some l => if locOpen s a l then writeLoc s m a l w else (s, .pdoff)

/-! ## Engines (R168, R184) -/

/-- The phase's map belongs to a rail that program `p` owns. -/
def ownsPhase (s : State) (p ph : Nat) : Bool := (List.range 32).any (fun n => ownsRail s p n && (railPhases s n).contains ph)

/-- The words of SYS that no program may write: those kept for host ports. -/
def hostOnlySys (a : Nat) : Bool :=
  a == 0x02 || a == 0x22 || a == 0x57 || a == 0x70 || a == 0x71 || a == 0x72 || a == 0x80 || a == 0x81 || a == 0x8C

/-- The bit of ENGn_WRMASK that opens the block of address `a`; none where no bit does. -/
def wrmaskBit (a : Nat) : Option Nat :=
  if a < 0x100 then some 0 else if a < 0x200 then some 1 else if a < 0x400 then some 2 else if a < 0x800 then some 3
  else if a < 0x900 then some 4 else if a < 0xA00 then none else if a < 0xB00 then some 5 else if a < 0xC00 then some 6
  else if a < 0xD00 then some 7 else if a < 0xE00 then some 8 else if a < 0xF00 then some 9 else if a < 0x1000 then some 10
  else if a < 0x3800 then none else if a < 0x3C00 then some 11 else if a < 0x3E00 then some 12 else if a < 0x3F00 then some 13
  else if a < 0x4000 then some 14 else if a < 0x6000 then none else if a < 0x7000 then some 16 else if a < 0x8000 then some 17
  else none

/-- An STX of engine `e` to word `a` is permitted (R168), as far as the decode stage can judge. -/
def stxAllowed (s : State) (e a : Nat) : Bool :=
  let p := progOf s e
  if engState s e = esFenced then false
  else if a < 0x100 then wrBit s p 0 && !hostOnlySys a
  else if 0x1000 ≤ a ∧ a < 0x2000 then
    let n := (a - 0x1000) / 0x80
    let off := a % 0x80
    ownsRail s p n || (delegatesRail s p n && (off == 0 || off == 2 || off == 6))
  else if 0x2000 ≤ a ∧ a < 0x3000 then ownsPhase s p ((a - 0x2000) / 0x40)
  else if 0x3000 ≤ a ∧ a < 0x3800 then
    let off := a % 0x20
    (decide (a < 0x3600) && (off == 0x15 || off == 0x16 || off == 0x17) && wrBit s p 15)
      || ((a - 0x3000) / 0x20 == e && (off == 0 || off == 3 || off == 7))
  else match wrmaskBit a with
    | some k => wrBit s p k
    | none => false

/-- A delegate would change a field of RLn_CTRL other than EN (R168, R475). -/
def delegateCloses (s : State) (p a : Nat) (w : Word) : Bool :=
  let n := (a - 0x1000) / 0x80
  decide (0x1000 ≤ a) && decide (a < 0x2000) && a % 0x80 == 0 && !ownsRail s p n
    && (Word.bits w 11 8 != s.fld RL_CTRL_DIV n || Word.bits w 4 4 != s.fld RL_CTRL_STOPMODE n
      || Word.bits w 3 3 != s.fld RL_CTRL_SINKEN n)

/-- The freeze cause of a violation that the target finds: KEY, or WRITE (R184). -/
def freezeCause : Status → Nat
  | .keyerr => 10
  | .violation => 5
  | _ => 0

/-- A posted STX of engine `e` reaches its target, and its status starts back (R184, R196). -/
def stxDeliver (s : State) (e a : Nat) (w : Word) : State × Status :=
  if delegateCloses s (progOf s e) a w then (s, .violation) else writeWord s e a w

/-- The status of a write goes to its engine. -/
def stxStatus (s : State) (e a : Nat) (st : Status) : State := postStatus s e st (freezeCause st) a

/-! ## Host ports (R70, R335, R336) -/

/-- The words that every unfrozen host port may write (R335). -/
def alwaysWritable (a : Nat) : Bool :=
  a == 0x10 || a == 0x02 || a == 0x22 || a == 0x8C || a == 0xC08 || a == 0xC10 || a == 0xEF5

/-- Port `p` has the right to write the block of address `a` (R335). -/
def hostRight (s : State) (p a : Nat) : Bool :=
  p == 0 || alwaysWritable a
    || (if p = 1 then s.fbit SYS_HPERM1_MASK (blockBit a) else s.fbit SYS_HPERMS_MASK (blockBit a))

/-- In PLINTH writes are limited to the mode request, the boot flash and the boot counter (R70), beside a port's own words. -/
def plinthDenies (s : State) (a : Nat) : Bool :=
  s.cur == modePlinth && !(alwaysWritable a || a == 0x55 || a == 0x70 || a == 0x71 || a == 0x72)

/-- The cause that SYS_HSTATp records for a violation that the target found. -/
def hostCause (p a : Nat) (st : Status) : Nat :=
  if st = .keyerr then 3
  else if a = 0x57 then 4
  else if (a = 0x80 ∨ a = 0x81) ∧ p ≠ 0 then 4
  else if 0x200 ≤ a ∧ a < 0x400 then 1
  else 2

/-- Port `p` has accepted a request for word `a`: the address that R401 records. -/
def hostAsked (s : State) (p a : Nat) : State := s.setHost p { s.host p with lastAddr := a }

/-- A write of word `a` by host port `p`: `pair` when value and complement came together (R24, R55, R70, R329, R335, R336). -/
def hostWrite (s : State) (p a : Nat) (w : Word) (pair : Bool) : State × Status :=
  let s := hostAsked s p a
  if s.flag SYS_BOOTSTAT_OTPHOLD then (s, .modedeny)
  else match locate s (masterHost p) a with
    | none => (s, .noaddr)
    | some l =>
      if !locOpen s a l then (s, .pdoff)
      else if !hostRight s p a then (hostFreeze s p 1 a, .violation)
      else if p ≠ 0 ∧ (a = 0x80 ∨ a = 0x81) then (hostFreeze s p 4 a, .violation)
      else if l.paired && !pair then (s, .needpair)
      else if plinthDenies s a then (s, .modedeny)
      else
        let (t, st) := writeLoc s (masterHost p) a l w
        if st = .violation ∨ st = .keyerr then (hostFreeze t p (hostCause p a st) a, .violation) else (t, st)

/-- A read of word `a` by host port `p` (R55). -/
def hostRead (s : State) (p a : Nat) : State × Word × Status :=
  if s.flag SYS_BOOTSTAT_OTPHOLD ∧ 0x200 ≤ a then (s, 0, .pdoff) else readWord s (masterHost p) a

/-- The stored complement half of word `a` (R329, R374). -/
def hostReadComp (s : State) (p a : Nat) : State × Word × Status :=
  let (t, w, st) := hostRead s p a
  (t, if st = .ok then ~~~w else if st = .pairerr then ~~~w ^^^ (cellGet (0, 0) t.pairs a).2 else 0, st)

/-- RDCLR (R329): the word is read, and the W1C bits that read 1 are cleared in the same operation. -/
def hostReadClear (s : State) (p a : Nat) : State × Word × Status :=
  match locate s (masterHost p) a with
  | none => hostRead s p a
  | some l =>
    if l.w1c = 0 then hostRead s p a
    else if s.flag SYS_BOOTSTAT_OTPHOLD then (s, 0, .modedeny)
    else if !locOpen s a l then (s, 0, .pdoff)
    else if !hostRight s p a then (hostFreeze s p 1 a, 0, .violation)
    else if plinthDenies s a then (s, 0, .modedeny)
    else
      let (t, w, st) := readLoc s (masterHost p) a l
      match l with
      | .reg r n =>
        if a = 0x38C then ((intcWrite t (a - 0x200) (masterHost p) w).1, w, st)
        else (t.setReg r (t.reg r n &&& ~~~(w &&& l.w1c)) n, w, st)
      | _ => (t, w, st)

/-! ## Masters and transfers (R16–R19, R373) -/

/-- A response frame with its CRC over bits [79:16] (R326, R327). -/
def hostResp (st : Status) (a : Nat) (d : Word) (alive flags : Nat) : HostResp :=
  { status := st, addr := a, data := d, alive := alive, flags := flags
    crc := crc16 64 (st.code * 2 ^ 56 + a * 2 ^ 40 + d.toNat * 2 ^ 8 + alive * 2 ^ 4 + flags) }

/-- DATA of the response to a read: zero where it was refused, and the stored half where its pair does not match (R327, R372). -/
def readData (st : Status) (d : Word) : Word := if st = .ok ∨ st = .pairerr then d else 0

/-- DATA of the response to a write: the value written, also where the write lost its line's other words, or zero (R327, R369). -/
def writtenData (st : Status) (d : Word) : Word := if st = .ok ∨ st = .eccerr then d else 0

/-- RL0–RL31 as masters (R16), which send events only: the model's numbers, above the others (assumption log entry 126). -/
def masterRail (n : Nat) : Nat := 0x40 + n

/-- The armature priority of a master (R19): 1 is the highest. -/
def masterRank (m : Nat) : Nat :=
  if m = masterFlt then 1 else if m = masterAntic then 2 else if m = masterBud then 3 else if m = 0x30 then 4
  else if m = 0x31 then 5 else if m = 0x32 then 6 else if m = masterLx then 7 else if m = masterChg then 8
  else if masterRail 0 ≤ m then 10 + (m - masterRail 0) else if m < 48 then 50 + m else 200

/-- A hardware master that writes through the armature. -/
def hardMaster (m : Nat) : Bool := decide (masterAntic ≤ m) && decide (m ≤ masterFlt)

/-- A whole transfer of master `m` with a value and, for `pair`, its complement: rights, then the write. -/
def masterWrite (s : State) (m a : Nat) (w : Word) (pair : Bool) : State × Status :=
  if m < 48 then
    if stxAllowed s m a then
      let (t, st) := stxDeliver s m a w
      (stxStatus t m a st, st)
    else (freeze s m 5 a, .violation)
  else if m ≤ masterHost 2 then hostWrite s (m - 0x30) a w pair
  else writeWord s m a w

/-- A hop finds value and complement of master `m`'s transfer different (R17). -/
def armPair (s : State) (hop m a : Nat) : State := s.postFault 354 hop m (wordOf a)

/-- An armed injection of ARM_PAIR meets a pair that is compared for master `m` (R361): the hop finds it mismatched, or with REC = 1 the
injection is recorded. -/
def hopInjected (s : State) (m a : Nat) : State × Bool :=
  match s.flt.armed with
  | some (354, _, i, r) =>
    if r then (s.injectRecord ⟨354, i, m, wordOf a⟩, false) else (s.injectTake (armPair s i m a) 354 i, true)
  | _ => (s, false)

/-- A hardware master receives a status (R17, R373). -/
def tellMaster (s : State) (m : Nat) (st : Status) : State :=
  { s with chk := { s.chk with told := cellSet Status.none s.chk.told m st } }

/-- The value half of a split pair replaces a half that waits at the word, whose master is told (R373). -/
def splitValue (s : State) (m a : Nat) (v : Word) : State :=
  let t := supersedeSplit s m a
  { t with chk := { t.chk with split := t.chk.split ++ [⟨a, m, v⟩] } }

/-- The complement half of a split pair: the write, or both halves discarded (R373). The late half of a pair that was superseded is
discarded, its master having its status. -/
def splitComp (s : State) (m a : Nat) (c : Word) : State × Status :=
  match s.chk.split.find? (fun h => h.addr == a && h.master == m) with
  | some h =>
    let t := { s with chk := { s.chk with split := s.chk.split.filter (fun h => h.addr != a) } }
    if c = ~~~h.value then writeWord t m a h.value else (armPair t 0 m a, .pairerr)
  | none =>
    if s.chk.late.contains (a, m) then
      ({ s with chk := { s.chk with late := s.chk.late.filter (fun x => x != (a, m)) } }, .superseded)
    else (armPair s 0 m a, .pairerr)

/-- The outcome of a whole transfer of master `m`: a hardware master is told its status. -/
def answered (x : State × Status) (m : Nat) : State := if hardMaster m then tellMaster x.1 m x.2 else x.1

/-- A write in one of the forms of R373. -/
def formWrite (s : State) (m a : Nat) (f : WriteForm) : State :=
  match f with
  | .plain v => answered (masterWrite s m a v (decide (masterHost 2 < m) || decide (m < 48))) m
  | .pair v c => if c = ~~~v then answered (masterWrite s m a v true) m else
      let t := armPair s 0 m a
      if m < 48 then postStatus t m .pairerr 0 a else answered (t, .pairerr) m
  | .valueHalf v => if hardMaster m then splitValue s m a v else s
  | .compHalf c => if hardMaster m then tellMaster (splitComp s m a c).1 m (splitComp s m a c).2 else s

/-- Master `m` writes word `a` (R11): a frozen host port and a fenced engine, whose rights are suspended (R180), write nothing. -/
def writeBy (m a : Nat) (f : WriteForm) (s : State) : Out :=
  if masterHost 0 ≤ m ∧ m ≤ masterHost 2 then
    s.on 7 (if s.flag SYS_HSTAT_FROZEN (m - 0x30) then s else formWrite s m a f)
  else if m < 48 then s.onEng m (if engState s m = esFenced then s else formWrite s m a f)
  else s.on 1 (formWrite s m a f)

/-- REGISTER_WRITE (R11, R475): master `m` writes word `a`. -/
def execRegisterWrite (m : Fin 64) (a : Fin 65536) (f : WriteForm) (s : State) : Out := writeBy m a f s

/-- BOOTDATA_WRITE (R63): word 0x0057, by any master. -/
def execBootdataWrite (m : Fin 64) (w : Word) (s : State) : Out := writeBy m 0x57 (.plain w) s

/-- VSET_WRITE (R84): the pair of RLn_VSET, by master `m`. -/
def execVsetWrite (m : Fin 51) (n : Fin 32) (v : Word) (s : State) : Out := writeBy m (0x1002 + 0x80 * n) (.pair v (~~~v)) s

/-- ACK (R344) and EOI (R345): word +3 or +4 of target `t`, by master `m`; one that is not the target's own breaks R346. -/
def execAck (m : Fin 51) (t : Fin 4) (i : Fin 256) (s : State) : Out := writeBy m (0x303 + 0x20 * t) (.plain (wordOf i)) s
def execEoi (m : Fin 51) (t : Fin 4) (i : Fin 256) (s : State) : Out := writeBy m (0x304 + 0x20 * t) (.plain (wordOf i)) s

/-- The words of CRC unit `u` (R376), written by master `m`. -/
def execCrcClaim (m : Fin 64) (u : Fin 2) (kind : Fin 4) (order : Bool) (s : State) : Out :=
  writeBy m (0xA20 + 4 * u) (.plain (wordOf (order.toNat * 16 + kind.val * 4 + 1))) s
def execCrcRelease (m : Fin 64) (u : Fin 2) (s : State) : Out :=
  writeBy m (0xA20 + 4 * u) (.plain (wordOf (s.fld CHK_CRCCFG_ORDER u * 16 + s.fld CHK_CRCCFG_KIND u * 4 + 2))) s
def execCrcdataWrite (m : Fin 64) (u : Fin 2) (w : Word) (s : State) : Out := writeBy m (0xA21 + 4 * u) (.plain w) s
def execCrcdatabWrite (m : Fin 64) (u : Fin 2) (b : Byte) (s : State) : Out := writeBy m (0xA22 + 4 * u) (.plain (wordOf b.toNat)) s

/-- CHK_SJCTRL written by master `m` with one command bit: its KIND and JKIND stay. -/
def sjCommand (s : State) (m bit : Nat) : Out :=
  writeBy m 0xA30 (.plain (wordOf (256 * s.fld CHK_SJCTRL_KIND + 16 * s.fld CHK_SJCTRL_JKIND + bit))) s

/-- SCAN_JOB_GO (R378): the job that the SJ registers describe. SCAN_JOB_ABORT (R380): by the job's master or HSPI0. -/
def execScanJobGo (m : Fin 51) (s : State) : Out := sjCommand s m 1
def execScanJobAbort (m : Fin 51) (s : State) : Out := sjCommand s m 2

/-- PAT_CLR (R431): PAT_CMD with a key and CLR, by master `m`. -/
def execPatClr (m : Fin 51) (key : Fin 65536) (s : State) : Out := writeBy m 0xB06 (.plain (wordOf (65536 * key + 1))) s

/-- HKICK (R393): WDn_HKICK, by host port `p`. -/
def execHkick (n : Fin 8) (p : Fin 3) (k : Fin 16) (s : State) : Out :=
  writeBy (masterHost p) (0x805 + 0x20 * n) (.plain (wordOf k)) s

/-- The oldest transfer of master `m` in the queues, and the queues without it (R18). -/
def takeTransfer (m : Nat) : List Transfer → Option (Transfer × List Transfer)
  | [] => none
  | t :: q => if t.master = m then some (t, q) else (takeTransfer m q).map (fun x => (x.1, t :: x.2))

/-- The master of a source of transfers. -/
def sourceMaster : ArmSource → Nat
  | .queue e => e
  | .sent m _ _ => m
  | .event n _ _ => masterRail n

/-- A source in its place, lowest priority first; one whose master stands there already is not repeated. -/
def rankInsert (x : ArmSource) : List ArmSource → List ArmSource
  | [] => [x]
  | k :: l =>
    if sourceMaster k = sourceMaster x then k :: l
    else if masterRank (sourceMaster k) < masterRank (sourceMaster x) then x :: k :: l
    else k :: rankInsert x l

/-- The sources named, one for each master, lowest priority first (R19). -/
def byRank (l : List ArmSource) : List ArmSource := l.foldr rankInsert []

/-- The transfers of the sources, in their order: an engine's oldest leaves its queue, and another master sends one. A frozen host port
sends nothing. -/
def gather : List ArmSource → State → State × List Transfer
  | [], s => (s, [])
  | .queue e :: l, s =>
    match takeTransfer e s.armq with
    | none => gather l s
    | some (t, q) => let (u, ts) := gather l { s with armq := q }
                     (u, t :: ts)
  | .sent m a v :: l, s =>
    if m.val ≤ masterHost 2 ∧ (s.flag SYS_HSTAT_FROZEN (m - 0x30) ∨ !s.powered 7) then gather l s
    else
      let (s, t) := armSend s m a v .write none
      let (u, ts) := gather l s
      (u, t :: ts)
  | .event n a v :: l, s =>
    let (s, t) := armSend s (masterRail n) a v .event none
    let (u, ts) := gather l s
    (u, t :: ts)

/-- Two transfers of different masters reach one word: their own copies of a word are different registers (R30). -/
def sameWord (s : State) (t u : Transfer) : Bool :=
  match locate s t.master t.addr, locate s u.master u.addr with
  | some (.reg r n), some (.reg _ k) => t.addr == u.addr && n == k && !r.copies
  | some (.ram r i), some (.ram q j) => r == q && i == j
  | some .sys, some .sys => t.addr == u.addr
  | _, _ => false

/-- The bits of its word that a transfer writes: a W1C field where it writes 1, of RLn_CTRL only EN for ENR, DISR and a delegate
(R11, R168). -/
def writtenBits (s : State) (t : Transfer) : Word :=
  match t.kind, t.act with
  | .write, some (.enr _) | .write, some (.disr _) => 1
  | .write, _ =>
    match locate s t.master t.addr with
    | some (.reg r n) =>
      if r.base = 0x1000 ∧ t.master < 48 ∧ t.act = none ∧ !ownsRail s (progOf s t.master) n then 1
      else r.fields.foldl (fun w f => match f.acc with
        | .ro | .rc => w
        | .w1c => Word.setBits w f.hi f.lo (Word.bits t.value f.hi f.lo)
        | _ => Word.setBits w f.hi f.lo (2 ^ 32 - 1)) 0
    | some _ => 0xFFFFFFFF
    | none => 0
  | _, _ => 0

/-- The hop at which a transfer is found mismatched (R17): the one that the command names for its master, or the first for a transfer
whose halves disagree. -/
def hopOf (bad : Option (Nat × Nat)) (t : Transfer) : Option Nat :=
  match bad with
  | some (m, h) => if m = t.master then some h else if t.comp = ~~~t.value then none else some 0
  | none => if t.comp = ~~~t.value then none else some 0

/-- The write of `t` is overwritten by one of the transfers that were applied after it in the same cycle, each with its status: one that
was refused or discarded overwrites nothing (R19). -/
def overwritten (s : State) (t : Transfer) (later : List (Transfer × Status)) : Bool :=
  later.any (fun u => u.2 == .ok && sameWord s t u.1 && (writtenBits s t &&& writtenBits s u.1) != 0)

/-- The status of a transfer goes to its master (R17, R19, R196): to an engine, or into the response of a host port, or to a hardware master. -/
def masterStatus (s : State) (t : Transfer) (st : Status) : State :=
  if t.master < 48 then stxStatus s t.master t.addr st
  else if masterHost 0 ≤ t.master ∧ t.master ≤ masterHost 2 then
    let p := t.master - 0x30
    let h := s.host p
    s.setHost p { h with resp := hostResp st t.addr (writtenData st t.value) h.resp.alive h.resp.flags }
  else if hardMaster t.master then tellMaster s t.master st
  else s

/-- The word of a transfer holds a complement-paired field. -/
def wordPaired (s : State) (t : Transfer) : Bool := match locate s t.master t.addr with | some l => l.paired | none => false

/-- A transfer at its target (R16, R204): the write of a register word, or the effect it carries. An event of a rail loop writes
nothing. -/
def targetApply (s : State) (t : Transfer) : State × Status :=
  match t.kind, t.act with
  | .write, some x =>
    let (u, st) := effectArrives s t.master x
    (if st = .ok ∧ wordPaired s t then pairWritten u t.master t.addr else u, st)
  | .write, none =>
    if t.master < 48 then stxDeliver s t.master t.addr t.value
    else if t.master ≤ masterHost 2 then hostWrite s (t.master - 0x30) t.addr t.value true
    else writeWord s t.master t.addr t.value
  | _, _ => (s, .ok)

/-- One transfer reaches its word, with its status: a mismatch is discarded with PAIRERR (R17). -/
def applyTransfer (s : State) (t : Transfer) (hop : Option Nat) : State × Status :=
  match hop with
  | some h => (armPair s h t.master t.addr, .pairerr)
  | none =>
    let (u, bad) := hopInjected s t.master t.addr
    if bad then (u, .pairerr) else targetApply u t

/-- The transfers are applied in their order, each with its status. -/
def applyAll (bad : Option (Nat × Nat)) : List Transfer → State → State × List (Transfer × Status)
  | [], s => (s, [])
  | t :: ts, s =>
    let (u, st) := applyTransfer s t (hopOf bad t)
    let (v, l) := applyAll bad ts u
    (v, (t, st) :: l)

/-- The masters have their statuses: a write that a later one of the same cycle overwrote is superseded (R19), judged by what `s0`, the
state before the cycle, holds at the words. A master's next held effects follow (R178). -/
def reportAll (s0 : State) : List (Transfer × Status) → State → State
  | [], s => s
  | x :: l, s =>
    let m := x.1.master
    let u := masterStatus s x.1 (if x.2 = .ok ∧ overwritten s0 x.1 l then .superseded else x.2)
    reportAll s0 l (if m < 48 then issueList m (u.eng m).issue u else u)

/-- The program number of the record that a transfer carries (R429); none for another transfer. -/
def recordSrc (t : Transfer) : Option Nat := match t.act with | some (.record r) => some r.src | _ => none

/-- A transfer in its place among those that carry records, lowest program number first (R429). -/
def recordInsert (t : Transfer) : List Transfer → List Transfer
  | [] => [t]
  | u :: l => if (recordSrc t).getD 0 ≤ (recordSrc u).getD 0 then t :: u :: l else u :: recordInsert t l

/-- The order in which the transfers of one core cycle are applied: lowest priority first (R19), and the records, which meet no other
transfer at a register, in ascending program number (R429). -/
def inOrder (l : List Transfer) : List Transfer :=
  l.filter (fun t => (recordSrc t).isNone) ++ (l.filter (fun t => (recordSrc t).isSome)).foldr recordInsert []

/-- The transfers of one core cycle arrive. -/
def arrive (bad : Option (Nat × Nat)) (l : List Transfer) (s : State) : State :=
  let (u, r) := applyAll bad (inOrder l) s
  reportAll s r u

/-- A mismatch named for an engine that has posted nothing meets its read: the transfer that its LDX waits for (R17, R195). -/
def markBadRead (s : State) (bad : Option (Nat × Nat)) : State :=
  match bad with
  | some (m, h) => if m < 48 ∧ !ownTransfer s m then s.setEng m { s.eng m with badRead := some h } else s
  | none => s

/-- ARMATURE_TRANSFER (R16–R19): the oldest transfers of engines' queues, and transfers of other masters, reach their targets in one core
cycle; `bad` names the master whose transfer a hop finds mismatched, and the hop. -/
def execArmatureTransfer (l : List ArmSource) (bad : Option (Nat × Nat)) (s : State) : Out :=
  s.on 1 (let (u, ts) := gather (byRank l) (markBadRead s bad)
          arrive bad ts u)

/-- HOSTVER_WRITE (R332), UNFRZ_WRITE (R337), HOST_CLRCNT (R349): writes of an unfrozen host port. -/
def State.onPort (s : State) (p : Nat) (t : State) : Out := s.on 7 (if s.flag SYS_HSTAT_FROZEN p then s else t)
def execHostverWrite (p : Fin 3) (act : Fin 16) (s : State) : Out := s.onPort p (hostWrite s p 0x02 (wordOf act) false).1
def execUnfrzWrite (p : Fin 3) (key : Fin 65536) (masters : Fin 16) (s : State) : Out :=
  s.onPort p (hostWrite s p 0x8C (wordOf (65536 * key + masters)) false).1
def execHostClrcnt (p : Fin 3) (s : State) : Out := s.onPort p (hostWrite s p 0x8F 1 false).1

/-- HOST_MODE_REQUEST (R43): a write of SYS_MODEREQ, which holds CP fields, as a pair (R329). -/
def execHostModeRequest (p : Fin 3) (key : Fin 65536) (target : Fin 16) (sdend : Fin 4) (s : State) : Out :=
  s.onPort p (hostWrite s p 0x22 (wordOf (65536 * key + 256 * sdend + target)) true).1
/-- HOSTREQ (R63): a write of SYS_BOOTCTL. -/
def execHostreq (p : Fin 3) (key : Fin 65536) (s : State) : Out :=
  s.onPort p (hostWrite s p 0x56 (wordOf (65536 * key + 1)) false).1
/-- QSPI_GO (R65): a write of SYS_QSPICMD with GO. -/
def execQspiGo (p : Fin 3) (w : Word) (s : State) : Out := s.onPort p (hostWrite s p 0x70 (w ||| 1) false).1

/-! ## Unkeyed commands of ENGn_CMD (R168, R172) -/

/-- Master `m` writes ENGe_CMD without a key: a program needs the ENG bit of its WRMASK, and is frozen without it. -/
def engCommand (s : State) (m e : Nat) (w : Word) : Out := writeBy m (0x3017 + 0x20 * e) (.plain w) s

/-- START_COMMAND (R172), HALT_COMMAND (R171), SIGRAISE (R173), ENG_CLRCNT (R187). -/
def execStartCommand (m : Fin 51) (e : Fin 48) (s : State) : Out := engCommand s m e 1
def execHaltCommand (m : Fin 51) (e : Fin 48) (s : State) : Out := engCommand s m e 2
def execSigraise (m : Fin 51) (e : Fin 48) (n : Fin 16) (s : State) : Out := engCommand s m e (wordOf (128 + 256 * n))
def execEngClrcnt (m : Fin 51) (e : Fin 48) (s : State) : Out := engCommand s m e 64

/-- A host port writes ENGe_CMD with a key (R185). -/
def engKeyed (s : State) (p e key bit : Nat) : Out :=
  s.onPort p (hostWrite s p (0x3017 + 0x20 * e) (wordOf (65536 * key + bit)) false).1

/-- MIGRATE (R182), RESTORE, UNFREEZE (R185) by a host port. -/
def execMigrate (p : Fin 3) (e : Fin 48) (key : Fin 65536) (s : State) : Out := engKeyed s p e key 32
def execRestore (p : Fin 3) (e : Fin 48) (key : Fin 65536) (s : State) : Out := engKeyed s p e key 16
def execUnfreeze (p : Fin 3) (e : Fin 48) (key : Fin 65536) (s : State) : Out := engKeyed s p e key 8

end Sys2Proof.Machine
end

