-- ==== Sys2Proof/Machine/HostPort.lean ====
section
/-! DEFINITION. The host ports (R325–R337): the frames, their checks in the order of R328, the commands of R329, and the responses. -/
namespace Sys2Proof.Machine

/-! ## Frames (R326–R328) -/

/-- Bits [79:16] of a request frame with command `cmd`. -/
def frameBits (cmd : Nat) (f : HostFrame) : Nat :=
  cmd * 2 ^ 60 + f.ver * 2 ^ 56 + f.addr * 2 ^ 40 + f.data.toNat * 2 ^ 8 + f.alive * 2 ^ 4 + f.reserved

/-- The CMD field of a frame of the command `cmd`: where the frame carries an undefined one, 0x7 to 0xF (R329). -/
def frameCmd (cmd : Nat) (f : HostFrame) : Nat := match f.undef with | some k => 7 + k.val | none => cmd

/-- The active protocol version of port `p` (R332). -/
def hostVer (s : State) (p : Nat) : Nat := s.fld SYS_HOSTVER_ACT (masterHost p)

/-- A discard under R328: the port's event bit `k` and its count. -/
def hostDiscard (s : State) (p k : Nat) : State :=
  (s.setFbit SYS_HEVT_EVENTS (3 * p + k) true).countTo SYS_HERR_COUNT 0xFFFFFFFF p

/-- The ALIVE reference set (R328). -/
def setAlive (s : State) (p a : Nat) : State :=
  (s.setFld SYS_HSTAT_ALIVEREF a p).setHost p { s.host p with aliveOpen := false }

/-- What the checks of R328 say of a frame: a status that discards it, FROZEN, or `none` for a frame to execute. An armed injection of
HSP_ALIVE makes the check of ALIVE fail (R361). -/
def frameStatus (s : State) (p cmd : Nat) (f : HostFrame) : Option Status :=
  let ref := s.fld SYS_HSTAT_ALIVEREF p
  if f.edges ≠ 80 then some .frameerr
  else if crc16 64 (frameBits cmd f) ≠ f.crc.toNat then some .crcerr
  else if s.injects 351 p = some false then some .aliveerr
  else if !(s.host p).aliveOpen && f.alive.val == ref then some .repeated
  else if !(s.host p).aliveOpen && f.alive.val != (ref + 1) % 16 then some .aliveerr
  else if s.flag SYS_HSTAT_FROZEN p then some .frozen
  else if f.ver.val ≠ hostVer s p ∧ ¬(f.ver.val = 1 ∧ (cmd = 2 ∨ cmd = 4) ∧ f.addr.val = 2) then some .vererr
  else if f.reserved.val ≠ 0 ∨ 7 ≤ cmd ∨ (cmd = 6 ∧ hostVer s p < 2) then some .cmderr
  else none

/-- A frame that fails a check is discarded, counted, and moves the reference as R328 says; FROZEN is no discard. -/
def frameRefused (s : State) (p : Nat) (f : HostFrame) (st : Status) : State :=
  match st with
  | .frameerr | .crcerr | .repeated => hostDiscard s p 0
  | .aliveerr => s.injectTake ((hostDiscard (setAlive s p f.alive) p 0).postFault 351 p 0 (wordOf f.alive)) 351 p
  | .frozen => setAlive s p f.alive
  | _ => hostDiscard (setAlive s p f.alive) p 0

/-- The statuses of frames discarded before decoding, whose response carries ADDR zero (R327). -/
def beforeDecoding (st : Status) : Bool := st == .frameerr || st == .crcerr || st == .repeated || st == .aliveerr

/-- FLAGS of a response (R327): zero under HPv1. -/
def respFlags (s : State) (ver : Nat) : Nat :=
  if ver < 2 then 0
  else 8 * (s.flag FLT_FFSRC_ACTIVE).toNat + 4 * (s.fbit INTC_NMI_PEND 0 || s.fbit INTC_NMI_PEND 1).toNat
    + 2 * (targetIntp s 0 || targetIntp s 1).toNat + (s.cur == modeWake || s.cur == modePlinth).toNat

/-- The response that stands ready for the next frame, in the format of version `ver` (R327, R332). -/
def setResp (s : State) (p ver : Nat) (st : Status) (a : Nat) (d : Word) (alive : Nat) : State :=
  s.setHost p { s.host p with resp := hostResp st a d alive (respFlags s ver) }

/-- The response sent while the request in progress is not ready (R331): its ADDR and ALIVE with WAIT. -/
def waitResp (s : State) (p : Nat) : HostResp :=
  hostResp .wait (s.host p).resp.addr 0 (s.host p).resp.alive (respFlags s (hostVer s p))

/-- The start of a frame: the crossing's paired reset (R382), and on the HSPI ports the response to the request before (R327,
R331). -/
def frameStart (s : State) (p : Nat) (early : Bool) : State :=
  if p < 2 then
    let s := if s.stopped (146 + p) then (s.setStopped (146 + p) false).setOverrun (146 + p) false else s
    s.setHost p { s.host p with sent := if early then waitResp s p else (s.host p).resp }
  else s

/-! ## Commands (R329, R330) -/

/-- WRPC (R330): the value and its complement as one pair, or ARM_PAIR with the port as master. -/
def hostPairWrite (s : State) (p : Nat) (hold : Option (Nat × Word)) (f : HostFrame) : State × Word × Status :=
  match hold with
  | some (a, v) =>
    let (s, bad) := hopInjected s (masterHost p) f.addr
    if bad then (s, 0, .pairerr)
    else if a = f.addr.val ∧ f.data = ~~~v then
      let (t, st) := hostWrite s p a v true
      (t, writtenData st v, st)
    else (armPair s 0 (masterHost p) f.addr, 0, .pairerr)
  | none => (armPair s 0 (masterHost p) f.addr, 0, .pairerr)

/-- The effect of an accepted request with its DATA and status. WRPV shows the half that it holds; NOP neither reads nor writes, and
its DATA is free (assumption log entry 115). -/
def hostCommand (s : State) (p cmd : Nat) (f : HostFrame) : State × Word × Status :=
  let hold := (s.host p).hold
  let s := s.setHost p { s.host p with hold := none, lastAddr := f.addr }
  match cmd with
  | 0 => let (d, t) := s.free
         (t, d, .none)
  | 1 => let (t, d, st) := hostRead s p f.addr
         (t, readData st d, st)
  | 2 => let (t, st) := hostWrite s p f.addr f.data false
         (t, writtenData st f.data, st)
  | 3 => (s.setHost p { s.host p with hold := some (f.addr, f.data) }, f.data, .ok)
  | 4 => hostPairWrite s p hold f
  | 5 => let (t, d, st) := hostReadComp s p f.addr
         (t, readData st d, st)
  | _ => let (t, d, st) := hostReadClear s p f.addr
         (t, readData st d, st)

/-- An injection of HSP_ALIVE with REC = 1 is recorded at the next frame whose ALIVE is checked (R364). -/
def aliveSeen (s : State) (p cmd : Nat) (f : HostFrame) : State :=
  if s.injects 351 p = some true ∧ f.edges = 80 ∧ crc16 64 (frameBits cmd f) = f.crc.toNat then
    s.injectRecord ⟨351, p, 0, wordOf f.alive⟩
  else s

/-- One frame on port `p` of the command `row`: its checks, its effect, and the response for the next frame. A frame that began
before the response was ready is discarded, and its response slot answers the request in progress (R328, R331): on a frozen port too, where
no check before that one fails. -/
def hostFrame (s : State) (p row : Nat) (f : HostFrame) : State :=
  let cmd := frameCmd row f
  let s := aliveSeen (frameStart s p f.early) p cmd f
  let ver := hostVer s p
  match frameStatus s p cmd f with
  | some st =>
    let t := if f.early ∧ st = .frozen then hostDiscard s p 2 else frameRefused s p f st
    if f.early then (if p < 2 then t.setOverrun (146 + p) true else t)
    else setResp t p ver st (if beforeDecoding st then 0 else f.addr) 0 f.alive
  | none =>
    if f.early then
      let t := hostDiscard s p 2
      if p < 2 then t.setOverrun (146 + p) true else t
    else
      let (t, d, st) := hostCommand (setAlive s p f.alive) p cmd f
      setResp t p ver st f.addr d f.alive

/-- HOST_NOP, RD, WR, WRPV, WRPC, RDC, RDCLR: a frame on a host port, while PD7 is powered. -/
def execHostNop (p : Fin 3) (f : HostFrame) (s : State) : Out := s.on 7 (hostFrame s p 0 f)
def execRd (p : Fin 3) (f : HostFrame) (s : State) : Out := s.on 7 (hostFrame s p 1 f)
def execWr (p : Fin 3) (f : HostFrame) (s : State) : Out := s.on 7 (hostFrame s p 2 f)
def execWrpv (p : Fin 3) (f : HostFrame) (s : State) : Out := s.on 7 (hostFrame s p 3 f)
def execWrpc (p : Fin 3) (f : HostFrame) (s : State) : Out := s.on 7 (hostFrame s p 4 f)
def execRdc (p : Fin 3) (f : HostFrame) (s : State) : Out := s.on 7 (hostFrame s p 5 f)
def execRdclr (p : Fin 3) (f : HostFrame) (s : State) : Out := s.on 7 (hostFrame s p 6 f)

/-! ## The service port (R334) -/

/-- SVC_RESPONSE_READ: the response to the last request, again at every read, or WAIT where it is not ready. -/
def execSvcResponseRead (ready : Bool) (s : State) : Out :=
  s.on 7 (s.setHost 2 { s.host 2 with sent := if ready then (s.host 2).resp else waitResp s 2 })

/-- SVC_BUS_RESET: SVC's bus logic releases SVC_SDA and gives up the transaction in progress, which has reached no command. No
register, response or reference changes. -/
def execSvcBusReset (s : State) : Out := s.on 7 s

end Sys2Proof.Machine
end

