-- ==== Sys2Proof/Machine/Operands.lean ====
section
/-! DEFINITION. The operand forms of the engine instructions (R191), the conditions (R200), and how an instruction retires,
freezes or stalls (R169, R176, R184, R188, R189). -/
namespace Sys2Proof.Machine

/-! ## Operands (R191) -/

/-- The words of an instruction whose value comes by SRC. -/
def srcWords : Src → Nat
  | .word _ => 2
  | _ => 1

/-- The words of an instruction of format SV. -/
def regWordWords : RegWord → Nat
  | .word _ => 2
  | .reg _ => 1

/-- The words of an instruction of format W: word 0, the condition, the time, and a literal when LIT = 1. -/
def condWords (c : CondWord) : Nat := if c.lit.isSome then 4 else 3

/-- The value that SRC selects; none for the undefined 0b11. -/
def srcValue (s : State) (e : Nat) : Src → Option Word
  | .imm v => some (wordOf v)
  | .reg g => some (s.g e g)
  | .word w => some w
  | .undef => none

/-- A value from a register or from an extension word. -/
def regWordValue (s : State) (e : Nat) : RegWord → Word
  | .reg g => s.g e g
  | .word w => w

/-- A shift count (R193). -/
def shiftCount (s : State) (e : Nat) : ShiftCount → Nat
  | .reg g => (s.g e g).toNat % 256
  | .imm n => n

/-! ## Conditions (R200) -/

/-- The selectors that take a value. -/
def selValued (sel : Nat) : Bool := (decide (4 ≤ sel) && decide (sel ≤ 9)) || sel == 0x12

/-- The selectors whose IDX is a rail. -/
def selRail (sel : Nat) : Bool := (decide (1 ≤ sel) && decide (sel ≤ 7)) || sel == 0x0F || sel == 0x12

/-- The pins that PIN(p) may name. -/
def condPin (p : Nat) : Bool := p == 0 || p == 1 || p == 2 || (decide (8 ≤ p) && decide (p < 32))

/-- The freeze cause of a condition word that breaks R200: 7 undefined, 2 an absent instance. -/
def condStop (s : State) (c : CondWord) : Option Nat :=
  let sel := c.sel.val
  let i := c.idx.val
  let range (b : Bool) : Option Nat := if b then none else some 7
  if 0x15 ≤ sel then some 7
  else if c.kind.val ≠ 0 ∧ sel ≠ 8 ∧ sel ≠ 9 then some 7
  else if !selValued sel && (c.lit.isSome || c.gv.val != 0) then some 7
  else if selRail sel then (if 32 ≤ i then some 7 else if s.railPresent i then none else some 2)
  else match sel with
    | 8 | 9 => match telCheck s c.kind i false with
        | .ok => none
        | .noaddr => some 2
        | _ => some 7
    | 0x0A | 0x11 => range (decide (i < 16))
    | 0x0B => range (condPin i)
    | 0x0C => range (decide (i < 12))
    | 0x0D => range (decide (i < 8))
    | 0x0E => range (decide (i < 2))
    | 0x10 => if 48 ≤ i then some 7 else if s.engPresent i then none else some 2
    | 0x14 => range (decide (i < 3))
    | _ => range (decide (i = 0))

/-- The condition with its value read at retire. -/
def condRead (s : State) (e : Nat) (c : CondWord) : Cond :=
  { sel := c.sel, idx := c.idx, neg := c.neg, kind := c.kind
    value := match c.lit with
      | some w => w
      | none => if selValued c.sel then s.g e c.gv else 0 }

/-- An enabled event of an event register is set. -/
def eventSet (s : State) (evt en : Reg) (n : Nat) : Bool := (s.reg evt n &&& s.reg en n) != 0

/-- The state of a pin of R200. -/
def pinState (s : State) (p : Nat) : Bool :=
  if p = 0 then s.pins.wakeBtn
  else if p = 1 then s.pins.srcdet
  else if p = 2 then s.flt.errin
  else if p < 16 then s.flag RSTO_STAT_LEVEL (p - 8)
  else s.pins.ireq.testBit (p - 16)

/-- The selector's value for engine `e`, before NEG. -/
def condValue (s : State) (e : Nat) (c : Cond) : Bool :=
  let p := progOf s e
  let i := c.idx
  let x := c.value
  match c.sel with
  | 0x00 => true
  | 0x01 => s.fbit SUP_STAT_RAILS i 2
  | 0x02 => s.fbit SUP_STAT_RAILS i 0
  | 0x03 => s.fbit SUP_STAT_RAILS i 1
  | 0x04 => decide ((x.toNat : Int) ≤ (telRaw s 0 i).1)
  | 0x05 => decide ((telRaw s 0 i).1 < (x.toNat : Int))
  | 0x06 => decide (x.toInt ≤ (telRaw s 1 i).1)
  | 0x07 => decide ((telRaw s 1 i).1 < x.toInt)
  | 0x08 => decide (x.toInt ≤ (telRead s c.kind i false false).value)
  | 0x09 => decide ((telRead s c.kind i false false).value < x.toInt)
  | 0x0A => s.fbit ENG_SIG_PENDING i p
  | 0x0B => pinState s i
  | 0x0C => s.cur == i && !s.flag SYS_MODE_TRANS
  | 0x0D => (s.progClaim p i).grant == (s.progClaim p i).level
  | 0x0E => s.fld ENG_CLAUSE_STATE e == i
  | 0x0F => lineAcross s (4 + i) (eventSet s RL_EVT RL_EVTEN i) || (railPhases s i).any (eventSet s PH_EVT PH_EVTEN)
  | 0x10 => eventSet s ENG_EVT ENG_EVTEN i
  | 0x11 => eventSet s IP_EVT IP_EVTEN i
  | 0x12 => railState s i == x.toNat
  | 0x13 => s.flag SYS_MODE_RESUME && s.mode.resumeBy == some p && !s.pins.inputLow
  | _ => if i = 0 then eventSet s CHG_EVT CHG_EVTEN 0 else if i = 1 then eventSet s THM_EVT THM_EVTEN 0
      else eventSet s BUD_EVT BUD_EVTEN 0

/-- The condition holds for engine `e`. -/
def condTrue (s : State) (e : Nat) (c : Cond) : Bool := condValue s e c != c.neg

/-! ## The watch of a CHECK (R203) -/

/-- What a CHECK that retires now has seen of its selector: the value, and where its dwell starts (R203). -/
def watchStart (s : State) (e : Nat) (c : Cond) : Watch :=
  { value := condValue s e c, changes := 0, start := s.tbase
    since := match histKey c with | some k => cellGet 0 s.mode.hist k | none => s.tbase }

/-- Every waiting CHECK whose selector has no history evaluates it; TIMEOUT = 0 evaluates once (R203; assumption log entry 141). -/
def checkEval (s : State) : State :=
  (List.range 48).foldl (fun s e =>
    match (s.eng e).wait with
    | some (.check c code dwell timeout lim pc x) =>
      if timeout ≠ 0 ∧ histKey c = none ∧ condValue s e c ≠ x.value then
        s.setEng e { s.eng e with wait := some (.check c code dwell timeout lim pc (x.change s.tbase timeout)) }
      else s
    | _ => s) s

/-- When a program time of `t` µs that began at `start` ends (R199). -/
def timeEnd (start t : Nat) : Nat := if t = 0 then start else start + t + 1

/-- A CHECK passes (R203): its condition has been true for DWELL without a break, within the timeout. -/
def checkPasses (now : Nat) (c : Cond) (dwell timeout : Nat) (x : Watch) : Bool :=
  (x.value != c.neg) && decide (timeEnd x.since dwell ≤ now) && decide (timeEnd x.since dwell ≤ timeEnd x.start timeout)

/-- A CHECK fails with reason CHATTER (R203): the changes exceed CHLIM within the timeout. -/
def checkChatters (timeout chlim : Nat) (x : Watch) : Bool := decide (chlim < x.changes) && timeout != 0

/-- A CHECK fails with reason TIMEOUT (R203): the timeout has ended without a pass. -/
def checkExpires (now : Nat) (c : Cond) (dwell timeout : Nat) (x : Watch) : Bool :=
  timeOver now x.start timeout && !checkPasses now c dwell timeout x

/-! ## Retiring -/

/-- What becomes of the instruction at the front of an engine: it retires and the PC moves, it retires and its checkpoint copy
begins, it breaks an access rule (with the word address of an access cause), or it stalls at retire. -/
inductive Retire where
  | done (s : State) (next : Nat)
  | copy (s : State)
  | stop (cause : Nat) (addr : Nat)
  | stall

/-- The PC moves, and the program's retired count and the instructions left to replay follow (R183, R187). -/
def retire (s : State) (e next : Nat) : State :=
  let p := progOf s e
  let s := s.setFld ENG_PC_PC (next % 65536) e
  let s := s.setReg ENG_RETIRED (s.reg ENG_RETIRED p + 1) p
  let k := (s.eng e).replayLeft
  if k = 0 then s
  else
    let s := s.setEng e { s.eng e with replayLeft := k - 1 }
    if k = 1 then s.setFlag ENG_STAT_REPLAY false e else s

/-- Engine `e` executes: it exists, its domain is powered, it is RUNNING, and no checkpoint copy holds it. -/
def engReady (s : State) (e : Nat) : Bool :=
  s.engPresent e && s.powered (engDomain e) && engState s e == esRunning && (s.eng e).ckpt.isNone

/-- The first of `k` words from `pc` that the fetch window of program `p` does not hold (R166, R189). -/
def fetchStop (s : State) (p pc k : Nat) : Option Nat :=
  let lo := s.fld ENG_FWIN_FIRST p
  let hi := s.fld ENG_FWIN_LAST p
  if pc < lo ∨ hi < pc then some pc else if hi < pc + k - 1 then some (hi + 1) else none

/-- The outcome of an instruction becomes the state of the engine (R169, R181, R184). -/
def Retire.apply (r : Retire) (s : State) (e pc : Nat) : State :=
  match r with
  | .done t next => retire t e next
  | .copy t => ckStart (retire t e (pc + 1)) e (progOf t e) ((pc + 1) % 65536)
  | .stop cause addr => freeze s e cause addr
  | .stall => s

/-- The lines of the program store that hold the `k` words from `pc` (R166). -/
def fetchLines (pc k : Nat) : List Nat := if pc / 8 = (pc + k - 1) / 8 then [pc / 8] else [pc / 8, (pc + k - 1) / 8]

/-- The fetch reads the lines of an instruction of `k` words, each decoded with its reports (R367). -/
def fetchRead (s : State) (pc k : Nat) : State := (fetchLines pc k).foldl (fun s i => (s.readLine 0 i).1) s

/-- Engine `e` executes an instruction of `k` words; `body` takes the state after the fetch and the PC. Where the line of its first word
is uncorrectable, the word fetched is zero, an undefined opcode (R188, R368). An engine that does not execute is as it was. -/
def engRun (s : State) (e k : Nat) (body : State → Nat → Retire) : State :=
  if engReady s e then
    let pc := s.fld ENG_PC_PC e
    match fetchStop s (progOf s e) pc k with
    | some a => freeze s e 3 a
    | none =>
      let t := fetchRead s pc k
      if t.damage 0 (pc / 8) = .many then freeze t e 7 0 else (body t pc).apply t e pc
  else s

/-- Engine `e` executes an instruction of `k` words that changes the state by `f` and goes on at the next word. -/
def engSimple (s : State) (e k : Nat) (f : State → State) : State := engRun s e k (fun s pc => .done (f s) (pc + k))

/-! ## Results -/

/-- A data instruction's result in Gd with the four flags (R193). -/
def setAlu (s : State) (e d : Nat) (a : Alu) : State := setFlags (s.setG e d a.res) e a.z a.n a.c a.v

/-- The flags alone (CMP, CMPI). -/
def setAluFlags (s : State) (e : Nat) (a : Alu) : State := setFlags s e a.z a.n a.c a.v

/-! ## Effects (R176, R204) -/

/-- Engine `e` has an open clause. -/
def inClause (s : State) (e : Nat) : Bool := (s.eng e).clause.isSome

/-- Effects of a confirmed clause have not left engine `e` yet, so no later effect leaves (R178). -/
def issuing (s : State) (e : Nat) : Bool := !(s.eng e).issue.isEmpty

/-- An effect leaves at retire, and one that cannot leave yet stalls there (R18). -/
def issueOrStall (s : State) (e next : Nat) (x : Effect) : Retire :=
  if issuing s e || effectWaits s e x then .stall else .done (issueEffect s e x) next

/-- An effect leaves at retire, or is held while a clause is open; a seventeenth held instruction stalls (R176). -/
def holdOrIssue (s : State) (e next : Nat) (x : Effect) : Retire :=
  if inClause s e then
    let h := (s.eng e).held
    if 16 ≤ h.length then .stall
    else .done ((s.setEng e { s.eng e with held := h ++ [x] }).setFld ENG_CLAUSE_HELD (h.length + 1) e) next
  else issueOrStall s e next x

/-- An instruction that is answered before it retires waits until no effect of engine `e` is on its way (R18, R195). -/
def mustWait (s : State) (e : Nat) : Bool := issuing s e || ownTransfer s e

/-- The freeze cause of a rail effect of engine `e` on rail `n` (R21, R204); `delegate` where a delegate may issue it. -/
def railDeny (s : State) (e n : Nat) (delegate : Bool) : Option Nat :=
  let p := progOf s e
  if !s.railPresent n then some 2
  else if ownsRail s p n || (delegate && delegatesRail s p n) then none
  else some 1

/-- A rail effect without a value. -/
def railPlain (s : State) (e n : Nat) (x : Effect) : State :=
  engRun s e 1 (fun s pc => match railDeny s e n true with
    | some c => .stop c 0
    | none => holdOrIssue s e (pc + 1) x)

/-- A rail effect of the owner with a value by SRC (R205). -/
def railWithValue (s : State) (e n : Nat) (v : Src) (x : Word → Effect) : State :=
  engRun s e (srcWords v) (fun s pc => match srcValue s e v with
    | none => .stop 7 0
    | some w => match railDeny s e n false with
      | some c => .stop c 0
      | none => holdOrIssue s e (pc + srcWords v) (x w))

/-- What a clause effect leaves: the next word, or the label where it revoked the clause (R177, R207). -/
def clauseNext (s t : State) (e next : Nat) : Retire :=
  match (s.eng e).clause with
  | some c => .done t (if inClause t e then next else c.label)
  | none => .done t next

end Sys2Proof.Machine
end

