-- ==== Sys2Proof/Machine/IsaControl.lean ====
section
/-! DEFINITION. The control, time and condition instructions of the engines (R197–R203). -/
namespace Sys2Proof.Machine

/-- J. -/
def execJ (e : Fin 48) (t : Fin 65536) (s : State) : Out := .next (engRun s e 1 (fun s _ => .done s t))

/-- JC: the condition 0xF is undefined. -/
def execJc (e : Fin 48) (cond : Fin 16) (t : Fin 65536) (s : State) : Out :=
  .next (engRun s e 1 (fun s pc =>
    match branchTaken cond (s.flag ENG_FLAGS_Z e) (s.flag ENG_FLAGS_N e) (s.flag ENG_FLAGS_C e) (s.flag ENG_FLAGS_V e) with
    | none => .stop 7 0
    | some b => .done s (if b then t else pc + 1)))

/-- CALL. -/
def execCall (e : Fin 48) (t : Fin 65536) (s : State) : Out :=
  .next (engRun s e 1 (fun s pc =>
    let st := (s.eng e).stack
    if 8 ≤ st.length then .stop 8 0 else .done (setStack s e ((pc + 1) % 65536 :: st)) t))

/-- RET. -/
def execRet (e : Fin 48) (s : State) : Out :=
  .next (engRun s e 1 (fun s _ =>
    match (s.eng e).stack with
    | [] => .stop 8 0
    | a :: st => .done (setStack s e st) a))

/-- LOOP. -/
def execLoop (e : Fin 48) (d : Fin 16) (t : Fin 65536) (s : State) : Out :=
  .next (engRun s e 1 (fun s pc =>
    let v := s.g e d - 1
    .done (s.setG e d v) (if v = 0 then pc + 1 else t)))

/-- NOP. -/
def execNop (e : Fin 48) (s : State) : Out := .next (engSimple s e 1 id)

/-- YIELD: the slots it gives up are timing. -/
def execYield (e : Fin 48) (s : State) : Out := .next (engSimple s e 1 id)

/-- HALT: barred in a clause (R176). -/
def execHalt (e : Fin 48) (s : State) : Out :=
  .next (engRun s e 1 (fun s pc =>
    if inClause s e then .stop 7 0 else .done ((setEngState s e esHalted).event ENG_EVT_HALTED e) (pc + 1)))

/-! ## Time (R199) -/

/-- The engine waits. -/
def startWait (s : State) (e : Nat) (w : Waiting) : State :=
  setEngState (s.setEng e { s.eng e with wait := some w }) e esWaiting

/-- The wait ends and the engine runs on. -/
def endWait (s : State) (e : Nat) : State := setEngState (s.setEng e { s.eng e with wait := none }) e esRunning

/-- WAIT: a time of zero retires as NOP. -/
def execWait (e : Fin 48) (t : WaitTime) (s : State) : Out :=
  .next (engRun s e 1 (fun s pc =>
    let us := match t with
      | .imm n => n.val
      | .reg g => (s.g e g).toNat
    .done (if us = 0 then s else startWait s e (.time us s.tbase)) (pc + 1)))

/-- A WAITING engine of a powered domain has what it waits for. -/
def State.waiting (s : State) (e : Nat) : Option Waiting :=
  if s.engPresent e && s.powered (engDomain e) && engState s e == esWaiting then (s.eng e).wait else none

/-- WAIT_END: its time is over (R199). -/
def execWaitEnd (e : Fin 48) (s : State) : Out :=
  .next (match s.waiting e with
    | some (.time us start) => if timeOver s.tbase start us then endWait s e else s
    | _ => s)

/-- TIME. -/
def execTime (e : Fin 48) (d : Fin 16) (h : Bool) (s : State) : Out :=
  .next (engSimple s e 1 (fun s => s.setG e d (wordOf (if h then s.tbase / 2 ^ 32 % 2 ^ 24 else s.tbaseLo))))

/-! ## Conditions (R201–R203) -/

/-- A satisfied SIGNAL without NEG clears its bit (R173, R202). -/
def takeSignal (s : State) (e : Nat) (c : Cond) : State :=
  if c.sel = 0x0A ∧ c.neg = false then s.setFbit ENG_SIG_PENDING c.idx false (progOf s e) else s

/-- WAITC: a timeout of zero evaluates the condition once (R202). -/
def execWaitc (e : Fin 48) (c : CondWord) (timeout label : Fin 65536) (s : State) : Out :=
  .next (engRun s e (condWords c) (fun s pc =>
    match condStop s c with
    | some k => .stop k 0
    | none =>
      let k := condRead s e c
      if timeout.val ≠ 0 then .done (startWait s e (.cond k label timeout s.tbase)) (pc + condWords c)
      else if condTrue s e k then .done (takeSignal s e k) (pc + condWords c)
      else .done s label))

/-- WAITC_SATISFIED: the condition is true within the timeout (R202). -/
def execWaitcSatisfied (e : Fin 48) (s : State) : Out :=
  .next (match s.waiting e with
    | some (.cond c _ timeout start) =>
      if condTrue s e c && !timeOver s.tbase start timeout then endWait (takeSignal s e c) e else s
    | _ => s)

/-- WAITC_TIMEOUT: the timeout has ended (R202). -/
def execWaitcTimeout (e : Fin 48) (s : State) : Out :=
  .next (match s.waiting e with
    | some (.cond _ label timeout start) =>
      if timeOver s.tbase start timeout then (endWait s e).setFld ENG_PC_PC label e else s
    | _ => s)

/-- CHECK: barred in a clause. -/
def execCheck (e : Fin 48) (c : CondWord) (dwell timeout : Fin 65536) (code : Fin 256) (chlim : Fin 64) (s : State) : Out :=
  .next (engRun s e (condWords c) (fun s pc =>
    if inClause s e then .stop 7 0
    else match condStop s c with
      | some k => .stop k 0
      | none =>
        let k := condRead s e c
        .done (startWait s e (.check k code dwell timeout (if chlim.val = 0 then 8 else chlim) pc (watchStart s e k)))
          (pc + condWords c)))

/-- CHECK_PASS: Z = 1, C = 0. -/
def execCheckPass (e : Fin 48) (s : State) : Out :=
  let t := checkEval s
  .next (match t.waiting e with
    | some (.check c _ dwell timeout _ _ x) =>
      if checkPasses t.tbase c dwell timeout x then setFlags (endWait t e) e true false false false else t
    | _ => t)

/-- CHECK fails: Z = 0 and C by the reason, the fault with CODE, the reason and the PC of the CHECK, and between program start and
STANDBY a sequence failure (R66, R203). -/
def checkFails (s : State) (e reason code pc : Nat) : State :=
  let s := setFlags (endWait s e) e false false (reason == 2) false
  let p := progOf s e
  seqFail (s.postFault (240 + p) p (256 * reason + code) (wordOf pc))

/-- CHECK_CHATTER. -/
def execCheckChatter (e : Fin 48) (s : State) : Out :=
  let t := checkEval s
  .next (match t.waiting e with
    | some (.check _ code _ timeout lim pc x) => if checkChatters timeout lim x then checkFails t e 2 code pc else t
    | _ => t)

/-- CHECK_TIMEOUT. -/
def execCheckTimeout (e : Fin 48) (s : State) : Out :=
  let t := checkEval s
  .next (match t.waiting e with
    | some (.check c code dwell timeout _ pc x) => if checkExpires t.tbase c dwell timeout x then checkFails t e 1 code pc else t
    | _ => t)

/-! ## Clauses (R175, R178, R210) -/

/-- SUBJ: barred in an open clause; a window of zero is undefined. -/
def execSubj (e : Fin 48) (c : CondWord) (window label : Fin 65536) (s : State) : Out :=
  .next (engRun s e (condWords c) (fun s pc =>
    if inClause s e ∨ window.val = 0 then .stop 7 0
    else match condStop s c with
      | some k => .stop k 0
      | none =>
        let k : Clause := { cond := condRead s e c, label := label, window := window, opened := s.tbase }
        let t := s.setEng e { s.eng e with clause := some k }
        .done ((t.setFld ENG_CLAUSE_STATE 1 e).setFld ENG_CLAUSE_HELD 0 e) (pc + condWords c)))

/-- REVOKE. -/
def execRevoke (e : Fin 48) (s : State) : Out := .next (engSimple s e 1 (fun s => revokeClause s e 2 false))

/-- CLAUSE_CONFIRM (R178): the open clause's condition is true within its window. -/
def execClauseConfirm (e : Fin 48) (s : State) : Out :=
  s.onEng e (match (s.eng e).clause with
    | some c => if condTrue s e c.cond && !timeOver s.tbase c.opened c.window then confirmClause s e else s
    | none => s)

/-! ## Barriers (R174, R212) -/

/-- An arrival at generation `g` would put program `p` 8 generations ahead of another participant: counts are compared modulo
16, and an arrival advances by one. -/
def leadBroken (s : State) (p b g : Nat) : Bool :=
  (participants s b).any (fun q => q != p && (g + 16 - barGen s q b) % 16 == 8)

/-- SYNC: the arrival stands; a complete generation passes at once, and a timeout of zero tests once. -/
def execSync (e : Fin 48) (b : Fin 8) (timeout label : Fin 65536) (s : State) : Out :=
  .next (engRun s e 2 (fun s pc =>
    let p := progOf s e
    let g := (barGen s p b + 1) % 16
    if inClause s e ∨ s.fbit ENG_BAR_BARMASK b p = false then .stop 7 0
    else if leadBroken s p b g then .stop 7 0
    else
      let t := setBarGen s p b g
      if barComplete t b g then .done t (pc + 2)
      else if timeout.val = 0 then .done t label
      else .done (startWait t e (.sync b g label timeout s.tbase)) (pc + 2)))

/-- SYNC_TIMEOUT: the timeout has ended with the generation incomplete (R212). -/
def execSyncTimeout (e : Fin 48) (s : State) : Out :=
  .next (match s.waiting e with
    | some (.sync b g label timeout start) =>
      if timeOver s.tbase start timeout && !barComplete s b g then (endWait s e).setFld ENG_PC_PC label e else s
    | _ => s)

/-- UNDEFINED_ENCODING (R188). -/
def execUndefinedEncoding (e : Fin 48) (s : State) : Out := .next (engRun s e 1 (fun _ _ => .stop 7 0))

end Sys2Proof.Machine
end

