-- ==== Sys2Proof/Machine/Inject.lean ====
section
/-! DEFINITION. The firing of an armed injection (R361–R364) and the evaluation of assertions by FLT (R350). -/
namespace Sys2Proof.Machine

/-- The sources whose fault data carry a detail, and those whose DATA1 carries a value (the table of R350). -/
def namesDetail (src : Nat) : Bool :=
  (decide (64 ≤ src) && decide (src < 312)) || (decide (320 ≤ src) && decide (src ≤ 323))
    || (decide (346 ≤ src) && decide (src ≤ 350)) || (decide (364 ≤ src) && decide (src ≤ 366))
    || [334, 336, 338, 339, 340, 343, 352, 353, 354, 371].contains src
def namesValue (src : Nat) : Bool :=
  (decide (192 ≤ src) && decide (src < 288)) || (decide (312 ≤ src) && decide (src < 320))
    || (decide (327 ≤ src) && decide (src ≤ 333)) || (decide (336 ≤ src) && decide (src ≤ 339))
    || [343, 344, 345, 368].contains src || (decide (351 ≤ src) && decide (src ≤ 359))

/-- The fault data of an injected assertion: its instance, and what its detector would find, a free value where the table names one
(assumption log entry 86). -/
def injectPost (s : State) (src i : Nat) : State × FaultPost :=
  let (d, s) := s.free
  let (v, s) := s.free
  (s, ⟨src, i, if namesDetail src then d.toNat % 65536 else 0,
    if 96 ≤ src ∧ src < 192 then wordOf (src % 32) else if namesValue src then v else 0⟩)

/-- The engine that waits in a CHECK of program `p`, with the CHECK's CODE and PC (R203). -/
def checkOf (s : State) (p : Nat) : Option (Nat × Nat × Nat) :=
  (List.range 48).findSome? (fun e =>
    if progOf s e = p then
      match s.waiting e with
      | some (.check _ code _ _ _ pc _) => some (e, code, pc)
      | _ => none
    else none)

/-- Sources whose injection acts on the next item that their detector checks, where that item is checked (R361). -/
def injectsItem (src : Nat) : Bool := [343, 351, 354, 355, 356, 357, 358, 368].contains src

/-- The detector of source `src` makes an evaluation now (R363): its unit is powered, a CHECK waits, an AUX regulator runs, a session
returns, a domain switches, or a SHUTDOWN runs. -/
def injectEvaluates (s : State) (src i : Nat) : Bool :=
  s.powered (srcDomain src i) &&
    (if 240 ≤ src ∧ src < 288 then (checkOf s (src - 240)).isSome
     else if 320 ≤ src ∧ src < 324 then auxState s (src - 320) == axSoftstart || auxState s (src - 320) == axRegulate
     else if src = 349 then aState s == aReturn
     else if src = 362 then i != 0 && switching s i
     else if src = 363 then s.cur == modeShutdown && s.mode.trans.isNone && !s.mode.rearm && !s.mode.deadline
     else true)

/-- The unit's own action on an injected condition (R364 with REC = 0), as its detector takes it: the assertion that it posts
stands last among those due. A source whose detector takes no action of its own only asserts. `d` and `v` are what the detector would find. -/
def injectUnit (s : State) (src kind i d : Nat) (v : Word) : State :=
  let n := src % 32
  if src < 32 then compChange s n 0 true
  else if src < 64 then compChange s n 1 true
  else if src < 96 then railLeave s n rsLatched 3 3 |>.event RL_EVT_HLATCH n
  else if src < 128 then phaseFence s n i 1
  else if src < 160 then phaseFence s n i (2 + d % 2)
  else if src < 192 then phaseFence s n i (4 + d % 2)
  else if src < 240 then fenceEngine s (src - 192) 0xE
  else if src < 288 then
    match checkOf s (src - 240) with
    | some (e, code, pc) => checkFails s e (1 + d % 2) code pc
    | none => s
  else if src < 312 then
    let m := (src - 288) % 4
    let c := (src - 288) / 4 + 1
    lxTrip s m c (if c = 3 ∨ c = 4 then m + 4 * (d % 2) else 0)
  else if src < 320 then wdExpire s (src - 312) (1 + v.toNat % 3) (d % 16)
  else if src < 324 then
    let a := src - 320
    if d % 3 = 1 then auxKind (setAuxState s a axInloss) a 2 true else auxKind s a (1 + d % 3) true
  else if src = 324 then railNoPhase s i
  else if src = 325 then railLeave s i rsOff 4 4
  else if src = 326 then compChange s i 3 true
  else if src = 327 then gsSet s i true v.toNat
  else if src = 328 then (s.event HADC_EVT_REFFAIL i).setLevel 328 i 0 v true
  else if src = 329 then nodeShutdownAct s i v.toInt
  else if src = 330 then nodeShutdownAct s (72 + i) v.toInt
  else if src = 331 then nodeShutdownAct s 76 v.toInt
  else if src = 332 then nodeShutdownAct s 77 v.toInt
  else if src = 333 then breakSensor s i v.toInt
  else if src = 334 then
    ((((s.setFld SYS_DIELIM_SENS (d % 512)).setFlag SYS_DIELIM_ASSERT true).event SYS_DIELIM_TRIP).setLevel 334 0 (d % 512) 0 true).postCause
      2 modeShutdown
  else if src = 335 then (s.setFld SYS_DIELIM_SENS (1 <<< i)).event SYS_DIELIM_SINGLE
  else if src = 336 then fenceEngine s i 0xF
  else if src = 338 then freeze s i (1 + d % 10) (v.toNat % 65536)
  else if src = 341 then (List.range 4).foldl (fun s k => loseClock s (4 * i + k)) s
  else if src = 342 then drainPort ((s.setOverrun (i / 4) true).event IP_EVT_OVERRUN i) i
  else if src = 344 then ((s.setFlag BUD_PSTAT_OVERCOMMIT true i).setFbit BUD_EVT_OVERCOMMIT i true).setLevel 344 i 0 v true
  else if src = 345 then ((s.setFlag BUD_PSTAT_OVERLOAD true i).setFbit BUD_EVT_OVERLOAD i true).setLevel 345 i 0 v true
  else if src = 346 then ((setWindow s i 7).event CHG_EVT_NTCFLT).setLevel 346 i 6 0 true
  else if src = 347 then (if i = 0 then bStopNow s (4 + d % 2) else if i = 1 then hStopNow s (4 + d % 2) else aToReturn s (4 + d % 2))
  else if src = 348 then hStopNow s 7
  else if src = 349 then (aEnd (aReason s 13)).postFault 349 2 13 0
  else if src = 350 then aFall s
  else if src = 352 then hostFreeze s i (1 + d % 4) (v.toNat % 65536)
  else if src = 353 then
    if kind = 2 then stackPair s i else stackFault s i ([1, 2, 4].getD (d % 3) 1) (Word.bits v 23 16) (Word.bits v 15 8)
  else if src = 359 then scanFreeze s v.toNat
  else if src = 360 then (s.setStopped i true).setLevel 360 i 0 0 true
  else if src = 361 then (s.event CLK_STAT_XTALFAIL).setFlag CLK_STAT_CORELOCK false
  else if src = 362 then pdSwitch s i
  else if src = 363 then shutdownDeadline s
  else if 364 ≤ src ∧ src ≤ 366 then (s.setFlag (hkrOk (src - 364)) false).setLevel src 0 d 0 true
  else if src = 367 then s.event OTP_EVT_CRIT
  else if src = 369 then wdClockTrip s i
  else if src = 371 then epMism s
  else s

/-- The assertion of `f`'s source that the unit has posted since the first `old`, and the state without it; else `f` itself. -/
def takeLast (s : State) (old : Nat) (f : FaultPost) : State × FaultPost :=
  match (s.flt.due.drop old).find? (fun g => g.src == f.src) with
  | some g => ({ s with flt := { s.flt with due := s.flt.due.take old ++ (s.flt.due.drop old).erase g } }, g)
  | none => (s, f)

/-- INJECTION_FIRE (R363, R364): the armed injection of a source fires. With record only, nothing but the sticky bit, the time
and the data is touched. -/
def injectFire (s : State) (src kind i : Nat) (recOnly : Bool) : State :=
  let (s, f) := injectPost s src i
  if recOnly then s.injectRecord f
  else
    let u := { s with flt := { s.flt with armed := none } }
    let (t, f) := takeLast (injectUnit u src kind i f.detail f.data1) s.flt.due.length f
    faultEval (t.injectShown f) f true

/-- FAULT_ASSERTION (R350): FLT evaluates the oldest assertion due of source `src` and instance `inst`, an injected one first; where
none is due and an injection of them is armed whose detector makes an evaluation, the injection fires. A consumer of a delivered
OTP pair that finds it failed has no other command (R405): with nothing due, source 367 asserts for the field. -/
def faultAssertion (s : State) (src inst : Nat) : State :=
  if srcAbsent s src then s
  else match s.flt.injDue.find? (fun f => f.src == src && f.inst == inst) with
  | some f => faultEval { s with flt := { s.flt with injDue := s.flt.injDue.erase f } } f true
  | none =>
    match s.flt.due.find? (fun f => f.src == src && f.inst == inst) with
    | some _ => evalDue s src inst
    | none =>
      match s.injects src inst with
      | some recOnly =>
        if !injectsItem src && injectEvaluates s src inst then injectFire s src ((s.flt.armed.map (fun x => x.2.1)).getD 0) inst recOnly
        else s
      | none => if src = 367 ∧ s.powered 1 then evalDue (otpPairFail s inst) src inst else s
def execFaultAssertion (src : Fin 416) (inst : Fin 65536) (s : State) : Out := s.on 0 (faultAssertion s src inst)

end Sys2Proof.Machine
end

