-- ==== Sys2Proof/Machine/IsaCoord.lean ====
section
/-! DEFINITION. The coordination instructions of the engines (R211–R217). -/
namespace Sys2Proof.Machine

/-- An instruction that leaves at retire or is held, after a check that gives its freeze cause. -/
def coordRun (s : State) (e : Nat) (stop : Option Nat) (x : Nat → Effect) : State :=
  engRun s e 1 (fun s pc => match stop with
    | some c => .stop c 0
    | none => holdOrIssue s e (pc + 1) (x pc))

/-- SIG: a program number above 47 is undefined, and one whose engine is absent freezes ABSENT. -/
def execSig (e : Fin 48) (prog : Fin 64) (n : Fin 16) (s : State) : Out :=
  .next (coordRun s e (if 48 ≤ prog.val then some 7 else if s.engPresent prog then none else some 2) (fun _ => .sig prog n))

/-- MODE, form REQ: SDEND is zero for a target other than SHUTDOWN. -/
def execMode (e : Fin 48) (target : Fin 16) (sdend : Fin 4) (s : State) : Out :=
  .next (coordRun s e (if sdend.val ≠ 0 ∧ target.val ≠ modeShutdown then some 7 else none) (fun _ => .modeReq target sdend))
/-- MODE RESUME. -/
def execModeResume (e : Fin 48) (s : State) : Out := .next (coordRun s e none (fun _ => .modeResume))
/-- MODE PASS. -/
def execModePass (e : Fin 48) (s : State) : Out := .next (coordRun s e none (fun _ => .modePass))

/-- The freeze cause of a FENCE (R214). -/
def fenceDeny (s : State) (e kind i : Nat) : Option Nat :=
  let p := progOf s e
  match kind with
  | 0 => if s.railPresent i then (if ownsRail s p i then none else some 1) else some 2
  | 1 => if 4 ≤ i then some 7 else if wrBit s p 12 then none else some 5
  | 2 => if 4 ≤ i then some 7 else if wrBit s p 14 then none else some 5
  | _ => some 7

/-- FENCE. -/
def execFence (e : Fin 48) (kind : Fin 4) (index : Fin 32) (s : State) : Out :=
  .next (coordRun s e (fenceDeny s e kind index) (fun _ => .fence kind index))

/-- LOG: Ga, and Gb when TWO = 1. -/
def execLog (e : Fin 48) (code : Fin 65536) (a : Fin 16) (b : Option (Fin 16)) (s : State) : Out :=
  .next (coordRun s e none (fun pc => .log code (s.g e a) (match b with | some g => s.g e g | none => 0) pc))

/-- CKPT: NOP in a clause with CLCKPT set; without PD10 there is no slot to copy to. -/
def execCkpt (e : Fin 48) (s : State) : Out :=
  .next (engRun s e 1 (fun s pc =>
    if inClause s e then .done (s.setFlag ENG_FLAGS_CLCKPT true e) (pc + 1)
    else if s.powered 10 then .copy s else .done s (pc + 1)))

/-- INTENT: the beat and its answer, or held with Gd = 0 and Z = 0 in a clause. -/
def execIntent (e : Fin 48) (d port : Fin 16) (code scale : Fin 64) (s : State) : Out :=
  .next (engRun s e 1 (fun s pc =>
    if !intentRight s e port then .stop 6 0
    else if inClause s e then
      match holdOrIssue s e (pc + 1) (.intent port code scale) with
      | .done t next => .done ((t.setG e d 0).setFlag ENG_FLAGS_Z false e) next
      | r => r
    else if mustWait s e then .stall
    else
      let (t, a) := intentBeat s port code scale
      .done ((t.setG e d (wordOf a)).setFlag ENG_FLAGS_Z (a == 1) e) (pc + 1)))

/-- OUT: it needs the SUP bit of WRMASK; an output above 7 is undefined. -/
def execOut (e : Fin 48) (n : Fin 16) (level : Bool) (s : State) : Out :=
  .next (coordRun s e (if 8 ≤ n.val then some 7 else if wrBit s (progOf s e) 9 then none else some 5) (fun _ => .out n level))

/-- KICK: at once, even in a clause, and suppressed in REPLAY (R217, R218). -/
def execKick (e : Fin 48) (wd : Fin 8) (slot : Fin 16) (s : State) : Out :=
  .next (engSimple s e 1 (fun s => if s.flag ENG_STAT_REPLAY e then s else wdCheckin s wd slot (progOf s e)))

end Sys2Proof.Machine
end

