-- ==== Sys2Proof/Machine/IsaData.lean ====
section
/-! DEFINITION. The data instructions of the engines (R193–R195). -/
namespace Sys2Proof.Machine

/-- A two-operand data instruction. -/
def aluRun (s : State) (e d : Nat) (a : Alu) : Out := .next (engSimple s e 1 (fun s => setAlu s e d a))

/-- MOV. -/
def execMov (e : Fin 48) (d a : Fin 16) (s : State) : Out := .next (engSimple s e 1 (fun s => s.setG e d (s.g e a)))
/-- MOVI. -/
def execMovi (e : Fin 48) (d : Fin 16) (imm : BitVec 22) (s : State) : Out :=
  .next (engSimple s e 1 (fun s => s.setG e d (imm.signExtend 32)))
/-- MOVH: IMM[21:16] must be zero (R188). -/
def execMovh (e : Fin 48) (d : Fin 16) (imm : BitVec 22) (s : State) : Out :=
  .next (engRun s e 1 (fun s pc =>
    if 65536 ≤ imm.toNat then .stop 7 0 else .done (s.setG e d (Word.setBits (s.g e d) 31 16 imm.toNat)) (pc + 1)))

/-- ADD, SUB, MUL, MULH. -/
def execAdd (e : Fin 48) (d a b : Fin 16) (s : State) : Out := aluRun s e d (aluAdd (s.g e a) (s.g e b))
def execAddi (e : Fin 48) (d a : Fin 16) (imm : BitVec 18) (s : State) : Out :=
  aluRun s e d (aluAdd (s.g e a) (imm.signExtend 32))
def execSub (e : Fin 48) (d a b : Fin 16) (s : State) : Out := aluRun s e d (aluSub (s.g e a) (s.g e b))
def execMul (e : Fin 48) (d a b : Fin 16) (s : State) : Out := aluRun s e d (aluMul (s.g e a) (s.g e b))
def execMulh (e : Fin 48) (d a b : Fin 16) (s : State) : Out := aluRun s e d (aluMulh (s.g e a) (s.g e b))

/-- AND, OR, XOR, NOT. -/
def execAndd (e : Fin 48) (d a b : Fin 16) (s : State) : Out := aluRun s e d (aluLogic (s.g e a &&& s.g e b))
def execOrr (e : Fin 48) (d a b : Fin 16) (s : State) : Out := aluRun s e d (aluLogic (s.g e a ||| s.g e b))
def execXorr (e : Fin 48) (d a b : Fin 16) (s : State) : Out := aluRun s e d (aluLogic (s.g e a ^^^ s.g e b))
def execNott (e : Fin 48) (d a : Fin 16) (s : State) : Out := aluRun s e d (aluLogic (~~~s.g e a))

/-- SHL, SHR, SAR. -/
def execShl (e : Fin 48) (d a : Fin 16) (n : ShiftCount) (s : State) : Out :=
  aluRun s e d (aluShl (s.g e a) (shiftCount s e n))
def execShr (e : Fin 48) (d a : Fin 16) (n : ShiftCount) (s : State) : Out :=
  aluRun s e d (aluShr (s.g e a) (shiftCount s e n))
def execSar (e : Fin 48) (d a : Fin 16) (n : ShiftCount) (s : State) : Out :=
  aluRun s e d (aluSar (s.g e a) (shiftCount s e n))

/-- CMP, CMPI. -/
def execCmp (e : Fin 48) (a b : Fin 16) (s : State) : Out :=
  .next (engSimple s e 1 (fun s => setAluFlags s e (aluSub (s.g e a) (s.g e b))))
def execCmpi (e : Fin 48) (a : Fin 16) (imm : BitVec 18) (s : State) : Out :=
  .next (engSimple s e 1 (fun s => setAluFlags s e (aluSub (s.g e a) (imm.signExtend 32))))

/-- MIN, MAX. -/
def execMinn (e : Fin 48) (d a b : Fin 16) (s : State) : Out := aluRun s e d (aluMin (s.g e a) (s.g e b))
def execMaxx (e : Fin 48) (d a b : Fin 16) (s : State) : Out := aluRun s e d (aluMax (s.g e a) (s.g e b))

/-- SAT to N + 1 bits; N above 31 is undefined. -/
def execSat (e : Fin 48) (d a : Fin 16) (n : Fin 64) (s : State) : Out :=
  .next (engRun s e 1 (fun s pc =>
    if 32 ≤ n.val then .stop 7 0 else .done (setAlu s e d (aluSat (s.g e a) (n + 1))) (pc + 1)))

/-! ## Memory (R194, R195) -/

/-- Ga + IMM as a data or word address. -/
def immAddr (s : State) (e a : Nat) (imm : BitVec 18) : Nat := (s.g e a + imm.signExtend 32).toNat

/-- LD. -/
def execLd (e : Fin 48) (d a : Fin 16) (imm : BitVec 18) (s : State) : Out :=
  .next (engRun s e 1 (fun s pc =>
    let x := immAddr s e a imm
    match dataWord (progOf s e) x with
    | none => .stop 4 x
    | some w =>
      let (t, v, _) := s.readRam 1 w
      .done (t.setG e d v) (pc + 1)))

/-- A store to the program's private window: the line counts as written since the last CKPT (R181). -/
def storePrivate (s : State) (w : Nat) (v : Word) : State := ((s.writeRam 1 w v).1).markWritten w

/-- ST: to the private window at once, to the shared region held in a clause. -/
def execSt (e : Fin 48) (d a : Fin 16) (imm : BitVec 18) (s : State) : Out :=
  .next (engRun s e 1 (fun s pc =>
    let x := immAddr s e a imm
    let v := s.g e d
    match dataWord (progOf s e) x with
    | none => .stop 4 x
    | some w =>
      if 0x1000 ≤ w then .done (storePrivate s w v) (pc + 1)
      else holdOrIssue s e (pc + 1) (.stShared w v)))

/-- LDX's read transfer as it returns (R16, R17, R24): the word's value with its status, or, where a hop finds the pair mismatched,
PAIRERR with a value that the spec leaves open (assumption log entry 127). -/
def readTransfer (s : State) (e x : Nat) : State × Word × Status :=
  let (s, t) := armSend s e x 0 .read none
  match (s.eng e).badRead with
  | some h =>
    let s := s.setEng e { s.eng e with badRead := none }
    let (v, u) := (armPair s h t.master t.addr).free
    (u, v, .pairerr)
  | none => readWord s t.master t.addr

/-- LDX: it waits behind the engine's own transfers (R18, R30, R195). -/
def execLdx (e : Fin 48) (d a : Fin 16) (imm : BitVec 18) (s : State) : Out :=
  .next (engRun s e 1 (fun s pc =>
    let x := immAddr s e a imm % 65536
    if mustWait s e then .stall
    else
      let (t, v, st) := readTransfer s e x
      .done (setFlags (t.setG e d v) e (v == 0) v.msb false (st != .ok)) (pc + 1)))

/-- STX: posted at retire in the engine's queue of four, or held in a clause (R18, R168, R195). -/
def execStx (e : Fin 48) (d a : Fin 16) (imm : BitVec 18) (s : State) : Out :=
  .next (engRun s e 1 (fun s pc =>
    let x := immAddr s e a imm % 65536
    if stxAllowed s e x then holdOrIssue s e (pc + 1) (.stx x (s.g e d)) else .stop 5 x))

end Sys2Proof.Machine
end

