-- ==== Sys2Proof/Machine/IsaRail.lean ====
section
/-! DEFINITION. The rail effects, the telemetry reads and the budget instructions of the engines (R204–R209). -/
namespace Sys2Proof.Machine

/-! ## Rail effects (R204–R207) -/

/-- ENR. -/
def execEnr (e : Fin 48) (n : Fin 32) (s : State) : Out := .next (railPlain s e n (.enr n))
/-- DISR. -/
def execDisr (e : Fin 48) (n : Fin 32) (s : State) : Out := .next (railPlain s e n (.disr n))

/-- SETV: in a clause, the clause pre-bias of R177. -/
def execSetv (e : Fin 48) (n : Fin 32) (t : RegWord) (rate : Fin 65536) (s : State) : Out :=
  .next (engRun s e (regWordWords t) (fun s pc =>
    let v := (regWordValue s e t).toNat
    match railDeny s e n true with
    | some c => .stop c 0
    | none =>
      if inClause s e then clauseNext s (clauseSetv s e n v rate) e (pc + regWordWords t)
      else holdOrIssue s e (pc + regWordWords t) (.setv n v rate)))

/-- SETI. -/
def execSeti (e : Fin 48) (n : Fin 32) (v : Src) (s : State) : Out := .next (railWithValue s e n v (.railField n 0x19))
/-- SETF. -/
def execSetf (e : Fin 48) (n : Fin 32) (v : Src) (s : State) : Out := .next (railWithValue s e n v (.railField n 0x0D))

/-- PHASE ARM: clause arming, and NOP outside a clause. -/
def execPhaseArm (e : Fin 48) (n : Fin 32) (v : Src) (s : State) : Out :=
  .next (engRun s e (srcWords v) (fun s pc =>
    match srcValue s e v with
    | none => .stop 7 0
    | some w => match railDeny s e n false with
      | some c => .stop c 0
      | none =>
        if inClause s e then clauseNext s (clauseArm s e n w.toNat) e (pc + srcWords v) else .done s (pc + srcWords v)))

/-- PHASE MAP, UNFENCE, TH, DLY, BAL, LPH. -/
def execPhaseMap (e : Fin 48) (n : Fin 32) (v : Src) (s : State) : Out := .next (railWithValue s e n v (.railField n 0x10))
def execPhaseUnfence (e : Fin 48) (n : Fin 32) (v : Src) (s : State) : Out := .next (railWithValue s e n v (.unfence n))
def execPhaseTh (e : Fin 48) (n : Fin 32) (v : Src) (s : State) : Out := .next (railWithValue s e n v (.railField n 0x11))
def execPhaseDly (e : Fin 48) (n : Fin 32) (v : Src) (s : State) : Out := .next (railWithValue s e n v (.railField n 0x12))
def execPhaseBal (e : Fin 48) (n : Fin 32) (v : Src) (s : State) : Out := .next (railWithValue s e n v (.railField n 0x13))
def execPhaseLph (e : Fin 48) (n : Fin 32) (v : Src) (s : State) : Out := .next (railWithValue s e n v (.railField n 0x0E))

/-- HICC. -/
def execHicc (e : Fin 48) (n : Fin 32) (v : Src) (s : State) : Out := .next (railWithValue s e n v (.railField n 0x1B))

/-- BOUND: kinds 6 and 7 are undefined. -/
def execBound (e : Fin 48) (n : Fin 32) (kind : Fin 8) (v : Src) (s : State) : Out :=
  .next (if 6 ≤ kind.val then engRun s e (srcWords v) (fun _ _ => .stop 7 0)
    else railWithValue s e n v (.railField n (0x1D + kind)))

/-- The ratio of TRACK: SRC = 0b00 gives 0x4000 (R191, R206). -/
def trackRatio (s : State) (e : Nat) : Src → Option Word
  | .imm _ => some 0x4000
  | v => srcValue s e v

/-- TRACK: modes 3–7 and leaders 32–62 are undefined; a leader must be present. -/
def execTrack (e : Fin 48) (n : Fin 32) (leader : Fin 64) (mode : Fin 8) (ratio : Src) (s : State) : Out :=
  .next (engRun s e (srcWords ratio) (fun s pc =>
    match trackRatio s e ratio with
    | none => .stop 7 0
    | some r =>
      if 3 ≤ mode.val ∨ (32 ≤ leader.val ∧ leader.val < 63) then .stop 7 0
      else match railDeny s e n true with
        | some c => .stop c 0
        | none =>
          if leader.val < 32 ∧ s.railPresent leader = false then .stop 2 0
          else holdOrIssue s e (pc + srcWords ratio) (.track n leader mode (r.toNat % 65536))))

/-! ## Telemetry (R208) -/

/-- The freeze cause of a channel that a program may not name. -/
def telDeny (s : State) (kind idx : Nat) (raw : Bool) : Option Nat :=
  match telCheck s kind idx raw with
  | .ok => none
  | .noaddr => some 2
  | _ => some 7

/-- A telemetry reading in Gd with its flags. -/
def setTelRead (s : State) (e d : Nat) (r : TelRead) : State :=
  let w := wordOfInt r.value
  setFlags (s.setG e d w) e (w == 0) w.msb r.subj r.pdoff

/-- TEL. -/
def execTel (e : Fin 48) (d : Fin 16) (kind idx : Fin 64) (raw : Bool) (s : State) : Out :=
  .next (engRun s e 1 (fun s pc =>
    match telDeny s kind idx raw with
    | some c => .stop c 0
    | none => .done (setTelRead s e d (telRead s kind idx raw false)) (pc + 1)))

/-- TELC: the committed peak, cleared by the read. -/
def execTelc (e : Fin 48) (d : Fin 16) (kind idx : Fin 64) (s : State) : Out :=
  .next (engRun s e 1 (fun s pc =>
    match telDeny s kind idx false with
    | some c => .stop c 0
    | none =>
      let r := telRead s kind idx false true
      let t := setTelRead s e d r
      .done (if r.pdoff then t else telClearPeak t kind idx) (pc + 1)))

/-! ## Budget (R209, R222) -/

/-- Program `p` may ask pool `k` for `level` (R222); judged where PD4 holds the rights. -/
def budgetRight (s : State) (p k level : Nat) : Bool :=
  !s.powered 4 || (s.fbit BUD_RIGHT_MASK k p && decide (level ≤ 16 * s.fld BUD_RIGHT_MAX p))

/-- A budget instruction after its checks: SRC 0b11 and a value beyond 20 bits are ILLEGAL, a level beyond the right BUDGET. -/
def budgetRun (s : State) (e k : Nat) (v : Src) (body : State → Nat → Nat → Retire) : State :=
  engRun s e (srcWords v) (fun s pc =>
    match srcValue s e v with
    | none => .stop 7 0
    | some w =>
      if 2 ^ 20 ≤ w.toNat then .stop 7 0
      else if budgetRight s (progOf s e) k w.toNat then body s w.toNat (pc + srcWords v)
      else .stop 9 0)

/-- The increase of a BREQ in a clause: a subjunctive reservation over the claim's level before the clause (R222). -/
def budgetReserve (s : State) (p k level : Nat) : State :=
  let c := s.progClaim p k
  let c := if c.inClause then c else { c with inClause := true, base := c.level }
  if s.powered 4 then s.setProgClaim p k (c.request level s.tbase) else s

/-- BREQ: in a clause an increase is a reservation, and a lower level is held. -/
def execBreq (e : Fin 48) (pool : Fin 8) (v : Src) (s : State) : Out :=
  .next (budgetRun s e pool v (fun s level next =>
    let p := progOf s e
    if inClause s e then
      if level < (s.progClaim p pool).level then holdOrIssue s e next (.breqLower pool level)
      else .done (budgetReserve s p pool level) next
    else issueOrStall s e next (.breqLower pool level)))

/-- BREL. -/
def execBrel (e : Fin 48) (pool : Fin 8) (v : Src) (s : State) : Out :=
  .next (budgetRun s e pool v (fun s level next => holdOrIssue s e next (.brel pool level)))

end Sys2Proof.Machine
end

