-- ==== Sys2Proof/Machine/Scan.lean ====
section
/-! DEFINITION. The course and the end of a scan job (R377–R379), the crossing timeouts (R383), and the measured use of the pools (R231). -/
namespace Sys2Proof.Machine

/-! ## Scan jobs -/

/-- One word of the register space: zero where it is reserved or unpowered. -/
def scanWord (job : ScanJob) (x : State × ScanAcc) (a : Nat) : State × ScanAcc :=
  let (s, w, st) := readWord x.1 masterScan a
  (s, { x.2 with crc := crcFeed job.kind x.2.crc (wordNats (if st = .noaddr ∨ st = .pdoff then 0 else w)) })

/-- The next `k` lines, or words of space 6, of the job. -/
def jobNext (job : ScanJob) (k : Nat) : List Nat :=
  if job.space = 6 then (List.range (min k (job.len - job.passed))).map (job.word + job.passed + ·)
  else ((jobLines job).drop job.passed).take k

/-- One line or word of the job (R379). -/
def jobItem (job : ScanJob) (x : State × ScanAcc) (i : Nat) : State × ScanAcc :=
  if job.space = 6 then scanWord job x i else jobLine job x i

/-- The job over its next `k` lines or words, as they stand (R379): a FILL stops at a line of a live bank. -/
def scanRun (s : State) (job : ScanJob) (k : Nat) : State × ScanAcc :=
  ((jobNext job k).takeWhile (fun i => !fillStops s job i)).foldl (jobItem job) (s, job.acc)

/-- The job goes on over `k` lines or words (R379): SJPOS follows, and a live bank ends it. -/
def scanAdvance (s : State) (k : Nat) : State :=
  match s.chk.job with
  | none => s
  | some job =>
    let l := jobNext job k
    let n := (l.takeWhile (fun i => !fillStops s job i)).length
    let (t, x) := scanRun s job k
    if n < l.length then jobAborted t job (job.passed + n) x
    else
      let t := (showAcc t x).setFld CHK_SJPOS_WORD (jobPos job (job.passed + n))
      { t with chk := { t.chk with job := some { job with passed := job.passed + n, acc := x } } }

/-- A microsecond of a job (R379): 50 lines, or 25 words of space 6, at 200 core cycles. -/
def scanUs (s : State) : State :=
  if s.powered 10 && s.flag CLK_STAT_CORELOCK then
    match s.chk.job with
    | none => s
    | some job => scanAdvance s (if job.space = 6 then 25 else 50)
  else s

/-- The end of a job that has passed its range: DONE with the result judged (R379); an armed injection inverts the CRC that is compared
(R361). -/
def scanDone (s : State) : State :=
  match s.chk.job with
  | none => s
  | some job =>
    let t := { s with chk := { s.chk with job := none } }
    let crc := crcFinal job.kind job.acc.crc
    let t := if job.jkind ≤ 1 then t.setReg CHK_SJRES (wordOf crc) else t
    let good := !job.acc.ue && wordOf crc == t.reg CHK_SJEXP && t.injects 358 0 != some false
    let t := if job.jkind = 1 then
        let u := t.injectItem ⟨358, 0, job.space, wordOf job.word⟩ id
        (if good then u.setFlag CHK_SJSTAT_RESULT true else t.injectTake (u.postFault 358 0 job.space (wordOf job.word)) 358 0)
      else t
    (t.setFld CHK_SJSTAT_STATE sjDone).event CHK_EVT_JOBEND

/-- SCAN_JOB_END (R379): what is left of the range is read, or filled, and the job ends. -/
def scanEnd (s : State) : State :=
  match s.chk.job with
  | none => s
  | some job => scanDone (scanAdvance s job.len)
def execScanJobEnd (s : State) : Out := s.on 10 (scanEnd s)

/-! ## Crossings (R382, R383) -/

/-- The unit whose crossing `x` reports CLK_XSTOP stands powered and present. -/
def crossingLive (s : State) (x : Nat) : Bool :=
  if x < 36 then s.railPresent (x - 4) && s.powered (railDomain (x - 4))
  else if x < 40 then s.powered 9
  else if x < 144 then s.railPresent (x - 112) && s.powered 6
  else if x < 146 then s.powered 6
  else true

/-- A host port's clock stops in a frame (R325): the frame is discarded with FRAMEERR. -/
def hostClockStop (s : State) (p : Nat) : State :=
  let s := frameStart s p false
  let ver := hostVer s p
  let (d, s) := s.free
  setResp (hostDiscard (s.setStopped (146 + p) true) p 0) p ver .frameerr 0 0 (Word.bits d 3 0)

/-- CROSSING_TIMEOUT (R383): crossing `x` enters TIMEOUT and reports in its own way. -/
def crossingTimeout (s : State) (x : Nat) : State :=
  if x < 4 then (if s.powered 4 then iclkStop s x else s)
  else if 40 ≤ x ∧ x < 112 then
    let l := x - 40
    if (l < 64 ∧ s.phPresent l = false) ∨ s.powered (linkDomain l) = false then s else anyLinkLost (s.setStopped x true) l
  else if x = 146 ∨ x = 147 then (if s.powered 7 then hostClockStop s (x - 146) else s)
  else if crossingLive s x && !s.stopped x then ((holdCrossing s x).setStopped x true).setLevel 360 x 0 0 true
  else s
def execCrossingTimeout (x : Fin 149) (s : State) : Out := .next (crossingTimeout s x)

/-! ## Measured use (R231) -/

/-- The pool of rail `n` in BUD_RLPOOL. -/
def railPool (s : State) (n : Nat) : Nat := Word.bits (s.reg BUD_RLPOOL (n / 8)) (4 * (n % 8) + 3) (4 * (n % 8))

/-- The power that hardware consumer `c` draws, in mW (R221, R231): a module's, a charge path's from its live voltage and current,
the assist port's with BATM's, and an AUX regulator's as `aux` gives it (assumption log entry 105). -/
def consumerPower (s : State) (aux : List Nat) (c : Nat) : Int :=
  let watts (v i : Int) : Int := max 0 (divTrunc (v * i) 1000000)
  if c < 4 then (s.sfld LXM_PWR_P c).natAbs
  else if c = 4 then watts (s.sfld CHG_VBAT_V) (s.sfld CHG_IBAT_I) + watts (s.sfld CHG_VAS_V) (s.sfld CHG_IAS_I)
  else if c = 5 then watts (s.sfld CHG_VHB_V) (s.sfld CHG_IHB_I)
  else (aux.getD (c - 6) 0 : Nat)

/-- MEAS of pool `k` in mW, with the cascade to the depth `fuel`. -/
def poolMeas (s : State) (aux : List Nat) : Nat → Nat → Int
  | 0, _ => 0
  | fuel + 1, k =>
    (List.range 32).foldl (fun a n => if s.railPresent n && railPool s n == k then a + (s.tel 2 n).value else a) 0
      + (List.range 10).foldl (fun a c => if s.fld BUD_HWREQ_POOL c = k then a + consumerPower s aux c else a) 0
      + (List.range 8).foldl (fun a j => if poolParent s j = some k then a + poolMeas s aux fuel j else a) 0

/-- The refresh of pool `k`: MEAS, and OVERLOAD clears while MEAS does not exceed CAPEFF × 250 mW. -/
def refreshMeas (s t : State) (aux : List Nat) (k : Nat) : State :=
  let m := (clampInt (poolMeas s aux 4 k) 0 0xFFFFFFFF).toNat
  let t := t.setFld BUD_PMEAS_MEAS m k
  if m ≤ poolCapEff s k * 250 then (t.setFlag BUD_PSTAT_OVERLOAD false k).setLevel 345 k 0 0 false else t

/-- MEASURED_USE_REFRESH (R231): `aux` gives the present powers of AUX0–AUX3 in mW. -/
def execMeasuredUseRefresh (aux : List Nat) (s : State) : Out :=
  s.on 4 ((List.range 8).foldl (fun t k => refreshMeas s t aux k) s)

end Sys2Proof.Machine
end

