-- ==== Sys2Proof/Machine/Tap.lean ====
section
/-! DEFINITION. The test port (R453). -/
namespace Sys2Proof.Machine

/-! ## The balls of the boundary chain (R451, R453) -/

/-- A digital ball of the IO33, plinth IO or intent group classes, or ASSIST_EN (R446, R448, R451): those with a boundary cell. The five balls
of the test port itself have none (assumption log entry 171). -/
inductive Ball where
  | rsto (j : Fin 8)
  | int (t : Fin 2)
  | nmi (t : Fin 2)
  | errp
  | errn
  | errin
  /-- HSCKp, HCSp_N, HSDIp, HSDOp. -/
  | hspi (p : Fin 2) (k : Fin 4)
  /-- SVC_SCL, SVC_SDA. -/
  | svc (k : Fin 2)
  /-- QSCK, QCS_N, QIO0–QIO3. -/
  | qspi (k : Fin 6)
  | tref
  | ireq (q : Fin 16)
  | icode (q : Fin 16) (b : Fin 6)
  | iack (q : Fin 16) (b : Fin 2)
  | iclk (g : Fin 4)
  | assistEn
  deriving DecidableEq, Repr

/-- The boundary chain, from the cell shifted out first: its order is the model's (assumption log entry 171). -/
def boundaryChain : List Ball :=
  (List.finRange 8).map .rsto ++ (List.finRange 2).map .int ++ (List.finRange 2).map .nmi ++ [.errp, .errn, .errin]
    ++ (List.finRange 2).flatMap (fun p => (List.finRange 4).map (.hspi p)) ++ (List.finRange 2).map .svc ++ (List.finRange 6).map .qspi
    ++ [.tref]
    ++ (List.finRange 16).flatMap (fun q => .ireq q :: (List.finRange 6).map (.icode q) ++ (List.finRange 2).map (.iack q))
    ++ (List.finRange 4).map .iclk ++ [.assistEn]

/-- What a ball's driver does. -/
inductive Drive where
  | undriven | low | high
  deriving DecidableEq, Repr

/-- A push-pull driver at a level. -/
def Drive.of (level : Bool) : Drive := if level then .high else .low

/-- The plinth IO is supplied: PD0 is powered, as it is in every mode but SHIP (R451). -/
def plinthSupplied (s : State) : Bool := s.cur != modeShip && !s.pins.preOff

/-- How the block drives a ball in its functions. In SHIP the plinth IO is undriven, so that the error pair reads equal (R289, R356,
R451); an open-drain output is driven low or not at all (R448); IACKn is driven while the port is not DISABLED (R129, R133). A host or flash
data line is driven by the transfer on it, which the model does not hold. -/
def ballDrive (s : State) : Ball → Drive
  | .rsto j => if plinthSupplied s && !s.flag RSTO_STAT_LEVEL j then .low else .undriven
  | .int t => if s.powered 7 then .of (!intLow s t) else .undriven
  | .nmi t => if s.powered 7 then .of (!nmiLow s t) else .undriven
  | .errp => if plinthSupplied s then .of (!s.flag FLT_STAT_EPSTATE) else .undriven
  | .errn => if plinthSupplied s then .of (s.flag FLT_STAT_EPSTATE) else .undriven
  | .iack q b => if s.powered 4 && s.fld IP_STAT_PSTATE q != psDisabled then .of ((s.port q).iack.testBit b) else .undriven
  | .assistEn => .of s.pins.assistEn
  | _ => .undriven

/-- The level at a ball, given what stands on it from outside; an undriven IACKn is pulled down (R446). -/
def ballLevel (s : State) (b : Ball) (outside : Bool) : Bool :=
  match ballDrive s b, b with
  | .low, _ => false
  | .high, _ => true
  | .undriven, .iack _ _ => false
  | .undriven, _ => outside

/-- The ball is an output, which EXTEST can drive (R448). -/
def Ball.drives : Ball → Bool
  | .errin | .tref | .ireq _ | .icode _ _ | .iclk _ => false
  | .hspi _ k => k == 3
  | _ => true

/-! ## The test port -/

/-- EXTEST may take control of the balls: SERVICE or PROVISION, every rail, AUX regulator and LX module OFF, and no assist
session. -/
def extestAllowed (s : State) : Bool :=
  (s.cur == modeService || s.cur == modeProvision)
    && (List.range 32).all (fun n => railState s n == rsOff)
    && (List.range 4).all (fun n => auxState s n == 0)
    && (List.range 4).all (fun m => lxState s m == lxOff)
    && !aActive s

/-- The boundary chain drives the balls. -/
def tapDrives (s : State) : Bool := !s.tap.reset && s.tap.instr == .extest && extestAllowed s

/-- The identity code: revision 0, PART, the manufacturer's code, which the spec does not give, and 1. -/
def idcodeWord (s : State) : Word :=
  wordOf (4096 * partCode s + 2 * Config.manufacturer.toNat + 1)

/-- The bits of a word, lowest first, as the test port shifts them out. -/
def wordBits (w : Word) : List Bool := (List.range 32).map (fun i => Word.bit w i)

/-- The bits of a chain image. -/
def chainBits (v : BitVec 181) : List Bool := (List.range 181).map v.getLsbD

/-- What the cells capture, given the levels from outside: an output that EXTEST drives shows its latch. -/
def captured (s : State) (levels : BitVec 181) : List Bool :=
  boundaryChain.zipIdx.map (fun x =>
    if tapDrives s && x.1.drives then s.tap.latch.getD x.2 false else ballLevel s x.1 (levels.getLsbD x.2))

/-- The port takes an instruction, with its data register's captured contents, unless TRST_N is low. -/
def tapLoad (s : State) (i : TapInstr) (dr : List Bool) : State :=
  if s.tap.trst then s else { s with tap := { s.tap with reset := false, instr := i, dr := dr } }

/-- The chain is selected by an instruction: its cells capture, and their latches take the bits shifted in. -/
def tapChain (s : State) (i : TapInstr) (levels shift : BitVec 181) : State :=
  let t := tapLoad s i (captured s levels)
  if s.tap.trst then t else { t with tap := { t.tap with latch := chainBits shift } }

/-- BYPASS: one bit, captured as 0. -/
def execBypass (s : State) : Out := s.on 7 (tapLoad s .bypass [false])

/-- IDCODE. -/
def execIdcode (s : State) : Out := s.on 7 (tapLoad s .idcode (wordBits (idcodeWord s)))

/-- SAMPLE/PRELOAD: the cells capture the levels at the balls, and their latches take the bits shifted in. -/
def execSamplePreload (levels shift : BitVec 181) (s : State) : Out := s.on 7 (tapChain s .samplePreload levels shift)

/-- EXTEST: the chain where the conditions hold, and otherwise the bypass register. -/
def execExtest (levels shift : BitVec 181) (s : State) : Out :=
  s.on 7 (if extestAllowed s then tapChain s .extest levels shift else tapLoad s .extest [false])

/-- TRST: TRST_N low holds the port in Test-Logic-Reset, powered or not; high lets it go. -/
def execTrst (low : Bool) (s : State) : Out :=
  .next (if low then { s with tap := { s.tap with trst := true, reset := true, instr := .idcode, dr := [] } } else { s with tap := { s.tap with trst := false } })

end Sys2Proof.Machine
end

