-- ==== Sys2Proof/Machine/Dispatch.lean ====
section
/-! DEFINITION. The dispatch of the commands: one arm per constructor of Instr, each one call of its meaning. -/
namespace Sys2Proof.Machine

/-- The effect of a command on everything but the queue. -/
def exec (i : Instr) (s : State) : Host.Outcome State Fault Refusal :=
  match i with
  | .armatureTransfer l bad => Sys2Proof.Machine.execArmatureTransfer l bad s
  | .registerWrite m a f => Sys2Proof.Machine.execRegisterWrite m a f s
  | .trefLoss => Sys2Proof.Machine.execTrefLoss s
  | .trefReturn => Sys2Proof.Machine.execTrefReturn s
  | .xtalLoss => Sys2Proof.Machine.execXtalLoss s
  | .pdSwitch d => Sys2Proof.Machine.execPdSwitch d s
  | .pdoptWrite pv w => Sys2Proof.Machine.execPdoptWrite pv w s
  | .inputSupplyLost prein => Sys2Proof.Machine.execInputSupplyLost prein s
  | .hostModeRequest p key target sdend => Sys2Proof.Machine.execHostModeRequest p key target sdend s
  | .modeArbitration => Sys2Proof.Machine.execModeArbitration s
  | .domainTierComplete => Sys2Proof.Machine.execDomainTierComplete s
  | .hourSecondElapsed => Sys2Proof.Machine.execHourSecondElapsed s
  | .hourClear m w => Sys2Proof.Machine.execHourClear m w s
  | .downSequenceEnd btn src => Sys2Proof.Machine.execDownSequenceEnd btn src s
  | .shutdownDeadline => Sys2Proof.Machine.execShutdownDeadline s
  | .rearmExpired => Sys2Proof.Machine.execRearmExpired s
  | .wakeDeadline => Sys2Proof.Machine.execWakeDeadline s
  | .latchWake btn src => Sys2Proof.Machine.execLatchWake btn src s
  | .pd0PowerUp => Sys2Proof.Machine.execPd0PowerUp s
  | .dormantWake btn src errin => Sys2Proof.Machine.execDormantWake btn src errin s
  | .wakeAlarm => Sys2Proof.Machine.execWakeAlarm s
  | .chipReset => Sys2Proof.Machine.execChipReset s
  | .plinthWake => Sys2Proof.Machine.execPlinthWake s
  | .coreSoftStartDone => Sys2Proof.Machine.execCoreSoftStartDone s
  | .corePllLock => Sys2Proof.Machine.execCorePllLock s
  | .otpLoad damage wires => Sys2Proof.Machine.execOtpLoad damage wires s
  | .timingPllLock onTref => Sys2Proof.Machine.execTimingPllLock onTref s
  | .selfTest fails => Sys2Proof.Machine.execSelfTest fails s
  | .imageLoad flashA flashB => Sys2Proof.Machine.execImageLoad flashA flashB s
  | .flashBusyTimeout => Sys2Proof.Machine.execFlashBusyTimeout s
  | .waithostExpired => Sys2Proof.Machine.execWaithostExpired s
  | .signatureVerification => Sys2Proof.Machine.execSignatureVerification s
  | .installation => Sys2Proof.Machine.execInstallation s
  | .bootLoaderCheckIn => Sys2Proof.Machine.execBootLoaderCheckIn s
  | .hostreq p key => Sys2Proof.Machine.execHostreq p key s
  | .bootdataWrite m w => Sys2Proof.Machine.execBootdataWrite m w s
  | .hostLoadTimeout => Sys2Proof.Machine.execHostLoadTimeout s
  | .qspiGo p w => Sys2Proof.Machine.execQspiGo p w s
  | .qspiCommandComplete data => Sys2Proof.Machine.execQspiCommandComplete data s
  | .failedStart => Sys2Proof.Machine.execFailedStart s
  | .failedStartRearmEnd => Sys2Proof.Machine.execFailedStartRearmEnd s
  | .failsClearTimer => Sys2Proof.Machine.execFailsClearTimer s
  | .bootcntClear w => Sys2Proof.Machine.execBootcntClear w s
  | .plinthStep => Sys2Proof.Machine.execPlinthStep s
  | .plinthWaitEnd => Sys2Proof.Machine.execPlinthWaitEnd s
  | .plinthCheckpgPass => Sys2Proof.Machine.execPlinthCheckpgPass s
  | .plinthCheckpgTimeout => Sys2Proof.Machine.execPlinthCheckpgTimeout s
  | .rlnEnWrite n en => Sys2Proof.Machine.execRlnEnWrite n en s
  | .vsetWrite m n v => Sys2Proof.Machine.execVsetWrite m n v s
  | .compApply n => Sys2Proof.Machine.execCompApply n s
  | .rlnUnfence n mask => Sys2Proof.Machine.execRlnUnfence n mask s
  | .loopUpdate n diffs => Sys2Proof.Machine.execLoopUpdate n diffs s
  | .switchingPeriod n => Sys2Proof.Machine.execSwitchingPeriod n s
  | .hiccupRestart n => Sys2Proof.Machine.execHiccupRestart n s
  | .retryClear n => Sys2Proof.Machine.execRetryClear n s
  | .phaseAdd n => Sys2Proof.Machine.execPhaseAdd n s
  | .phaseShed n => Sys2Proof.Machine.execPhaseShed n s
  | .phaseFence ph cause => Sys2Proof.Machine.execPhaseFence ph cause s
  | .railDrainEnd n => Sys2Proof.Machine.execRailDrainEnd n s
  | .downstreamFrame l b => Sys2Proof.Machine.execDownstreamFrame l b s
  | .upstreamFrame l frame codeOk ref => Sys2Proof.Machine.execUpstreamFrame l frame codeOk ref s
  | .errlimWindow l => Sys2Proof.Machine.execErrlimWindow l s
  | .commandResend l => Sys2Proof.Machine.execCommandResend l s
  | .autortRetrain l => Sys2Proof.Machine.execAutortRetrain l s
  | .trainingStart l => Sys2Proof.Machine.execTrainingStart l s
  | .orderedSet l o => Sys2Proof.Machine.execOrderedSet l o s
  | .trainingTimeout l => Sys2Proof.Machine.execTrainingTimeout l s
  | .trainingRetry l => Sys2Proof.Machine.execTrainingRetry l s
  | .linkEnWrite l en => Sys2Proof.Machine.execLinkEnWrite l en s
  | .linkDrainEnd l => Sys2Proof.Machine.execLinkDrainEnd l s
  | .pklimWrite l w => Sys2Proof.Machine.execPklimWrite l w s
  | .clrflt l => Sys2Proof.Machine.execClrflt l s
  | .retrain l => Sys2Proof.Machine.execRetrain l s
  | .phClrcnt l => Sys2Proof.Machine.execPhClrcnt l s
  | .requestBeat p c => Sys2Proof.Machine.execRequestBeat p c s
  | .releaseBeat p => Sys2Proof.Machine.execReleaseBeat p s
  | .idleBeat p => Sys2Proof.Machine.execIdleBeat p s
  | .ipEnWrite p => Sys2Proof.Machine.execIpEnWrite p s
  | .handshakeComplete p v2 => Sys2Proof.Machine.execHandshakeComplete p v2 s
  | .hsfail p => Sys2Proof.Machine.execHsfail p s
  | .portDrain p => Sys2Proof.Machine.execPortDrain p s
  | .grantVectorPublish g => Sys2Proof.Machine.execGrantVectorPublish g s
  | .bufferSwap g => Sys2Proof.Machine.execBufferSwap g s
  | .grantProcessing p => Sys2Proof.Machine.execGrantProcessing p s
  | .releaseProcessing p => Sys2Proof.Machine.execReleaseProcessing p s
  | .confirmWindowExpiry p => Sys2Proof.Machine.execConfirmWindowExpiry p s
  | .shedDelayExpiry n k => Sys2Proof.Machine.execShedDelayExpiry n k s
  | .bankChange p w => Sys2Proof.Machine.execBankChange p w s
  | .intentTableWrite idx v => Sys2Proof.Machine.execIntentTableWrite idx v s
  | .iclkStop g => Sys2Proof.Machine.execIclkStop g s
  | .iclkReturn g => Sys2Proof.Machine.execIclkReturn g s
  | .ipClrcnt p => Sys2Proof.Machine.execIpClrcnt p s
  | .vddipClassChange g mv => Sys2Proof.Machine.execVddipClassChange g mv s
  | .startCommand m e => Sys2Proof.Machine.execStartCommand m e s
  | .haltCommand m e => Sys2Proof.Machine.execHaltCommand m e s
  | .sigraise m e n => Sys2Proof.Machine.execSigraise m e n s
  | .engClrcnt m e => Sys2Proof.Machine.execEngClrcnt m e s
  | .migrate p e key => Sys2Proof.Machine.execMigrate p e key s
  | .restore p e key => Sys2Proof.Machine.execRestore p e key s
  | .unfreeze p e key => Sys2Proof.Machine.execUnfreeze p e key s
  | .mov e d a => Sys2Proof.Machine.execMov e d a s
  | .movi e d imm => Sys2Proof.Machine.execMovi e d imm s
  | .movh e d imm => Sys2Proof.Machine.execMovh e d imm s
  | .ld e d a imm => Sys2Proof.Machine.execLd e d a imm s
  | .st e d a imm => Sys2Proof.Machine.execSt e d a imm s
  | .ldx e d a imm => Sys2Proof.Machine.execLdx e d a imm s
  | .stx e d a imm => Sys2Proof.Machine.execStx e d a imm s
  | .add e d a b => Sys2Proof.Machine.execAdd e d a b s
  | .addi e d a imm => Sys2Proof.Machine.execAddi e d a imm s
  | .sub e d a b => Sys2Proof.Machine.execSub e d a b s
  | .mul e d a b => Sys2Proof.Machine.execMul e d a b s
  | .mulh e d a b => Sys2Proof.Machine.execMulh e d a b s
  | .andd e d a b => Sys2Proof.Machine.execAndd e d a b s
  | .orr e d a b => Sys2Proof.Machine.execOrr e d a b s
  | .xorr e d a b => Sys2Proof.Machine.execXorr e d a b s
  | .nott e d a => Sys2Proof.Machine.execNott e d a s
  | .shl e d a n => Sys2Proof.Machine.execShl e d a n s
  | .shr e d a n => Sys2Proof.Machine.execShr e d a n s
  | .sar e d a n => Sys2Proof.Machine.execSar e d a n s
  | .cmp e a b => Sys2Proof.Machine.execCmp e a b s
  | .cmpi e a imm => Sys2Proof.Machine.execCmpi e a imm s
  | .minn e d a b => Sys2Proof.Machine.execMinn e d a b s
  | .maxx e d a b => Sys2Proof.Machine.execMaxx e d a b s
  | .sat e d a n => Sys2Proof.Machine.execSat e d a n s
  | .j e t => Sys2Proof.Machine.execJ e t s
  | .jc e cond t => Sys2Proof.Machine.execJc e cond t s
  | .call e t => Sys2Proof.Machine.execCall e t s
  | .ret e => Sys2Proof.Machine.execRet e s
  | .loop e d t => Sys2Proof.Machine.execLoop e d t s
  | .nop e => Sys2Proof.Machine.execNop e s
  | .yield e => Sys2Proof.Machine.execYield e s
  | .halt e => Sys2Proof.Machine.execHalt e s
  | .wait e t => Sys2Proof.Machine.execWait e t s
  | .waitEnd e => Sys2Proof.Machine.execWaitEnd e s
  | .waitc e c timeout label => Sys2Proof.Machine.execWaitc e c timeout label s
  | .waitcSatisfied e => Sys2Proof.Machine.execWaitcSatisfied e s
  | .waitcTimeout e => Sys2Proof.Machine.execWaitcTimeout e s
  | .time e d h => Sys2Proof.Machine.execTime e d h s
  | .enr e n => Sys2Proof.Machine.execEnr e n s
  | .disr e n => Sys2Proof.Machine.execDisr e n s
  | .setv e n t rate => Sys2Proof.Machine.execSetv e n t rate s
  | .seti e n v => Sys2Proof.Machine.execSeti e n v s
  | .setf e n v => Sys2Proof.Machine.execSetf e n v s
  | .phaseArm e n v => Sys2Proof.Machine.execPhaseArm e n v s
  | .phaseMap e n v => Sys2Proof.Machine.execPhaseMap e n v s
  | .phaseUnfence e n v => Sys2Proof.Machine.execPhaseUnfence e n v s
  | .phaseTh e n v => Sys2Proof.Machine.execPhaseTh e n v s
  | .phaseDly e n v => Sys2Proof.Machine.execPhaseDly e n v s
  | .phaseBal e n v => Sys2Proof.Machine.execPhaseBal e n v s
  | .phaseLph e n v => Sys2Proof.Machine.execPhaseLph e n v s
  | .track e n leader mode ratio => Sys2Proof.Machine.execTrack e n leader mode ratio s
  | .hicc e n v => Sys2Proof.Machine.execHicc e n v s
  | .bound e n kind v => Sys2Proof.Machine.execBound e n kind v s
  | .check e c dwell timeout code chlim => Sys2Proof.Machine.execCheck e c dwell timeout code chlim s
  | .checkPass e => Sys2Proof.Machine.execCheckPass e s
  | .checkChatter e => Sys2Proof.Machine.execCheckChatter e s
  | .checkTimeout e => Sys2Proof.Machine.execCheckTimeout e s
  | .tel e d kind idx raw => Sys2Proof.Machine.execTel e d kind idx raw s
  | .telc e d kind idx => Sys2Proof.Machine.execTelc e d kind idx s
  | .breq e pool v => Sys2Proof.Machine.execBreq e pool v s
  | .brel e pool v => Sys2Proof.Machine.execBrel e pool v s
  | .subj e c window label => Sys2Proof.Machine.execSubj e c window label s
  | .revoke e => Sys2Proof.Machine.execRevoke e s
  | .clauseConfirm e => Sys2Proof.Machine.execClauseConfirm e s
  | .clauseWindowExpiry e => Sys2Proof.Machine.execClauseWindowExpiry e s
  | .clauseDisarm e => Sys2Proof.Machine.execClauseDisarm e s
  | .sig e prog n => Sys2Proof.Machine.execSig e prog n s
  | .signalDelivery => Sys2Proof.Machine.execSignalDelivery s
  | .sync e b timeout label => Sys2Proof.Machine.execSync e b timeout label s
  | .barrierCompletion b => Sys2Proof.Machine.execBarrierCompletion b s
  | .syncTimeout e => Sys2Proof.Machine.execSyncTimeout e s
  | .mode e target sdend => Sys2Proof.Machine.execMode e target sdend s
  | .modeResume e => Sys2Proof.Machine.execModeResume e s
  | .modePass e => Sys2Proof.Machine.execModePass e s
  | .fence e kind index => Sys2Proof.Machine.execFence e kind index s
  | .log e code a b => Sys2Proof.Machine.execLog e code a b s
  | .ckpt e => Sys2Proof.Machine.execCkpt e s
  | .checkpointComplete e => Sys2Proof.Machine.execCheckpointComplete e s
  | .intent e d port code scale => Sys2Proof.Machine.execIntent e d port code scale s
  | .out e n level => Sys2Proof.Machine.execOut e n level s
  | .kick e wd slot => Sys2Proof.Machine.execKick e wd slot s
  | .postedStatusReturn e => Sys2Proof.Machine.execPostedStatusReturn e s
  | .engineFence e pair => Sys2Proof.Machine.execEngineFence e pair s
  | .spareSelfCheckDone e pass => Sys2Proof.Machine.execSpareSelfCheckDone e pass s
  | .restoreComplete e => Sys2Proof.Machine.execRestoreComplete e s
  | .engineDrainEnd e => Sys2Proof.Machine.execEngineDrainEnd e s
  | .hwreqWrite c w => Sys2Proof.Machine.execHwreqWrite c w s
  | .preqWrite w => Sys2Proof.Machine.execPreqWrite w s
  | .capWrite k w => Sys2Proof.Machine.execCapWrite k w s
  | .almaxWrite n w => Sys2Proof.Machine.execAlmaxWrite n w s
  | .poolArbitration k => Sys2Proof.Machine.execPoolArbitration k s
  | .allowanceReductionComplete n => Sys2Proof.Machine.execAllowanceReductionComplete n s
  | .claimRefusal hw idx k => Sys2Proof.Machine.execClaimRefusal hw idx k s
  | .measuredUseRefresh ps => Sys2Proof.Machine.execMeasuredUseRefresh ps s
  | .overload k => Sys2Proof.Machine.execOverload k s
  | .pinnedEvent n q => Sys2Proof.Machine.execPinnedEvent n q s
  | .pinselClr => Sys2Proof.Machine.execPinselClr s
  | .lxEnWrite m en => Sys2Proof.Machine.execLxEnWrite m en s
  | .lxReconfigure m w => Sys2Proof.Machine.execLxReconfigure m w s
  | .vtgtWrite m v => Sys2Proof.Machine.execVtgtWrite m v s
  | .lxUpdate m => Sys2Proof.Machine.execLxUpdate m s
  | .lxRunReached m => Sys2Proof.Machine.execLxRunReached m s
  | .waitRecovery m => Sys2Proof.Machine.execWaitRecovery m s
  | .pcdone m => Sys2Proof.Machine.execPcdone m s
  | .prechargeTimeout m => Sys2Proof.Machine.execPrechargeTimeout m s
  | .lxUnfence m key => Sys2Proof.Machine.execLxUnfence m key s
  | .lxClrcnt m => Sys2Proof.Machine.execLxClrcnt m s
  | .lxDrainEnd m => Sys2Proof.Machine.execLxDrainEnd m s
  | .chgComputation vbat bsen vhb ihb vas vin3 rise => Sys2Proof.Machine.execChgComputation vbat bsen vhb ihb vas vin3 rise s
  | .benWrite en => Sys2Proof.Machine.execBenWrite en s
  | .henWrite en => Sys2Proof.Machine.execHenWrite en s
  | .auxchgWrite b => Sys2Proof.Machine.execAuxchgWrite b s
  | .chemWrite c => Sys2Proof.Machine.execChemWrite c s
  | .batteryPresence path => Sys2Proof.Machine.execBatteryPresence path s
  | .precondComplete path => Sys2Proof.Machine.execPrecondComplete path s
  | .cvEntry assist => Sys2Proof.Machine.execCvEntry assist s
  | .taperTermination assist => Sys2Proof.Machine.execTaperTermination assist s
  | .recharge path => Sys2Proof.Machine.execRecharge path s
  | .bathTermination v t => Sys2Proof.Machine.execBathTermination v t s
  | .bathOvp => Sys2Proof.Machine.execBathOvp s
  | .nosource path => Sys2Proof.Machine.execNosource path s
  | .safetyTimerSecond => Sys2Proof.Machine.execSafetyTimerSecond s
  | .temperatureWindowUpdate path uv => Sys2Proof.Machine.execTemperatureWindowUpdate path uv s
  | .ntcFaultEnd path => Sys2Proof.Machine.execNtcFaultEnd path s
  | .disconnectOpen => Sys2Proof.Machine.execDisconnectOpen s
  | .reconnection => Sys2Proof.Machine.execReconnection s
  | .matchRetry => Sys2Proof.Machine.execMatchRetry s
  | .clrstop => Sys2Proof.Machine.execClrstop s
  | .hclrstop => Sys2Proof.Machine.execHclrstop s
  | .chgClrcnt => Sys2Proof.Machine.execChgClrcnt s
  | .asstart => Sys2Proof.Machine.execAsstart s
  | .asstop => Sys2Proof.Machine.execAsstop s
  | .assistDetection => Sys2Proof.Machine.execAssistDetection s
  | .isolateComplete => Sys2Proof.Machine.execIsolateComplete s
  | .assistMatchComplete => Sys2Proof.Machine.execAssistMatchComplete s
  | .assistReturnComplete => Sys2Proof.Machine.execAssistReturnComplete s
  | .assistLimit => Sys2Proof.Machine.execAssistLimit s
  | .assistFallback => Sys2Proof.Machine.execAssistFallback s
  | .shipDisconnectOpen => Sys2Proof.Machine.execShipDisconnectOpen s
  | .comparatorTransition n q v => Sys2Proof.Machine.execComparatorTransition n q v s
  | .gsTransition k => Sys2Proof.Machine.execGsTransition k s
  | .resetOutputRelease j => Sys2Proof.Machine.execResetOutputRelease j s
  | .cntClr => Sys2Proof.Machine.execCntClr s
  | .telemetryWindowEnd c => Sys2Proof.Machine.execTelemetryWindowEnd c s
  | .teldataRead p => Sys2Proof.Machine.execTeldataRead p s
  | .scanTrigger c => Sys2Proof.Machine.execScanTrigger c s
  | .hadcGo c => Sys2Proof.Machine.execHadcGo c s
  | .hadcClrcnt c => Sys2Proof.Machine.execHadcClrcnt c s
  | .hadcConversion c uv lost => Sys2Proof.Machine.execHadcConversion c uv lost s
  | .hadcResultRead idx => Sys2Proof.Machine.execHadcResultRead idx s
  | .hadcEnWrite c en => Sys2Proof.Machine.execHadcEnWrite c en s
  | .auxEnWrite n en => Sys2Proof.Machine.execAuxEnWrite n en s
  | .auxCfgWrite n w => Sys2Proof.Machine.execAuxCfgWrite n w s
  | .auxSoftstartComplete n => Sys2Proof.Machine.execAuxSoftstartComplete n s
  | .auxInloss a => Sys2Proof.Machine.execAuxInloss a s
  | .auxInlossRecovery a => Sys2Proof.Machine.execAuxInlossRecovery a s
  | .auxOvercurrent a => Sys2Proof.Machine.execAuxOvercurrent a s
  | .auxOutputUv a => Sys2Proof.Machine.execAuxOutputUv a s
  | .auxPowerGood a => Sys2Proof.Machine.execAuxPowerGood a s
  | .auxUnfence n key => Sys2Proof.Machine.execAuxUnfence n key s
  | .hkrSupplyWindow k v => Sys2Proof.Machine.execHkrSupplyWindow k v s
  | .maquetteUpdate ts hkr => Sys2Proof.Machine.execMaquetteUpdate ts hkr s
  | .maquetteInitEnd => Sys2Proof.Machine.execMaquetteInitEnd s
  | .thmEnWrite en => Sys2Proof.Machine.execThmEnWrite en s
  | .clrbrk => Sys2Proof.Machine.execClrbrk s
  | .dieLimit sens => Sys2Proof.Machine.execDieLimit sens s
  | .dieSingleSensor t => Sys2Proof.Machine.execDieSingleSensor t s
  | .dieLimitRelease => Sys2Proof.Machine.execDieLimitRelease s
  | .hostNop p f => Sys2Proof.Machine.execHostNop p f s
  | .rd p f => Sys2Proof.Machine.execRd p f s
  | .wr p f => Sys2Proof.Machine.execWr p f s
  | .wrpv p f => Sys2Proof.Machine.execWrpv p f s
  | .wrpc p f => Sys2Proof.Machine.execWrpc p f s
  | .rdc p f => Sys2Proof.Machine.execRdc p f s
  | .rdclr p f => Sys2Proof.Machine.execRdclr p f s
  | .svcResponseRead ready => Sys2Proof.Machine.execSvcResponseRead ready s
  | .svcBusReset => Sys2Proof.Machine.execSvcBusReset s
  | .hostverWrite p act => Sys2Proof.Machine.execHostverWrite p act s
  | .unfrzWrite p key masters => Sys2Proof.Machine.execUnfrzWrite p key masters s
  | .hostClrcnt p => Sys2Proof.Machine.execHostClrcnt p s
  | .interruptRouting => Sys2Proof.Machine.execInterruptRouting s
  | .ack m t idx => Sys2Proof.Machine.execAck m t idx s
  | .eoi m t idx => Sys2Proof.Machine.execEoi m t idx s
  | .swiset w => Sys2Proof.Machine.execSwiset w s
  | .swiclr w => Sys2Proof.Machine.execSwiclr w s
  | .nmicntRead => Sys2Proof.Machine.execNmicntRead s
  | .stkerrClr => Sys2Proof.Machine.execStkerrClr s
  | .faultAssertion src inst => Sys2Proof.Machine.execFaultAssertion src inst s
  | .errin => Sys2Proof.Machine.execErrin s
  | .epclr key => Sys2Proof.Machine.execEpclr key s
  | .epClearEffect => Sys2Proof.Machine.execEpClearEffect s
  | .epmism => Sys2Proof.Machine.execEpmism s
  | .ffclr key => Sys2Proof.Machine.execFfclr key s
  | .injectionArm key => Sys2Proof.Machine.execInjectionArm key s
  | .injectionDisarm => Sys2Proof.Machine.execInjectionDisarm s
  | .injectionNofire => Sys2Proof.Machine.execInjectionNofire s
  | .scrubRead => Sys2Proof.Machine.execScrubRead s
  | .pairCheck a => Sys2Proof.Machine.execPairCheck a s
  | .splitPairTimeout a => Sys2Proof.Machine.execSplitPairTimeout a s
  | .crcClaim m u kind order => Sys2Proof.Machine.execCrcClaim m u kind order s
  | .crcRelease m u => Sys2Proof.Machine.execCrcRelease m u s
  | .crcdataWrite m u w => Sys2Proof.Machine.execCrcdataWrite m u w s
  | .crcdatabWrite m u b => Sys2Proof.Machine.execCrcdatabWrite m u b s
  | .crcUnitTimeout u => Sys2Proof.Machine.execCrcUnitTimeout u s
  | .scanJobGo m => Sys2Proof.Machine.execScanJobGo m s
  | .scanJobAbort m => Sys2Proof.Machine.execScanJobAbort m s
  | .scanJobEnd => Sys2Proof.Machine.execScanJobEnd s
  | .chkClrcnt => Sys2Proof.Machine.execChkClrcnt s
  | .aliveWrite k w => Sys2Proof.Machine.execAliveWrite k w s
  | .alvtmo k => Sys2Proof.Machine.execAlvtmo k s
  | .crossingTimeout x => Sys2Proof.Machine.execCrossingTimeout x s
  | .clkXrst key x => Sys2Proof.Machine.execClkXrst key x s
  | .pairedResetRelease x => Sys2Proof.Machine.execPairedResetRelease x s
  | .hkick n p k => Sys2Proof.Machine.execHkick n p k s
  | .windowOpen n => Sys2Proof.Machine.execWindowOpen n s
  | .preexp n => Sys2Proof.Machine.execPreexp n s
  | .missingExpiry n => Sys2Proof.Machine.execMissingExpiry n s
  | .wdEnWrite n en => Sys2Proof.Machine.execWdEnWrite n en s
  | .clockMonitorTrip n => Sys2Proof.Machine.execClockMonitorTrip n s
  | .evclr n key => Sys2Proof.Machine.execEvclr n key s
  | .wdClrcnt n => Sys2Proof.Machine.execWdClrcnt n s
  | .burn key => Sys2Proof.Machine.execBurn key s
  | .finalize key force => Sys2Proof.Machine.execFinalize key force s
  | .otpAbort key => Sys2Proof.Machine.execOtpAbort key s
  | .pumpCharged => Sys2Proof.Machine.execPumpCharged s
  | .pulseComplete ok vpp => Sys2Proof.Machine.execPulseComplete ok vpp s
  | .shadowWrite v => Sys2Proof.Machine.execShadowWrite v s
  | .rel => Sys2Proof.Machine.execRel s
  | .relall => Sys2Proof.Machine.execRelall s
  | .recordWrite => Sys2Proof.Machine.execRecordWrite s
  | .markWrite => Sys2Proof.Machine.execMarkWrite s
  | .patClr m key => Sys2Proof.Machine.execPatClr m key s
  | .clearComplete => Sys2Proof.Machine.execClearComplete s
  | .rebuildComplete => Sys2Proof.Machine.execRebuildComplete s
  | .ackNew => Sys2Proof.Machine.execAckNew s
  | .patClrcnt => Sys2Proof.Machine.execPatClrcnt s
  | .offdata0Read m => Sys2Proof.Machine.execOffdata0Read m s
  | .offdata7Read m => Sys2Proof.Machine.execOffdata7Read m s
  | .bypass => Sys2Proof.Machine.execBypass s
  | .idcode => Sys2Proof.Machine.execIdcode s
  | .samplePreload levels shift => Sys2Proof.Machine.execSamplePreload levels shift s
  | .extest levels shift => Sys2Proof.Machine.execExtest levels shift s
  | .trst low => Sys2Proof.Machine.execTrst low s
  | .undefinedEncoding e => Sys2Proof.Machine.execUndefinedEncoding e s
  | .errinRelease => Sys2Proof.Machine.execErrinRelease s
  | .corePllRelock => Sys2Proof.Machine.execCorePllRelock s
  | .auxPowerGoodLoss a => Sys2Proof.Machine.execAuxPowerGoodLoss a s

end Sys2Proof.Machine
end

