-- ==== Sys2Proof/Machine/Idle.lean ====
section
/-! DEFINITION. What a microsecond of TBASE brings where no command waits (R28, R50, R293, R294, R388; assumption log entry 8). -/
namespace Sys2Proof.Machine

/-- A channel's published value enters its window where its unit is powered (R293). -/
def telPublish (s : State) (kind i : Nat) (v : Int) : State := if s.powered (telDomain kind i) then telSample s kind i v false else s

/-- The running maquette publishes a node's TN, or the ambient for an unused node (R309, R314); a node that has not started publishes
nothing. -/
def telPublishNode (s : State) (kind i node : Nat) : State :=
  if s.flag THM_CTRL_EN && nodePresent s node && (!nodeUsed s node || (cellGet none s.thm.tn node).isSome) then
    telPublish s kind i (nodeTel s node)
  else s

/-- The values that the maquette, LX, CHG and BUD telPublish each microsecond, kinds 0x07–0x0F (R293). -/
def telPublishAll (s : State) : State :=
  let s := (List.range 64).foldl (fun s i => telPublishNode s 7 i i) s
  let s := (List.range 14).foldl (fun s i => telPublishNode s 8 i (64 + i)) s
  let s := (List.range 9).foldl (fun s i => telPublish s 9 i (cellGet 0 s.thm.ts i)) s
  let s := (List.range 4).foldl (fun s m =>
    if crossingShut s (36 + m) then s else telPublish (telPublish s 10 m (s.sfld LXM_PWR_P m)) 11 m (s.sfld LXM_VHV_V m)) s
  let s := telPublish (telPublish (telPublish s 12 0 (s.sfld CHG_VBAT_V)) 13 0 (s.sfld CHG_IBAT_I)) 14 0 (s.sfld CHG_VHB_V)
  (List.range 8).foldl (fun s k => telPublish s 15 k (poolCommitted s k)) s

/-- One microsecond: TBASE counts, the watchdogs' REMAIN and the hour accumulator of the mode follow, a waiting CHECK
evaluates its condition, a scan job goes on (R379), the published telemetry takes its samples, and domains whose last link has drained are released, the ABORTED
events having passed to INTC and to the owner engines (R125). Nothing counts while PD0 is unpowered, or while neither the
core PLL nor CK_WD gives TBASE its clock (R28). -/
def idle (s : State) : State :=
  if !s.powered 0 || (!s.flag CLK_STAT_CORELOCK && !s.flag CLK_STAT_WDOSC_OK) then s
  else
    let s := { s with tbase := (s.tbase + 1) % 2 ^ 56 }
    let s := epmismUs (checkEval (wdTick s))
    let m := s.cur
    let s := { s with mode := { s.mode with hourAcc := cellSet 0 s.mode.hourAcc m (cellGet 0 s.mode.hourAcc m + 1) } }
    modeProgress (scanUs (if s.powered 11 then telEndUs (telPublishAll (lossUs s)) else s))

end Sys2Proof.Machine
end

