-- ==== Sys2Proof/Machine/Step.lean ====
section
/-! DEFINITION. One step of the block: the command at the front of the queue, or a microsecond of time where none waits. -/
namespace Sys2Proof.Machine

/-- The step: the front command with the queue's rest; an empty queue lets one microsecond of TBASE pass (assumption log
entry 8). -/
def step (s : State) : Host.Outcome State Fault Refusal :=
  match s.pending with
  | [] => .next (idle s)
  | c :: rest => exec c { s with pending := rest }

/-- `s` with the command that the word spells at the front of its queue. No row of the table gives its words any bits, so no word
spells a command, and `s` is unchanged (assumption log entry 9). -/
def State.withFetchWord (s : State) (nbits w : Nat) : State :=
  match decodeTableWord nbits w with
  | some c => { s with pending := c :: s.pending }
  | none => s

end Sys2Proof.Machine
end

