-- ==== Sys2Proof/Safety.lean ====
section
/-! DEFINITION. What a safe state and a safe step are, and the words in which the statements about the engines and about frames are
made. -/
namespace Sys2Proof.Machine

/-! ## Safe states -/

/-- A state that a run can reach holds its memory and its register words in canonical form. -/
abbrev State.canonical (s : State) : Prop := Memory.wf s.mem ∧ cellWf 0 s.regs = true

/-- A step is safe when it answers a next state: no command of the block stops it. -/
def safeStep (s : State) : Prop := ∃ t, step s = .next t

/-! ## Frames -/

/-- Every register word but those under the keys listed reads as before. -/
def SameRegs (s t : State) (keys : List Nat) : Prop := ∀ k, k ∉ keys → cellGet 0 t.regs k = cellGet 0 s.regs k

/-- Nothing but the register words listed has changed. -/
def RegsOnly (s t : State) (keys : List Nat) : Prop := t = { s with regs := t.regs } ∧ SameRegs s t keys

/-- Every byte of the RAMs but those at the addresses that `p` names reads as before. -/
def SameBytes (s t : State) (p : Nat → Prop) : Prop := ∀ a, ¬ p a → t.byte a = s.byte a

/-! ## Masters that write registers -/

/-- Word `a` exists for master `m`, in a powered domain behind an open crossing (R24, R29, R383). -/
def wordOpen (s : State) (m a : Nat) : Bool :=
  match locate s m a with
  | some l => locOpen s a l
  | none => false

/-- Host port `p` writes word `a`, which is open: the port is not frozen (R336) and has the right to the word (R335), and neither the OTP
hold (R55) nor PLINTH (R70) stops the write. -/
abbrev HostWrites (s : State) (p a : Nat) : Prop :=
  s.powered 7 = true ∧ s.flag SYS_HSTAT_FROZEN p = false ∧ s.flag SYS_BOOTSTAT_OTPHOLD = false ∧ wordOpen s (masterHost p) a = true
    ∧ hostRight s p a = true ∧ plinthDenies s a = false

/-- Engine `e` writes `w` to word `a`, which is open: its program has the right to the word (R168) and is not a delegate that it is
closed to (R475). -/
abbrev EngineWrites (s : State) (e a : Nat) (w : Word) : Prop :=
  s.engPresent e = true ∧ s.powered (engDomain e) = true ∧ stxAllowed s e a = true ∧ delegateCloses s (progOf s e) a w = false
    ∧ wordOpen s e a = true

/-- Master `m`, an engine, a host port or one of the hardware masters, writes `w` to word `a`. -/
abbrev MasterWrites (s : State) (m a : Nat) (w : Word) : Prop :=
  if m < 48 then EngineWrites s m a w else if m < 51 then HostWrites s (m - 48) a else s.powered 1 = true ∧ wordOpen s m a = true

/-- Master `m`'s request for word `a` is accepted: a host port's address is recorded (R401), another master's is not. -/
def askedBy (s : State) (m a : Nat) : State := if 48 ≤ m ∧ m < 51 then hostAsked s (m - 48) a else s

/-- An access violation of host port `p` at word `a` (R336): the port is frozen with the cause and the word, its event is set, and
fault 352 falls due. -/
def FreezesPort (s t : State) (p cause a : Nat) : Prop :=
  t.flag SYS_HSTAT_FROZEN p = true ∧ t.fld SYS_HSTAT_CAUSE p = cause ∧ t.fld SYS_HSTAT_ADDR p = a
    ∧ t.flt.due = s.flt.due ++ [⟨352, p, cause, wordOf a⟩] ∧ t = { s with regs := t.regs, flt := t.flt, hosts := t.hosts }
    ∧ SameRegs s t [SYS_HSTAT.addr p, SYS_HEVT.addr 0]

/-- Training attempt `k` of link `l` begins with ALIGN, its counts and its round trip from zero (R118, R120). -/
def BeginsTraining (s t : State) (l k : Nat) : Prop :=
  lstate t l = lsAlign ∧ t.fld PH_FXSTAT_ATTEMPT l = k ∧ t.fld PH_FXSTAT_VER l = 0 ∧ t.reg PH_RTT l = 0 ∧ (t.link l).count = 0
    ∧ (t.link l).retry = false ∧ (t.link l).framed = false ∧ t.mem = s.mem

/-- The frame `f` of version `ver` drives its phase (R104): DRV is switching, and its edges are those given. -/
def drivesEdges (ver : Nat) (f : BitVec 64) (e0 e1 : FrameEdge) : Prop :=
  (if ver = 1 then fbits f 35 34 else fbits f 37 36) = 1
    ∧ (match e0 with
      | none => fbits f 59 59 = 0
      | some (v, k) => fbits f 59 59 = 1 ∧ fbits f 58 58 = v.toNat ∧ (if ver = 1 then fbits f 57 48 else fbits f 57 49) = k)
    ∧ (match e1 with
      | none => (if ver = 1 then fbits f 47 47 else fbits f 48 48) = 0
      | some (v, k) => (if ver = 1 then fbits f 47 47 else fbits f 48 48) = 1 ∧ (if ver = 1 then fbits f 46 46 else fbits f 47 47) = v.toNat
        ∧ (if ver = 1 then fbits f 45 36 else fbits f 46 38) = k)

/-! ## Engines -/

/-- A line of a RAM reads without damage, and no injection is armed that would damage it (R361, R367). -/
abbrev ReadsClean (s : State) (ram i : Nat) : Prop :=
  s.damage ram i = .none ∧ s.injects 356 ram = none ∧ s.injects 357 ram = none

/-- Engine `e` executes its next instruction, of `k` words (R166, R171, R189, R368): it is present in a powered domain, RUNNING, held
by no checkpoint copy, its fetch window holds the words, and their lines read without damage. -/
abbrev Executes (s : State) (e k : Nat) : Prop :=
  engReady s e = true ∧ fetchStop s (progOf s e) (s.fld ENG_PC_PC e) k = none
    ∧ ∀ i ∈ fetchLines (s.fld ENG_PC_PC e) k, ReadsClean s 0 i

/-- The keys of the registers that retiring may write: the PC, the program's retired count, and the engine's status (REPLAY). -/
def retireKeys (s : State) (e : Nat) : List Nat := [ENG_PC.addr e, ENG_RETIRED.addr (progOf s e), ENG_STAT.addr e]

/-- The instruction has retired (R183, R187): the PC, the retired count, and the instructions left to replay with REPLAY. -/
def Retired (s t : State) (e next : Nat) : Prop :=
  t.fld ENG_PC_PC e = next % 65536 ∧ t.reg ENG_RETIRED (progOf s e) = s.reg ENG_RETIRED (progOf s e) + 1
    ∧ (t.eng e).replayLeft = (s.eng e).replayLeft - 1
    ∧ t.reg ENG_STAT e = (if (s.eng e).replayLeft = 1 then Word.setBits (s.reg ENG_STAT e) 16 16 0 else s.reg ENG_STAT e)

/-- Nothing but register words and the engine's own record has changed, and of that record only the count of instructions left to
replay. -/
def EngineOnly (s t : State) (e : Nat) : Prop :=
  t = { s with regs := t.regs, engs := t.engs } ∧ (∀ x, x ≠ e → t.eng x = s.eng x)
    ∧ t.eng e = { s.eng e with replayLeft := (s.eng e).replayLeft - 1 }

/-- An instruction of engine `e` has retired and posted one write (R16, R18): at the end of the engine's queue stands the transfer of
the value and its complement, with the engine's sequence number and the effect that it works at its target, if any. -/
def Posts (s t : State) (e a : Nat) (v : Word) (act : Option Effect) : Prop :=
  t.armq = s.armq ++ [⟨e, a, v, ~~~v, .write, cellGet 0 s.armSeq e, act⟩]
    ∧ cellGet 0 t.armSeq e = (cellGet 0 s.armSeq e + 1) % 16
    ∧ EngineOnly { s with armq := t.armq, armSeq := t.armSeq } t e ∧ SameRegs s t (retireKeys s e)

/-- A rail instruction of engine `e`, of `k` words, has retired and posted `w` for the field at offset `off` of rail `n` (R204). -/
def PostsField (s t : State) (e n off : Nat) (w : Word) (k : Nat) : Prop :=
  Retired s t e (s.fld ENG_PC_PC e + k) ∧ Posts s t e (0x1000 + 0x80 * n + off) w (some (.railField n off w))

/-- In a clause instruction `c` of engine `e`, of `k` words, holds effect `x`, up to sixteen, and stalls at the next (R176, R207). -/
def HoldsEffect (s : State) (e : Nat) (c : Instr) (x : Effect) (k : Nat) : Prop :=
  ((s.eng e).held.length < 16 → ∃ t, exec c s = .next t ∧ (t.eng e).held = (s.eng e).held ++ [x] ∧ t.mem = s.mem ∧ t.armq = s.armq
    ∧ t.fld ENG_PC_PC e = (s.fld ENG_PC_PC e + k) % 65536)
  ∧ (16 ≤ (s.eng e).held.length → exec c s = .next s)

/-- Engine `e` has broken an access rule (R184): FROZEN at the instruction, with the cause and the word address, FROZEN raised and
source 338 asserted. -/
def FreezesEngine (s t : State) (e cause addr : Nat) : Prop :=
  t.fld ENG_STAT_STATE e = 3 ∧ t.fld ENG_FREEZE_CAUSE e = cause % 16 ∧ t.fld ENG_FREEZE_ADDR e = addr % 65536
    ∧ t.flag ENG_EVT_FROZEN e = true ∧ t.fld ENG_PC_PC e = s.fld ENG_PC_PC e ∧ t.mem = s.mem
    ∧ t.flt.due = s.flt.due ++ [⟨338, e, cause, wordOf addr⟩] ∧ SameRegs s t [ENG_STAT.addr e, ENG_FREEZE.addr e, ENG_EVT.addr e]

/-- The four flags of an engine (R165). -/
abbrev FlagsAre (t : State) (e : Nat) (z n c v : Bool) : Prop :=
  t.flag ENG_FLAGS_Z e = z ∧ t.flag ENG_FLAGS_N e = n ∧ t.flag ENG_FLAGS_C e = c ∧ t.flag ENG_FLAGS_V e = v

/-- The other bits of ENGe_FLAGS are as before. -/
def OtherFlagBits (s t : State) (e : Nat) : Prop := Word.bits (t.reg ENG_FLAGS e) 31 4 = Word.bits (s.reg ENG_FLAGS e) 31 4

/-- A data instruction has retired with `w` in Gd: nothing else but the registers of retiring has changed, the flags included. -/
def WritesG (s t : State) (e d : Nat) (w : Word) : Prop :=
  t.g e d = w ∧ Retired s t e (s.fld ENG_PC_PC e + 1) ∧ EngineOnly s t e
    ∧ SameRegs s t (ENG_G.addr (16 * e + d) :: retireKeys s e)

/-- A data instruction has retired with `w` in Gd and the flags given: nothing else but the registers of retiring has changed. -/
def WritesGFlags (s t : State) (e d : Nat) (w : Word) (z n c v : Bool) : Prop :=
  t.g e d = w ∧ FlagsAre t e z n c v ∧ OtherFlagBits s t e ∧ Retired s t e (s.fld ENG_PC_PC e + 1) ∧ EngineOnly s t e
    ∧ SameRegs s t (ENG_G.addr (16 * e + d) :: ENG_FLAGS.addr e :: retireKeys s e)

/-- A comparison has retired with the flags given. -/
def WritesFlags (s t : State) (e : Nat) (z n c v : Bool) : Prop :=
  FlagsAre t e z n c v ∧ OtherFlagBits s t e ∧ Retired s t e (s.fld ENG_PC_PC e + 1) ∧ EngineOnly s t e
    ∧ SameRegs s t (ENG_FLAGS.addr e :: retireKeys s e)

/-- A control instruction has retired and goes on at `next`: no register of the program, no flag and no byte has changed. -/
def GoesTo (s t : State) (e next : Nat) : Prop :=
  Retired s t e next ∧ EngineOnly s t e ∧ SameRegs s t (retireKeys s e)

/-- The signed sum, difference or product fits 32 bits. -/
def overflows (i : Int) : Bool := decide (i < -2147483648) || decide (2147483647 < i)

end Sys2Proof.Machine
end

