-- ==== Sys2Proof/Certificates/Slice0/Obligations.lean ====
section
/-! DEFINITION. The statements for the provers: what the commands of the block do, what they leave unchanged, and what every step
keeps. -/
open Sys2Proof Sys2Proof.Machine

/-! ## The engine instructions (08_instruction_set.md) -/

/-- R193: the data instructions compute as the table gives it, write Gd and the flags as the rules give them, and change nothing else but
the registers of retiring. The count of a shift is N, or Gb[7:0]. A word whose Gb, N or Gd field is not zero where the table has it
zero is an undefined encoding, and so are MOVH with IMM[21:16] and SAT with N above 31. -/
def Obligations.DataInstructionsComputeTheTable : Prop :=
  ∀ (e : Fin 48) (d a b : Fin 16) (imm : BitVec 18) (im : BitVec 22) (n : ShiftCount) (k6 : Fin 64) (s : State), Executes s e 1 →
    (∃ t, exec (.add e d a b) s = .next t ∧ WritesGFlags s t e d (s.g e a + s.g e b)
      (s.g e a + s.g e b == 0) (s.g e a + s.g e b).msb
      (decide (2 ^ 32 ≤ (s.g e a).toNat + (s.g e b).toNat)) (overflows ((s.g e a).toInt + (s.g e b).toInt)))
    ∧ (∃ t, exec (.addi e d a imm) s = .next t ∧ WritesGFlags s t e d (s.g e a + imm.signExtend 32)
      (s.g e a + imm.signExtend 32 == 0) (s.g e a + imm.signExtend 32).msb
      (decide (2 ^ 32 ≤ (s.g e a).toNat + (imm.signExtend 32).toNat)) (overflows ((s.g e a).toInt + imm.toInt)))
    ∧ (∃ t, exec (.sub e d a b) s = .next t ∧ WritesGFlags s t e d (s.g e a - s.g e b)
      (s.g e a - s.g e b == 0) (s.g e a - s.g e b).msb
      (decide ((s.g e b).toNat ≤ (s.g e a).toNat)) (overflows ((s.g e a).toInt - (s.g e b).toInt)))
    ∧ (∃ t, exec (.mul e d a b) s = .next t ∧ WritesGFlags s t e d (s.g e a * s.g e b)
      (s.g e a * s.g e b == 0) (s.g e a * s.g e b).msb false (overflows ((s.g e a).toInt * (s.g e b).toInt)))
    ∧ (∃ t w, exec (.mulh e d a b) s = .next t ∧ w.toInt = (s.g e a).toInt * (s.g e b).toInt / 2 ^ 32
      ∧ WritesGFlags s t e d w (w == 0) w.msb false false)
    ∧ (∃ t, exec (.andd e d a b) s = .next t ∧ WritesGFlags s t e d (s.g e a &&& s.g e b)
      (s.g e a &&& s.g e b == 0) (s.g e a &&& s.g e b).msb false false)
    ∧ (∃ t, exec (.orr e d a b) s = .next t ∧ WritesGFlags s t e d (s.g e a ||| s.g e b)
      (s.g e a ||| s.g e b == 0) (s.g e a ||| s.g e b).msb false false)
    ∧ (∃ t, exec (.xorr e d a b) s = .next t ∧ WritesGFlags s t e d (s.g e a ^^^ s.g e b)
      (s.g e a ^^^ s.g e b == 0) (s.g e a ^^^ s.g e b).msb false false)
    ∧ (∃ t, exec (.nott e d a) s = .next t ∧ WritesGFlags s t e d (~~~(s.g e a)) (~~~(s.g e a) == 0) (~~~(s.g e a)).msb false false)
    ∧ (∀ k, k = (match n with | .imm x => x.val | .reg g => (s.g e g).toNat % 256) →
      (∃ t, exec (.shl e d a n) s = .next t ∧ WritesGFlags s t e d (s.g e a <<< k) (s.g e a <<< k == 0) (s.g e a <<< k).msb
        (decide (0 < k) && decide (k ≤ 32) && (s.g e a).getLsbD (32 - k)) false)
      ∧ (∃ t, exec (.shr e d a n) s = .next t ∧ WritesGFlags s t e d (s.g e a >>> k) (s.g e a >>> k == 0) (s.g e a >>> k).msb
        (decide (0 < k) && decide (k ≤ 32) && (s.g e a).getLsbD (k - 1)) false)
      ∧ (∃ t, exec (.sar e d a n) s = .next t ∧ WritesGFlags s t e d ((s.g e a).sshiftRight k)
        ((s.g e a).sshiftRight k == 0) ((s.g e a).sshiftRight k).msb
        (decide (0 < k) && (if k ≤ 32 then (s.g e a).getLsbD (k - 1) else (s.g e a).msb)) false))
    ∧ (∃ t, exec (.mov e d a) s = .next t ∧ WritesG s t e d (s.g e a))
    ∧ (∃ t, exec (.movi e d im) s = .next t ∧ WritesG s t e d (im.signExtend 32))
    ∧ (im.toNat < 65536 → ∃ t, exec (.movh e d im) s = .next t
      ∧ WritesG s t e d (BitVec.setWidth 16 im ++ BitVec.setWidth 16 (s.g e d)))
    ∧ (∃ t, exec (.cmp e a b) s = .next t ∧ WritesFlags s t e (s.g e a - s.g e b == 0) (s.g e a - s.g e b).msb
      (decide ((s.g e b).toNat ≤ (s.g e a).toNat)) (overflows ((s.g e a).toInt - (s.g e b).toInt)))
    ∧ (∃ t, exec (.cmpi e a imm) s = .next t ∧ WritesFlags s t e (s.g e a - imm.signExtend 32 == 0)
      (s.g e a - imm.signExtend 32).msb (decide ((imm.signExtend 32).toNat ≤ (s.g e a).toNat))
      (overflows ((s.g e a).toInt - imm.toInt)))
    ∧ (∃ t w, exec (.minn e d a b) s = .next t ∧ w.toInt = min (s.g e a).toInt (s.g e b).toInt
      ∧ WritesGFlags s t e d w (w == 0) w.msb false false)
    ∧ (∃ t w, exec (.maxx e d a b) s = .next t ∧ w.toInt = max (s.g e a).toInt (s.g e b).toInt
      ∧ WritesGFlags s t e d w (w == 0) w.msb false false)
    ∧ (k6.val < 32 → ∃ t w, exec (.sat e d a k6) s = .next t
      ∧ w.toInt = max (-(2 ^ k6.val)) (min (2 ^ k6.val - 1) (s.g e a).toInt)
      ∧ WritesGFlags s t e d w (w == 0) w.msb false (decide (w ≠ s.g e a)))
    ∧ (65536 ≤ im.toNat → exec (.movh e d im) s = .next (freeze s e 7 0))
    ∧ (32 ≤ k6.val → exec (.sat e d a k6) s = .next (freeze s e 7 0))
    ∧ (∀ (w op : Nat) (rest : List Nat), op = fieldAt w 26 6 →
      (op = 0x10 ∧ fieldAt w 14 4 ≠ 0
        ∨ (op = 0x11 ∨ op = 0x12 ∨ op = 0x13) ∧ fieldAt w 13 1 = 0 ∧ fieldAt w 0 6 ≠ 0
        ∨ (op = 0x14 ∨ op = 0x15) ∧ fieldAt w 22 4 ≠ 0
        ∨ op = 0x18 ∧ (fieldAt w 13 1 = 1 ∨ fieldAt w 14 4 ≠ 0)) → decodeLannos e (w :: rest) = .undefined)

/-- R194, R195, R199, R208: the loads and reads write Gd (and, for LDX, TEL and TELC, the flags). LD from a line that reads without
damage changes nothing else; any line reads as `peekRam`. LDX waits while an effect of the engine is on its way (the model's choice,
assumption log entry 109); with its transfer matched it delivers the word and the status, with it mismatched (R17) C is clear and V is
set, ARM_PAIR asserts, and the value is free (the model's choice, assumption log entry 127). -/
def Obligations.LoadsAndReadsWriteGd : Prop :=
  ∀ (e : Fin 48) (d a : Fin 16) (imm : BitVec 18) (kind idx : Fin 64) (h raw : Bool) (s : State), Executes s e 1 →
    (∀ x w, x = (s.g e a + imm.signExtend 32).toNat →
      (x < 0x100 ∧ w = 0x1000 + 0x100 * progOf s e + x ∨ 0x1000 ≤ x ∧ x < 0x2000 ∧ w = x - 0x1000) →
      (s.injects 357 1 = none → ∃ t, exec (.ld e d a imm) s = .next t ∧ t.g e d = s.peekRam 1 w ∧ t.fld ENG_PC_PC e = (s.fld ENG_PC_PC e + 1) % 65536)
      ∧ (ReadsClean s 1 (w / 8) → ∃ t, exec (.ld e d a imm) s = .next t ∧ WritesG s t e d (s.word drBase w)))
    ∧ (∀ x, x = (s.g e a + imm.signExtend 32).toNat % 65536 →
      (mustWait s e = true → exec (.ldx e d a imm) s = .next s)
      ∧ (∀ u, u = (armSend s e x 0 .read none).1 → mustWait s e = false → (s.eng e).badRead = none →
        ∃ t, exec (.ldx e d a imm) s = .next t ∧ t.g e d = (readWord u e x).2.1
          ∧ FlagsAre t e ((readWord u e x).2.1 == 0) (readWord u e x).2.1.msb false ((readWord u e x).2.2 != .ok)
          ∧ t.fld ENG_PC_PC e = (s.fld ENG_PC_PC e + 1) % 65536)
      ∧ (∀ hop, (s.eng e).badRead = some hop → mustWait s e = false →
        ∃ t, exec (.ldx e d a imm) s = .next t ∧ FlagsAre t e (t.g e d == 0) (t.g e d).msb false true
          ∧ t.flt.due = s.flt.due ++ [⟨354, hop, e, wordOf x⟩] ∧ t.mem = s.mem
          ∧ t.fld ENG_PC_PC e = (s.fld ENG_PC_PC e + 1) % 65536))
    ∧ (∃ t, exec (.time e d h) s = .next t
      ∧ WritesG s t e d (BitVec.ofNat 32 (if h then s.tbase / 2 ^ 32 % 2 ^ 24 else s.tbase % 2 ^ 32)))
    ∧ (telCheck s kind idx raw = .ok → ∃ t w, exec (.tel e d kind idx raw) s = .next t
      ∧ w = BitVec.ofInt 32 (telRead s kind idx raw false).value
      ∧ WritesGFlags s t e d w (w == 0) w.msb (telRead s kind idx raw false).subj (telRead s kind idx raw false).pdoff)
    ∧ (telCheck s kind idx false = .ok → ∃ t w, exec (.telc e d kind idx) s = .next t
      ∧ w = BitVec.ofInt 32 (telRead s kind idx false true).value ∧ t.g e d = w
      ∧ FlagsAre t e (w == 0) w.msb (telRead s kind idx false true).subj (telRead s kind idx false true).pdoff
      ∧ Retired s t e (s.fld ENG_PC_PC e + 1)
      ∧ ((telRead s kind idx false true).pdoff = false → (t.tel kind idx).peak = none)
      ∧ t.mem = s.mem ∧ SameRegs s t (ENG_G.addr (16 * e + d) :: ENG_FLAGS.addr e :: retireKeys s e))

/-- R194, R195, R181, R176: ST writes one data word and no other byte, to a line that reads without damage; in a clause a store to the
shared region and an STX are held with the value that Gs has. STX posts one transfer with its complement and its sequence number,
and stalls while four wait. -/
def Obligations.StoresWriteOneWordOrPost : Prop :=
  ∀ (e : Fin 48) (d a : Fin 16) (imm : BitVec 18) (s : State) (x : Nat), Executes s e 1 →
    (x = (s.g e a + imm.signExtend 32).toNat →
      (∀ w, x < 0x100 → w = 0x1000 + 0x100 * progOf s e + x → ReadsClean s 1 (w / 8) →
        ∃ t, exec (.st e d a imm) s = .next t ∧ t.word drBase w = s.g e d
          ∧ SameBytes s t (fun b => drBase + 4 * w ≤ b ∧ b < drBase + 4 * w + 4)
          ∧ Retired s t e (s.fld ENG_PC_PC e + 1) ∧ SameRegs s t (retireKeys s e)
          ∧ (t.prog (progOf s e)).dirty.testBit (x / 8) = true ∧ t.armq = s.armq)
      ∧ (∀ w, 0x1000 ≤ x → x < 0x2000 → w = x - 0x1000 → inClause s e = false → issuing s e = false → ReadsClean s 1 (w / 8) →
        ∃ t, exec (.st e d a imm) s = .next t ∧ t.word drBase w = s.g e d
          ∧ SameBytes s t (fun b => drBase + 4 * w ≤ b ∧ b < drBase + 4 * w + 4)
          ∧ Retired s t e (s.fld ENG_PC_PC e + 1) ∧ SameRegs s t (retireKeys s e) ∧ EngineOnly { s with mem := t.mem } t e)
      ∧ (0x1000 ≤ x → x < 0x2000 → inClause s e = true → (s.eng e).held.length < 16 →
        ∃ t, exec (.st e d a imm) s = .next t ∧ (t.eng e).held = (s.eng e).held ++ [.stShared (x - 0x1000) (s.g e d)]
          ∧ t.mem = s.mem ∧ t.fld ENG_PC_PC e = (s.fld ENG_PC_PC e + 1) % 65536))
    ∧ (x = (s.g e a + imm.signExtend 32).toNat % 65536 → stxAllowed s e x = true →
      (inClause s e = false → issuing s e = false → ownCount s e < 4 →
        ∃ t, exec (.stx e d a imm) s = .next t ∧ Retired s t e (s.fld ENG_PC_PC e + 1) ∧ Posts s t e x (s.g e d) none)
      ∧ (inClause s e = false → 4 ≤ ownCount s e → exec (.stx e d a imm) s = .next s)
      ∧ (inClause s e = true → (s.eng e).held.length < 16 →
        ∃ t, exec (.stx e d a imm) s = .next t ∧ (t.eng e).held = (s.eng e).held ++ [.stx x (s.g e d)]
          ∧ t.armq = s.armq ∧ t.mem = s.mem ∧ t.fld ENG_PC_PC e = (s.fld ENG_PC_PC e + 1) % 65536))

/-- R197, R198: the control instructions move the PC as the rules give it, and change nothing else but the return stack of CALL and
RET, the register of LOOP, and the state of HALT. -/
def Obligations.ControlInstructionsMoveThePc : Prop :=
  ∀ (e : Fin 48) (d : Fin 16) (target : Fin 65536) (s : State), Executes s e 1 →
    (∃ t, exec (.j e target) s = .next t ∧ GoesTo s t e target)
    ∧ (∀ (cond : Fin 16) (z n c v taken : Bool), FlagsAre s e z n c v → cond.val ≠ 15 →
      taken = (match cond.val with
        | 0 => z | 1 => !z | 2 => c | 3 => !c | 4 => n | 5 => !n | 6 => v | 7 => !v | 8 => c && !z | 9 => !c || z
        | 10 => n == v | 11 => n != v | 12 => !z && (n == v) | 13 => z || (n != v) | _ => true) →
      ∃ t, exec (.jc e cond target) s = .next t ∧ GoesTo s t e (if taken then target else s.fld ENG_PC_PC e + 1))
    ∧ ((s.eng e).stack.length < 8 → ∃ t, exec (.call e target) s = .next t ∧ t.fld ENG_PC_PC e = target
      ∧ (t.eng e).stack = (s.fld ENG_PC_PC e + 1) % 65536 :: (s.eng e).stack
      ∧ t.mem = s.mem ∧ SameRegs s t (ENG_FLAGS.addr e :: retireKeys s e))
    ∧ (∀ r st, (s.eng e).stack = r :: st → ∃ t, exec (.ret e) s = .next t ∧ t.fld ENG_PC_PC e = r % 65536
      ∧ (t.eng e).stack = st ∧ t.mem = s.mem ∧ SameRegs s t (ENG_FLAGS.addr e :: retireKeys s e))
    ∧ (∃ t, exec (.loop e d target) s = .next t ∧ t.g e d = s.g e d - 1
      ∧ Retired s t e (if s.g e d = 1 then s.fld ENG_PC_PC e + 1 else target)
      ∧ EngineOnly s t e ∧ SameRegs s t (ENG_G.addr (16 * e + d) :: retireKeys s e))
    ∧ (∃ t, exec (.nop e) s = .next t ∧ GoesTo s t e (s.fld ENG_PC_PC e + 1))
    ∧ (∃ t, exec (.yield e) s = .next t ∧ GoesTo s t e (s.fld ENG_PC_PC e + 1))
    ∧ (inClause s e = false → ∃ t, exec (.halt e) s = .next t ∧ t.fld ENG_STAT_STATE e = 0
      ∧ t.flag ENG_EVT_HALTED e = true ∧ t.fld ENG_PC_PC e = (s.fld ENG_PC_PC e + 1) % 65536 ∧ t.mem = s.mem
      ∧ SameRegs s t (ENG_EVT.addr e :: retireKeys s e))

/-- R199, R202, R203, R175, R210, R212: the instructions that wait or open a clause, begin it with the operands read at retire. -/
def Obligations.WaitsAndClausesBegin : Prop :=
  ∀ (e : Fin 48) (c : CondWord) (x y label : Fin 65536) (code : Fin 256) (chlim : Fin 64) (b : Fin 8) (us : WaitTime) (s : State)
    (u : Nat),
    (Executes s e 1 → u = (match us with | .imm k => k.val | .reg g => (s.g e g).toNat) →
      (u = 0 → ∃ t, exec (.wait e us) s = .next t ∧ GoesTo s t e (s.fld ENG_PC_PC e + 1))
      ∧ (u ≠ 0 → ∃ t, exec (.wait e us) s = .next t ∧ t.fld ENG_STAT_STATE e = 2 ∧ (t.eng e).wait = some (.time u s.tbase)
        ∧ t.fld ENG_PC_PC e = (s.fld ENG_PC_PC e + 1) % 65536 ∧ t.mem = s.mem ∧ SameRegs s t (retireKeys s e)))
    ∧ (Executes s e (condWords c) → condStop s c = none →
      (x.val ≠ 0 → ∃ t, exec (.waitc e c x label) s = .next t ∧ t.fld ENG_STAT_STATE e = 2
        ∧ (t.eng e).wait = some (.cond (condRead s e c) label x s.tbase)
        ∧ t.fld ENG_PC_PC e = (s.fld ENG_PC_PC e + condWords c) % 65536 ∧ t.mem = s.mem ∧ SameRegs s t (retireKeys s e))
      ∧ (x.val = 0 → condTrue s e (condRead s e c) = true →
        exec (.waitc e c x label) s = .next (retire (takeSignal s e (condRead s e c)) e (s.fld ENG_PC_PC e + condWords c)))
      ∧ (x.val = 0 → condTrue s e (condRead s e c) = false → ∃ t, exec (.waitc e c x label) s = .next t ∧ GoesTo s t e label)
      ∧ (inClause s e = false → ∃ t, exec (.check e c x y code chlim) s = .next t ∧ t.fld ENG_STAT_STATE e = 2
        ∧ (t.eng e).wait = some (.check (condRead s e c) code x y (if chlim.val = 0 then 8 else chlim) (s.fld ENG_PC_PC e)
          (watchStart s e (condRead s e c)))
        ∧ t.fld ENG_PC_PC e = (s.fld ENG_PC_PC e + condWords c) % 65536 ∧ t.mem = s.mem ∧ SameRegs s t (retireKeys s e))
      ∧ (inClause s e = false → x.val ≠ 0 → ∃ t, exec (.subj e c x label) s = .next t ∧ t.fld ENG_CLAUSE_STATE e = 1
        ∧ t.fld ENG_CLAUSE_HELD e = 0
        ∧ (t.eng e).clause = some { cond := condRead s e c, label := label, window := x, opened := s.tbase, rails := [] }
        ∧ t.fld ENG_PC_PC e = (s.fld ENG_PC_PC e + condWords c) % 65536 ∧ t.mem = s.mem
        ∧ SameRegs s t (ENG_CLAUSE.addr e :: retireKeys s e)))
    ∧ (Executes s e 1 → (inClause s e = false → ∃ t, exec (.revoke e) s = .next t ∧ GoesTo s t e (s.fld ENG_PC_PC e + 1))
      ∧ exec (.revoke e) s = .next (retire (revokeClause s e 2 false) e (s.fld ENG_PC_PC e + 1)))
    ∧ (∀ g, Executes s e 2 → inClause s e = false → s.fbit ENG_BAR_BARMASK b (progOf s e) = true →
      g = (barGen s (progOf s e) b + 1) % 16 → leadBroken s (progOf s e) b g = false →
      (barComplete (setBarGen s (progOf s e) b g) b g = true →
        exec (.sync e b x label) s = .next (retire (setBarGen s (progOf s e) b g) e (s.fld ENG_PC_PC e + 2)))
      ∧ (barComplete (setBarGen s (progOf s e) b g) b g = false → x.val = 0 →
        exec (.sync e b x label) s = .next (retire (setBarGen s (progOf s e) b g) e label))
      ∧ (barComplete (setBarGen s (progOf s e) b g) b g = false → x.val ≠ 0 → ∃ t, exec (.sync e b x label) s = .next t
        ∧ t.fld ENG_STAT_STATE e = 2 ∧ (t.eng e).wait = some (.sync b g label x s.tbase)
        ∧ t.fld ENG_PC_PC e = (s.fld ENG_PC_PC e + 2) % 65536))

/-- R171, R199, R202, R203, R174: a waiting engine runs on when what it waits for comes, and its outcome shows in the flags, the PC and the
fault of CHECK as the rules give it: a time is over once its microseconds have passed from the first TBASE increment after the instruction
retired, and WAITC's condition counts until its timeout is over. CHECK passes once its condition has been true for DWELL within the timeout,
fails with CHATTER once its changes exceed CHLIM, and with TIMEOUT at the timeout's end. At which points a waiting CHECK is evaluated is the
model's choice (assumption log entry 141). -/
def Obligations.WaitingEnginesRunOn : Prop :=
  ∀ (e : Fin 48) (s : State),
    (∀ us start, s.waiting e = some (.time us start) →
      (timeOver s.tbase start us = true → ∃ t, exec (.waitEnd e) s = .next t ∧ t.fld ENG_STAT_STATE e = 1
        ∧ (t.eng e).wait = none ∧ t.mem = s.mem ∧ SameRegs s t [ENG_STAT.addr e])
      ∧ (us ≠ 0 → s.tbase ≤ start + us → exec (.waitEnd e) s = .next s))
    ∧ (∀ c label x start, s.waiting e = some (.cond c label x start) →
      (condTrue s e c = true → timeOver s.tbase start x = false → ∃ t, exec (.waitcSatisfied e) s = .next t ∧ t.fld ENG_STAT_STATE e = 1 ∧ (t.eng e).wait = none
        ∧ (c.sel ≠ 10 → SameRegs s t [ENG_STAT.addr e])
        ∧ (c.sel = 10 → c.neg = false → c.idx < 16 → t.fbit ENG_SIG_PENDING c.idx (progOf s e) = false))
      ∧ (timeOver s.tbase start x = true → ∃ t, exec (.waitcTimeout e) s = .next t ∧ t.fld ENG_STAT_STATE e = 1
        ∧ (t.eng e).wait = none ∧ t.fld ENG_PC_PC e = label % 65536 ∧ SameRegs s t [ENG_STAT.addr e, ENG_PC.addr e])
      ∧ (timeOver s.tbase start x = true → exec (.waitcSatisfied e) s = .next s)
      ∧ (timeOver s.tbase start x = false → exec (.waitcTimeout e) s = .next s))
    ∧ (∀ u, u = checkEval s → ∀ c code x y lim pc w, u.waiting e = some (.check c code x y lim pc w) →
      (checkPasses u.tbase c x y w = true → ∃ t, exec (.checkPass e) s = .next t ∧ t.fld ENG_STAT_STATE e = 1 ∧ (t.eng e).wait = none
        ∧ FlagsAre t e true false false false ∧ SameRegs s t [ENG_STAT.addr e, ENG_FLAGS.addr e])
      ∧ (checkChatters y lim w = true → ∃ t, exec (.checkChatter e) s = .next t ∧ t.fld ENG_STAT_STATE e = 1 ∧ (t.eng e).wait = none
        ∧ FlagsAre t e false false true false ∧ SameRegs s t [ENG_STAT.addr e, ENG_FLAGS.addr e]
        ∧ t.flt.due = s.flt.due ++ [⟨240 + progOf s e, progOf s e, 512 + code, wordOf pc⟩])
      ∧ (checkExpires u.tbase c x y w = true → ∃ t, exec (.checkTimeout e) s = .next t ∧ t.fld ENG_STAT_STATE e = 1
        ∧ (t.eng e).wait = none ∧ FlagsAre t e false false false false ∧ SameRegs s t [ENG_STAT.addr e, ENG_FLAGS.addr e]
        ∧ t.flt.due = s.flt.due ++ [⟨240 + progOf s e, progOf s e, 256 + code, wordOf pc⟩]))
    ∧ (∀ b g label x start, s.waiting e = some (.sync b g label x start) → timeOver s.tbase start x = true → barComplete s b g = false →
      ∃ t, exec (.syncTimeout e) s = .next t ∧ t.fld ENG_STAT_STATE e = 1 ∧ (t.eng e).wait = none
        ∧ t.fld ENG_PC_PC e = label % 65536 ∧ SameRegs s t [ENG_STAT.addr e, ENG_PC.addr e])

/-- R204, R205, R206, with R16, R18: outside a clause a rail effect that the program may issue is posted at its retire to the word of
its rail, with the operand read at retire; DISR also passes a RESUME point that its program marked (R213). At its target it does what
the matching host write of the rail's register does. PHASE ARM outside a clause retires as NOP. -/
def Obligations.RailEffectsActAsHostWrites : Prop :=
  ∀ (e : Fin 48) (n : Fin 32) (v : Src) (tg : RegWord) (rate : Fin 65536) (s : State),
    (inClause s e = false → issuing s e = false → ownCount s e < 4 →
      (Executes s e 1 → railDeny s e n true = none →
        (∃ t, exec (.enr e n) s = .next t ∧ Retired s t e (s.fld ENG_PC_PC e + 1)
          ∧ Posts s t e (0x1000 + 0x80 * n) 1 (some (.enr n)))
        ∧ (∀ u, u = (if s.mode.resumeBy = some (progOf s e) then passResume s else s) →
          ∃ t, exec (.disr e n) s = .next t ∧ Retired s t e (s.fld ENG_PC_PC e + 1)
            ∧ Posts u t e (0x1000 + 0x80 * n) 0 (some (.disr n))))
      ∧ (Executes s e (regWordWords tg) → railDeny s e n true = none →
        ∃ t, exec (.setv e n tg rate) s = .next t ∧ Retired s t e (s.fld ENG_PC_PC e + regWordWords tg)
          ∧ Posts s t e (0x1002 + 0x80 * n) (regWordValue s e tg) (some (.setv n (regWordValue s e tg).toNat rate)))
      ∧ (∀ (leader : Fin 64) (mode : Fin 8) r, Executes s e (srcWords v) → railDeny s e n true = none →
        trackRatio s e v = some r → mode.val < 3 → (leader.val < 32 ∧ s.railPresent leader = true ∨ leader.val = 63) →
        ∃ t, exec (.track e n leader mode v) s = .next t ∧ Retired s t e (s.fld ENG_PC_PC e + srcWords v)
          ∧ Posts s t e (0x1006 + 0x80 * n) (wordOf (65536 * (r.toNat % 65536) + 256 * mode + leader))
            (some (.track n leader mode (r.toNat % 65536))))
      ∧ (∀ w, Executes s e (srcWords v) → railDeny s e n false = none → srcValue s e v = some w →
        (∃ t, exec (.seti e n v) s = .next t ∧ PostsField s t e n 0x19 w (srcWords v))
        ∧ (∃ t, exec (.setf e n v) s = .next t ∧ PostsField s t e n 0x0D w (srcWords v))
        ∧ (∃ t, exec (.phaseMap e n v) s = .next t ∧ PostsField s t e n 0x10 w (srcWords v))
        ∧ (∃ t, exec (.phaseTh e n v) s = .next t ∧ PostsField s t e n 0x11 w (srcWords v))
        ∧ (∃ t, exec (.phaseDly e n v) s = .next t ∧ PostsField s t e n 0x12 w (srcWords v))
        ∧ (∃ t, exec (.phaseBal e n v) s = .next t ∧ PostsField s t e n 0x13 w (srcWords v))
        ∧ (∃ t, exec (.phaseLph e n v) s = .next t ∧ PostsField s t e n 0x0E w (srcWords v))
        ∧ (∃ t, exec (.hicc e n v) s = .next t ∧ PostsField s t e n 0x1B w (srcWords v))
        ∧ (∀ kind : Fin 8, kind.val < 6 → ∃ t, exec (.bound e n kind v) s = .next t ∧ PostsField s t e n (0x1D + kind) w (srcWords v))
        ∧ (∃ t, exec (.phaseUnfence e n v) s = .next t ∧ Retired s t e (s.fld ENG_PC_PC e + srcWords v)
          ∧ Posts s t e (0x1018 + 0x80 * n) w (some (.unfence n w)))))
    ∧ (∀ w, inClause s e = false → Executes s e (srcWords v) → railDeny s e n false = none → srcValue s e v = some w →
      ∃ t, exec (.phaseArm e n v) s = .next t ∧ GoesTo s t e (s.fld ENG_PC_PC e + srcWords v))
    ∧ (∀ (w : Word) (off lead mode r : Nat) tr q, takeTransfer e s.armq = some (tr, q) → s.powered 1 = true → tr.master = e.val →
      tr.kind = .write → tr.comp = ~~~tr.value → s.railOpen n = true → ∀ u, u = { s with armq := q } →
      ∀ x ∈ [((.enr n : Effect), railEnable u n), (.disr n, railDisable u n), (.setv n w.toNat rate, railSetTarget u n w.toNat rate e),
          (.railField n off w, railWrite u n off e w), (.unfence n w, railUnfence u n w), (.track n lead mode r, railTrack u n lead mode r)],
        tr.act = some x.1 → (x.2.1.eng e).issue = [] →
        ∃ t, exec (.armatureTransfer [.queue e] none) s = .next t ∧ t.rails = x.2.1.rails ∧ t.mem = x.2.1.mem ∧ t.armq = x.2.1.armq
          ∧ (∀ k, cellGet 0 t.regs k = cellGet 0 x.2.1.regs k) ∧ t.flt = x.2.1.flt
          ∧ (t.eng e).posted = (x.2.1.eng e).posted ++ (if x.2.2 = .ok then [] else [⟨x.2.2, freezeCause x.2.2, tr.addr⟩]))

/-- R176, R177, R207: in a clause the rail effects, MODE RESUME and MODE PASS are held with the operand values of their retire, up to
sixteen, and a seventeenth stalls; SETV and PHASE ARM act as the clause term. -/
def Obligations.ClauseHoldsEffects : Prop :=
  ∀ (e : Fin 48) (n : Fin 32) (v : Src) (w : Word) (tg : RegWord) (rate : Fin 65536) (s : State), inClause s e = true →
    (railDeny s e n false = none →
      (Executes s e 1 → HoldsEffect s e (.enr e n) (.enr n) 1 ∧ HoldsEffect s e (.disr e n) (.disr n) 1)
      ∧ (Executes s e (srcWords v) → srcValue s e v = some w →
        HoldsEffect s e (.seti e n v) (.railField n 0x19 w) (srcWords v)
        ∧ HoldsEffect s e (.setf e n v) (.railField n 0x0D w) (srcWords v)
        ∧ HoldsEffect s e (.phaseMap e n v) (.railField n 0x10 w) (srcWords v)
        ∧ HoldsEffect s e (.phaseUnfence e n v) (.unfence n w) (srcWords v)
        ∧ HoldsEffect s e (.phaseTh e n v) (.railField n 0x11 w) (srcWords v)
        ∧ HoldsEffect s e (.phaseDly e n v) (.railField n 0x12 w) (srcWords v)
        ∧ HoldsEffect s e (.phaseBal e n v) (.railField n 0x13 w) (srcWords v)
        ∧ HoldsEffect s e (.phaseLph e n v) (.railField n 0x0E w) (srcWords v)
        ∧ HoldsEffect s e (.hicc e n v) (.railField n 0x1B w) (srcWords v)))
    ∧ (Executes s e 1 → HoldsEffect s e (.modeResume e) .modeResume 1 ∧ HoldsEffect s e (.modePass e) .modePass 1)
    ∧ (∀ u, u = clauseSetv s e n (regWordValue s e tg).toNat rate → Executes s e (regWordWords tg) → railDeny s e n true = none →
      inClause u e = true → exec (.setv e n tg rate) s = .next (retire u e (s.fld ENG_PC_PC e + regWordWords tg)))
    ∧ (∀ u, u = clauseArm s e n w.toNat → Executes s e (srcWords v) → railDeny s e n false = none → srcValue s e v = some w →
      inClause u e = true → exec (.phaseArm e n v) s = .next (retire u e (s.fld ENG_PC_PC e + srcWords v)))

/-- R209, R222: BREQ sets the requested level, with the grant cut to it at once and the rest pending; BREL lowers the grant and never
raises it. -/
def Obligations.BudgetInstructionsSetLevels : Prop :=
  ∀ (e : Fin 48) (k : Fin 8) (v : Src) (w : Word) (s : State), Executes s e (srcWords v) → srcValue s e v = some w →
    w.toNat < 2 ^ 20 → budgetRight s (progOf s e) k w.toNat = true → s.powered 4 = true → inClause s e = false → mustWait s e = false →
    (∃ t, exec (.breq e k v) s = .next t
      ∧ (t.progClaim (progOf s e) k).level = w.toNat
      ∧ (t.progClaim (progOf s e) k).grant = min (s.progClaim (progOf s e) k).grant w.toNat
      ∧ (t.progClaim (progOf s e) k).pending = decide ((s.progClaim (progOf s e) k).grant < w.toNat)
      ∧ t.mem = s.mem ∧ Retired s t e (s.fld ENG_PC_PC e + srcWords v) ∧ SameRegs s t (retireKeys s e))
    ∧ (∃ t, exec (.brel e k v) s = .next t
      ∧ (t.progClaim (progOf s e) k).grant = min (s.progClaim (progOf s e) k).grant w.toNat
      ∧ t.mem = s.mem ∧ Retired s t e (s.fld ENG_PC_PC e + srcWords v) ∧ SameRegs s t (retireKeys s e))

/-- R211–R217, R16, R18: outside a clause the coordination instructions act at their retire; SIG and LOG post the transfer that carries the
signal or the record, and the others wait until none of the engine's transfers is on its way. That signals and records leave as transfers
and the others act in the engine's own unit, that CKPT's frame counts the CKPT, and the addresses of the transfers of signals and records
are the model's choice (assumption log entries 109, 111 and 126). -/
def Obligations.CoordinationInstructionsAct : Prop :=
  ∀ (e : Fin 48) (q : Fin 64) (n d port : Fin 16) (target : Fin 16) (sdend : Fin 4) (code : Fin 65536) (a : Fin 16)
    (b : Option (Fin 16)) (kind : Fin 4) (i : Fin 32) (ic scale : Fin 64) (level : Bool) (wd : Fin 8) (s : State),
    Executes s e 1 → inClause s e = false → issuing s e = false →
    (∀ m, m = (⟨progOf s e, q, n, (cellGet 0 (s.prog (progOf s e)).sigTx q + 1) % 256, s.flag ENG_STAT_REPLAY e⟩ : SigMsg) →
      q.val < 48 → s.engPresent q = true → ownCount s e < 4 →
      ∃ t, exec (.sig e q n) s = .next t ∧ cellGet 0 (t.prog (progOf s e)).sigTx q = m.seq
        ∧ t.armq = s.armq ++ [⟨e, sigTarget s q, wordOf (2 ^ n.val), ~~~(wordOf (2 ^ n.val)), .write, cellGet 0 s.armSeq e,
          some (.signal m)⟩] ∧ t.sigs = s.sigs
        ∧ Retired s t e (s.fld ENG_PC_PC e + 1) ∧ SameRegs s t (retireKeys s e) ∧ t.mem = s.mem)
    ∧ (ownCount s e < 4 → ∃ t r, exec (.log e code a b) s = .next t ∧ Posts s t e 0xB00 (s.g e a) (some (.record r))
      ∧ r.kind = 3 ∧ r.src = progOf s e ∧ r.time = s.tbase ∧ r.replay = s.flag ENG_STAT_REPLAY e
      ∧ r.bytes = natBytes 2 code ++ natBytes 4 (s.g e a).toNat
        ++ natBytes 4 (match b with | some g => (s.g e g).toNat | none => 0) ++ natBytes 2 (s.fld ENG_PC_PC e)
      ∧ Retired s t e (s.fld ENG_PC_PC e + 1))
    ∧ (∀ tr l, takeTransfer e s.armq = some (tr, l) → s.powered 1 = true → tr.master = e.val → tr.kind = .write →
      tr.comp = ~~~tr.value → (s.eng e).issue = [] →
      (∀ m, tr.act = some (.signal m) → ∃ t, exec (.armatureTransfer [.queue e] none) s = .next t ∧ t.sigs = s.sigs ++ [m]
        ∧ t.armq = l ∧ t.regs = s.regs ∧ t.mem = s.mem)
      ∧ (∀ r, tr.act = some (.record r) → s.powered 10 = true → s.flag PAT_CTRL_EN = true → s.pat.queue.length < 8 →
        ∃ t, exec (.armatureTransfer [.queue e] none) s = .next t ∧ t.pat.queue = s.pat.queue ++ [r]
          ∧ t.armq = l ∧ t.regs = s.regs ∧ t.mem = s.mem))
    ∧ (ownTransfer s e = false → target.val ∈ [4, 5, 6, 7, 8, 11] → (sdend.val = 0 ∨ target.val = 11) → ∃ t, exec (.mode e target sdend) s = .next t
      ∧ t.mode.reqs = s.mode.reqs ++ [{ src := .engine e, target := target, sdend := sdend, key := 0, held := false }]
      ∧ Retired s t e (s.fld ENG_PC_PC e + 1) ∧ SameRegs s t (retireKeys s e) ∧ t.mem = s.mem)
    ∧ (ownTransfer s e = false → s.cur = 11 → exec (.modeResume e) s = .next (retire { s.setFlag SYS_MODE_RESUME true with
        mode := { s.mode with resumeBy := some (progOf s e) } } e (s.fld ENG_PC_PC e + 1)))
    ∧ (ownTransfer s e = false → exec (.modePass e) s = .next (retire { s.setFlag SYS_MODE_RESUME false with
        mode := { s.mode with resumeBy := none } } e (s.fld ENG_PC_PC e + 1)))
    ∧ (ownTransfer s e = false → fenceDeny s e kind i = none → ∃ t, exec (.fence e kind i) s = .next t
      ∧ t.flt.due = s.flt.due ++ [⟨340, progOf s e, 256 * kind + i, 0⟩]
      ∧ Retired s t e (s.fld ENG_PC_PC e + 1) ∧ SameRegs s t (retireKeys s e) ∧ t.mem = s.mem)
    ∧ (s.powered 10 = true → exec (.ckpt e) s = .next (ckStart (retire s e (s.fld ENG_PC_PC e + 1)) e (progOf s e)
        ((s.fld ENG_PC_PC e + 1) % 65536)))
    ∧ (ownTransfer s e = false → intentRight s e port = true → ∃ t, exec (.intent e d port ic scale) s = .next t
      ∧ t.g e d = wordOf (intentBeat s port ic scale).2
      ∧ t.flag ENG_FLAGS_Z e = ((intentBeat s port ic scale).2 == 1)
      ∧ t.fld ENG_PC_PC e = (s.fld ENG_PC_PC e + 1) % 65536)
    ∧ (ownTransfer s e = false → n.val < 8 → wrBit s (progOf s e) 9 = true → exec (.out e n level) s = .next (retire
        (rstoUpdate (s.setFlag RSTO_CFG_TERM level n)) e (s.fld ENG_PC_PC e + 1)))
    ∧ (s.flag ENG_STAT_REPLAY e = true → ∃ t, exec (.kick e wd n) s = .next t ∧ GoesTo s t e (s.fld ENG_PC_PC e + 1))
    ∧ (s.flag ENG_STAT_REPLAY e = false → exec (.kick e wd n) s
        = .next (retire (wdCheckin s wd n (progOf s e)) e (s.fld ENG_PC_PC e + 1)))

/-- R184, R188, R189, R193–R197, R204: an access rule that an instruction breaks freezes the engine with the rule's cause and, for an
access cause, the word address: the state is FROZEN, the PC stays at the instruction, FROZEN is raised and source 338 asserts. -/
def Obligations.AccessViolationsFreeze : Prop :=
  ∀ (e : Fin 48) (d a : Fin 16) (imm : BitVec 18) (im : BitVec 22) (n : Fin 64) (s : State), inClause s e = false → Executes s e 1 →
    (∃ t, exec (.undefinedEncoding e) s = .next t ∧ FreezesEngine s t e 7 0)
    ∧ (65536 ≤ im.toNat → ∃ t, exec (.movh e d im) s = .next t ∧ FreezesEngine s t e 7 0)
    ∧ (32 ≤ n.val → ∃ t, exec (.sat e d a n) s = .next t ∧ FreezesEngine s t e 7 0)
    ∧ (∀ g, ∃ t, exec (.jc e 15 g) s = .next t ∧ FreezesEngine s t e 7 0)
    ∧ (8 ≤ (s.eng e).stack.length → ∀ g, ∃ t, exec (.call e g) s = .next t ∧ FreezesEngine s t e 8 0)
    ∧ ((s.eng e).stack = [] → ∃ t, exec (.ret e) s = .next t ∧ FreezesEngine s t e 8 0)
    ∧ (∀ addr, addr = (s.g e a + imm.signExtend 32).toNat →
      (dataWord (progOf s e) addr = none →
        (∃ t, exec (.ld e d a imm) s = .next t ∧ FreezesEngine s t e 4 addr)
        ∧ ∃ t, exec (.st e d a imm) s = .next t ∧ FreezesEngine s t e 4 addr)
      ∧ (stxAllowed s e (addr % 65536) = false → ∃ t, exec (.stx e d a imm) s = .next t ∧ FreezesEngine s t e 5 (addr % 65536)))
    ∧ (∀ (r : Fin 32) cause, railDeny s e r true = some cause →
      (∃ t, exec (.enr e r) s = .next t ∧ FreezesEngine s t e cause 0)
      ∧ ∃ t, exec (.disr e r) s = .next t ∧ FreezesEngine s t e cause 0)
/-! ## Modes and clocks (02_modes.md, 01_architecture.md) -/

/-- R33, R43, R336: a write of SYS_MODEREQ keeps the target and the end state asked for in its port's copy. A target of 0xC to 0xF is
ILLEGAL, PROVISION after PROVDIS is OTPDENY, a wrong mode key is KEYERR and freezes the port with cause 3, and any other request goes to
the mode controller. The pair that it brings ends a mismatch of the word (R372) and a split pair that waits at it (R373). A frozen port
writes nothing. -/
def Obligations.HostModeRequestsAreChecked : Prop :=
  ∀ (p : Fin 3) (key : Fin 65536) (target : Fin 16) (sdend : Fin 4) (s : State),
    s.powered 7 = true → s.powered 0 = true → s.flag SYS_BOOTSTAT_OTPHOLD = false →
    (s.flag SYS_HSTAT_FROZEN p = true → exec (.hostModeRequest p key target sdend) s = .next s)
    ∧ (∀ st,
      st = (if 12 ≤ target.val then 4
        else if target.val = 10 ∧ s.otp.provdis = true then 6
        else if target.val = 9 ∧ key.val ≠ 0x5E7C ∨ target.val = 10 ∧ key.val ≠ 0xB0F1
            ∨ target.val = 5 ∧ s.cur = 8 ∧ key.val ≠ 0x0DE6 then 5
        else 1) → s.flag SYS_HSTAT_FROZEN p = false →
      ∃ t, exec (.hostModeRequest p key target sdend) s = .next t
        ∧ t.fld SYS_MODEREQ_TARGET (0x30 + p) = target ∧ t.fld SYS_MODEREQ_SDEND (0x30 + p) = sdend
        ∧ t.fld SYS_MODEREQ_STATUS (0x30 + p) = st
        ∧ t.mode = { s.mode with reqs := s.mode.reqs
            ++ (if st = 1 then [{ src := .host p, target := target, sdend := sdend, key := key, held := false }] else []) }
        ∧ (st ≠ 5 → t = { hostAsked s p 0x22 with
              regs := t.regs, mode := t.mode, pairs := t.pairs, flt := { s.flt with level := t.flt.level }
              chk := { s.chk with split := t.chk.split, late := t.chk.late, told := t.chk.told } }
          ∧ t.pairBad 0x22 = false ∧ SameRegs s t [SYS_MODEREQ.addr (0x30 + p)])
        ∧ (st = 5 → t.flag SYS_HSTAT_FROZEN p = true ∧ t.fld SYS_HSTAT_CAUSE p = 3 ∧ t.fld SYS_HSTAT_ADDR p = 0x22
          ∧ t.flt.due = s.flt.due ++ [⟨352, p, 3, 0x22⟩] ∧ t.mem = s.mem
          ∧ SameRegs s t [SYS_MODEREQ.addr (0x30 + p), SYS_HSTAT.addr p, SYS_HEVT.addr 0]))

/-- R45, R41: while no transition is in progress and no domain drains, an arbitration over requests none of which asks for a row of
R45's table leaves the mode as it is and answers each host ILLEGAL. -/
def Obligations.OtherTransitionsAreRefused : Prop :=
  ∀ (s : State) (rows : List (Nat × Nat)), s.powered 0 = true → s.mode.trans = none → s.mode.optRelease = [] → s.cur < 11 →
    rows = [(0, 2), (1, 2), (2, 3), (2, 4), (2, 11), (3, 2), (3, 10), (3, 11), (4, 5), (4, 6), (4, 7), (4, 8), (4, 11), (4, 9), (4, 10), (5, 4), (5, 6), (5, 7),
      (5, 8), (5, 11), (5, 9), (6, 5), (6, 4), (6, 8), (6, 11), (7, 5), (7, 4), (7, 8), (7, 11), (8, 4), (8, 11), (8, 5), (8, 9),
      (9, 4), (9, 11), (10, 11)] →
    (∀ r ∈ s.mode.reqs, (s.cur, r.target) ∉ rows ∧ r.target ≠ 11 ∧ ∀ p, r.src = .host p → p < 3) →
    ∃ t, exec .modeArbitration s = .next t ∧ t.cur = s.cur ∧ t.mode.trans = none ∧ t.mode.reqs = []
      ∧ (∀ p : Fin 3, (∃ r ∈ s.mode.reqs, r.src = .host p) → t.fld SYS_MODEREQ_STATUS (0x30 + p) = 4)
      ∧ SameRegs s t [SYS_MODEREQ.addr 0x30, SYS_MODEREQ.addr 0x31, SYS_MODEREQ.addr 0x32]

/-- R41, R42, R46: one evaluation of the mode controller takes the highest-ranked request that R45 allows, answers it OK, refuses those
that lose as OVERRULED, holds a SHUTDOWN request that loses, answers those that R45 does not allow ILLEGAL, and the transition begins:
TARGET reads its mode. Without a request nothing follows, and while a transition waits for its drains the requests are held. -/
def Obligations.ArbitrationBeginsTheTransition : Prop :=
  ∀ (s : State), s.powered 0 = true →
    (∀ (a b : List ModeReq) (r : ModeReq), s.mode.reqs.filter (reqLegal s) = a ++ r :: b →
      s.mode.trans = none → s.mode.optRelease = [] → s.cur ≠ 1 → s.cur ≠ 11 →
      (∀ x ∈ a, reqRank r < reqRank x) → (∀ x ∈ b, reqRank r ≤ reqRank x) →
      ∀ bad, bad = s.mode.reqs.filter (fun x => !reqLegal s x) →
      ∀ u, u = (bad.filter (fun x => !(x.target == 11 && x.held))).foldl (fun s x => answerReq s x .illegal)
        { s with mode := { s.mode with reqs := [] } } →
      ∀ v, v = ((a ++ b).filter (fun x => !(x.target == 11))).foldl (fun s x => answerReq s x .overruled) u →
      ∀ pend, pend = bad.filter (fun x => x.target == 11 && x.held)
        ++ ((a ++ b).filter (fun x => x.target == 11)).map (fun x => { x with held := true }) →
      exec .modeArbitration s = .next (beginTransition { answerReq v r .ok with mode := { s.mode with reqs := pend } } r)
        ∧ ∃ t, exec .modeArbitration s = .next t ∧ t.fld SYS_MODE_TARGET = r.target ∧ t.mode.optTiers = []
          ∧ (t.flag SYS_MODE_TRANS = true ∨ t.cur = r.target)
          ∧ ∀ p : Fin 3, r.src = .host p → (∀ x ∈ a ++ b ++ bad, x.src ≠ .host p) → t.fld SYS_MODEREQ_STATUS (0x30 + p) = 2)
    ∧ (s.mode.trans = none → s.mode.optRelease = [] → s.mode.reqs = [] → exec .modeArbitration s = .next s)
    ∧ (∀ x, s.mode.trans = some x → x.target ≠ 2 → x.release.any (domainBusy s) = true →
      ∃ t, exec .modeArbitration s = .next t ∧ t.mode.trans = some x ∧ t.cur = s.cur ∧ (∀ r ∈ t.mode.reqs, r.held = true)
        ∧ SameRegs s t [SYS_MODEREQ.addr 0x30, SYS_MODEREQ.addr 0x31, SYS_MODEREQ.addr 0x32])

/-- R22, R24, R35, R46, R70: a tier of domains comes up in its turn, and with the last one the transition completes; a switch that does not
reach its state sets SWFAULT and asserts fault 362 for its domain, whose later tiers are left out; OPT holds its writable bits, and in
another mode nothing else follows. What a write of SYS_PDOPT begins and drains is the model's choice (assumption log entry 19). -/
def Obligations.DomainCommandsAct : Prop :=
  ∀ (s : State), s.powered 0 = true →
    (∀ (x : Transition) (d y : List Nat) (rest : List (List Nat)), s.mode.trans = some x → x.tiers = d :: y :: rest → x.release = [] →
      x.target ≠ 2 → x.old ≠ 7 → ∀ u, u = d.foldl domainOn s → safetyAborts u = false →
      exec .domainTierComplete s = .next { u with mode := { u.mode with trans := some { x with tiers := y :: rest, release := [] } } })
    ∧ (∀ x, s.mode.trans = some x → ∀ d, x.tiers = [d] → x.release = [] → x.target ≠ 2 → x.target < 11 →
      x.old ≠ 7 → s.mode.reqs = [] → s.flag SYS_MODECFG_FENCEDEG = false →
      ∃ t, exec .domainTierComplete s = .next t ∧ t.cur = x.target ∧ t.mode.trans = none ∧ t.flag SYS_MODE_TRANS = false)
    ∧ (s.mode.trans = none → ∀ d rest, s.mode.optTiers = d :: rest → ∀ u, u = d.foldl domainOn s →
      exec .domainTierComplete s = .next { u with mode := { s.mode with optTiers := rest } })
    ∧ (∀ d : Fin 12, d.val ≠ 0 → s.fbit PDC_STAT_ON d = false → s.mode.trans = none →
      ∃ t, exec (.pdSwitch d) s = .next t ∧ t.fbit PDC_STAT_SWFAULT d = true
        ∧ t.flt.due = s.flt.due ++ [⟨362, d, 0, 0⟩] ∧ t.mode = { s.mode with optTiers := withoutDomain d s.mode.optTiers }
        ∧ t = { s with regs := t.regs, flt := t.flt, mode := t.mode } ∧ SameRegs s t [PDC_STAT.addr 0])
    ∧ (∀ w : Word, s.mode.trans = none →
      (s.writesOpen = true →
        (s.cur ≠ 4 → ∃ t, exec (.pdoptWrite false w) s = .next t ∧ t.fld SYS_PDOPT_SB_OPT = w.toNat &&& 0x320
          ∧ RegsOnly s t [SYS_PDOPT_SB.addr 0])
        ∧ (s.cur ≠ 10 → ∃ t, exec (.pdoptWrite true w) s = .next t ∧ t.fld SYS_PDOPT_PV_OPT = w.toNat &&& 0x850
          ∧ RegsOnly s t [SYS_PDOPT_PV.addr 0]))
      ∧ (s.writesOpen = false → ∀ pv, exec (.pdoptWrite pv w) s = .next s))

/-- R46, R47, R51–R53, R72, R476: what leads to WAKE. CUR and TARGET read WAKE at once, TRANS is set, SYS_WAKESRC names the wake source and
SYS_BOOTSTAT.STEP the step. The step at which a chip reset begins WAKE is the model's choice (assumption log entry 16). -/
def Obligations.WakeEntriesShowWake : Prop :=
  ∀ (s : State) (btn src errin : Bool),
    (s.powered 0 = true → s.flt.chipReset.isSome = true → ∃ t, exec .chipReset s = .next t ∧ t.cur = 2 ∧ t.flag SYS_MODE_TRANS = true
      ∧ t.fld SYS_MODE_TARGET = 2 ∧ t.reg SYS_WAKESRC = 0x20
      ∧ t.fld SYS_BOOTSTAT_STEP = (if s.fbit PDC_STAT_ON 1 then 2 else 1) ∧ (s.otp.cmd = none → t.mem = s.mem)
      ∧ t.fld SYS_BOOTCNT_FAILS = s.fld SYS_BOOTCNT_FAILS
      ∧ t.rails = [] ∧ t.engs = [] ∧ t.armq = [])
    ∧ (∀ x, s.powered 0 = true → s.cur = 3 → s.mode.trans = some x → x.target = 2 → ∃ t, exec .plinthWake s = .next t ∧ t.cur = 2
      ∧ t.flag SYS_MODE_TRANS = true ∧ t.fld SYS_MODE_TARGET = 2 ∧ t.reg SYS_WAKESRC = 0x100 ∧ t.fld SYS_BOOTSTAT_STEP = 2
      ∧ (s.otp.cmd = none → t.mem = s.mem) ∧ t.rails = [])
    ∧ (s.pins.preOff = false → ∃ t, exec .pd0PowerUp s = .next t ∧ t.regs = [] ∧ t.rails = [] ∧ t.engs = [] ∧ t.mode = State.reset.mode
      ∧ t.part = s.part)
    ∧ (s.cur = 0 → (btn || src) = true → ∃ t, exec (.latchWake btn src) s = .next t
      ∧ t.reg SYS_WAKESRC = wordOf (0xC0 + btn.toNat + 2 * src.toNat) ∧ t.rails = [] ∧ t.pins.wakeBtn = btn ∧ t.pins.srcdet = src)
    ∧ (∀ on, s.powered 0 = true → s.cur = 1 → s.flag SYS_DIELIM_ASSERT = false →
      on = (btn.toNat + 2 * src.toNat + 4 * errin.toNat) &&& (s.reg SYS_WAKECFG).toNat % 16 → on ≠ 0 →
      ∃ t, exec (.dormantWake btn src errin) s = .next t ∧ t.cur = 2 ∧ t.flag SYS_MODE_TRANS = true ∧ t.reg SYS_WAKESRC = wordOf on
        ∧ t.fld SYS_BOOTSTAT_STEP = 1 ∧ t.fld SYS_MODESRC_HWCAUSE = 6)
    ∧ (s.powered 0 = true → s.cur = 1 → s.flag SYS_DIELIM_ASSERT = false → s.fld SYS_WAKEALM_SECONDS ≠ 0 →
      (s.reg SYS_WAKECFG).getLsbD 3 = true → ∃ t, exec .wakeAlarm s = .next t ∧ t.cur = 2 ∧ t.flag SYS_MODE_TRANS = true
        ∧ t.reg SYS_WAKESRC = 8 ∧ t.fld SYS_BOOTSTAT_STEP = 1 ∧ t.fld SYS_MODESRC_HWCAUSE = 6)
    ∧ (s.powered 0 = true → s.cur = 11 → s.mode.rearm = true → s.mode.optRelease = [] → ∃ t, exec .rearmExpired s = .next t ∧ t.cur = 2
      ∧ t.flag SYS_MODE_TRANS = true ∧ t.reg SYS_WAKESRC = 0x10 ∧ t.fld SYS_BOOTSTAT_STEP = 1 ∧ t.fld SYS_MODESRC_HWCAUSE = 9
      ∧ t.mode.rearm = false)

/-- R40, R47, R48, R322, R411: PREIN below the input-loss threshold asks for SHUTDOWN with cause 0x01, once until it has stood above it (the
model's choice, assumption log entry 63); the shutdown deadline asserts fault 363; it
and the end of the down-sequence lead on to the end state: DORMANT, SHIP, which a wake input blocks, or the re-arm of a restart; the WAKE deadline is a failed start with reason 0x31; the release of the die limit ends ASSERT, and at most one comparator stays (which
one is the model's choice, assumption log entry 159). -/
def Obligations.SupplyAndDeadlineEventsAct : Prop :=
  ∀ (s : State) (again : Bool) (mv : Nat), s.powered 0 = true →
    again = (decide (shutdownEnd s = 2)
      || decide (shutdownEnd s = 0) && decide (s.fld SYS_MODESRC_HWCAUSE = 1) && !s.pins.inputLow) →
    (mv < inlossThreshold s → s.pins.inputLow = false → ∃ t, exec (.inputSupplyLost mv) s = .next t ∧ t.pins.inputLow = true
      ∧ t.mode.reqs = s.mode.reqs ++ [{ src := .hw 1, target := 11, sdend := 0 }] ∧ t.regs = s.regs ∧ t.mem = s.mem)
    ∧ (mv < inlossThreshold s → s.pins.inputLow = true → exec (.inputSupplyLost mv) s = .next s)
    ∧ (inlossThreshold s ≤ mv → ∃ t, exec (.inputSupplyLost mv) s = .next t ∧ t = { s with pins := { s.pins with inputLow := false } })
    ∧ (s.cur = 11 → s.mode.trans = none → s.mode.rearm = false → s.mode.deadline = false →
      (∃ t, exec .shutdownDeadline s = .next t ∧ ⟨363, 0, 0, 0⟩ ∈ t.flt.due
        ∧ (again = true → t.mode.rearm = true ∧ t.cur = 11) ∧ (again = false → t.fld SYS_MODE_TARGET ≤ 1)
        ∧ (again = false → shutdownEnd s = 0 → t.fld SYS_MODE_TARGET = 1))
      ∧ ∀ btn src, (downRunning s = true → exec (.downSequenceEnd btn src) s = .next (s.setWakePins btn src))
        ∧ (downRunning s = false → ∃ t, exec (.downSequenceEnd btn src) s = .next t
          ∧ (again = true → t.mode.rearm = true ∧ t.cur = 11) ∧ (again = false → t.fld SYS_MODE_TARGET ≤ 1)
          ∧ (again = false → shutdownEnd s = 0 ∨ (btn || src) = true → t.fld SYS_MODE_TARGET = 1)))
    ∧ (s.cur = 2 → s.mode.wakeTimer = true → s.boot.failDue = none → s.boot.failing = none → ∃ t, exec .wakeDeadline s = .next t
      ∧ t.boot.failDue = some 0x31 ∧ t.mode.wakeTimer = false ∧ t.regs = s.regs ∧ t.mem = s.mem)
    ∧ (s.flag SYS_DIELIM_ASSERT = true → s.mode.heldWakes = 0 → ∃ t, exec .dieLimitRelease s = .next t
      ∧ t.flag SYS_DIELIM_ASSERT = false
      ∧ (t.fld SYS_DIELIM_SENS = 0 ∨ ∃ k : Fin 9, t.fld SYS_DIELIM_SENS = 2 ^ k.val ∧ (s.fld SYS_DIELIM_SENS).testBit k = true)
      ∧ SameRegs s t [SYS_DIELIM.addr 0] ∧ t.mem = s.mem)
    ∧ (s.flag SYS_DIELIM_ASSERT = false → ∃ t, exec .dieLimitRelease s = .next t ∧ t.fld SYS_DIELIM_SENS = 0
      ∧ RegsOnly s t [SYS_DIELIM.addr 0])

/-- R50: an hour counter counts a second of its mode and stops at its last value; the keyed clear needs SERVICE or PROVISION. That a wrong
key is judged before the mode, and that a keyed row without a port freezes none, are the model's choice (assumption log entries 21 and 152).
-/
def Obligations.HourCountersCountAndClear : Prop :=
  ∀ (s : State) (m : Fin 12) (w : Word), s.powered 0 = true →
    (s.cur ≠ 0 → 1000000 ≤ cellGet 0 s.mode.hourAcc s.cur → ∃ t, exec .hourSecondElapsed s = .next t
      ∧ t.fld SYS_HOUR_SECONDS s.cur = min 0xFFFFFFFF (s.fld SYS_HOUR_SECONDS s.cur + 1)
      ∧ cellGet 0 t.mode.hourAcc s.cur = cellGet 0 s.mode.hourAcc s.cur - 1000000 ∧ SameRegs s t [SYS_HOUR.addr s.cur])
    ∧ (w = 0x0C1E0000 → (s.cur = 9 ∨ s.cur = 10) → s.writesOpen = true → ∃ t, exec (.hourClear m w) s = .next t ∧ t.reg SYS_HOUR m = 0
      ∧ RegsOnly s t [SYS_HOUR.addr m])
    ∧ (w.toNat / 65536 ≠ 0x0C1E ∨ s.cur ≠ 9 ∧ s.cur ≠ 10 → exec (.hourClear m w) s = .next s)

/-- R27, R28: the references of the PLLs. With TREF lost the timing PLL goes to the crystal and stays locked while the core PLL is locked;
with the crystal lost the core PLL loses its lock and fault 361 stands, and the timing PLL is locked only on TREF. What becomes of TIMELOCK
at a loss of TREF with a dead crystal and at its return is the model's choice (assumption log entries 128 and 129). -/
def Obligations.ClockReferencesAct : Prop :=
  ∀ (s : State),
    (s.powered 4 = true → s.flag CLK_STAT_TREFSEL = true → ∃ t, exec .trefLoss s = .next t ∧ t.flag CLK_STAT_TREFSEL = false
      ∧ t.flag CLK_STAT_TREFLOSS = true
      ∧ t.flag CLK_STAT_TIMELOCK = (s.flag CLK_STAT_CORELOCK && s.flag CLK_STAT_TIMELOCK) ∧ RegsOnly s t [CLK_STAT.addr 0])
    ∧ (s.powered 4 = true → ∃ t, exec .trefReturn s = .next t ∧ t.flag CLK_STAT_TREFSEL = true ∧ t.flag CLK_STAT_TIMELOCK = true
      ∧ RegsOnly s t [CLK_STAT.addr 0])
    ∧ (s.powered 1 = true → ∃ t, exec .xtalLoss s = .next t ∧ t.flag CLK_STAT_XTALFAIL = true ∧ t.flag CLK_STAT_CORELOCK = false
      ∧ t.flag CLK_STAT_TIMELOCK = (s.flag CLK_STAT_TREFSEL && s.flag CLK_STAT_TIMELOCK)
      ∧ (cellGet false s.flt.level (65536 * 361) = false → t.flt.due = s.flt.due ++ [⟨361, 0, 0, 0⟩])
      ∧ SameRegs s t [CLK_STAT.addr 0] ∧ t.mem = s.mem)
    ∧ (s.powered 1 = true → cellGet false s.flt.level (65536 * 361) = true → ∃ t, exec .corePllRelock s = .next t
      ∧ t.flag CLK_STAT_CORELOCK = true ∧ t.flag CLK_STAT_TIMELOCK = s.powered 4 ∧ t.flt.due = s.flt.due
      ∧ cellGet false t.flt.level (65536 * 361) = false ∧ SameRegs s t [CLK_STAT.addr 0])
/-! ## Start-up (03_start_up.md) -/

/-- R54–R57: steps 1 to 5 of the WAKE sequence. Each ends in its turn: PD1 is powered, the core PLL locks, the OTP arrays pass their
integrity checks and are delivered, the timing PLL locks with the domains up, and the self-test passes. An integrity failure, PARTEN
that does not check among them, holds the device with OTPHOLD, and a failed test is a failed start with reason 0x20. -/
def Obligations.WakeStepsFollowInOrder : Prop :=
  ∀ (s : State) (damage : List (Fin 128 × Word)) (wires : Fin 1048576) (fails : Fin 1024) (onTref : Bool),
    (s.powered 0 = true → wakeAt s 1 = true → s.fbit PDC_STAT_SWFAULT 1 = false → safetyAborts s = false →
      ∃ t, exec .coreSoftStartDone s = .next t ∧ t.fld SYS_BOOTSTAT_STEP = 2 ∧ t.fbit PDC_STAT_ON 1 = true)
    ∧ (s.powered 1 = true → wakeAt s 2 = true →
      ∃ t, exec .corePllLock s = .next t ∧ t.fld SYS_BOOTSTAT_STEP = 3 ∧ t.flag CLK_STAT_CORELOCK = true)
    ∧ (s.powered 1 = true → wakeAt s 3 = true →
      (otpIntegrity s damage wires = false → ∃ t, exec (.otpLoad damage wires) s = .next t ∧ t.flag SYS_BOOTSTAT_OTPHOLD = true
        ∧ t.fld SYS_BOOTSTAT_STEP = 3)
      ∧ (wires.val % 2 = 1 ∨ damage = [(0, 1)] → otpIntegrity s damage wires = false)
      ∧ (otpIntegrity s damage wires = true → s.boot.carry = false → ∃ t, exec (.otpLoad damage wires) s = .next t
        ∧ t.fld SYS_BOOTSTAT_STEP = 4 ∧ t.flag OTP_STAT_LOADED = true ∧ t.flag SYS_BOOTSTAT_OTPHOLD = false))
    ∧ (s.powered 4 = true →
      (∃ t, exec (.timingPllLock onTref) s = .next t ∧ t.flag CLK_STAT_TIMELOCK = true ∧ t.flag CLK_STAT_TREFSEL = onTref)
      ∧ (∀ x, s.mode.trans = some x → x.target = 2 → x.tiers = [] → s.cur = 2 → s.fld SYS_BOOTSTAT_STEP = 4 → s.mode.reqs = [] →
        ∃ t, exec (.timingPllLock onTref) s = .next t ∧ t.fld SYS_BOOTSTAT_STEP = 5 ∧ t.flag SYS_MODE_TRANS = false
          ∧ t.mode.trans = none))
    ∧ (s.powered 1 = true → wakeAt s 5 = true →
      (fails.val = 0 → ∃ t, exec (.selfTest fails) s = .next t ∧ t.fld SYS_BOOTSTAT_STEP = 6 ∧ t.reg SYS_STRES = 0)
      ∧ (fails.val ≠ 0 → ∃ t, exec (.selfTest fails) s = .next t ∧ t.boot.failDue = some 0x20
        ∧ t.reg SYS_STRES = wordOf fails))

/-- R58, R60–R64: the images. The first candidate slot without a failure loads, and step 7 follows for a signed image, step 8 for
another; with no candidate the device waits for the host where HOSTLOAD is provisioned, and otherwise the start fails with reason 0x10;
a host's stream loads once it is complete. A signature that holds leads to step 8, one that fails back to step 6 without the image; the
installation starts the programs. Until then the boot loader's check-in reaches every watchdog. -/
def Obligations.ImagesLoadVerifyAndInstall : Prop :=
  ∀ (a : List Byte) (flash : List (Nat × List Byte)) (s : State), s.powered 1 = true →
    (∀ b, b = flashFrom ((0, a) :: flash) (slotBBase s) → wakeAt s 6 = true → s.flag SYS_BOOTCTL_WAITHOST = false →
        s.boot.hostReq = false → s.boot.tried = [] → s.boot.image = none →
      (imgCandidate s a = true → (imgCandidate s b = true → imgNum b 8 4 ≤ imgNum a 8 4) → imgFailure s a = none →
        ∃ t, exec (.imageLoad a flash) s = .next t ∧ t.boot.image = some (0, a.take 512)
          ∧ t.fld SYS_BOOTSTAT_STEP = (if imgNum a 6 2 % 2 = 1 then 7 else 8) ∧ t.fld SYS_BOOTSTAT_SLOT = 0
          ∧ t.flag SYS_BOOTSTAT_ALTSLOT = false ∧ t.flag SYS_BOOTSTAT_HOSTIMG = false)
      ∧ (imgCandidate s b = true → (imgCandidate s a = true → imgNum a 8 4 < imgNum b 8 4) → imgFailure s b = none →
        ∃ t, exec (.imageLoad a flash) s = .next t ∧ t.boot.image = some (1, b.take 512)
          ∧ t.fld SYS_BOOTSTAT_STEP = (if imgNum b 6 2 % 2 = 1 then 7 else 8) ∧ t.fld SYS_BOOTSTAT_SLOT = 1
          ∧ t.flag SYS_BOOTSTAT_ALTSLOT = false ∧ t.flag SYS_BOOTSTAT_HOSTIMG = false)
      ∧ (∀ r, imgFailure s a = some r → imgCandidate s a = true →
        (imgCandidate s b = false → ∃ t, exec (.imageLoad a flash) s = .next t ∧ t.boot.failDue = some r ∧ t.boot.tried = [(0, r)])
        ∧ (imgCandidate s b = true → imgNum b 8 4 ≤ imgNum a 8 4 → imgFailure s b = none →
          ∃ t, exec (.imageLoad a flash) s = .next t ∧ t.boot.image = some (1, b.take 512) ∧ t.flag SYS_BOOTSTAT_ALTSLOT = true))
      ∧ (imgCandidate s a = false → imgCandidate s b = false →
        (hostLoadOn s = true → ∃ t, exec (.imageLoad a flash) s = .next t ∧ t.flag SYS_BOOTCTL_WAITHOST = true
          ∧ RegsOnly s t [SYS_BOOTCTL.addr 0])
        ∧ (hostLoadOn s = false → ∃ t, exec (.imageLoad a flash) s = .next t ∧ t.boot.failDue = some 0x10 ∧ t.regs = s.regs)))
    ∧ (∀ l, l = hostStream s → wakeAt s 6 = true → s.flag SYS_BOOTCTL_WAITHOST = false → s.boot.hostReq = true →
        s.boot.tried = [] → s.boot.image = none →
      (hostStreamDone s = false → exec (.imageLoad a flash) s = .next s)
      ∧ (hostStreamDone s = true → imgCandidate s l = true → imgFailure s l = none →
        ∃ t, exec (.imageLoad a flash) s = .next t ∧ t.boot.image = some (2, l.take 512) ∧ t.flag SYS_BOOTSTAT_HOSTIMG = true
          ∧ t.fld SYS_BOOTSTAT_STEP = (if imgNum l 6 2 % 2 = 1 then 7 else 8))
      ∧ (hostStreamDone s = true → imgCandidate s l = false →
        ∃ t, exec (.imageLoad a flash) s = .next t ∧ t.boot.failDue = some 0x10 ∧ t.regs = s.regs ∧ t.mem = s.mem))
    ∧ (∀ x, wakeAt s 7 = true → s.boot.image = some x →
      (signatureGood s x.2 = true → ∃ t, exec .signatureVerification s = .next t ∧ t.fld SYS_BOOTSTAT_STEP = 8
        ∧ t.boot.image = some x ∧ t.mem = s.mem)
      ∧ (signatureGood s x.2 = false → ∃ t, exec .signatureVerification s = .next t ∧ t.fld SYS_BOOTSTAT_STEP = 6
        ∧ t.boot.image = none ∧ t.boot.tried = s.boot.tried ++ [(x.1, 0x12)] ∧ (x.1 = 2 → t.boot.failDue = some 0x12)))
    ∧ (∀ x, wakeAt s 8 = true → s.boot.image = some x → ∃ t, exec .installation s = .next t ∧ t.fld SYS_BOOTSTAT_STEP = 9
      ∧ t.boot.started = true ∧ t.mode.wakeTimer = true ∧ t.pmap.runMask = imgNum x.2 0x20 8 ∧ t.pmap.spareMask = imgNum x.2 0x28 8
      ∧ ∀ e : Fin 48, t.fld ENG_PC_PC e = imgNum x.2 (0x70 + 2 * e) 2
        ∧ t.fld ENG_STAT_PROG e = (if (imgNum x.2 0x28 8).testBit e then 0x3F else e.val))
    ∧ (s.cur = 2 → s.boot.started = false → s.boot.failing = none →
      exec .bootLoaderCheckIn s = .next ((List.range 8).foldl wdBootCheckin s))

/-- R62, R63, R65, R336: the host's image and the boot flash. HOSTREQ with its key opens the host's stream, to HSPI0 alone; another key
freezes its port. The stream's words come by SYS_BOOTDATA, which freezes another port with cause 4; the timeouts of step 6 are failed starts
with their reasons; a flash command is BUSY until it completes. A host's accepted request records its address (R401). That HOSTREQ of
another port is MODEDENY, and the codes of CAUSE, are the model's choice (assumption log entries 25 and 103). -/
def Obligations.HostLoadAndFlashAct : Prop :=
  ∀ (s : State) (m : Fin 64) (w : Word) (p : Fin 3),
    (hostLoadOn s = true → (wakeAt s 4 = true ∨ wakeAt s 5 = true ∨ wakeAt s 6 = true ∧ s.flag SYS_BOOTCTL_WAITHOST = true) →
      (HostWrites s 0 0x56 → ∃ t, exec (.hostreq 0 0x4C0D) s = .next t ∧ t.boot.hostReq = true ∧ t.boot.hostWords = []
        ∧ t.flag SYS_BOOTCTL_WAITHOST = false ∧ SameRegs s t [SYS_BOOTCTL.addr 0])
      ∧ (∀ key, key ≠ 0x4C0D → HostWrites s p 0x56 → ∃ t, exec (.hostreq p key) s = .next t ∧ FreezesPort s t p 3 0x56 ∧ t.boot = s.boot)
      ∧ (p ≠ 0 → HostWrites s p 0x56 → exec (.hostreq p 0x4C0D) s = .next (hostAsked s p 0x56)))
    ∧ (s.boot.hostReq = true → s.boot.image = none →
      (HostWrites s 0 0x57 →
        exec (.bootdataWrite 0x30 w) s = .next { hostAsked s 0 0x57 with boot := { s.boot with hostWords := w :: s.boot.hostWords } })
      ∧ (p ≠ 0 → m.val = 0x30 + p → HostWrites s p 0x57 →
        ∃ t, exec (.bootdataWrite m w) s = .next t ∧ FreezesPort s t p 4 0x57 ∧ t.boot = s.boot)
      ∧ (m.val ≠ 0x30 → ∃ t, exec (.bootdataWrite m w) s = .next t ∧ t.boot = s.boot))
    ∧ (s.powered 1 = true → wakeAt s 6 = true →
      (s.boot.hostReq = false → s.boot.tried = [] → s.flag SYS_BOOTCTL_WAITHOST = false →
        ∃ t, exec .flashBusyTimeout s = .next t ∧ t.boot = { s.boot with failDue := some 0x16 } ∧ t = { s with boot := t.boot })
      ∧ (s.flag SYS_BOOTCTL_WAITHOST = true → ∃ t, exec .waithostExpired s = .next t
        ∧ t.boot = { s.boot with failDue := some 0x10 } ∧ t.flag SYS_BOOTCTL_WAITHOST = false
        ∧ t = { s with boot := t.boot, regs := t.regs } ∧ SameRegs s t [SYS_BOOTCTL.addr 0])
      ∧ (s.boot.hostReq = true → hostStreamDone s = false → ∃ t, exec .hostLoadTimeout s = .next t
        ∧ t.boot = { s.boot with failDue := some 0x17 } ∧ t = { s with boot := t.boot }))
    ∧ (HostWrites s p 0x70 → s.cur ≠ 2 →
      (s.flag SYS_QSPICMD_BUSY = true → exec (.qspiGo p w) s = .next (hostAsked s p 0x70))
      ∧ (s.flag SYS_QSPICMD_BUSY = false →
        ∃ t, exec (.qspiGo p w) s = .next t ∧ t.flag SYS_QSPICMD_BUSY = true
          ∧ t.fld SYS_QSPICMD_OPCODE = Word.bits w 31 24 ∧ t.fld SYS_QSPICMD_DLEN = Word.bits w 21 19 ∧ t.flag SYS_QSPICMD_DIR = w.getLsbD 18
          ∧ RegsOnly (hostAsked s p 0x70) t [SYS_QSPICMD.addr 0]))
    ∧ (s.powered 1 = true → s.flag SYS_QSPICMD_BUSY = true →
      ∃ t, exec (.qspiCommandComplete w) s = .next t ∧ t.flag SYS_QSPICMD_BUSY = false
        ∧ (s.flag SYS_QSPICMD_DIR = true → 4 ≤ s.fld SYS_QSPICMD_DLEN → t.boot.qspiDat = w)
        ∧ (s.flag SYS_QSPICMD_DIR = false → t.boot = s.boot) ∧ SameRegs s t [SYS_QSPICMD.addr 0])

/-- R66–R68: a failed start counts in SYS_BOOTCNT.FAILS, keeps its reason, and waits for PLINTH where FAILS has reached LIMIT, for a chip
reset otherwise; a successful start and the keyed clear return FAILS to 0. That a wrong key is judged before the mode, and that a keyed row
without a port freezes none, are the model's choice (assumption log entries 21 and 152). -/
def Obligations.FailedStartsAreCounted : Prop :=
  ∀ (s : State) (w : Word), s.powered 0 = true →
    (∀ r : Fin 256, s.cur = 2 → s.boot.failDue = some r.val → s.boot.failing = none → ∃ t, exec .failedStart s = .next t
      ∧ t.boot.failDue = none ∧ t.fld SYS_BOOTCNT_FAILS = min 15 (s.fld SYS_BOOTCNT_FAILS + 1) ∧ t.fld SYS_BOOTSTAT_REASON = r
      ∧ t.boot.failing = some (decide (s.fld SYS_BOOTCNT_LIMIT ≤ min 15 (s.fld SYS_BOOTCNT_FAILS + 1))))
    ∧ (s.cur ≠ 2 → exec .failedStartRearmEnd s = .next s)
    ∧ (s.cur = 2 → s.boot.failing = some false → ∃ t, exec .failedStartRearmEnd s = .next t ∧ t.cur = 2 ∧ t.flag SYS_MODE_TRANS = true
      ∧ t.reg SYS_WAKESRC = 0x20)
    ∧ (s.cur = 2 → s.boot.failing = some true → exec .failedStartRearmEnd s = .next (beginTransition
        { s with boot := { s.boot with failing := none }, mode := { s.mode with trans := none } }
        { src := .hw 5, target := 3, sdend := 0 })
      ∧ ∃ t, exec .failedStartRearmEnd s = .next t ∧ t.boot.failing = none ∧ t.fld SYS_MODE_TARGET = 3
        ∧ (t.flag SYS_MODE_TRANS = true ∨ t.cur = 3))
    ∧ (s.cur = 4 ∨ s.cur = 5 → ∃ t, exec .failsClearTimer s = .next t ∧ t.fld SYS_BOOTCNT_FAILS = 0
      ∧ RegsOnly s t [SYS_BOOTCNT.addr 0])
    ∧ (w = 0xB0070000 → (s.cur = 3 ∨ s.cur = 9) → ∃ t, exec (.bootcntClear w) s = .next t ∧ t.fld SYS_BOOTCNT_FAILS = 0
      ∧ RegsOnly s t [SYS_BOOTCNT.addr 0])
    ∧ (w.toNat / 65536 ≠ 0xB007 ∨ s.cur ≠ 3 ∧ s.cur ≠ 9 → exec (.bootcntClear w) s = .next s)

/-- R69: the plinth sequencer. WAIT and CHECKPG hold it, RELEASE releases its reset output, and END ends it; a CHECKPG passes with the
power-good it names and stops the sequence with PLFAIL at its timeout. -/
def Obligations.PlinthSequenceSteps : Prop :=
  ∀ (s : State) (k op tgt : Nat), s.powered 0 = true →
    (s.cur = 3 → s.boot.plRun = true → s.boot.plWait = 0 → s.boot.plNext = k → k < 8 →
      op = Word.bits (plStep s k) 31 28 → tgt = Word.bits (plStep s k) 27 24 →
      ∃ t, exec .plinthStep s = .next t ∧ t.fld SYS_BOOTSTAT_PLSTEP = k ∧ t.boot.plNext = k + 1
        ∧ (op = 3 → t.boot.plWait = 1 ∧ t.boot.plRun = true) ∧ (op = 4 ∧ tgt < 6 → t.boot.plWait = 2 ∧ t.boot.plRun = true)
        ∧ (op = 5 ∧ tgt < 8 → t.sup.plRel.testBit tgt = true ∧ t.boot.plRun = true) ∧ ((op = 0 ∨ 6 ≤ op) → t.boot.plRun = false)
        ∧ ((op = 1 ∨ op = 2 ∨ op = 4) ∧ 6 ≤ tgt → t.boot.plRun = false ∧ t.flag SYS_BOOTSTAT_PLFAIL = true))
    ∧ (s.boot.plRun = true → s.boot.plWait = 1 →
      exec .plinthWaitEnd s = .next { s with boot := { s.boot with plWait := 0 } })
    ∧ (s.boot.plRun = true → s.boot.plWait = 2 →
      (plPg s = true → exec .plinthCheckpgPass s = .next { s with boot := { s.boot with plWait := 0 } })
      ∧ (∃ t, exec .plinthCheckpgTimeout s = .next t ∧ t.flag SYS_BOOTSTAT_PLFAIL = true ∧ t.boot.plRun = false ∧ t.mem = s.mem
        ∧ SameRegs s t [SYS_BOOTSTAT.addr 0]))
/-! ## Rails (04_rail_regulation.md) -/

/-- R73–R75, R78, R100: a rail that is OFF with a valid configuration and its phases in service goes to SOFTSTART from zero toward
VSET; a refused enable changes nothing. A disable makes it OFF at once, or with STOPMODE = 1 makes it STOPPING. Where the rail's writes are shut
(R24, R26, R55, R70) neither does anything. -/
def Obligations.RailEnableAndDisable : Prop :=
  ∀ (n : Fin 32) (s : State),
    (s.railPresent n = false ∨ s.railOpen n = false ∨ s.writesOpen = false → ∀ en, exec (.rlnEnWrite n en) s = .next s)
    ∧ (s.railPresent n = true → s.railOpen n = true → s.writesOpen = true →
      (railEnableMode s.cur = true → railState s n = rsOff → s.fld RL_PMAP_PMAP n ≠ 0 → s.fld RL_ILIM_ILIM n ≠ 0 →
        s.fld RL_VFLOOR_VFLOOR n ≤ s.fld RL_VSET_VSET n → s.fld RL_VSET_VSET n ≤ railCeil s n → railHot s n = false →
        s.powered 6 = true → railService s n = railPhases s n →
        ∃ t, exec (.rlnEnWrite n true) s = .next t ∧ railState t n = rsSoftstart ∧ t.flag RL_CTRL_EN n = true
          ∧ (t.rail n).gen = 0 ∧ (t.rail n).target = s.fld RL_VSET_VSET n ∧ t.flag RL_STAT_SLEWING n = true
          ∧ t.fld RL_HSTAT_RETRIES n = 0 ∧ t.mem = s.mem)
      ∧ (railEnableMode s.cur = false ∨ railState s n = rsFenced ∨ railState s n = rsDraining ∨ railState s n = rsSoftstart
          ∨ railState s n = rsRegulate ∨ railState s n = rsHiccupOff
          ∨ s.fld RL_PMAP_PMAP n = 0 ∨ s.fld RL_ILIM_ILIM n = 0 ∨ s.fld RL_VSET_VSET n < s.fld RL_VFLOOR_VFLOOR n
          ∨ railCeil s n < s.fld RL_VSET_VSET n ∨ railHot s n = true →
        exec (.rlnEnWrite n true) s = .next s)
      ∧ (railState s n = rsSoftstart ∨ railState s n = rsRegulate →
        (s.flag RL_CTRL_STOPMODE n = false → ∃ t, exec (.rlnEnWrite n false) s = .next t ∧ railState t n = rsOff
          ∧ t.flag RL_CTRL_EN n = false ∧ (t.rail n).gen = 0 ∧ t.fld RL_VREF_VREF n = 0)
        ∧ (s.flag RL_CTRL_STOPMODE n = true → ∃ t, exec (.rlnEnWrite n false) s = .next t ∧ railState t n = rsStopping
          ∧ t.flag RL_CTRL_EN n = true ∧ (t.rail n).gen = (s.rail n).gen ∧ (t.rail n).target = 0
          ∧ t.flag RL_STAT_SLEWING n = true))
      ∧ (railState s n = rsHiccupOff ∨ railState s n = rsLatched → ∃ t, exec (.rlnEnWrite n false) s = .next t
        ∧ railState t n = rsOff ∧ t.flag RL_CTRL_EN n = false)
      ∧ (railState s n = rsOff ∨ railState s n = rsFenced ∨ railState s n = rsDraining → exec (.rlnEnWrite n false) s = .next s))

/-- R78, R83, R84: a target outside the bounds changes nothing; a program is told OUTOFRANGE or OUTOFBOUND. In SOFTSTART and REGULATE a
new target starts the generator at RLn_SLEW's rate, and one that overtakes a move in progress reports its issuer in SUPMST with
SUPERSEDED; in the other states it is VSET alone. -/
def Obligations.TargetsAreCheckedAndTaken : Prop :=
  ∀ (m : Fin 51) (n : Fin 32) (v : Word) (s : State), s.railPresent n = true → MasterWrites s m (0x1002 + 0x80 * n) v →
    (∀ st, st = (if railMax s n < v.toNat then Status.outofrange else Status.outofbound) →
      railMax s n < v.toNat ∨ v.toNat < s.fld RL_VFLOOR_VFLOOR n ∨ s.fld RL_VCEIL_VCEIL n < v.toNat →
      exec (.vsetWrite m n v) s = .next (if m < 48 then postStatus s m st 0 (0x1002 + 0x80 * n)
        else hostAsked s (m - 48) (0x1002 + 0x80 * n)))
    ∧ (v.toNat ≤ railMax s n → s.fld RL_VFLOOR_VFLOOR n ≤ v.toNat → v.toNat ≤ s.fld RL_VCEIL_VCEIL n →
      (∃ t, exec (.vsetWrite m n v) s = .next t ∧ t.fld RL_VSET_VSET n = v.toNat ∧ railState t n = railState s n ∧ t.mem = s.mem
        ∧ SameRegs s t [RL_VSET.addr n, RL_STAT.addr n, RL_EVT.addr n, RL_VSTAT.addr n])
      ∧ (railState s n = rsSoftstart ∨ railState s n = rsRegulate → (s.rail n).target ≠ v.toNat → (s.rail n).gen ≠ v.toNat * 1024 →
        ∃ t, exec (.vsetWrite m n v) s = .next t ∧ t.flag RL_STAT_SLEWING n = true
          ∧ (∀ up, up = decide ((s.rail n).gen < v.toNat * 1024) →
            t.rail n = { s.rail n with target := v.toNat, rate := 0, issuer := m, move := some (moveRate s n 0 up, up) })
          ∧ (s.flag RL_STAT_SLEWING n = true → (s.rail n).issuer < 256 → t.flag RL_EVT_SUPERSEDED n = true
            ∧ t.fld RL_VSTAT_SUPMST n = (s.rail n).issuer)
          ∧ (s.flag RL_STAT_SLEWING n = false → t.reg RL_EVT n = s.reg RL_EVT n))
      ∧ (railState s n ≠ rsSoftstart → railState s n ≠ rsRegulate →
        ∃ t, exec (.vsetWrite m n v) s = .next t
          ∧ t.rail n = { s.rail n with issuer := m } ∧ SameRegs s t [RL_VSET.addr n]))

/-- R77, R83: at a loop update of a rail in REGULATE that tracks no leader the generator moves toward its target, held within the bounds, by
at most the rate in force, which is the same at every update of a move, and VREF shows it; where it arrives SLEWING clears with SLEWDONE.
That RLn_VREF shows whole microvolts, and that a fraction of one is dropped where a rail takes its value, is the model's choice (assumption
log entry 33). -/
def Obligations.TheGeneratorMovesAtItsRate : Prop :=
  ∀ (n : Fin 32) (diffs : List Int) (s : State), s.railPresent n = true → s.powered (railDomain n) = true →
    s.powered 6 = true → railState s n = rsRegulate → s.fld RL_TRACK_MODE n = 0 →
    ∀ goal, goal = 1024 * max (s.fld RL_VFLOOR_VFLOOR n) (min (railCeil s n) (s.rail n).target) →
    ∀ up, up = decide ((s.rail n).gen < goal) →
    ∀ fresh, fresh = max 1 (if (s.rail n).rate ≠ 0 then (s.rail n).rate
      else if up then s.fld RL_SLEW_UP n else s.fld RL_SLEW_DOWN n) →
    ∀ rate, rate = (match (s.rail n).move with | some (k, u) => if u = up then k else fresh | none => fresh) →
    ∀ step, step = max 1 rate * (if s.flag RL_STAT_RATE n then 100 else 50) * 1024 / 1000 →
    ∀ gen, gen = (if (s.rail n).gen < goal then min goal ((s.rail n).gen + step) else max goal ((s.rail n).gen - step)) →
    gen < 2 ^ 42 →
    ∃ t, exec (.loopUpdate n diffs) s = .next t ∧ (t.rail n).gen = gen ∧ t.fld RL_VREF_VREF n = gen / 1024 ∧ (gen ≠ goal → (t.rail n).move = some (rate, up))
      ∧ railState t n = rsRegulate ∧ (gen ≠ goal → t.flag RL_STAT_SLEWING n = true)
      ∧ (gen = goal → s.flag RL_STAT_SLEWING n = true → t.flag RL_STAT_SLEWING n = false ∧ t.flag RL_EVT_SLEWDONE n = true)

/-- R88, R94–R97: the phase manager adds and sheds phases once their conditions have held; a phase for which the condition of a
fence cause holds is recorded with its cause and leaves service, and UNFENCE in OFF returns it. -/
def Obligations.PhaseCommandsAct : Prop :=
  ∀ (n : Fin 32) (ph : Fin 64) (cause : Fin 6) (mask : Word) (s : State), s.powered (railDomain n) = true →
    (∀ top want, railRuns s n = true → s.fld RL_PHTH_ADDTH n ≠ 0 → s.fld RL_PHDLY_ADDDLY n * 50 ≤ (s.rail n).addNs →
      (s.rail n).addNs ≠ 0 → top = min (s.fld RL_PHBND_PHCEIL n) (railNsvc s n) →
      want = max ((s.rail n).managed + 1) (ceilDiv (s.sfld RL_IRAIL_IRAIL n).toNat (s.fld RL_PHTH_ADDTH n * 10)) →
      (s.rail n).managed < min want top → ∃ t, exec (.phaseAdd n) s = .next t ∧ t.flag RL_EVT_PHADD n = true
        ∧ t.rail n = { s.rail n with managed := min want top, addNs := 0 } ∧ SameRegs s t [RL_EVT.addr n] ∧ t.mem = s.mem)
    ∧ (railRuns s n = true → s.fld RL_PHTH_ADDTH n ≠ 0 → s.fld RL_PHDLY_SHEDDLY n * 1000 ≤ (s.rail n).shedNs →
      (s.rail n).shedNs ≠ 0 → s.fld RL_PHBND_PHFLOOR n < (s.rail n).managed →
      ∃ t, exec (.phaseShed n) s = .next t ∧ t.flag RL_EVT_PHSHED n = true
        ∧ t.rail n = { s.rail n with managed := (s.rail n).managed - 1, shedNs := 0 } ∧ SameRegs s t [RL_EVT.addr n] ∧ t.mem = s.mem)
    ∧ (railOfPhase s ph = some n.val → fenceHolds s n ph cause = false → exec (.phaseFence ph cause) s = .next s)
    ∧ (railOfPhase s ph = some n.val → fenceHolds s n ph cause = true → railState s n = rsRegulate → phInService s ph = true →
        2 ≤ railNsvc s n →
      ∃ t, exec (.phaseFence ph cause) s = .next t ∧ cellGet 0 t.flt.phF ph = cause ∧ t.fld RL_FENCE_CAUSE n = cause
        ∧ t.fld RL_FENCE_PHASE n = ph ∧ t.fld RL_FENCE_COUNT n = min 65535 (s.fld RL_FENCE_COUNT n + 1)
        ∧ t.flag RL_EVT_PHFENCE n = true ∧ phInService t ph = false ∧ railState t n = rsRegulate
        ∧ (t.rail n).managed ≤ railNsvc t n)
    ∧ (s.railPresent n = true → s.railOpen n = true → s.writesOpen = true → railState s n = rsOff → ∃ t, exec (.rlnUnfence n mask) s = .next t
      ∧ (∀ p ∈ (railPhases s n).zipIdx, Word.bit mask p.2 = true → cellGet 0 t.flt.phF p.1 = 0) ∧ t.regs = s.regs ∧ t.mem = s.mem)
    ∧ (s.railPresent n = true → railState s n ≠ rsOff → exec (.rlnUnfence n mask) s = .next s)

/-- R73, R81, R93, R99: the hiccup counter follows the limited periods and trips at NCYC; HICCUP_RESTART returns the rail to SOFTSTART with
one more retry; 1 s of power-good clears the retries; COMP3's APPLY waits for the next update; a drain ends in OFF. -/
def Obligations.HiccupAndDrainAct : Prop :=
  ∀ (n : Fin 32) (s : State) (c : Nat), s.powered (railDomain n) = true →
    (railState s n = rsRegulate → c = (if periodLimited s n then min 255 (s.fld RL_HSTAT_COUNT n + 1) else s.fld RL_HSTAT_COUNT n - 1) →
      (periodLimited s n = false ∨ c < max 1 (s.fld RL_HICC_NCYC n) → ∃ t, exec (.switchingPeriod n) s = .next t
        ∧ t.fld RL_HSTAT_COUNT n = c ∧ railState t n = rsRegulate ∧ (t.rail n).limited = false)
      ∧ (periodLimited s n = true → max 1 (s.fld RL_HICC_NCYC n) ≤ c → ∃ t, exec (.switchingPeriod n) s = .next t
        ∧ t.flag RL_EVT_HICCUP n = true
        ∧ railState t n = (if s.fld RL_HICC_RETRY n = 15 ∨ s.fld RL_HSTAT_RETRIES n < s.fld RL_HICC_RETRY n then rsHiccupOff
          else rsLatched)))
    ∧ (railState s n = rsHiccupOff → railService s n = railPhases s n → railPhases s n ≠ [] →
      ∃ t, exec (.hiccupRestart n) s = .next t ∧ railState t n = rsSoftstart
        ∧ t.fld RL_HSTAT_RETRIES n = min 15 (s.fld RL_HSTAT_RETRIES n + 1) ∧ (t.rail n).gen = 0)
    ∧ (railState s n = rsRegulate → ∃ t, exec (.retryClear n) s = .next t ∧ t.fld RL_HSTAT_RETRIES n = 0
      ∧ RegsOnly s t [RL_HSTAT.addr n])
    ∧ (s.railPresent n = true → s.railOpen n = true → s.writesOpen = true → ∃ t, exec (.compApply n) s = .next t ∧ t.rail n = { s.rail n with applyNext := true }
      ∧ t.regs = s.regs ∧ t.mem = s.mem)
    ∧ (railState s n = rsDraining → s.mode.trans = none → s.mode.optRelease = [] → ∃ t, exec (.railDrainEnd n) s = .next t
      ∧ railState t n = rsOff ∧ (t.rail n).gen = 0 ∧ t.mem = s.mem)
/-! ## Fenxo links (05_fenxo_link.md) -/

/-- R101, R102, R104–R108: the frame that a link assembles for a window carries its sequence number and the oldest command due, each in its
version's field; the window and the sequence advance. In SETUP it carries no edge, with DRV high-impedance. In UP, for a phase that is
active in a running rail and drives already, DRV is switching, and the frame carries the edges of the phase that fall in the window: the
rising edge at its slot of the period, once in a period, and the falling edge a duty later, also in a later window; an edge that lies
behind the window stands at its opening. -/
def Obligations.DownstreamFramesCarryTheirFields : Prop :=
  ∀ (l : Fin 72) (b : Nat) (s : State) (h : LinkH) (c a : Nat), s.powered (linkDomain l) = true →
    (64 ≤ l.val ∨ s.phPresent l = true) → h = s.link l → h.draining = 0 → frameDue h b = true →
    (h.ver = 1 ∨ h.ver = 2 ∨ h.ver = 3) →
    (h.cmds = [] ∧ c = 0 ∧ a = 0 ∨ ∃ x rest, h.cmds = x :: rest ∧ c = x.code ∧ a = x.arg) →
    (lstate s l = lsSetup → ∃ t f, exec (.downstreamFrame l b) s = .next t ∧ (t.link l).frame = f ∧ (t.link l).txSeq = (h.txSeq + 1) % 16
      ∧ (t.link l).window = b ∧ (t.link l).framed = true ∧ (t.link l).cmds = h.cmds.tail ∧ t.regs = s.regs ∧ t.mem = s.mem
      ∧ fbits f 63 60 = h.txSeq % 16 ∧ fbits f 59 59 = 0
      ∧ (h.ver = 1 → fbits f 47 47 = 0 ∧ fbits f 35 34 = 0 ∧ fbits f 33 30 = c % 16 ∧ fbits f 29 14 = a % 65536
        ∧ fbits f 13 8 = 0 ∧ fbits f 7 0 = crc8 56 (f.toNat / 2 ^ 8))
      ∧ (h.ver = 2 → fbits f 48 48 = 0 ∧ fbits f 37 36 = 0 ∧ fbits f 35 32 = c % 16 ∧ fbits f 31 16 = a % 65536
        ∧ fbits f 15 8 = 0 ∧ fbits f 7 0 = crc8 56 (f.toNat / 2 ^ 8))
      ∧ (h.ver = 3 → fbits f 48 48 = 0 ∧ fbits f 37 36 = 0 ∧ fbits f 35 32 = c % 16 ∧ fbits f 31 16 = a % 65536
        ∧ fbits f 15 0 = crc16 48 (f.toNat / 2 ^ 16)))
    ∧ (∀ n, railOfPhase s l = some n → ∀ p0, (s.rail n).start = some p0 → ∀ w, w = 512 * b →
      ∀ len, len = (if h.ver = 1 then 1024 else 512) → ∀ r, r = max w (riseTick s n l p0) → ∀ on, on = onTicks s n l →
      l.val < 64 → lstate s l = lsUp → railRuns s n = true → cellGet 0 s.flt.phF l = 0 → phActive s n l = true → h.drv = true →
      ∃ t f, exec (.downstreamFrame l b) s = .next t ∧ (t.link l).frame = f ∧ (t.link l).txSeq = (h.txSeq + 1) % 16
        ∧ (t.link l).window = b ∧ t.regs = s.regs ∧ t.mem = s.mem ∧ fbits f 63 60 = h.txSeq % 16
        ∧ (if h.ver = 1 then fbits f 33 30 else fbits f 35 32) = c % 16
        ∧ (h.rise = none → h.placed ≠ some p0 → r < w + len → on ≠ 0 → (t.link l).placed = some p0
          ∧ (r + on < w + len → drivesEdges h.ver f (some (true, r - w)) (some (false, r + on - w)))
          ∧ (w + len ≤ r + on → drivesEdges h.ver f (some (true, r - w)) none ∧ (t.link l).rise = some r))
        ∧ (h.rise = none → (h.placed = some p0 ∨ w + len ≤ r) → drivesEdges h.ver f none none ∧ (t.link l).rise = none)
        ∧ (∀ q, h.rise = some q → h.placed = some p0 →
          (max w (q + on) < w + len → drivesEdges h.ver f (some (false, max w (q + on) - w)) none)
          ∧ (w + len ≤ max w (q + on) → drivesEdges h.ver f none none ∧ (t.link l).rise = some q)))

/-- R113–R115, R126: in UP a good frame clears the bad count and keeps its status; a bad one counts in ERRCNT, and the fourth in a row loses
the link. That a lost link reads VER 0 until it is UP again is the model's choice (assumption log entry 45). -/
def Obligations.UpstreamFramesAreJudged : Prop :=
  ∀ (l : Fin 72) (f : BitVec 64) (codeOk : Bool) (ref : Fin 16) (s : State) (u : UpFields), s.powered (linkDomain l) = true →
    (64 ≤ l.val ∨ s.phPresent l = true) → lstate s l = lsUp → (s.link l).draining = 0 → u = upFields (s.link l).ver f →
    (frameSound (s.link l) u codeOk = true → (ref.val + 16 - u.dseq) % 16 = s.fld PH_RTT_LAG l → u.status.testBit 6 = false →
      ∃ t, exec (.upstreamFrame l f codeOk ref) s = .next t ∧ (t.link l).bads = 0 ∧ t.fld PH_STSTAT_LAST l = u.status % 256
        ∧ t.fld PH_ERRCNT_COUNT l = s.fld PH_ERRCNT_COUNT l ∧ lstate t l = lsUp)
    ∧ ((frameSound (s.link l) u codeOk = false ∨ (ref.val + 16 - u.dseq) % 16 ≠ s.fld PH_RTT_LAG l) →
      s.fld PH_FXCTRL_ERRLIM l = 0 →
      ((s.link l).bads < 3 → ∃ t, exec (.upstreamFrame l f codeOk ref) s = .next t ∧ (t.link l).bads = (s.link l).bads + 1
        ∧ t.fld PH_ERRCNT_COUNT l = min 0xFFFFFFFF (s.fld PH_ERRCNT_COUNT l + 1) ∧ lstate t l = lsUp)
      ∧ ((s.link l).bads = 3 → ∃ t, exec (.upstreamFrame l f codeOk ref) s = .next t ∧ lstate t l = lsLost
        ∧ t.fld PH_FXSTAT_VER l = 0 ∧ t.flag PH_EVT_LOST l = true))

/-- R116, R118–R122: training. An attempt starts with ALIGN; 64 ALIGN sets lead to CAPS and eight identical CAP sets choose the lower of the
versions; the largest RTT is kept; a step that exceeds its limit is followed by a retry while attempts are left, and by FAILED
after the last. While the link is disabled, the timing PLL is unlocked, or the link drains (R125), no attempt begins: AUTORT's retraining and
a retry wait (the model's choice, assumption log entry 137). -/
def Obligations.TrainingFollowsItsSteps : Prop :=
  ∀ (l : Fin 72) (s : State), s.powered (linkDomain l) = true → (64 ≤ l.val ∨ s.phPresent l = true) →
    (s.flag PH_FXCTRL_EN l = true → s.flag CLK_STAT_TIMELOCK = true → linkGoing s l = false →
      (lstate s l = lsDown → ∃ t, exec (.trainingStart l) s = .next t ∧ BeginsTraining s t l 1)
      ∧ (lstate s l = lsLost → s.flag PH_FXCTRL_AUTORT l = true → ∃ t, exec (.autortRetrain l) s = .next t ∧ BeginsTraining s t l 1)
      ∧ (s.writesOpen = true → (if l.val < 64 then phaseBusy s l = false else lxQuiet s ((l - 64) % 4) = true) →
        ∃ t, exec (.retrain l) s = .next t ∧ BeginsTraining s t l 1)
      ∧ ((s.link l).retry = true → s.fld PH_FXSTAT_ATTEMPT l < 3 →
        ∃ t, exec (.trainingRetry l) s = .next t ∧ BeginsTraining s t l (s.fld PH_FXSTAT_ATTEMPT l + 1)))
    ∧ (s.flag PH_FXCTRL_EN l = false ∨ s.flag CLK_STAT_TIMELOCK = false ∨ linkGoing s l = true →
      exec (.trainingStart l) s = .next s ∧ exec (.autortRetrain l) s = .next s ∧ exec (.trainingRetry l) s = .next s)
    ∧ (lstate s l = lsAlign → (s.link l).retry = false → (s.link l).draining = 0 →
      ((s.link l).count < 63 → ∃ t, exec (.orderedSet l .align) s = .next t ∧ (t.link l).count = (s.link l).count + 1 ∧ t.regs = s.regs)
      ∧ (63 ≤ (s.link l).count → ∃ t, exec (.orderedSet l .align) s = .next t ∧ lstate t l = lsCaps ∧ (t.link l).count = 0)
      ∧ (∃ t, exec (.orderedSet l .invalid) s = .next t ∧ (t.link l).count = 0 ∧ t.regs = s.regs))
    ∧ (∀ vmax ish ir fl rev, (s.link l).cap = some (vmax, ish, ir, fl, rev) → ∀ crc, lstate s l = lsCaps → (s.link l).retry = false →
      (s.link l).draining = 0 → capValid 0x81 vmax ish ir fl rev crc = true → (s.link l).count = 7 → 0 < vmax →
      ∃ t, exec (.orderedSet l (.cap 0x81 vmax ish ir fl rev crc)) s = .next t
        ∧ (t.link l).ver = min vmax (max 1 (s.link l).vmax) ∧ t.fld PH_FXCAP_SVMAX l = vmax
        ∧ lstate t l = (if (t.link l).ver = 1 then lsRtt else lsRate))
    ∧ (∀ k, lstate s l = lsRtt → (s.link l).retry = false → (s.link l).draining = 0 → k ≤ 10240 → (s.link l).rtts < 3 →
      ∃ t, exec (.orderedSet l (.rtt k)) s = .next t ∧ t.fld PH_RTT_RTT l = max k (s.fld PH_RTT_RTT l)
        ∧ (t.link l).rtts = (s.link l).rtts + 1)
    ∧ (inTraining s l = true →
      (s.fld PH_FXSTAT_ATTEMPT l < max 1 (s.fld PH_FXCTRL_ATTEMPTS l) → ∃ t, exec (.trainingTimeout l) s = .next t
        ∧ (t.link l).retry = true ∧ t.fld PH_FXSTAT_FAILSTEP l = lstate s l ∧ lstate t l = lstate s l)
      ∧ (max 1 (s.fld PH_FXCTRL_ATTEMPTS l) ≤ s.fld PH_FXSTAT_ATTEMPT l → ∃ t, exec (.trainingTimeout l) s = .next t
        ∧ lstate t l = lsFailed ∧ t.fld PH_FXSTAT_FAILSTEP l = lstate s l ∧ t.flag PH_EVT_TRFAIL l = true))

/-- R108, R115, R125, R126: the commands and registers of a link; those that are register writes where such writes are open (R55, R70). -/
def Obligations.LinkCommandsAct : Prop :=
  ∀ (l : Fin 72) (w : Word) (s : State), s.powered (linkDomain l) = true → (64 ≤ l.val ∨ s.phPresent l = true) →
    (s.writesOpen = true →
      (s.flag PH_FXCTRL_EN l = false → ∃ t, exec (.linkEnWrite l true) s = .next t ∧ t.flag PH_FXCTRL_EN l = true
        ∧ RegsOnly s t [PH_FXCTRL.addr l])
      ∧ (s.flag PH_FXCTRL_EN l = true → lstate s l ≠ lsDown → (s.link l).draining = 0 →
        ∃ t, exec (.linkEnWrite l false) s = .next t ∧ t.flag PH_FXCTRL_EN l = false
          ∧ (t.link l).draining = (if lstate s l = lsUp then 5 else 1) ∧ (t.link l).cmds = []
          ∧ (lstate s l ≠ lsUp → SameRegs s t [PH_FXCTRL.addr l]))
      ∧ (∃ t, exec (.pklimWrite l w) s = .next t ∧ t.fld PH_PKLIM_PKLIM l = w.toNat % 65536
        ∧ t.link l = (if lstate s l = lsUp
            then { s.link l with cmds := dueCmd { code := 1, arg := w.toNat % 65536, due := (s.link l).window } (s.link l).cmds }
            else s.link l)
        ∧ SameRegs s t [PH_PKLIM.addr l])
      ∧ ((if l.val < 64 then phaseBusy s l = false else lxQuiet s ((l - 64) % 4) = true) →
        (lstate s l = lsUp → ∃ t, exec (.clrflt l) s = .next t
          ∧ t.link l = { s.link l with cmds := dueCmd { code := 5, arg := 0, due := (s.link l).window } (s.link l).cmds }
          ∧ t.regs = s.regs)
        ∧ (lstate s l ≠ lsUp → exec (.clrflt l) s = .next s))
      ∧ (∃ t, exec (.phClrcnt l) s = .next t ∧ t.fld PH_ERRCNT_COUNT l = 0 ∧ t.fld PH_DNERRCNT_COUNT l = 0
        ∧ t.fld PH_LOSSCNT_COUNT l = 0 ∧ t.flag PH_FXSTAT_ERRSAT l = false ∧ lstate t l = lstate s l
        ∧ RegsOnly s t [PH_ERRCNT.addr l, PH_DNERRCNT.addr l, PH_LOSSCNT.addr l, PH_FXSTAT.addr l]))
    ∧ (s.writesOpen = false → ∀ en, exec (.linkEnWrite l en) s = .next s ∧ exec (.pklimWrite l w) s = .next s
      ∧ exec (.clrflt l) s = .next s ∧ exec (.retrain l) s = .next s ∧ exec (.phClrcnt l) s = .next s)
    ∧ ((s.link l).draining ≠ 0 → ∃ t, exec (.linkDrainEnd l) s = .next t
      ∧ lstate t l = lsDown ∧ t.fld PH_FXSTAT_VER l = 0 ∧ t.flag PH_EVT_ABORTED l = true ∧ (t.link l).draining = 0)
    ∧ (∃ t, exec (.errlimWindow l) s = .next t ∧ t.link l = { s.link l with winBad := 0 } ∧ t.regs = s.regs)
    ∧ (∀ x rest, (s.link l).sent = x :: rest →
      (x.resends < 3 → ∃ t, exec (.commandResend l) s = .next t
        ∧ t.link l = { s.link l with sent := rest, cmds := { x with resends := x.resends + 1 } :: (s.link l).cmds } ∧ t.regs = s.regs)
      ∧ (3 ≤ x.resends → lstate s l = lsUp → ∃ t, exec (.commandResend l) s = .next t ∧ lstate t l = lsLost
        ∧ t.flag PH_EVT_CMDFAIL l = true))

/-! ## The link converter (10_link_converter.md) -/

/-- R36, R236, R248, R249, R252: a module with its links up and a valid configuration enters START, and RUN once the boundary that ends its 8 periods is fixed; a refused enable changes nothing; EN
written 0 stops an enabled module through STOPPING, and takes a tripped one to OFF. A write does not pass a shut crossing (R24, R26). -/
def Obligations.ModulesStartAndStop : Prop :=
  ∀ (m : Fin 4) (s : State), s.powered 9 = true →
    (s.lxOpen m = false → ∀ en, exec (.lxEnWrite m en) s = .next s)
    ∧ (s.lxOpen m = true →
      (lxState s m = lxOff ∨ lxState s m = lxTripped → lstate s (64 + m) = lsUp → lstate s (68 + m) = lsUp →
        s.fld PH_FXSTAT_VER (64 + m) ≠ 1 → s.fld PH_FXSTAT_VER (68 + m) ≠ 1 → lxMode s.cur = true → s.fld LXM_XFMR_NTR m ≠ 0 →
        s.fld LXM_XFMR_LLK m ≠ 0 → s.fld LXM_KI_KII m ≠ 0 → s.fld LXM_DT_DTA m ≠ 0 → s.fld LXM_DT_DTB m ≠ 0 →
        (s.flag LXM_CTRL_PCHG m = true → s.fld LXM_CTRL_CMODE m = 2 ∧ s.flag LXM_CTRL_REVEN m = true) →
        (s.flag LXM_CTRL_CHGEN m = true → s.fld LXM_CTRL_CMODE m ≠ 2) → lxDisagrees s m = false →
        nodeShutdown s (64 + m) = false → nodeShutdown s (68 + m) = false →
        ∃ t, exec (.lxEnWrite m true) s = .next t ∧ lxState t m = lxStart ∧ t.flag LXM_CTRL_EN m = true ∧ (t.lxm m).ii = 0
          ∧ (t.lxm m).halves = 0 ∧ t.fld LXM_STAT_PCST m = (if s.flag LXM_CTRL_PCHG m then 1 else 0) ∧ t.mem = s.mem
          ∧ (lxInGroup s m = false → (t.lxm m).iv = 0))
      ∧ (lxState s m = lxOff → (lstate s (64 + m) ≠ lsUp ∨ lstate s (68 + m) ≠ lsUp ∨ lxMode s.cur = false ∨ s.fld LXM_XFMR_NTR m = 0
          ∨ s.fld LXM_KI_KII m = 0 ∨ s.fld LXM_DT_DTA m = 0) → exec (.lxEnWrite m true) s = .next s)
      ∧ (lxState s m = lxStart ∨ lxState s m = lxRun ∨ lxState s m = lxReversing ∨ lxState s m = lxWait →
        ∃ t, exec (.lxEnWrite m false) s = .next t ∧ lxState t m = lxStopping ∧ t.flag LXM_CTRL_EN m = true
          ∧ (t.lxm m).config = (s.lxm m).config)
      ∧ (lxState s m = lxTripped → ∃ t, exec (.lxEnWrite m false) s = .next t ∧ lxState t m = lxOff ∧ t.flag LXM_CTRL_EN m = false))
    ∧ (lxState s m = lxStart →
      (17 ≤ (s.lxm m).halves → ∃ t, exec (.lxRunReached m) s = .next t ∧ lxState t m = lxRun ∧ t.flag LXM_EVT_RUN m = true)
      ∧ ((s.lxm m).halves < 17 → exec (.lxRunReached m) s = .next s))
    ∧ (lxState s m = lxDraining → s.mode.trans = none → s.mode.optRelease = [] → ∃ t, exec (.lxDrainEnd m) s = .next t
      ∧ lxState t m = lxOff ∧ t.flag LXM_EVT_ABORTED m = true)
    ∧ (∀ sv sth rv rth, (sv, sth, rv, rth) = lxSides s m (s.fld PH_TELV_VIN (64 + m)) (s.fld PH_TELV_VIN (68 + m)) →
      lxState s m = lxWait → sth * 102 ≤ sv * 100 → ∃ t, exec (.waitRecovery m) s = .next t ∧ lxState t m = lxStart ∧ (t.lxm m).ii = 0)

/-- R243, R247, R248, R253, R254: at an update an overvoltage of either side trips an enabled module with its cause and fault; in START and
RUN a source below its threshold takes it to WAIT, and otherwise the control law, the shifts and the edges follow; in STOPPING a module
whose shifts have reached zero goes OFF. What the update sends to the core waits in the module's crossing while CK_CORE stands (R384; its
depth is the model's choice, assumption log entry 156). -/
def Obligations.ModuleUpdatesTripWaitOrSwitch : Prop :=
  ∀ (m : Fin 4) (s : State), s.powered 9 = true → ∀ u, u = lxNote (lxTakeMeans s m) m →
    (lxEnabled (lxState s m) = true →
      (u.fld LXM_HVOV_V m < u.fld LXM_VHV_V m → ∃ t, exec (.lxUpdate m) s = .next t ∧ lxState t m = lxTripped
        ∧ t.fld LXM_TRIP_CAUSE m = 1 ∧ t.flag LXM_EVT_TRIP m = true
        ∧ (s.flag CLK_STAT_CORELOCK = true → t.flt.due = s.flt.due ++ [⟨288 + m, m, 0, 0⟩]))
      ∧ (u.fld LXM_VHV_V m ≤ u.fld LXM_HVOV_V m → u.fld LXM_LVOV_V m < u.fld LXM_VLV_V m → ∃ t, exec (.lxUpdate m) s = .next t
        ∧ lxState t m = lxTripped ∧ t.fld LXM_TRIP_CAUSE m = 2
        ∧ (s.flag CLK_STAT_CORELOCK = true → t.flt.due = s.flt.due ++ [⟨292 + m, m, 0, 0⟩])))
    ∧ (u.fld LXM_VHV_V m ≤ u.fld LXM_HVOV_V m → u.fld LXM_VLV_V m ≤ u.fld LXM_LVOV_V m →
      (∀ sv sth rv rth, (sv, sth, rv, rth) = lxSides u m (u.fld LXM_VHV_V m) (u.fld LXM_VLV_V m) →
        lxState s m = lxStart ∨ lxState s m = lxRun →
        (sv < sth → ∃ t, exec (.lxUpdate m) s = .next t ∧ lxState t m = lxWait ∧ t.flag LXM_EVT_WAIT m = true)
        ∧ (sth ≤ sv → exec (.lxUpdate m) s = .next (toCore (lxShow (lxFixEdges (lxMoveInner (lxControl u m) m) m) m) (36 + m)).1
          ∧ ∃ t, exec (.lxUpdate m) s = .next t ∧ lxState t m = lxState s m ∧ (t.lxm m).boundary.isSome = true
            ∧ (t.lxm m).halves = (s.lxm m).halves + 1))
      ∧ (lxState s m = lxWait → exec (.lxUpdate m) s = .next (toCore u (36 + m)).1)
      ∧ (lxState s m = lxStopping → (s.lxm m).phi = 0 → (s.lxm m).phiHalf = 0 → (s.lxm m).w = 0 → (s.lxm m).restart = false →
        ∃ t, exec (.lxUpdate m) s = .next t ∧ lxState t m = lxOff))
    ∧ (lxEnabled (lxState s m) = false → exec (.lxUpdate m) s = .next s)

/-- R245, R250, R253, R256, R258: the writes and events of a module. The configuration fields of an OFF module take effect at once, those of
a running one through REVERSING; precharge ends with PCDONE inside its band and trips with cause 5 at its timeout. Which fields of LXm_CTRL
wait for the current to reach zero, and that a keyed row without a port freezes none, are the model's choice (assumption log entries 49 and
152). -/
def Obligations.ModuleCommandsAct : Prop :=
  ∀ (m : Fin 4) (w : Word) (key : Fin 65536) (s : State), s.powered 9 = true →
    (s.lxOpen m = true →
      (3 ≤ Word.bits w 6 4 → exec (.lxReconfigure m w) s = .next s)
      ∧ (Word.bits w 6 4 < 3 →
        (lxState s m = lxOff → ∃ t, exec (.lxReconfigure m w) s = .next t ∧ t.fld LXM_CTRL_CMODE m = Word.bits w 6 4
          ∧ t.flag LXM_CTRL_FWDEN m = Word.bit w 12 ∧ t.flag LXM_CTRL_REVEN m = Word.bit w 13 ∧ t.flag LXM_CTRL_PCHG m = Word.bit w 14
          ∧ ((s.lxm m).chgV = none → RegsOnly s t [LXM_CTRL.addr m]))
        ∧ (lxState s m = lxRun → lxDiffers w (s.reg LXM_CTRL m) = true → ∃ t, exec (.lxReconfigure m w) s = .next t
          ∧ lxState t m = lxReversing ∧ (t.lxm m).config = some w ∧ t.fld LXM_CTRL_CMODE m = s.fld LXM_CTRL_CMODE m))
      ∧ (∃ t, exec (.vtgtWrite m w) s = .next t ∧ t.reg LXM_VTGT m = w ∧ RegsOnly s t [LXM_VTGT.addr m, LXM_EVT.addr m]
        ∧ ((s.lxm m).chgV = none → (s.lxm m).moving = true → s.reg LXM_VTGT m ≠ w → t.flag LXM_EVT_SUPERSEDED m = true)
        ∧ ((s.lxm m).moving = false → t.reg LXM_EVT m = s.reg LXM_EVT m))
      ∧ (lxState s m = lxFenced → ∃ t, exec (.lxUnfence m 0x1F3C) s = .next t ∧ lxState t m = lxOff
        ∧ cellGet false t.flt.lxF m = false)
      ∧ (key.val ≠ 0x1F3C → exec (.lxUnfence m key) s = .next s)
      ∧ (∃ t, exec (.lxClrcnt m) s = .next t ∧ t.fld LXM_TRIP_COUNT m = 0 ∧ RegsOnly s t [LXM_TRIP.addr m]))
    ∧ (s.lxOpen m = false → exec (.lxReconfigure m w) s = .next s ∧ exec (.vtgtWrite m w) s = .next s
      ∧ exec (.lxUnfence m key) s = .next s ∧ exec (.lxClrcnt m) s = .next s)
    ∧ (s.fld LXM_STAT_PCST m = 1 →
      (lxState s m = lxStart ∨ lxState s m = lxRun → inPcBand s m = true →
        ∃ t, exec (.pcdone m) s = .next t ∧ t.fld LXM_STAT_PCST m = 3 ∧ t.flag LXM_EVT_PCDONE m = true
          ∧ RegsOnly s t [LXM_STAT.addr m, LXM_EVT.addr m])
      ∧ (lxEnabled (lxState s m) = true → inPcBand s m = false → (s.lxm m).banded = false →
        ∃ t, exec (.prechargeTimeout m) s = .next t ∧ t.fld LXM_STAT_PCST m = 4
          ∧ t.flag LXM_EVT_PCFAIL m = true ∧ lxState t m = lxTripped ∧ t.fld LXM_TRIP_CAUSE m = 5))


/-! ## Intent ports and anticipation (06_anticipation.md) -/

/-- R128, R129, R131, R132, R136, R137, R151, R159–R162, R447, R465: a sampled beat gets the answer of the vector in place and enters the
FIFO; the handshake, the enable, the drain, the clock and the supply of a port. An answer that no vector holds yet is REFUSE, the model's
choice (assumption log entry 160). How the handshake resets the crossing and the counts, and that a port with SRC = 1 samples no beat, are
the model's choice (assumption log entries 38 and 40). -/
def Obligations.PortsAnswerBeats : Prop :=
  ∀ (p : Fin 16) (c : Fin 64) (s : State), s.powered 4 = true →
    (portSamples s p = true → (s.port p).fifo.length < 4 →
      (c ≠ 0 → (s.port p).first = none → s.fld IP_STAT_VER p ≠ 2 → ∃ t, exec (.requestBeat p c) s = .next t
        ∧ (t.port p).iack = iackCode (vectorAnswer s p c).ans
        ∧ (t.port p).busy = ((s.port p).busy || (vectorAnswer s p c).ans == .grant)
        ∧ (t.port p).fifo = flushFifo ((s.port p).fifo ++ [⟨false, c, 63, vectorAnswer s p c, (s.group (p.val / 4)).active.epoch⟩])
        ∧ ((vectorAnswer s p c).ans = .defer → t.fld IP_STAT_DEFCODE p = c
          ∧ t.fld IP_NDEFER_COUNT p = min (s.fld IP_NDEFER_COUNT p + 1) 0xFFFFFFFF)
        ∧ ((vectorAnswer s p c).ans = .refuse → t.fld IP_NREFUSE_COUNT p = min (s.fld IP_NREFUSE_COUNT p + 1) 0xFFFFFFFF)
        ∧ t.mem = s.mem ∧ SameRegs s t [IP_STAT.addr p, IP_NDEFER.addr p, IP_NREFUSE.addr p, IP_EVT.addr p])
      ∧ (c ≠ 0 → (s.port p).first = none → s.fld IP_STAT_VER p = 2 → ∃ t, exec (.requestBeat p c) s = .next t
        ∧ (t.port p).first = some c.val ∧ (t.port p).iack = idleValue s p ∧ (t.port p).fifo = (s.port p).fifo
        ∧ t.flag IP_STAT_REFPEND p = false ∧ SameRegs s t [IP_STAT.addr p])
      ∧ (∀ f, (s.port p).first = some f →
        (c ≠ 0 → ∃ t, exec (.requestBeat p c) s = .next t ∧ (t.port p).iack = iackCode (vectorAnswer s p f).ans
          ∧ (t.port p).first = none ∧ (t.port p).fifo = flushFifo ((s.port p).fifo ++ [⟨false, f, c, vectorAnswer s p f, (s.group (p.val / 4)).active.epoch⟩]))
        ∧ ∃ t, exec (.releaseBeat p) s = .next t ∧ (t.port p).iack = iackCode (vectorAnswer s p f).ans ∧ (t.port p).first = none)
      ∧ ((s.port p).first = none → ∃ t, exec (.releaseBeat p) s = .next t
        ∧ (t.port p).iack = (if anticipationLive s.anticMode then 1 else 3)
        ∧ (t.port p).fifo = flushFifo ((s.port p).fifo ++ [⟨true, 0, 63, {}, (s.group (p.val / 4)).active.epoch⟩]) ∧ t.regs = s.regs)
      ∧ ∃ t, exec (.idleBeat p) s = .next t ∧ (t.port p).first = none ∧ (t.port p).iack = idleValue s p
        ∧ (t.port p).fifo = (s.port p).fifo ∧ t.regs = s.regs)
    ∧ (portSamples s p = true → 4 ≤ (s.port p).fifo.length → (s.port p).first = none → ∃ t, exec (.releaseBeat p) s = .next t
      ∧ t.fld IP_STAT_PSTATE p = psDisabled ∧ t.flag IP_EVT_OVERRUN p = true ∧ (t.port p).fifo = []
      ∧ t.flt.due = s.flt.due ++ [⟨342, p, 0, 0⟩])
    ∧ (s.fld IP_STAT_PSTATE p = psDisabled →
      (s.writesOpen = true → portsHeld s.cur = false → portsHeld s.anticMode = false → s.fld IPT_GRP_IOSTAT (p.val / 4) ≠ 0 →
        ∃ t, exec (.ipEnWrite p) s = .next t ∧ t.flag IP_CTRL_EN p = true ∧ (t.port p).fifo = []
          ∧ (t.port p).gcount = s.fld IP_STAT_GCOUNT p
          ∧ (s.flag IP_CTRL_SRC p = false → t.fld IP_STAT_PSTATE p = psHandshake ∧ (t.port p).iack = 3)
          ∧ (s.flag IP_CTRL_SRC p = true → t.fld IP_STAT_PSTATE p = psLive ∧ t.fld IP_STAT_VER p = portVmax s p))
      ∧ (s.writesOpen = false ∨ portsHeld s.cur = true ∨ portsHeld s.anticMode = true ∨ s.fld IPT_GRP_IOSTAT (p.val / 4) = 0 →
        exec (.ipEnWrite p) s = .next s))
    ∧ (∀ v2, s.fld IP_STAT_PSTATE p = psHandshake → ∃ t, exec (.handshakeComplete p v2) s = .next t ∧ t.fld IP_STAT_PSTATE p = psLive
      ∧ t.fld IP_STAT_VER p = (if v2 && portVmax s p == 2 then 2 else 1) ∧ t.flag IP_EVT_LIVE p = true)
    ∧ (s.fld IP_STAT_PSTATE p = psHandshake → ∃ t, exec (.hsfail p) s = .next t ∧ t.fld IP_STAT_PSTATE p = psDisabled
      ∧ t.flag IP_CTRL_EN p = false ∧ (t.port p).iack = 0 ∧ t.flag IP_EVT_HSFAIL p = true)
    ∧ (s.fld IP_STAT_PSTATE p ≠ psDisabled → ∃ t, exec (.portDrain p) s = .next t ∧ t.fld IP_STAT_PSTATE p = psDisabled
      ∧ t.flag IP_CTRL_EN p = false ∧ t.fld IP_STAT_VER p = 0 ∧ (t.port p).fifo = [] ∧ (t.port p).iack = 0
      ∧ t.flag IP_EVT_ABORTED p = true)
    ∧ (∀ (g : Fin 4) (i : Fin 4), (portOnBalls s (4 * g.val + i) = true → ∃ t, exec (.iclkStop g) s = .next t
        ∧ t.fld IP_STAT_PSTATE (4 * g.val + i) = psClklost ∧ t.flag IPT_GRP_CLKOK g = false ∧ t.flag IPT_GRP_CLKSTOP g = true
        ∧ t.stopped g = true ∧ t.flt.due = s.flt.due ++ [⟨341, g, 0, 0⟩])
      ∧ (s.fld IP_STAT_PSTATE (4 * g.val + i) = psClklost → ∃ t, exec (.iclkReturn g) s = .next t
        ∧ t.flag IPT_GRP_CLKOK g = true
        ∧ (s.flag IP_CTRL_SRC (4 * g.val + i) = false → t.fld IP_STAT_PSTATE (4 * g.val + i) = psHandshake ∧ t.stopped g = false)
        ∧ (s.flag IP_CTRL_SRC (4 * g.val + i) = true → t.fld IP_STAT_PSTATE (4 * g.val + i) = psLive))
      ∧ ∀ mv, ∃ t, exec (.vddipClassChange g mv) s = .next t
        ∧ (1620 ≤ mv → mv ≤ 1980 → t.fld IPT_GRP_IOSTAT g = 1) ∧ (2970 ≤ mv → mv ≤ 3630 → t.fld IPT_GRP_IOSTAT g = 2)
        ∧ (mv ≤ 1590 ∨ 2010 ≤ mv ∧ mv ≤ 2940 ∨ 3660 ≤ mv → t.fld IPT_GRP_IOSTAT g = 0)
        ∧ (s.fld IPT_GRP_IOSTAT g ≠ 0 → t.fld IPT_GRP_IOSTAT g ≠ s.fld IPT_GRP_IOSTAT g →
          t.fld IP_STAT_PSTATE (4 * g.val + i) = psDisabled))
    ∧ (s.writesOpen = true → ∃ t, exec (.ipClrcnt p) s = .next t ∧ t.fld IP_NCONF_COUNT p = 0 ∧ t.fld IP_NREVK_COUNT p = 0 ∧ t.fld IP_NDEFER_COUNT p = 0
      ∧ t.fld IP_NREFUSE_COUNT p = 0 ∧ t.fld IPT_REFUND_COUNT = 0 ∧ t.fld IPT_STALE_COUNT = 0
      ∧ RegsOnly s t [IP_NCONF.addr p, IP_NREVK.addr p, IP_NDEFER.addr p, IP_NREFUSE.addr p, IPT_REFUND.addr 0, IPT_STALE.addr 0])

/-- R135, R139, R140, R144, R147–R149: a published vector holds the answers computed now and its swap puts it in place; a GRANT opens
the intent record and debits the allowance, or is stale and revoked; a release ends it, and so does the end of CWIN; the bank and the
table are written where register writes are open. -/
def Obligations.GrantsOpenAndReleaseIntents : Prop :=
  ∀ (p : Fin 16) (s : State), s.powered 4 = true →
    (∀ b l, (s.port p).fifo = b :: l → b.release = false → ∃ t, exec (.grantProcessing p) s = .next t
      ∧ t.fld IP_STAT_GCOUNT p = (s.fld IP_STAT_GCOUNT p + 1) % 16 ∧ (t.port p).fifo = flushFifo l
      ∧ (stillGrants s p b.ans (scaleNat b.ans.entry.budg b.scale) = true → t.fld IP_OPEN_STATE p = 1
        ∧ t.fld IP_OPEN_CODE p = b.code % 64 ∧ t.fld IP_OPEN_SCALE p = b.scale % 64
        ∧ t.fld IP_ALLOW_ALLOW p = s.fld IP_ALLOW_ALLOW p - scaleNat b.ans.entry.budg b.scale
        ∧ (t.port p).reserved = scaleNat b.ans.entry.budg b.scale)
      ∧ (stillGrants s p b.ans (scaleNat b.ans.entry.budg b.scale) = false → t.fld IP_OPEN_STATE p = 0
        ∧ t.fld IP_REVRSN_REASON p = 7 ∧ t.flag IP_EVT_REVOKED p = true ∧ t.flag IP_EVT_STALE p = true
        ∧ t.fld IPT_STALE_COUNT = min (s.fld IPT_STALE_COUNT + 1) 0xFFFFFFFF))
    ∧ (∀ b l, (s.port p).fifo = b :: l → b.release = true →
      (s.fld IP_OPEN_STATE p = 1 → ∃ t, exec (.releaseProcessing p) s = .next t ∧ t.fld IP_OPEN_STATE p = 0
        ∧ t.fld IP_REVRSN_REASON p = 2 ∧ t.flag IP_EVT_REVOKED p = true ∧ (t.port p).reserved = 0
        ∧ t.fld IP_NREVK_COUNT p = min (s.fld IP_NREVK_COUNT p + 1) 0xFFFFFFFF)
      ∧ (s.fld IP_OPEN_STATE p = 2 → ∃ t, exec (.releaseProcessing p) s = .next t ∧ t.fld IP_OPEN_STATE p = 0
        ∧ (t.port p).reserved = 0 ∧ (t.port p).fifo = flushFifo l ∧ RegsOnly { s with ports := t.ports } t [IP_OPEN.addr p]))
    ∧ (s.fld IP_OPEN_STATE p = 1 → (s.port p).entry.cwin ≤ intentAge s p →
      ∃ t, exec (.confirmWindowExpiry p) s = .next t ∧ t.fld IP_OPEN_STATE p = 0
        ∧ t.fld IP_REVRSN_REASON p = 1 ∧ t.flag IP_EVT_REVOKED p = true ∧ (t.port p).reserved = 0)
    ∧ (s.fld IP_OPEN_STATE p ≠ 1 ∨ intentAge s p < (s.port p).entry.cwin → exec (.confirmWindowExpiry p) s = .next s)
    ∧ (∀ (n : Fin 32) (k : Fin 4), s.railPresent n = true → s.powered (railDomain n) = true →
      ∃ t, exec (.shedDelayExpiry n k) s = .next t ∧ t.regs = s.regs ∧ t.mem = s.mem
        ∧ ∀ c ∈ (t.rail n).contribs, c.slot = k.val → c.phase = .revoked → c.phadd = 0 ∧ c.armHeld = false)
    ∧ (∀ g : Fin 4, ∃ t b, exec (.grantVectorPublish g) s = .next t ∧ (t.group g).inactive = some b
      ∧ b.epoch = ((s.group g).epoch + 1) % 256 ∧ (t.group g).epoch = b.epoch ∧ (t.group g).active = (s.group g).active
      ∧ ∀ (i : Fin 4) (c : Fin 64), c ≠ 0 → t.fld IP_STAT_PSTATE (4 * g.val + i) = psLive →
        cellGet {} b.answers (64 * i.val + c.val) = answerFor t (liveBank t (4 * g.val + i)) (4 * g.val + i) c)
    ∧ (∀ (g : Fin 4) b, (s.group g).inactive = some b → s.stopped g = false → ∃ t, exec (.bufferSwap g) s = .next t
      ∧ (t.group g).active = b ∧ (t.group g).inactive = none ∧ t.fld IPT_GRP_SWEPOCH g = b.epoch % 256
      ∧ SameRegs s t [IPT_GRP.addr g])
    ∧ (∀ g : Fin 4, s.stopped g = true → exec (.bufferSwap g) s = .next s)
    ∧ (s.writesOpen = true → ∀ w, ∃ t, exec (.bankChange p w) s = .next t ∧ t.fld IP_BANK_BANK p = Word.bits w 2 0 ∧ t.fld IP_BANK_DBANK p = Word.bits w 6 4
      ∧ (s.fld IP_STAT_PSTATE p ≠ psDisabled → bankLive t p (liveBank s p) = true)
      ∧ RegsOnly { s with ports := t.ports } t [IP_BANK.addr p])
    ∧ ∀ (i : Fin 32768) (v : Word),
      (s.writesOpen = false ∨ bankLive s (i.val % 4096 / 256) (i.val / 4096) = true → exec (.intentTableWrite i v) s = .next s)
      ∧ (s.writesOpen = true → bankLive s (i.val % 4096 / 256) (i.val / 4096) = false → ∃ t, exec (.intentTableWrite i v) s = .next t
        ∧ t.peekRam 2 i = v ∧ (s.damage 2 (i.val / 8) ≠ .many → SameBytes s t (fun a => itBase + 4 * i.val ≤ a ∧ a < itBase + 4 * i.val + 4)))

/-! ## The budget arbiter (09_budget_policy.md) -/

/-- R138, R219–R229, R231, R233: an arbitration serves the claims and touches nothing but the arbiter; a lone pending claim that FREE covers
is granted whole; the writes of the arbiter's registers, the refusals, and the events of overload and of pinned time. The operands of
MEASURED_USE_REFRESH and the rounding of the measured powers are the model's choice (assumption log entry 105). -/
def Obligations.BudgetCommandsAct : Prop :=
  ∀ (k : Fin 8) (w : Word) (s : State), s.powered 4 = true →
    (∃ t, exec (.poolArbitration k) s = .next t ∧ t = poolCauses (poolServe (poolCut 4 k s) k) k ∧ t.mem = s.mem ∧ t.mode = s.mode
      ∧ t.rails = s.rails ∧ t.engs = s.engs
      ∧ SameRegs s t ((List.range 16).map (fun n => IP_ALLOW.addr n) ++ BUD_EVT.addr 0 :: (List.range 8).map (fun n => BUD_PSTAT.addr n)))
    ∧ (∀ p : Fin 48, poolExcess s k = 0 → poolCutPend s k = 0 → s.flag BUD_PSTAT_OVERCOMMIT k = false →
      (∀ j, (s.childClaim j).pending = false) → (∀ i, (s.hwClaim i).pending = false) → (∀ n, portRefills s n = false) →
      (∀ q, q ≠ p.val → (s.progClaim q k).pending = false) → (s.progClaim p k).pending = true →
      (s.progClaim p k).grant ≤ (s.progClaim p k).level → ((s.progClaim p k).short : Int) ≤ poolFree s k →
      ∃ t, exec (.poolArbitration k) s = .next t ∧ (t.progClaim p k).grant = (s.progClaim p k).level
        ∧ (t.progClaim p k).pending = false)
    ∧ (∀ c : Fin 10,
      (s.writesOpen = true → (s.hwClaim c).grant = 0 ∧ (s.hwClaim c).level = 0 ∨ Word.bits w 26 24 = s.fld BUD_HWREQ_POOL c →
        ∃ t, exec (.hwreqWrite c w) s = .next t ∧ t.fld BUD_HWREQ_LEVEL c = Word.bits w 19 0
        ∧ t.fld BUD_HWREQ_POOL c = Word.bits w 26 24 ∧ t.hwClaim c = (s.hwClaim c).request (Word.bits w 19 0) s.tbase ∧ SameRegs s t [BUD_HWREQ.addr c])
      ∧ (s.writesOpen = false ∨ Word.bits w 26 24 ≠ s.fld BUD_HWREQ_POOL c ∧ ((s.hwClaim c).grant ≠ 0 ∨ (s.hwClaim c).level ≠ 0) →
        exec (.hwreqWrite c w) s = .next s))
    ∧ (s.writesOpen = true → Word.bits w 27 24 = s.fld BUD_PCFG_PARENT k → Word.bits w 27 24 < 8 ∨ Word.bits w 27 24 = 15 →
      ∃ t, exec (.capWrite k w) s = .next t ∧ t.fld BUD_PCFG_CAP k = Word.bits w 19 0 ∧ t.fld BUD_PCFG_PARENT k = s.fld BUD_PCFG_PARENT k
        ∧ (Word.bits w 27 24 < 8 → (t.childClaim k).level = Word.bits w 19 0))
    ∧ (s.writesOpen = false → exec (.capWrite k w) s = .next s)
    ∧ (Word.bits w 27 24 ≠ s.fld BUD_PCFG_PARENT k → s.fld BUD_PCFG_CAP k ≠ 0 ∨ s.flag BUD_CFG_LOCK = true
        ∨ (8 ≤ Word.bits w 27 24 ∧ Word.bits w 27 24 ≤ 14) → exec (.capWrite k w) s = .next s)
    ∧ (s.writesOpen = true → progActive s (s.fld BUD_PSEL_PROG) = false → ∃ t, exec (.preqWrite w) s = .next t ∧ t.regs = s.regs
      ∧ t.progClaim (s.fld BUD_PSEL_PROG) (s.fld BUD_PSEL_POOL)
          = (s.progClaim (s.fld BUD_PSEL_PROG) (s.fld BUD_PSEL_POOL)).request (Word.bits w 19 0) s.tbase)
    ∧ (s.writesOpen = false ∨ progActive s (s.fld BUD_PSEL_PROG) = true → exec (.preqWrite w) s = .next s)
    ∧ (∀ n : Fin 16,
      (s.writesOpen = true → ∃ t, exec (.almaxWrite n w) s = .next t ∧ t.fld BUD_IPCFG_ALMAX n = Word.bits w 19 0
        ∧ t.fld IP_ALLOW_ALLOW n = min (s.fld IP_ALLOW_ALLOW n) (Word.bits w 19 0)
        ∧ (reductionWaits s n = true → (t.port n).cut = (s.port n).cut + (s.fld IP_ALLOW_ALLOW n - Word.bits w 19 0))
        ∧ SameRegs s t [BUD_IPCFG.addr n, IP_ALLOW.addr n])
      ∧ (s.writesOpen = false → exec (.almaxWrite n w) s = .next s)
      ∧ (reductionWaits s n = false → (s.port n).cut ≠ 0 →
        poolExcess (s.setPort n { s.port n with cut := 0 }) (s.fld IP_CTRL_POOL n) = 0 →
        ∃ t, exec (.allowanceReductionComplete n) s = .next t ∧ (t.port n).cut = 0)
      ∧ ((s.port n).cut = 0 → exec (.allowanceReductionComplete n) s = .next s))
    ∧ (∀ p : Fin 48, s.fld BUD_CFG_PENDTMO ≠ 0 →
      ((s.progClaim p k).pending = true → (s.progClaim p k).causeSubj = false →
        100 * s.fld BUD_CFG_PENDTMO ≤ s.tbase - (s.progClaim p k).since → ∃ t, exec (.claimRefusal false p k) s = .next t
        ∧ (t.progClaim p k).pending = false ∧ (t.progClaim p k).refused = true ∧ (t.progClaim p k).grant = (s.progClaim p k).grant
        ∧ t.flag BUD_EVT_REFUSED = true ∧ SameRegs s t [BUD_EVT.addr 0])
      ∧ ((s.hwClaim p).pending = true → (s.hwClaim p).causeSubj = false → 100 * s.fld BUD_CFG_PENDTMO ≤ s.tbase - (s.hwClaim p).since → ∃ t, exec (.claimRefusal true p k) s = .next t
        ∧ (t.hwClaim p).pending = false ∧ (t.hwClaim p).refused = true ∧ t.flag BUD_EVT_REFUSED = true))
    ∧ (∀ aux, ∃ t, exec (.measuredUseRefresh aux) s = .next t
      ∧ t.fld BUD_PMEAS_MEAS k = (clampInt (poolMeas s aux 4 k) 0 0xFFFFFFFF).toNat
      ∧ t.flag BUD_PSTAT_OVERLOAD k = (s.flag BUD_PSTAT_OVERLOAD k && decide (poolCapEff s k * 250 < t.fld BUD_PMEAS_MEAS k))
      ∧ RegsOnly s t ((List.range 8).map (fun n => BUD_PMEAS.addr n) ++ (List.range 8).map (fun n => BUD_PSTAT.addr n)))
    ∧ (s.fld BUD_CFG_OVLPERS ≠ 0 → poolCapEff s k * 250 < s.fld BUD_PMEAS_MEAS k → s.flag BUD_PSTAT_OVERLOAD k = false →
      ∃ t, exec (.overload k) s = .next t ∧ t.flag BUD_PSTAT_OVERLOAD k = true ∧ t.fbit BUD_EVT_OVERLOAD k = true
        ∧ t.flt.due = s.flt.due ++ [⟨345, k, 0, wordOf (s.fld BUD_PMEAS_MEAS k - poolCapEff s k * 250)⟩]
        ∧ SameRegs s t [BUD_PSTAT.addr k, BUD_EVT.addr 0])
    ∧ (s.fld BUD_PMEAS_MEAS k ≤ poolCapEff s k * 250 → exec (.overload k) s = .next s)
    ∧ (∀ (n : Fin 32) (q : Fin 4), s.fld ⟨BUD_PINPERS, 8 * q.val + 7, 8 * q.val⟩ ≠ 0 →
      cellGet false s.bud.pinned (4 * n.val + q.val) = true → cellGet false s.bud.pinRaised (4 * n.val + q.val) = false →
      ∃ t, exec (.pinnedEvent n q) s = .next t ∧ t.fbit BUD_PINEVT_RAILS n q = true
        ∧ cellGet false t.bud.pinRaised (4 * n.val + q.val) = true ∧ SameRegs s t [BUD_PINEVT.addr q])
    ∧ (s.writesOpen = true → ∃ t, exec .pinselClr s = .next t ∧ t.regs = s.regs
      ∧ cellGet 0 t.bud.pinMs (4 * s.fld BUD_PINSEL_RAIL + s.fld BUD_PINSEL_QTY) = 0
      ∧ cellGet false t.bud.pinSat (4 * s.fld BUD_PINSEL_RAIL + s.fld BUD_PINSEL_QTY) = false
      ∧ ∀ j, j ≠ 4 * s.fld BUD_PINSEL_RAIL + s.fld BUD_PINSEL_QTY → cellGet 0 t.bud.pinMs j = cellGet 0 s.bud.pinMs j)

/-! ## Engines, their commands, and their companions (07_engines.md) -/

/-- R171, R172, R180–R182, R184–R187: START, HALT, SIGRAISE, CLRCNT and the keyed commands; the fence, the spare's self-check, the restore
of a slot's frame, the end of a drain, and the return of a posted status. What HALT does to an open clause, by a host and by an engine, is
the model's choice (assumption log entry 78). -/
def Obligations.EnginesStartHaltFenceAndRestore : Prop :=
  ∀ (m : Fin 51) (h : Fin 3) (e : Fin 48) (s : State), s.engPresent e = true → s.powered (engDomain e) = true →
    (holdsProgram s e = true → engState s e = esHalted → programsRun s = true → MasterWrites s m (0x3017 + 0x20 * e.val) 1 → ∃ t, exec (.startCommand m e) s = .next t
      ∧ engState t e = esRunning ∧ RegsOnly (askedBy s m (0x3017 + 0x20 * e.val)) t [ENG_STAT.addr e])
    ∧ (48 ≤ m.val → engState s e ≠ esHalted → MasterWrites s m (0x3017 + 0x20 * e.val) 1 →
      exec (.startCommand m e) s = .next (askedBy s m (0x3017 + 0x20 * e.val)))
    ∧ (engState s e = esRunning ∨ engState s e = esWaiting ∨ engState s e = esFrozen → MasterWrites s m (0x3017 + 0x20 * e.val) 2 →
      ∃ t, exec (.haltCommand m e) s = .next t
      ∧ engState t e = esHalted ∧ (t.eng e).wait = none ∧ (engState s e ≠ esFrozen → t.flag ENG_EVT_HALTED e = true)
      ∧ (48 ≤ m.val → (t.eng e).clause = none) ∧ (m.val < 48 → (t.eng e).clause = (s.eng e).clause))
    ∧ (∀ n, holdsProgram s e = true → MasterWrites s m (0x3017 + 0x20 * e.val) (wordOf (128 + 256 * n.val)) → ∃ t, exec (.sigraise m e n) s = .next t ∧ t.fbit ENG_SIG_PENDING n (progOf s e) = true
      ∧ RegsOnly (askedBy s m (0x3017 + 0x20 * e.val)) t [ENG_SIG.addr (progOf s e)])
    ∧ (MasterWrites s m (0x3017 + 0x20 * e.val) 64 → ∃ t, exec (.engClrcnt m e) s = .next t ∧ t.fld ENG_NCONF_COUNT e = 0 ∧ t.fld ENG_NREVK_COUNT e = 0
      ∧ SameRegs s t [ENG_NCONF.addr e, ENG_NREVK.addr e])
    ∧ (m.val < 48 → engState s m = esFenced → exec (.startCommand m e) s = .next s ∧ exec (.haltCommand m e) s = .next s
      ∧ exec (.engClrcnt m e) s = .next s ∧ ∀ n, exec (.sigraise m e n) s = .next s)
    ∧ (engState s e = esFrozen → HostWrites s h (0x3017 + 0x20 * e.val) → ∃ t, exec (.unfreeze h e 0x3F0E) s = .next t
      ∧ engState t e = esRunning ∧ RegsOnly (hostAsked s h (0x3017 + 0x20 * e.val)) t [ENG_STAT.addr e])
    ∧ (∀ key : Fin 65536, key ≠ 0x3F0E → HostWrites s h (0x3017 + 0x20 * e.val) →
      (∃ t, exec (.unfreeze h e key) s = .next t ∧ FreezesPort s t h 3 (0x3017 + 0x20 * e.val))
      ∧ (∃ t, exec (.restore h e key) s = .next t ∧ FreezesPort s t h 3 (0x3017 + 0x20 * e.val))
      ∧ ∃ t, exec (.migrate h e key) s = .next t ∧ FreezesPort s t h 3 (0x3017 + 0x20 * e.val))
    ∧ (engState s e = esFrozen → HostWrites s h (0x3017 + 0x20 * e.val) →
      (slotOk s (progOf s e) = true → s.injects 357 4 = none → ∃ t, exec (.restore h e 0x3F0E) s = .next t ∧ engState t e = esRestoring
        ∧ (t.eng e).restore = some ⟨progOf s e, e, false, true⟩)
      ∧ (slotOk s (progOf s e) = false → ∃ t, exec (.restore h e 0x3F0E) s = .next t ∧ ⟨337, progOf s e, 0, 0⟩ ∈ t.flt.due
        ∧ engState t e = esFrozen ∧ ((∀ i : Fin 64, ReadsClean s 4 (64 * progOf s e + i.val)) → t.regs = s.regs
          ∧ t.flt.due = s.flt.due ++ [⟨337, progOf s e, 0, 0⟩])))
    ∧ (engState s e = esFenced → holdsProgram s e = true → (s.prog (progOf s e)).awaiting = false → slotOk s (progOf s e) = true →
      s.injects 357 4 = none →
      HostWrites s h (0x3017 + 0x20 * e.val) →
      (∀ x, freeSpare s = some x → ∃ t, exec (.migrate h e 0x3F0E) s = .next t ∧ engState t x = esRestoring
        ∧ t.fld ENG_MIGR_FROM x = e ∧ (t.eng x).restore = some ⟨progOf s e, e, true, false⟩)
      ∧ (freeSpare s = none → ∃ t, exec (.migrate h e 0x3F0E) s = .next t ∧ t.fld ENG_BAR_BARMASK (progOf s e) = 0
        ∧ (t.prog (progOf s e)).awaiting = false ∧ t.mode.reqs = s.mode.reqs ++ [⟨.hw 0x04, modeDegraded, 0, 0, false⟩]))
    ∧ (∀ pair, engState s e = esRunning ∨ engState s e = esWaiting ∨ engState s e = esFrozen ∨ engState s e = esRestoring →
      ∃ t, exec (.engineFence e pair) s = .next t ∧ engState t e = esFenced ∧ t.flag ENG_EVT_FENCED e = true
        ∧ t.fld ENG_FREEZE_CAUSE e = (if pair then 0xF else 0xE) ∧ t.fld ENG_FREEZE_ADDR e = s.fld ENG_PC_PC e)
    ∧ (∀ r, (s.eng e).restore = some r → r.checking = true →
      (∃ t, exec (.spareSelfCheckDone e true) s = .next t ∧ t.regs = s.regs
        ∧ (t.eng e).restore = some { r with checking := false })
      ∧ ∃ t, exec (.spareSelfCheckDone e false) s = .next t ∧ engState t e = esFenced)
    ∧ (∀ r, (s.eng e).restore = some r → r.checking = false → r.prog < 48 → r.src < 48 →
      (slotOk s r.prog = false → ∃ t, exec (.restoreComplete e) s = .next t
        ∧ engState t e = (if r.inPlace then esFrozen else esHalted) ∧ ⟨337, r.prog, 0, 0⟩ ∈ t.flt.due)
      ∧ (slotOk s r.prog = true → s.injects 357 4 = none → ∃ t, exec (.restoreComplete e) s = .next t ∧ engState t e = esRunning
        ∧ (∀ i : Fin 16, t.g e i = s.word ckBase (ckWord r.prog (0x100 + i.val)))
        ∧ t.fld ENG_PC_PC e = (s.word ckBase (ckWord r.prog 0x110)).toNat % 65536
        ∧ t.reg ENG_BARGEN r.prog = s.word ckBase (ckWord r.prog 0x11C)
        ∧ t.reg ENG_RETIRED r.prog = s.word ckBase (ckWord r.prog 0x11D)
        ∧ (r.inPlace = true → t.flag ENG_EVT_RESTORED e = true)
        ∧ (r.inPlace = false → r.src ≠ e.val → t.flag ENG_EVT_MIGRATED e = true ∧ progOf t e = r.prog ∧ progOf t r.src = 0x3F
          ∧ t.fld ENG_MIGR_TO r.src = e)))
    ∧ (engState s e = esDraining → ∃ t, exec (.engineDrainEnd e) s = .next t ∧ engState t e = esHalted
      ∧ t.flag ENG_EVT_ABORTED e = true ∧ (t.eng e).ckpt = none)
    ∧ (∀ p l, (s.eng e).posted = p :: l →
      (p.freeze = 0 → ∃ t, exec (.postedStatusReturn e) s = .next t ∧ (t.eng e).posted = l
        ∧ (p.status = .modedeny → t.flag ENG_FLAGS_MODEDENY e = true) ∧ (p.status ≠ .modedeny → t.regs = s.regs))
      ∧ (p.freeze ≠ 0 → engState s e = esRunning ∨ engState s e = esWaiting → ∃ t, exec (.postedStatusReturn e) s = .next t
        ∧ engState t e = esFrozen ∧ t.fld ENG_FREEZE_CAUSE e = p.freeze % 16 ∧ t.fld ENG_FREEZE_ADDR e = p.addr % 65536
        ∧ t.flag ENG_EVT_FROZEN e = true))

/-- R173, R174, R178, R179, R181: the end of a checkpoint copy makes the slot's valid word and counts its sequence; a clause confirms
when its condition is true within its window, and its window's end revokes it to its label; a signal is taken in sequence; a complete barrier lets
its waiters run. -/
def Obligations.CopiesClausesSignalsAndBarriersEnd : Prop :=
  ∀ (e : Fin 48) (s : State),
    (∀ c, s.powered 10 = true → (s.eng e).ckpt = some c → c.prog < 48 → c.frame.length = 47 →
      ∃ t, exec (.checkpointComplete e) s = .next t ∧ (t.eng e).ckpt = none
        ∧ t.fld ENG_CKSTAT_SEQ c.prog = (s.fld ENG_CKSTAT_SEQ c.prog + 1) % 65536 ∧ t.fld ENG_CKTIME_TIME c.prog = s.tbaseLo
        ∧ t.word ckBase (ckWord c.prog 0x12F) = wordOf ((s.fld ENG_CKSTAT_SEQ c.prog + 1) % 65536
            + 65536 * (65535 - (s.fld ENG_CKSTAT_SEQ c.prog + 1) % 65536))
        ∧ (∀ i : Fin 47, t.word ckBase (ckWord c.prog (0x100 + i.val)) = c.frame.getD i 0)
        ∧ SameBytes s t (fun a => ckBase + 2048 * c.prog ≤ a ∧ a < ckBase + 2048 * c.prog + 2048))
    ∧ (∀ c, s.engPresent e = true → s.powered (engDomain e) = true → (s.eng e).clause = some c →
      (condTrue s e c.cond = true → c.window ≠ 0 → s.tbase ≤ c.opened + c.window → ∃ t, exec (.clauseConfirm e) s = .next t ∧ (t.eng e).clause = none ∧ (t.eng e).held = []
        ∧ t.fld ENG_CLAUSE_STATE e = 0 ∧ t.flag ENG_EVT_CONFIRMED e = true
        ∧ t.fld ENG_NCONF_COUNT e = min (s.fld ENG_NCONF_COUNT e + 1) 0xFFFFFFFF)
      ∧ (condTrue s e c.cond = false ∨ c.window = 0 ∨ c.opened + c.window < s.tbase → exec (.clauseConfirm e) s = .next s)
      ∧ (c.window ≠ 0 → s.tbase ≤ c.opened + c.window → exec (.clauseWindowExpiry e) s = .next s)
      ∧ (c.window = 0 ∨ c.opened + c.window < s.tbase → ∃ t, exec (.clauseWindowExpiry e) s = .next t ∧ (t.eng e).clause = none ∧ (t.eng e).held = [] ∧ (t.eng e).wait = none
        ∧ t.fld ENG_CLAUSE_STATE e = 0 ∧ t.fld ENG_CLAUSE_LASTRSN e = 1 ∧ t.flag ENG_EVT_REVOKED e = true
        ∧ t.fld ENG_PC_PC e = c.label % 65536 ∧ (engState s e = esWaiting → engState t e = esRunning)))
    ∧ (∃ t, exec (.clauseDisarm e) s = .next t ∧ t.regs = s.regs
      ∧ ∀ (n : Fin 32) x, (t.rail n).clause = some x → x.eng = e.val → x.armHeld = false)
    ∧ (∀ m l, s.sigs = m :: l → m.dst < 48 → m.signo < 16 →
      ((m.seq + 256 - cellGet 0 (s.prog m.dst).sigRx m.src) % 256 = 1 → ∃ t, exec .signalDelivery s = .next t ∧ t.sigs = l
        ∧ t.fbit ENG_SIG_PENDING m.signo m.dst = true ∧ cellGet 0 (t.prog m.dst).sigRx m.src = m.seq
        ∧ SameRegs s t [ENG_SIG.addr m.dst])
      ∧ ((m.seq + 256 - cellGet 0 (s.prog m.dst).sigRx m.src) % 256 = 0 → m.replay = false → ∃ t, exec .signalDelivery s = .next t
        ∧ t.sigs = l ∧ t.regs = s.regs ∧ t.flt.due = s.flt.due ++ [⟨339, m.dst, m.src, wordOf m.seq⟩]))
    ∧ (∀ (b : Fin 8), ∃ t, exec (.barrierCompletion b) s = .next t ∧ t.mem = s.mem
      ∧ SameRegs s t ((List.range 48).map (fun x => ENG_STAT.addr x))
      ∧ ∀ g l tmo start, (s.eng e).wait = some (.sync b.val g l tmo start) → engState s e = esWaiting →
        (barComplete s b g = true → engState t e = esRunning ∧ (t.eng e).wait = none)
        ∧ (barComplete s b g = false → engState t e = esWaiting))

/-! ## The charge paths and assist sessions (11_charge_path.md) -/

/-- R259, R261–R265, R267–R272: the computation takes its measurements and finds a removal; the enables, the auxiliary duty and the
chemistry; presence, precondition, CV entry, taper, recharge, the termination of BATH, and the timers. Of the causes of one computation the
highest rank of R273 stands. When CHEM is refused, that AUXCHG is refused both ways while HEN is set, and the causes that one computation
ranks are the model's choice (assumption log entries 57, 72 and 146). -/
def Obligations.ChargePathsRunTheirStates : Prop :=
  ∀ (s : State), s.powered 8 = true →
    (∀ (vbat bsen vhb ihb vas vin3 : Int) (rise : Fin 8), 0 ≤ vbat → vbat < 4294967296 →
      ∃ t, exec (.chgComputation vbat bsen vhb ihb vas vin3 rise) s = .next t ∧ (t.fld CHG_VBAT_V : Int) = vbat ∧ t.mem = s.mem
        ∧ t.flt.due = s.flt.due
        ∧ (rise.val.testBit 0 = true → bState s = bCc → aActive s = false → bState t = bAbsent ∧ t.fld CHG_STAT_BREASON = 8
          ∧ t.flag CHG_EVT_BABSENT = true ∧ t.chg.opening = true))
    ∧ (bState s ≠ bOff → ∃ t, exec (.benWrite false) s = .next t ∧ bState t = bOff ∧ t.flag CHG_CTRL_BEN = false)
    ∧ (s.flag CHG_CTRL_BEN = false → s.sfld CHG_ICHG_ICHG ≠ 0 → s.fld CHG_TCOMP_RSH ≠ 0 → (chgModules s).length ≤ 1 →
      batmMode s.cur = true → ∃ t, exec (.benWrite true) s = .next t ∧ t.flag CHG_CTRL_BEN = true
        ∧ bState t = (if s.pins.bdis then (if s.chg.bStop then bStopped else bDetect) else bMatch)
        ∧ RegsOnly s t [CHG_CTRL.addr 0, CHG_STAT.addr 0])
    ∧ (s.flag CHG_CTRL_BEN = false → batmMode s.cur = false ∨ s.sfld CHG_ICHG_ICHG = 0 ∨ s.fld CHG_TCOMP_RSH = 0 →
      exec (.benWrite true) s = .next s)
    ∧ (∃ t, exec (.henWrite false) s = .next t ∧ hState t = hOff ∧ t.flag CHG_CTRL_HEN = false ∧ t.chg.ilimH = 0)
    ∧ (s.flag CHG_CTRL_HEN = false →
      (s.fld CHG_HICHG_IFAST ≠ 0 → s.flag CHG_CTRL_AUXCHG = true → bathMode s.cur = true → ∃ t, exec (.henWrite true) s = .next t
        ∧ t.flag CHG_CTRL_HEN = true ∧ hState t = (if s.chg.hStop then hStopped else hDetect))
      ∧ (s.flag CHG_CTRL_AUXCHG = false → exec (.henWrite true) s = .next s
        ∧ (auxState s 3 = axOff → ∃ t, exec (.auxchgWrite true) s = .next t ∧ t.flag CHG_CTRL_AUXCHG = true
          ∧ auxState t 3 = axCharger)
        ∧ (auxState s 3 ≠ axOff → exec (.auxchgWrite true) s = .next s)))
    ∧ (s.flag CHG_CTRL_HEN = true → ∀ b, exec (.auxchgWrite b) s = .next s)
    ∧ (∀ c : Fin 4, (c.val = 3 ∨ bState s ≠ bOff → exec (.chemWrite c) s = .next s)
      ∧ (c.val ≠ 3 → bState s = bOff → ∃ t, exec (.chemWrite c) s = .next t ∧ t.fld CHG_CTRL_CHEM = c
        ∧ t.reg CHG_VCELL = (if c = 0 then 0x5DC057E4#32 else 0x8AAC0000#32) ∧ t.fld CHG_TIME_TMR = (if c = 0 then 720 else 600)
        ∧ RegsOnly s t [CHG_CTRL.addr 0, CHG_VCELL.addr 0, CHG_VTHR.addr 0, CHG_TCOMP.addr 0, CHG_BTWIN.addr 0, CHG_BIFRAC.addr 0,
            CHG_BVDROP.addr 0, CHG_TIME.addr 0]))
    ∧ ((ncell s : Int) * 1000000 ≤ vbatOf s → vbatOf s ≤ vcvB s + (ncell s : Int) * 100000 →
      (bState s = bDetect → s.chg.causeB = none → ∃ t, exec (.batteryPresence 0) s = .next t ∧ t.fld CHG_BTMR_COUNT = 0
        ∧ t.flag CHG_EVT_BPRESENT = true
        ∧ (bCause s = none → bState t = (if vbatOf s < (ncell s : Int) * s.fld CHG_VTHR_VPRE * 100 then bPrecond else bCc))
        ∧ ∀ r, bCause s = some r → bState t = bSuspended ∧ t.fld CHG_STAT_BREASON = r
          ∧ t.chg.bOld = (if vbatOf s < (ncell s : Int) * s.fld CHG_VTHR_VPRE * 100 then bPrecond else bCc))
      ∧ (bState s = bAbsent → ∃ t, exec (.batteryPresence 0) s = .next t ∧ bState t = bMatch ∧ t.flag CHG_EVT_BPRESENT = true))
    ∧ (bState s = bPrecond → (ncell s : Int) * s.fld CHG_VTHR_VPRE * 100 ≤ vbatOf s → ∃ t, exec (.precondComplete 0) s = .next t
      ∧ bState t = bCc ∧ RegsOnly s t [CHG_STAT.addr 0])
    ∧ (bState s = bCc → vcvB s - (ncell s : Int) * 10000 ≤ vbatOf s → ∃ t, exec (.cvEntry false) s = .next t ∧ bState t = bCv
      ∧ RegsOnly s t [CHG_STAT.addr 0])
    ∧ (bState s = bCv → s.sfld CHG_IBAT_I < taperCurrent s 0 → 2 * taperCurrent s 0 ≤ s.sfld CHG_ILIM_I →
      (s.chg.causeB = none → ∃ t, exec (.taperTermination false) s = .next t
        ∧ bState t = (if s.fld CHG_VCELL_VFLOAT = 0 then bDone else bFloat) ∧ t.fld CHG_STAT_BREASON = 1 ∧ t.flag CHG_EVT_BDONE = true
        ∧ t.mem = s.mem ∧ SameRegs s t [CHG_STAT.addr 0, CHG_EVT.addr 0])
      ∧ ∀ c, s.chg.causeB = some c → c.1 ≤ causeRank 1 → exec (.taperTermination false) s = .next s)
    ∧ (bState s = bDone → vbatOf s < (ncell s : Int) * s.fld CHG_VTHR_VRECH * 100 → ∃ t, exec (.recharge 0) s = .next t
      ∧ bState t = bCc ∧ t.fld CHG_BTMR_COUNT = 0)
    ∧ (hState s = hDetect → 20000000 ≤ vhbOf s → vhbOf s ≤ 20 * s.fld CHG_HCELL_VHMAX * 100 → s.chg.causeH = none →
      ∃ t, exec (.batteryPresence 1) s = .next t ∧ t.chg.hSecs = 0 ∧ t.fld CHG_HTMR_COUNT = 0 ∧ (hCause s = none → hState t = hFast)
        ∧ ∀ r, hCause s = some r → hState t = hSuspended ∧ t.fld CHG_STAT_HREASON = r ∧ t.chg.hOld = hFast)
    ∧ (∀ v u : Int, hState s = hFast → s.chg.causeH = none → ∃ t, exec (.bathTermination v u) s = .next t ∧ t.chg.hPeak = max s.chg.hPeak v
      ∧ t.chg.hSecs = s.chg.hSecs + 1
      ∧ (s.fld CHG_HTERM_DV = 0 → s.fld CHG_HTERM_DTDT = 0 → hState t = hFast)
      ∧ (s.fld CHG_HTERM_HOLDOFF * 60 < s.chg.hSecs + 1 → s.fld CHG_HTERM_DV ≠ 0 → 1 ≤ s.chg.hBelow →
        v < s.chg.hPeak - 20 * s.fld CHG_HTERM_DV * 1000 → hState t = hDone ∧ t.fld CHG_STAT_HREASON = 2 ∧ t.flag CHG_EVT_HDONE = true))
    ∧ (hState s = hFast → s.chg.causeH = none → 20 * (s.fld CHG_HCELL_VHMAX : Int) * 100 < vhbOf s → ∃ t, exec .bathOvp s = .next t ∧ hState t = hStopped
      ∧ t.fld CHG_STAT_HREASON = 7 ∧ t.flag CHG_EVT_HSTOP = true ∧ t.flt.due = s.flt.due ++ [⟨348, 1, 7, 0⟩])
    ∧ (bPrecond ≤ bState s → bState s ≤ bFloat → s.chg.causeB = none → chgSource s = false → ∃ t, exec (.nosource 0) s = .next t ∧ bState t = bSuspended
      ∧ t.fld CHG_STAT_BREASON = 11 ∧ t.chg.bOld = bState s)
    ∧ (bState s = bCc → s.chg.causeB = none → 0 < s.sfld CHG_ILIM_I → ∃ t, exec .safetyTimerSecond s = .next t
      ∧ t.fld CHG_BTMR_COUNT = (s.fld CHG_BTMR_COUNT + timerRate (s.sfld CHG_ILIM_I) (fastCurrent s 0)) % 4294967296
      ∧ (120 * s.fld CHG_TIME_TMR ≤ t.fld CHG_BTMR_COUNT → bState t = bStopped ∧ t.chg.bStop = true ∧ t.flag CHG_EVT_BSTOP = true
        ∧ t.fld CHG_STAT_BREASON = (if timerRate (s.sfld CHG_ILIM_I) (fastCurrent s 0) = 1 then 5 else 4)))

/-- R260, R266, R267, R271, R272, R277–R281: the temperature windows and an NTC fault; the disconnect, its retry and its close; the clearing
of a stop and of the counters; the steps of an assist session to its end or its fallback; ship mode's latch. The arithmetic of the NTC's
formula, and the instance and detail of the faults 346 to 350, are the model's choice (assumption log entries 51 and 65). -/
def Obligations.WindowsStopsAndSessionsAct : Prop :=
  ∀ (s : State), s.powered 8 = true →
    (∀ r : Nat, Word.bits (s.reg CHG_BNTC) 31 16 ≠ 0 → Word.bits (s.reg CHG_BNTC) 15 0 ≠ 0 →
      (ntcBad (ntcTemp (ntcOhms r) (Word.bits (s.reg CHG_BNTC) 15 0) (Word.bits (s.reg CHG_BNTC) 31 16)) = true →
        ∃ t, exec (.temperatureWindowUpdate 0 r) s = .next t ∧ t.fld CHG_STAT_BWIN = 7 ∧ t.flag CHG_EVT_NTCFLT = true
          ∧ (bState s = bCc → s.chg.causeB = none → bState t = bSuspended ∧ t.fld CHG_STAT_BREASON = 6))
      ∧ (ntcBad (ntcTemp (ntcOhms r) (Word.bits (s.reg CHG_BNTC) 15 0) (Word.bits (s.reg CHG_BNTC) 31 16)) = false → s.fld CHG_STAT_BWIN ≠ 7 →
        ∃ t, exec (.temperatureWindowUpdate 0 r) s = .next t ∧ t.sfld CHG_TEMPS_TBAT
            = ntcTemp (ntcOhms r) (Word.bits (s.reg CHG_BNTC) 15 0) (Word.bits (s.reg CHG_BNTC) 31 16)
          ∧ t.fld CHG_STAT_BWIN = ntcWindow (s.fld CHG_STAT_BWIN) (s.reg CHG_BTWIN) (t.sfld CHG_TEMPS_TBAT)))
    ∧ (s.fld CHG_STAT_BWIN = 7 → ntcBad (s.sfld CHG_TEMPS_TBAT) = false → ∃ t, exec (.ntcFaultEnd 0) s = .next t
      ∧ t.fld CHG_STAT_BWIN = ntcWindow 7 (s.reg CHG_BTWIN) (s.sfld CHG_TEMPS_TBAT) ∧ t.flag CHG_EVT_BWINCHG = true)
    ∧ (s.chg.opening = true → chgSource s = true → ∃ t, exec .disconnectOpen s = .next t ∧ t.pins.bdis = false
      ∧ t.flag CHG_STAT_BDIS = false ∧ t.chg.opening = false)
    ∧ (aActive s = true → exec .reconnection s = .next s ∧ exec .matchRetry s = .next s)
    ∧ (bState s = bMatch → aActive s = false → (s.chg.vlv - vbatOf s).natAbs ≤ 500000 → ∃ t, exec .reconnection s = .next t ∧ t.pins.bdis = true
      ∧ t.flag CHG_STAT_BDIS = true ∧ bState t = (if s.chg.bStop then bStopped else bDetect))
    ∧ (bState s = bMatch → aActive s = false → ∀ l, chgLeader s = some l → s.fld LXM_CTRL_CMODE l ≠ 2 → s.lxOpen l = true → ∃ t, exec .matchRetry s = .next t
      ∧ (t.lxm l).chgV = some (vbatOf s) ∧ (t.lxm l).chgI = some (s.sfld CHG_ISYS_I) ∧ t.flag LXM_STAT_CHGOVR l = true)
    ∧ (s.chg.bStop = true → s.chg.bLow = true → bState s = bStopped → ∃ t, exec .clrstop s = .next t ∧ t.chg.bStop = false
      ∧ bState t = bDetect ∧ t.flag CHG_STAT_BCLRPEND = false)
    ∧ (s.chg.bStop = true → s.chg.bLow = false → ∃ t, exec .clrstop s = .next t ∧ t.chg.bStop = true ∧ t.flag CHG_STAT_BCLRPEND = true)
    ∧ (s.chg.hStop = true → s.chg.hLow = true → hState s = hStopped → ∃ t, exec .hclrstop s = .next t ∧ t.chg.hStop = false
      ∧ hState t = hDetect ∧ t.flag CHG_STAT_HCLRPEND = false)
    ∧ (bState s = bStopped → hState s = hOff → aState s = aEnded → ∃ t, exec .chgClrcnt s = .next t ∧ t.fld CHG_BTMR_COUNT = 0
      ∧ t.fld CHG_HTMR_COUNT = 0 ∧ t.fld CHG_ATMR_COUNT = 0 ∧ RegsOnly s t [CHG_BTMR.addr 0, CHG_HTMR.addr 0, CHG_ATMR.addr 0])
    ∧ (s.cur = modeAssist → aState s = aReady → vasInWindow s = true → s.fld CHG_ASV_ASV ≠ 0 → s.fld CHG_ASI_ASI ≠ 0 →
      s.fld CHG_ASCFG_NCELL ≠ 0 → s.fld CHG_ASWIN_VMAX ≠ 0 → s.fld CHG_ASV_ASV ≤ s.fld CHG_ASWIN_VMAX * 10000 →
      ∃ t, exec .asstart s = .next t ∧ aState t = aIsolate ∧ t.fld CHG_ATMR_COUNT = 0 ∧ (bState s = bCc → s.chg.causeB = none → bState t = bSuspended))
    ∧ (s.cur ≠ modeAssist → exec .asstart s = .next s)
    ∧ (aState s = aIsolate ∨ aState s = aMatch ∨ aState s = aCharge → ∃ t, exec .asstop s = .next t ∧ aState t = aReturn
      ∧ t.pins.assistEn = false ∧ t.fld CHG_ASSTAT_ASREASON = 15)
    ∧ (s.pins.assistEn = false → vasInWindow s = true → aState s = aIdle → ∃ t, exec .assistDetection s = .next t ∧ aState t = aReady
      ∧ t.flag CHG_EVT_ASDET = true ∧ RegsOnly s t [CHG_ASSTAT.addr 0, CHG_EVT.addr 0])
    ∧ (s.pins.assistEn = false → vasInWindow s = false → aState s = aReady → ∃ t, exec .assistDetection s = .next t ∧ aState t = aIdle)
    ∧ (aState s = aIsolate → (s.sfld CHG_IBAT_I).natAbs ≤ 2000 → chgSource s = true → ∃ t, exec .isolateComplete s = .next t
      ∧ aState t = aMatch ∧ t.pins.bdis = false)
    ∧ (aState s = aMatch → (s.chg.vlv - vasOf s).natAbs ≤ 500000 → ∃ t, exec .assistMatchComplete s = .next t ∧ aState t = aCharge
      ∧ t.pins.assistEn = true)
    ∧ (aState s = aCharge → (s.fld CHG_ASV_ASV : Int) - (s.fld CHG_ASCFG_NCELL : Int) * 10000 ≤ vasOf s →
      ∃ t, exec (.cvEntry true) s = .next t ∧ t.chg.aCv = true ∧ t.regs = s.regs)
    ∧ (aState s = aReturn → (s.chg.vlv - vbatOf s).natAbs ≤ 500000 → ∃ t, exec .assistReturnComplete s = .next t ∧ aState t = aEnded
      ∧ t.pins.bdis = true ∧ t.flag CHG_EVT_ASEND = true)
    ∧ (aState s = aIsolate → ∃ t, exec .assistLimit s = .next t ∧ aState t = aReturn ∧ t.fld CHG_ASSTAT_ASREASON = 13)
    ∧ (aState s = aReturn → ∃ t, exec .assistLimit s = .next t ∧ aState t = aEnded ∧ t.fld CHG_ASSTAT_ASREASON = 13
      ∧ t.flt.due = s.flt.due ++ [⟨349, 2, 13, 0⟩])
    ∧ (aActive s = true → chgSource s = false ∨ hwShutdown s = true
        ∨ s.chg.vlv < (s.fld CHG_ASWIN_VMIN : Int) * 10000 - 1000000 ∨ (s.fld CHG_ASWIN_VMAX : Int) * 10000 + 1000000 < s.chg.vlv → ∃ t, exec .assistFallback s = .next t ∧ aState t = aEnded ∧ t.pins.bdis = true
      ∧ t.pins.assistEn = false ∧ t.fld CHG_ASSTAT_ASREASON = 14 ∧ t.flag CHG_EVT_ASFALL = true
      ∧ t.flt.due = s.flt.due ++ [⟨350, 2, 14, 0⟩])
    ∧ (s.pins.armed = true → ∃ t, exec .shipDisconnectOpen s = .next t ∧ t.pins.bdis = false ∧ t.pins.preOff = true
      ∧ t.fld PDC_STAT_ON = 0 ∧ RegsOnly { s with pins := t.pins } t [PDC_STAT.addr 0])

/-! ## Supervision, telemetry and the housekeeping converters (12_supervision_telemetry.md) -/

/-- R284–R288, R291, R293–R295, R297–R299: a comparator takes its state with its event and its fault; a general supervisor flips; a reset
output is released; the counters, the telemetry windows and reads, and the scans of the converters. -/
def Obligations.SupervisorsTelemetryAndConvertersAct : Prop :=
  ∀ (s : State),
    (∀ (n : Fin 32) (q : Fin 4) (v : Int),
      (compArmed s n q = false ∨ compWant s n q (supVolt s n v) = s.fbit SUP_STAT_RAILS n q →
        exec (.comparatorTransition n q v) s = .next s)
      ∧ (compArmed s n q = true → s.fbit SUP_STAT_RAILS n q = false → compWant s n q (supVolt s n v) = true →
        (q.val = 2 → ∃ t, exec (.comparatorTransition n q v) s = .next t ∧ t.fbit SUP_STAT_RAILS n q = true ∧ t.flt.due = s.flt.due)
        ∧ (q.val ≠ 2 → compAct s n q = 0 → ∃ t, exec (.comparatorTransition n q v) s = .next t ∧ t.fbit SUP_STAT_RAILS n q = true
          ∧ t.fbit SUP_EVT_RAILS n q = true ∧ t.flt.due = s.flt.due)
        ∧ (q.val ≠ 2 → compAct s n q = 1 → cellGet false s.flt.level (65536 * compSource n q + n) = false →
          ∃ t, exec (.comparatorTransition n q v) s = .next t ∧ t.fbit SUP_STAT_RAILS n q = true ∧ t.fbit SUP_EVT_RAILS n q = true
            ∧ t.flt.due = s.flt.due ++ [⟨compSource n q, n, 0, 0⟩]))
      ∧ (compArmed s n q = true → s.fbit SUP_STAT_RAILS n q = true → compWant s n q (supVolt s n v) = false →
        ∃ t, exec (.comparatorTransition n q v) s = .next t ∧ t.fbit SUP_STAT_RAILS n q = false ∧ t.flt.due = s.flt.due
          ∧ (q.val = 2 → t.fbit SUP_EVT_RAILS n q = true)))
    ∧ (∀ k : Fin 16, s.powered 6 = true → s.flag GS_CFG_EN k = true → max 1 (s.fld GS_CFG_DGL k) ≤ cellGet 0 s.sup.gsRun k →
      ∃ t, exec (.gsTransition k) s = .next t ∧ t.fbit SUP_GSSTAT_GS k = !s.fbit SUP_GSSTAT_GS k
        ∧ (s.fbit SUP_GSSTAT_GS k = false → t.fbit SUP_GSEVT_GS k = true))
    ∧ (∀ j : Fin 8, (s.flag RSTO_STAT_STRETCHING j = true →
        100 * max 1 (s.fld RSTO_CFG_STRETCH j) ≤ s.tbase - cellGet 0 s.sup.rstT j → ∃ t, exec (.resetOutputRelease j) s = .next t
        ∧ t.flag RSTO_STAT_LEVEL j = true ∧ t.flag RSTO_STAT_STRETCHING j = false ∧ t.mem = s.mem ∧ t.rails = s.rails
        ∧ SameRegs s t [RSTO_STAT.addr j])
      ∧ (s.flag RSTO_STAT_STRETCHING j = false ∨ s.tbase - cellGet 0 s.sup.rstT j < 100 * max 1 (s.fld RSTO_CFG_STRETCH j) → exec (.resetOutputRelease j) s = .next s))
    ∧ (s.powered 11 = true →
      (∃ t, exec .cntClr s = .next t ∧ t.regs = s.regs ∧ cellGet 0 t.sup.cnt (s.fld SUP_CNTSEL_IDX) = 0
        ∧ cellGet false t.sup.sat (s.fld SUP_CNTSEL_IDX) = false
        ∧ ∀ i, i ≠ s.fld SUP_CNTSEL_IDX → cellGet 0 t.sup.cnt i = cellGet 0 s.sup.cnt i)
      ∧ (∀ c : Fin 4, s.tbase % 2 ^ cellGet 10 s.sup.telN c ≠ 0 ∨ cellGet 0 s.sup.telAt c = s.tbase →
        exec (.telemetryWindowEnd c) s = .next s)
      ∧ (∀ c : Fin 4, s.tbase % 2 ^ cellGet 10 s.sup.telN c = 0 → cellGet 0 s.sup.telAt c ≠ s.tbase → cellWf {} s.sup.tel = true → ∃ t, exec (.telemetryWindowEnd c) s = .next t ∧ t.regs = s.regs ∧ t.mem = s.mem
        ∧ cellGet 10 t.sup.telN c = telExp s c
        ∧ ∀ (kind i : Nat), i < 64 → (telClass kind = c.val → t.tel kind i = (s.tel kind i).endWindow kind)
          ∧ (telClass kind ≠ c.val → t.tel kind i = s.tel kind i))
      ∧ ∀ p : Fin 3, ∃ t r, exec (.teldataRead p) s = .next t
        ∧ r = telRead s (s.fld SUP_TELSEL_KIND (masterHost p)) (s.fld SUP_TELSEL_IDX (masterHost p)) (s.flag SUP_TELSEL_RAW (masterHost p))
            (s.flag SUP_TELSEL_PEAK (masterHost p))
        ∧ t.flag SUP_TELSEL_PDOFF (masterHost p) = r.pdoff ∧ t.flag SUP_TELSEL_HELD (masterHost p) = r.held
        ∧ SameRegs s t [SUP_TELSEL.addr (masterHost p)])
    ∧ ∀ (c : Fin 2), s.powered 6 = true →
      (s.fld HADC_CTRL_TRIG c = 2 → s.tbase % max 1 (s.fld HADC_PER_PER c) ≠ 0 → exec (.scanTrigger c) s = .next s)
      ∧ (s.flag HADC_CTRL_EN c = true → s.fld HADC_CTRL_TRIG c = 2 → s.tbase % max 1 (s.fld HADC_PER_PER c) = 0 →
        (s.flag HADC_STAT_BUSY c = false → ∃ t, exec (.scanTrigger c) s = .next t ∧ t.flag HADC_STAT_BUSY c = true
          ∧ (t.hadc c).trig = true ∧ SameRegs s t [HADC_STAT.addr c])
        ∧ (s.flag HADC_STAT_BUSY c = true → ∃ t, exec (.scanTrigger c) s = .next t ∧ t.flag HADC_EVT_TRIGMISS c = true
          ∧ t.fld HADC_MISS_COUNT c = min (s.fld HADC_MISS_COUNT c + 1) 0xFFFFFFFF))
      ∧ (s.writesOpen = true → s.flag HADC_CTRL_EN c = true → s.fld HADC_CTRL_TRIG c = 1 → s.flag HADC_STAT_BUSY c = false →
        ∃ t, exec (.hadcGo c) s = .next t ∧ t.flag HADC_STAT_BUSY c = true ∧ (t.hadc c).trig = true)
      ∧ (s.fld HADC_CTRL_TRIG c ≠ 1 → exec (.hadcGo c) s = .next s)
      ∧ (s.writesOpen = false → exec (.hadcGo c) s = .next s ∧ exec (.hadcClrcnt c) s = .next s ∧ ∀ b, exec (.hadcEnWrite c b) s = .next s)
      ∧ (s.writesOpen = true → ∃ t, exec (.hadcClrcnt c) s = .next t ∧ t.fld HADC_MISS_COUNT c = 0 ∧ RegsOnly s t [HADC_MISS.addr c])
      ∧ (∀ j l, s.flag HADC_CTRL_EN c = true → (s.hadc c).scan = j :: l → j < 32 →
        (crossingShut s (144 + c.val) = true → ∀ (uv : Int) lost, ∃ t, exec (.hadcConversion c uv lost) s = .next t ∧ (t.hadc c).scan = l
          ∧ SameRegs s t [HADC_STAT.addr c, HADC_EVT.addr c])
        ∧ (crossingShut s (144 + c.val) = false → ∀ uv : Nat, uv * 65536 < 65535 * hadcFull (32 * c.val + j) →
          ∃ t, exec (.hadcConversion c uv false) s = .next t
          ∧ t.fld HADC_RES_V (32 * c.val + j) = uv * 65536 / hadcFull (32 * c.val + j) * hadcFull (32 * c.val + j) / 65536 ∧ t.flag HADC_RES_NEW (32 * c.val + j) = true
          ∧ t.flag HADC_RES_OR (32 * c.val + j) = false ∧ (t.hadc c).scan = l ∧ (l = [] → t.flag HADC_EVT_SCANDONE c = true))
        ∧ (crossingShut s (144 + c.val) = false → ∀ uv : Int, uv < 0 ∨ 65535 * (hadcFull (32 * c.val + j) : Int) ≤ uv * 65536 → ∃ t, exec (.hadcConversion c uv false) s = .next t
          ∧ t.flag HADC_RES_OR (32 * c.val + j) = true ∧ t.flag HADC_EVT_OVR c = true ∧ t.fbit HADC_ORMASK_CH j c = true)
        ∧ (crossingShut s (144 + c.val) = false → ∀ uv : Int, ∃ t, exec (.hadcConversion c uv true) s = .next t ∧ t.reg HADC_RES (32 * c.val + j) = s.reg HADC_RES (32 * c.val + j)
          ∧ t.flag HADC_STAT_OVERRUN c = true ∧ t.flag HADC_EVT_OVERRUN c = true))
      ∧ (∀ i : Fin 64, ∃ t, exec (.hadcResultRead i) s = .next t ∧ t.flag HADC_RES_NEW i = false ∧ t.fld HADC_RES_V i = s.fld HADC_RES_V i
        ∧ RegsOnly s t [HADC_RES.addr i])
      ∧ (s.writesOpen = true → ∃ t, exec (.hadcEnWrite c true) s = .next t ∧ t.flag HADC_CTRL_EN c = true ∧ RegsOnly s t [HADC_CTRL.addr c])
      ∧ (s.writesOpen = true → s.flag HADC_CTRL_EN c = true → ∃ t, exec (.hadcEnWrite c false) s = .next t ∧ t.flag HADC_CTRL_EN c = false
        ∧ t.flag HADC_STAT_BUSY c = false ∧ (t.hadc c).scan = [] ∧ t.flag HADC_EVT_ABORTED c = true)

/-! ## The housekeeping regulators and the maquette (12_supervision_telemetry.md, 13_thermal.md) -/

/-- R302–R306, R310, R311, R315, R317, R322, R459, R462: the AUX regulators' enable, states, faults and fence; a supply's window; the
maquette's enable, its update of a node without links, its marks; and the fixed die limit, of two comparators at 165 °C with a release at
145 °C. The kind of a supply's fault is a free value, and a keyed row without a port freezes none: the model's choice (assumption log
entries 54 and 152). -/
def Obligations.RegulatorsAndMaquetteAct : Prop :=
  ∀ (n : Fin 4) (s : State),
    (s.writesOpen = true → railEnableMode s.cur = true → auxCfgBad (s.fld AUX_CFG_VOUT n) (s.fld AUX_CFG_ILIM n) = false →
      nodeShutdown s (72 + n) = false → auxState s n = axOff → ∃ t, exec (.auxEnWrite n true) s = .next t ∧ auxState t n = axSoftstart
        ∧ t.flag AUX_CTRL_EN n = true)
    ∧ (s.writesOpen = false ∨ railEnableMode s.cur = false ∨ auxCfgBad (s.fld AUX_CFG_VOUT n) (s.fld AUX_CFG_ILIM n) = true →
      exec (.auxEnWrite n true) s = .next s)
    ∧ (s.writesOpen = true → auxRuns (auxState s n) = true → ∃ t, exec (.auxEnWrite n false) s = .next t ∧ auxState t n = axOff ∧ t.fld AUX_STAT_LASTOFF n = 1
      ∧ t.flag AUX_CTRL_EN n = false ∧ t.flag AUX_STAT_PG n = false)
    ∧ (∀ w, (s.writesOpen = false ∨ auxCfgBad (Word.bits w 15 0) (Word.bits w 26 16) = true → exec (.auxCfgWrite n w) s = .next s)
      ∧ (s.writesOpen = true → auxCfgBad (Word.bits w 15 0) (Word.bits w 26 16) = false → ∃ t, exec (.auxCfgWrite n w) s = .next t
        ∧ t.fld AUX_CFG_VOUT n = Word.bits w 15 0 ∧ t.fld AUX_CFG_ILIM n = Word.bits w 26 16 ∧ RegsOnly s t [AUX_CFG.addr n]))
    ∧ (auxState s n = axSoftstart → ∃ t, exec (.auxSoftstartComplete n) s = .next t ∧ auxState t n = axRegulate
      ∧ RegsOnly s t [AUX_STAT.addr n, AUX_CTRL.addr n])
    ∧ (auxState s n = axSoftstart ∨ auxState s n = axRegulate → cellGet false s.flt.level (65536 * (320 + n.val) + n.val) = false →
      (∀ mv, mv < 4200 → ∃ t, exec (.auxInloss ⟨n, mv⟩) s = .next t ∧ auxState t n = axInloss
        ∧ t.flt.due = s.flt.due ++ [⟨320 + n, n, 2, 0⟩])
      ∧ ∀ ma, (auxIlim s n).1 ≤ ma → ∃ t, exec (.auxOvercurrent ⟨n, ma⟩) s = .next t ∧ t.regs = s.regs
        ∧ t.flt.due = s.flt.due ++ [⟨320 + n, n, 1, 0⟩])
    ∧ (auxState s n = axInloss → (∀ mv, 4500 ≤ mv → ∃ t, exec (.auxInlossRecovery ⟨n, mv⟩) s = .next t ∧ auxState t n = axSoftstart)
      ∧ ∀ mv, mv < 4500 → exec (.auxInlossRecovery ⟨n, mv⟩) s = .next s)
    ∧ (auxState s n = axRegulate → (∀ mv, mv < 9 * s.fld AUX_CFG_VOUT n → cellGet false s.flt.level (65536 * (320 + n.val) + n.val) = false →
        ∃ t, exec (.auxOutputUv ⟨n, mv⟩) s = .next t ∧ t.regs = s.regs ∧ t.flt.due = s.flt.due ++ [⟨320 + n, n, 3, 0⟩])
      ∧ ∀ mv, 940 * s.fld AUX_CFG_VOUT n ≤ 100 * mv → 100 * mv ≤ 1060 * s.fld AUX_CFG_VOUT n →
        ∃ t, exec (.auxPowerGood ⟨n, mv⟩) s = .next t ∧ t.flag AUX_STAT_PG n = true ∧ t.fbit HKR_STAT_AUXPG n = true)
    ∧ (∀ mv, 100 * mv < 940 * s.fld AUX_CFG_VOUT n ∨ 1060 * s.fld AUX_CFG_VOUT n < 100 * mv →
      ∃ t, exec (.auxPowerGoodLoss ⟨n, mv⟩) s = .next t ∧ t.flag AUX_STAT_PG n = false ∧ t.fbit HKR_STAT_AUXPG n = false)
    ∧ (s.writesOpen = true → auxState s n = axFenced → ∃ t, exec (.auxUnfence n 0x4A7E) s = .next t ∧ auxState t n = axOff ∧ cellGet false t.flt.auxF n = false)
    ∧ (∀ key : Fin 65536, key ≠ 0x4A7E ∨ s.writesOpen = false → exec (.auxUnfence n key) s = .next s)
    ∧ (∀ (k : Fin 3) out prein nom, nom = (if k = 0 then (if prein < 6000 then prein - 300 else 5000) else if k = 1 then 800 else 3300) →
      (92 * nom ≤ 100 * out → 100 * out ≤ 108 * nom →
        ∃ t, exec (.hkrSupplyWindow k ⟨out, prein⟩) s = .next t ∧ t.flag (hkrOk k) = true ∧ t.flt.due = s.flt.due)
      ∧ (100 * out < 92 * nom ∨ 108 * nom < 100 * out → cellGet false s.flt.level (65536 * (364 + k.val)) = false →
        ∃ t, exec (.hkrSupplyWindow k ⟨out, prein⟩) s = .next t ∧ t.flag (hkrOk k) = false
        ∧ t.flt.due = s.flt.due ++ [⟨364 + k, 0, (Config.freeWord s.freeCtr).toNat % 65536, 0⟩]))
    ∧ (s.powered 11 = true →
      (∀ ts hkr (i : Fin 78) x, s.flag THM_CTRL_EN = true → s.flag THM_STAT_INIT = false → cellWf none s.thm.temp = true →
        nodeUsed s i = true → cellGet none s.thm.temp i = some x → (∀ l ∈ thmLinks s, l.a ≠ i.val ∧ l.b ≠ i.val) →
        ∃ t, exec (.maquetteUpdate ts hkr) s = .next t ∧ t.mem = s.mem ∧ t.thm.fresh = []
          ∧ cellGet none t.thm.temp i
              = some (x + divRound ((nodeLoss s hkr i : Int) * thmUnit) ((s.fld THM_NCFG_C i : Int) * 1000000000000)))
      ∧ (∀ ts hkr, s.flag THM_CTRL_EN = false → exec (.maquetteUpdate ts hkr) s = .next s)
      ∧ (∃ t, exec .maquetteInitEnd s = .next t ∧ t.flag THM_STAT_INIT = false ∧ RegsOnly s t [THM_STAT.addr 0])
      ∧ (s.flag THM_CTRL_EN = false →
        (badNode s = none → s.flag THM_CTRL_AMBSRC = false → ∃ t, exec (.thmEnWrite true) s = .next t ∧ t.flag THM_CTRL_EN = true
          ∧ t.fld THM_STAT_BADNODE = 0x7F)
        ∧ (∀ i, badNode s = some i → i < 78 → ∃ t, exec (.thmEnWrite true) s = .next t ∧ t.flag THM_CTRL_EN = false
          ∧ t.fld THM_STAT_BADNODE = i))
      ∧ (s.flag THM_CTRL_EN = true → ∃ t, exec (.thmEnWrite false) s = .next t ∧ t.flag THM_CTRL_EN = false
        ∧ t.flag THM_EVT_ABORTED = true ∧ t.thm.lvl = [] ∧ t.reg THM_RLIVE 0 = THM_RLIVE.reset 0)
      ∧ (∃ t, exec .clrbrk s = .next t ∧ t.thm.tsBrk = 0 ∧ ∀ k : Fin 3, t.fld THM_BRK_NODES k = 0))
    ∧ (∀ (temps : List Int) (a b : Fin 9), temps.length = 9 → a ≠ b → 16500 ≤ temps.getD a 0 → 16500 ≤ temps.getD b 0 → s.cur ≠ modeShip →
      s.flag SYS_DIELIM_ASSERT = false → cellGet false s.flt.level (65536 * 334) = false →
      ∃ t, exec (.dieLimit temps) s = .next t ∧ t.flag SYS_DIELIM_ASSERT = true ∧ t.flag SYS_DIELIM_TRIP = true
        ∧ (∀ k : Fin 9, t.fbit SYS_DIELIM_SENS k = (decide (16500 ≤ temps.getD k 0)
            || s.fbit SYS_DIELIM_SENS k && decide (14500 < temps.getD k 0)))
        ∧ t.flt.due = s.flt.due ++ [⟨334, 0, t.fld SYS_DIELIM_SENS, 0⟩]
        ∧ t.mode.reqs = s.mode.reqs ++ [⟨.hw 2, modeShutdown, 0, 0, false⟩])
    ∧ (∀ (temps : List Int) (a : Fin 9), (∀ k : Fin 9, k ≠ a → temps.getD k 0 < 16500) → s.fld SYS_DIELIM_SENS = 0 → s.cur ≠ modeShip →
      ∃ t, exec (.dieLimit temps) s = .next t ∧ t.flag SYS_DIELIM_ASSERT = s.flag SYS_DIELIM_ASSERT ∧ t.flt.due = s.flt.due
        ∧ RegsOnly s t [SYS_DIELIM.addr 0])
    ∧ (∀ temps, s.cur = modeShip → exec (.dieLimit temps) s = .next s)
    ∧ (∀ k : Fin 9, s.cur ≠ modeShip → s.flag SYS_DIELIM_ASSERT = false → ∃ t, exec (.dieSingleSensor k) s = .next t
      ∧ t.flag SYS_DIELIM_SINGLE = true ∧ t.fld SYS_DIELIM_SENS = 2 ^ k.val ∧ t.flt.due = s.flt.due ++ [⟨335, k, 0, 0⟩])

/-! ## Host ports (14_host_interrupts.md) -/

/-- R327–R332, R334, R337, R349: an accepted frame is answered with its own ADDR and ALIVE and the result of its command; a frame that a
check refuses is discarded and counted; the service port, the version, the end of a freeze, and the counters. The hop that a host's
mismatched pair names, and what becomes of a frame that begins too early, on the service port too, are the model's choice (assumption log
entries 101, 114 and 116). -/
def Obligations.HostFramesAreCheckedAndAnswered : Prop :=
  ∀ (p : Fin 3) (f : HostFrame) (s : State), s.powered 7 = true →
    (f.early = false → f.undef = none → s.injects 351 p = none →
      ∀ u v : State, u = frameStart s p false →
        v = (setAlive u p f.alive).setHost p { (setAlive u p f.alive).host p with hold := none, lastAddr := f.addr } →
      (frameStatus u p 0 f = none → ∃ t, exec (.hostNop p f) s = .next t ∧ (t.host p).resp.status = .none
        ∧ (t.host p).resp.addr = f.addr ∧ (t.host p).resp.alive = f.alive ∧ t.fld SYS_HSTAT_ALIVEREF p = f.alive ∧ t.mem = s.mem)
      ∧ (frameStatus u p 1 f = none → ∃ t, exec (.rd p f) s = .next t ∧ (t.host p).resp.status = (hostRead v p f.addr).2.2
        ∧ (t.host p).resp.addr = f.addr ∧ (t.host p).resp.alive = f.alive
        ∧ ((hostRead v p f.addr).2.2 = .ok ∨ (hostRead v p f.addr).2.2 = .pairerr → (t.host p).resp.data = (hostRead v p f.addr).2.1)
        ∧ ((hostRead v p f.addr).2.2 ≠ .ok → (hostRead v p f.addr).2.2 ≠ .pairerr → (t.host p).resp.data = 0))
      ∧ (frameStatus u p 2 f = none → ∃ t, exec (.wr p f) s = .next t ∧ (t.host p).resp.status = (hostWrite v p f.addr f.data false).2
        ∧ (t.host p).resp.addr = f.addr
        ∧ (t.host p).resp.data
          = (if (hostWrite v p f.addr f.data false).2 = .ok ∨ (hostWrite v p f.addr f.data false).2 = .eccerr then f.data else 0)
        ∧ t.mem = (hostWrite v p f.addr f.data false).1.mem ∧ t.regs = (hostWrite v p f.addr f.data false).1.regs)
      ∧ (frameStatus u p 3 f = none → ∃ t, exec (.wrpv p f) s = .next t ∧ (t.host p).resp.status = .ok
        ∧ (t.host p).resp.addr = f.addr ∧ (t.host p).resp.data = f.data ∧ (t.host p).hold = some (f.addr.val, f.data) ∧ t.mem = s.mem)
      ∧ (frameStatus u p 4 f = none →
        (∀ w, (u.host p).hold = some (f.addr.val, w) → f.data = ~~~w → hopInjected v (masterHost p) f.addr = (v, false) → ∃ t, exec (.wrpc p f) s = .next t
          ∧ (t.host p).resp.status = (hostWrite v p f.addr w true).2 ∧ t.regs = (hostWrite v p f.addr w true).1.regs)
        ∧ ((u.host p).hold = none → ∃ t, exec (.wrpc p f) s = .next t ∧ (t.host p).resp.status = .pairerr
          ∧ t.flt.due = s.flt.due ++ [⟨354, 0, masterHost p, wordOf f.addr⟩]))
      ∧ (frameStatus u p 5 f = none → ∃ t, exec (.rdc p f) s = .next t ∧ (t.host p).resp.status = (hostReadComp v p f.addr).2.2
        ∧ ((hostReadComp v p f.addr).2.2 = .ok → (t.host p).resp.data = ~~~(hostRead v p f.addr).2.1))
      ∧ (frameStatus u p 6 f = none → ∃ t, exec (.rdclr p f) s = .next t ∧ (t.host p).resp.status = (hostReadClear v p f.addr).2.2
        ∧ ((hostReadClear v p f.addr).2.2 = .ok → (t.host p).resp.data = (hostReadClear v p f.addr).2.1))
      ∧ (f.edges = 80 → crc16 64 (frameBits 2 f) ≠ f.crc.toNat → ∃ t, exec (.wr p f) s = .next t ∧ (t.host p).resp.status = .crcerr
        ∧ (t.host p).resp.addr = 0 ∧ t.fbit SYS_HEVT_EVENTS (3 * p) = true
        ∧ t.fld SYS_HERR_COUNT p = min (s.fld SYS_HERR_COUNT p + 1) 0xFFFFFFFF ∧ t.mem = s.mem ∧ t.flt.due = s.flt.due))
    ∧ (∀ k, f.early = false → f.undef = some k → s.injects 351 p = none → frameStatus (frameStart s p false) p (7 + k.val) f = some .cmderr →
      ∃ t, exec (.wr p f) s = .next t ∧ (t.host p).resp.status = .cmderr ∧ t.fbit SYS_HEVT_EVENTS (3 * p) = true
        ∧ t.fld SYS_HERR_COUNT p = min (s.fld SYS_HERR_COUNT p + 1) 0xFFFFFFFF ∧ t.mem = s.mem)
    ∧ (f.early = true → f.undef = none → s.injects 351 p = none →
      frameStatus (frameStart s p true) p 2 f = none ∨ frameStatus (frameStart s p true) p 2 f = some .frozen → ∃ t, exec (.wr p f) s = .next t
      ∧ t.fbit SYS_HEVT_EVENTS (3 * p + 2) = true ∧ (t.host p).resp = (s.host p).resp ∧ t.mem = s.mem
      ∧ (p.val < 2 → (t.host p).sent.status = .wait))
    ∧ (∃ t, exec (.svcResponseRead true) s = .next t ∧ (t.host 2).sent = (s.host 2).resp ∧ t.regs = s.regs)
    ∧ (∃ t, exec (.svcResponseRead false) s = .next t ∧ (t.host 2).sent.status = .wait ∧ t.regs = s.regs)
    ∧ exec .svcBusReset s = .next s
    ∧ (s.powered 0 = true → s.flag SYS_HSTAT_FROZEN p = false → s.flag SYS_BOOTSTAT_OTPHOLD = false →
      (∀ a : Fin 16, (s.fld SYS_HOSTVER_MINVER (masterHost p) ≤ a → a ≤ s.fld SYS_HOSTVER_MAXVER (masterHost p) →
          ∃ t, exec (.hostverWrite p a) s = .next t ∧ hostVer t p = a ∧ RegsOnly (hostAsked s p 2) t [SYS_HOSTVER.addr (masterHost p)])
        ∧ (a < s.fld SYS_HOSTVER_MINVER (masterHost p) → exec (.hostverWrite p a) s = .next (hostAsked s p 2)))
      ∧ (∀ (m : Fin 16) (q : Fin 3), q ≠ p → m.val.testBit q = true → s.flag SYS_HSTAT_FROZEN q = true →
        ∃ t, exec (.unfrzWrite p 0x5F12 m) s = .next t ∧ t.flag SYS_HSTAT_FROZEN q = false ∧ hostVer t q = 1
          ∧ (t.host q).aliveOpen = true)
      ∧ (∀ (key : Fin 65536) m, key ≠ 0x5F12 → ∃ t, exec (.unfrzWrite p key m) s = .next t ∧ t.flag SYS_HSTAT_FROZEN p = true
        ∧ t.fld SYS_HSTAT_CAUSE p = 3 ∧ t.fld SYS_HSTAT_ADDR p = 0x8C)
      ∧ (hostRight s p 0x8F = true → s.cur ≠ modePlinth → ∃ t, exec (.hostClrcnt p) s = .next t ∧ t.fld SYS_HERR_COUNT 0 = 0
        ∧ t.fld SYS_HERR_COUNT 1 = 0 ∧ t.fld SYS_HERR_COUNT 2 = 0 ∧ RegsOnly (hostAsked s p 0x8F) t [SYS_HERR.addr 0, SYS_HERR.addr 1, SYS_HERR.addr 2]))
    ∧ (s.flag SYS_HSTAT_FROZEN p = true → ∀ a, exec (.hostverWrite p a) s = .next s)

/-! ## Interrupts (14_host_interrupts.md) -/

/-- R338, R339, R341, R344–R348: a routed source has its line high, a priority and no acknowledgement; an available target below its
priority gets it; an acknowledgement pushes, an end of interrupt pops; an entry whose pair does not match empties its stack (that every
entry is read at once is the model's choice, assumption log entry 167); in the drain nothing routes and no ball is driven (R348); the
software interrupts and the records clear. How long the line of MODE_CHANGE stands is the model's choice (assumption log entry 88). -/
def Obligations.InterruptsAreRoutedAndAcknowledged : Prop :=
  ∀ (s : State), s.powered 7 = true →
    (s.intc.stopped = true → exec .interruptRouting s = .next s ∧ ∀ g, intLow s g = false ∧ nmiLow s g = false)
    ∧ (∀ (g : Fin 4) (d : Nat), s.intc.stopped = false → d < (intcStack s g).length → cellGet 0 s.intc.stkPairs (16 * g.val + d) ≠ 0 →
      ∃ t, exec .interruptRouting s = .next t ∧ intcStack t g = []
        ∧ ⟨353, g, 3, wordOf (65536 * ((intcStack s g).headD (0, 0)).1 + 256 * ((intcStack s g).headD (0, 0)).1)⟩ ∈ t.flt.due)
    ∧ (s.intc.stopped = false → (∀ (g : Fin 4) (d : Nat), d < (intcStack s g).length → cellGet 0 s.intc.stkPairs (16 * g.val + d) = 0) →
      ∃ t, exec .interruptRouting s = .next t ∧ t.mem = s.mem
      ∧ (∀ i ∈ intcSources, t.flag INTC_SRC_ROUTED i = true → intcLine s i = true ∧ s.fld INTC_SRC_PRI i ≠ 0
        ∧ t.flag INTC_SRC_ACTIVE i = false)
      ∧ ∀ i ∈ intcSources, intcLine s i = true → s.fld INTC_SRC_PRI i ≠ 0 → s.flag INTC_SRC_ACTIVE i = false →
        targetAvail s 0 = true → s.fbit INTC_SRC_TMASK 0 i = true → targetRpri s 0 < s.fld INTC_SRC_PRI i →
        t.flag INTC_SRC_ROUTED i = true)
    ∧ (∀ (m : Fin 51) (g : Fin 4) (i : Fin 256),
      (48 ≤ m.val → ownSide s m g = false →
        (HostWrites s (m.val - 48) (0x303 + 0x20 * g.val) → ∃ t, exec (.ack m g i) s = .next t
          ∧ FreezesPort s t (m.val - 48) 1 (0x303 + 0x20 * g.val))
        ∧ (HostWrites s (m.val - 48) (0x304 + 0x20 * g.val) → ∃ t, exec (.eoi m g i) s = .next t
          ∧ FreezesPort s t (m.val - 48) 1 (0x304 + 0x20 * g.val)))
      ∧ (MasterWrites s m (0x303 + 0x20 * g.val) (wordOf i) → ownSide s m g = true →
        (∀ d, d < (intcStack s g).length → cellGet 0 s.intc.stkPairs (16 * g.val + d) = 0) → routedTo s g i = true → targetRpri s g < s.fld INTC_SRC_PRI i →
        ((intcStack s g).length < 16 → ∃ t, exec (.ack m g i) s = .next t
          ∧ intcStack t g = (i.val, s.fld INTC_SRC_PRI i) :: intcStack s g ∧ t.flag INTC_SRC_ACTIVE i = true
          ∧ t.flag INTC_SRC_ROUTED i = false ∧ SameRegs s t [INTC_SRC.addr i] ∧ (i.val = 188 → t.intc.modeLine = false))
        ∧ (16 ≤ (intcStack s g).length → s.fld INTC_STKERR_KIND = 0 → ∃ t, exec (.ack m g i) s = .next t
          ∧ intcStack t g = intcStack s g ∧ t.fld INTC_STKERR_KIND = 4 ∧ SameRegs s t [INTC_STKERR.addr 0]))
      ∧ (MasterWrites s m (0x304 + 0x20 * g.val) (wordOf i) → ownSide s m g = true →
        (∀ d, d < (intcStack s g).length → cellGet 0 s.intc.stkPairs (16 * g.val + d) = 0) → ∀ pri l, intcStack s g = (i.val, pri) :: l →
        ∃ t, exec (.eoi m g i) s = .next t ∧ intcStack t g = l
        ∧ t.flag INTC_SRC_ACTIVE i = false ∧ t.flt.due = s.flt.due ∧ SameRegs s t [INTC_SRC.addr i])
      ∧ (MasterWrites s m (0x304 + 0x20 * g.val) (wordOf i) → ownSide s m g = true →
        (∀ d, d < (intcStack s g).length → cellGet 0 s.intc.stkPairs (16 * g.val + d) = 0) → (∀ x ∈ intcStack s g, x.1 ≠ i.val) → s.fld INTC_STKERR_KIND = 0 → ∃ t, exec (.eoi m g i) s = .next t
        ∧ intcStack t g = intcStack s g ∧ t.fld INTC_STKERR_KIND = 2 ∧ t.fld INTC_STKERR_NAMED = i))
    ∧ (∀ w : Word, s.writesOpen = true → (∃ t, exec (.swiset w) s = .next t ∧ t.reg INTC_SWISTAT = s.reg INTC_SWISTAT ||| w
        ∧ RegsOnly s t [INTC_SWISTAT.addr 0])
      ∧ ∃ t, exec (.swiclr w) s = .next t ∧ t.reg INTC_SWISTAT = s.reg INTC_SWISTAT &&& ~~~w ∧ RegsOnly s t [INTC_SWISTAT.addr 0])
    ∧ (∃ t, exec .nmicntRead s = .next t ∧ t.reg INTC_NMICNT = 0 ∧ RegsOnly s t [INTC_NMICNT.addr 0])
    ∧ (s.writesOpen = true → ∃ t, exec .stkerrClr s = .next t ∧ t.reg INTC_STKERR = 0 ∧ RegsOnly s t [INTC_STKERR.addr 0])

/-! ## Faults, the error pair and injection (15_faults.md) -/

/-- R350, R353, R356–R363: an assertion sets its sticky bit, and the first latches the record with its reaction while a later one merges;
ERRIN; the error pair's clear; the record's clear; arming, firing and ending an injection. The kind that FLT_SELF carries is a free value,
and a keyed row without a port freezes none: the model's choice (assumption log entries 82 and 152). -/
def Obligations.FaultsLatchMergeAndClear : Prop :=
  ∀ (s : State), s.powered 0 = true →
    (∀ (src : Fin 416) (inst : Fin 65536),
      srcAbsent s src = false → s.flt.injDue.find? (fun f => f.src == src.val && f.inst == inst.val) = none →
      (∀ f, s.flt.due.find? (fun f => f.src == src.val && f.inst == inst.val) = some f → s.flt.armed = none →
        s.fld FLT_CFG_REACT src = 1 → s.flag FLT_CFG_EP src = false → s.flag FLT_CFG_FENCE src = false →
        ¬(192 ≤ src.val ∧ src.val < 240) → src.val ≠ 336 → src.val ≠ 340 →
        ∃ t, exec (.faultAssertion src inst) s = .next t ∧ t.fbit FLT_STS_SRCS (src % 32 : Nat) (src / 32 : Nat) = true
          ∧ t.flt.due = s.flt.due.erase f
          ∧ (s.flag FLT_FFSRC_ACTIVE = false → t.reg FLT_FFSRC = wordOf (2 ^ 31 + 2 ^ 16 + src) ∧ t.reg FLT_FFDATA0 = faultData0 f
            ∧ t.reg FLT_FFDATA1 = f.data1 ∧ t.reg FLT_FFTIMEL = wordOf s.tbaseLo ∧ t.flag FLT_STAT_IRQ = true)
          ∧ (s.flag FLT_FFSRC_ACTIVE = true → t.flag FLT_FFSRC_OVF = true ∧ t.reg FLT_FFLAST = wordOf src
            ∧ t.fld FLT_FFCNT_COUNT = min (s.fld FLT_FFCNT_COUNT + 1) 0xFFFF ∧ t.reg FLT_FFDATA0 = s.reg FLT_FFDATA0))
      ∧ (s.flt.due.find? (fun f => f.src == src.val && f.inst == inst.val) = none →
        (s.flt.armed = none → src.val ≠ 367 → exec (.faultAssertion src inst) s = .next s)
        ∧ (s.flt.armed = none → src.val = 367 → s.powered 1 = true → s.flag OTP_STAT_LOADED = true → deliveredField inst = true →
          ∃ t, exec (.faultAssertion src inst) s = .next t ∧ cellGet false t.otp.failed inst = true)
        ∧ (∀ kind, s.flt.armed = some (src.val, kind, inst.val, true) → injectsItem src = false → injectEvaluates s src inst = true →
          ∃ t, exec (.faultAssertion src inst) s = .next t ∧ t.fld FLT_INJSTAT_STATE = 2 ∧ t.flt.armed = none
            ∧ t.fbit FLT_STS_SRCS (src % 32 : Nat) (src / 32 : Nat) = true ∧ t.reg FLT_INJTIME = wordOf s.tbaseLo
            ∧ t.reg FLT_FFSRC = s.reg FLT_FFSRC)))
    ∧ (∃ t, exec .errin s = .next t ∧ t.flt.errin = true ∧ t.regs = s.regs
      ∧ (cellGet false s.flt.level (65536 * 370) = false → t.flt.due = s.flt.due ++ [⟨370, 0, 0, 0⟩]))
    ∧ (∃ t, exec .errinRelease s = .next t ∧ t.flt.errin = false ∧ t.regs = s.regs ∧ t.flt.due = s.flt.due)
    ∧ (s.cur ≠ modeWake → s.cur ≠ modePlinth → s.flag SYS_BOOTSTAT_OTPHOLD = false → ∃ t, exec (.epclr 0x7C1E) s = .next t
      ∧ t.flag FLT_STAT_EPPEND = true ∧ RegsOnly s t [FLT_STAT.addr 0])
    ∧ (s.cur = modePlinth → exec (.epclr 0x7C1E) s = .next s)
    ∧ (∀ key : Fin 65536, key ≠ 0x7C1E → exec (.epclr key) s = .next s ∧ exec (.ffclr key) s = .next s)
    ∧ (s.writesOpen = false → exec .epClearEffect s = .next s)
    ∧ (s.writesOpen = true → s.flag FLT_STAT_EPPEND = true → s.flt.epSince + 1000 * max 1 (s.fld FLT_EPCTRL_MINT) ≤ s.tbase →
      (epHeld s = false → ∃ t, exec .epClearEffect s = .next t ∧ t.flag FLT_STAT_EPSTATE = false ∧ t.flag FLT_STAT_EPPEND = false
        ∧ RegsOnly s t [FLT_STAT.addr 0])
      ∧ (epHeld s = true → exec .epClearEffect s = .next s))
    ∧ (∃ t, exec .epmism s = .next t ∧ t.flag FLT_STAT_EPMISM = true ∧ cellGet false t.flt.level (65536 * 371) = true
      ∧ (cellGet false s.flt.level (65536 * 371) = false →
        t.flt.due = s.flt.due ++ [⟨371, 0, (Config.freeWord s.freeCtr).toNat % 65536, 0⟩])
      ∧ (cellGet false s.flt.level (65536 * 371) = true → t.flt.due = s.flt.due))
    ∧ (s.writesOpen = false → exec (.ffclr 0x7C1E) s = .next s ∧ exec (.epclr 0x7C1E) s = .next s)
    ∧ (s.writesOpen = true → (∀ x ∈ s.flt.level, x.2 = false) → ∃ t, exec (.ffclr 0x7C1E) s = .next t ∧ t.flag FLT_FFSRC_ACTIVE = false
      ∧ t.flag FLT_FFSRC_OVF = false ∧ t.fld FLT_FFSRC_APPLIED = 0 ∧ t.reg FLT_FFCNT = FLT_FFCNT.reset 0
      ∧ RegsOnly s t [FLT_FFSRC.addr 0, FLT_FFCNT.addr 0])
    ∧ (∀ key : Fin 65536, key ≠ 0x6B1D → exec (.injectionArm key) s = .next s)
    ∧ (s.cur = modeService → s.flt.armed = none → s.fld FLT_INJSEL_SRC < 64 → s.fld FLT_INJSEL_KIND = 0 →
      s.railPresent (s.fld FLT_INJSEL_SRC % 32) = true → ∃ t, exec (.injectionArm 0x6B1D) s = .next t ∧ t.fld FLT_INJSTAT_STATE = 1
        ∧ t.flt.armed = some (s.fld FLT_INJSEL_SRC, 0, s.fld FLT_INJSEL_SRC % 32, s.flag FLT_INJSEL_REC)
        ∧ SameRegs s t [FLT_INJSTAT.addr 0])
    ∧ (s.cur ≠ modeService → s.cur ≠ modeRun → exec (.injectionArm 0x6B1D) s = .next s)
    ∧ (s.writesOpen = false → exec .injectionDisarm s = .next s)
    ∧ (s.flt.armed ≠ none → (s.writesOpen = true → ∃ t, exec .injectionDisarm s = .next t ∧ t.flt.armed = none
        ∧ t.fld FLT_INJSTAT_STATE = 4)
      ∧ ∃ t, exec .injectionNofire s = .next t ∧ t.flt.armed = none ∧ t.fld FLT_INJSTAT_STATE = 3)
    ∧ (s.flt.armed = none → exec .injectionDisarm s = .next s ∧ exec .injectionNofire s = .next s)

/-! ## Data integrity, scan jobs and crossings (16_data_integrity.md) -/

/-- R367, R371–R373, R375, R376, R378–R381, R383, R385, R386: the check values of the CRC functions; a scrubbed line; pair checks; the CRC
units; scan jobs; the alive checkers; and the timeout and paired reset of a crossing. Who may abort a job, and by what steps a job goes on,
are the model's choice, and so is that a keyed row without a port freezes none (assumption log entries 68, 69 and 152). -/
def Obligations.IntegrityUnitsAct : Prop :=
  (crcFinal 0 (crcFeed 0 (crcInit 0) [49, 50, 51, 52, 53, 54, 55, 56, 57]) = 0xCBF43926
    ∧ crcFinal 1 (crcFeed 1 (crcInit 1) [49, 50, 51, 52, 53, 54, 55, 56, 57]) = 0x29B1
    ∧ crcFinal 2 (crcFeed 2 (crcInit 2) [49, 50, 51, 52, 53, 54, 55, 56, 57]) = 0x4B)
  ∧ ∀ (s : State),
    (∀ a : Fin 65536, (s.pairBad a = false → s.injects 355 (blockBit a) = none → exec (.pairCheck a) s = .next s)
      ∧ (∀ l, locate s (masterHost 0) a = some l → l.paired = true → locOpen s a l = true → s.pairBad a = true →
        s.injects 355 (blockBit a) = none → cellGet false s.flt.level (65536 * 355 + a) = false → ∃ t, exec (.pairCheck a) s = .next t
        ∧ t.flt.due = s.flt.due ++ [⟨355, blockBit a, 0, wordOf a⟩] ∧ t.regs = s.regs)
      ∧ (s.chk.split.any (fun h => h.addr == a.val) = true → ∃ t, exec (.splitPairTimeout a) s = .next t ∧ t.regs = s.regs
        ∧ t.chk.split = s.chk.split.filter (fun h => h.addr != a.val) ∧ t.flt.due = s.flt.due ++ [⟨355, blockBit a, 1, wordOf a⟩]))
    ∧ (s.powered 10 = true →
      (scrubRuns s = true → scrubVisits s s.chk.scrubRam = true → s.chk.scrubLine + 1 < ramLines s.chk.scrubRam →
        ∃ t, exec .scrubRead s = .next t ∧ t.chk.scrubLine = s.chk.scrubLine + 1 ∧ t.chk.scrubRam = s.chk.scrubRam ∧ t.mem = s.mem
          ∧ (ReadsClean s s.chk.scrubRam s.chk.scrubLine → t.regs = s.regs ∧ t.flt = s.flt)
          ∧ (s.damage s.chk.scrubRam s.chk.scrubLine = .one → s.injects 356 s.chk.scrubRam = none → s.injects 357 s.chk.scrubRam = none →
            t.damage s.chk.scrubRam s.chk.scrubLine = .none
            ∧ t.flt.due = s.flt.due ++ [⟨356, s.chk.scrubRam, 0, wordOf (8 * s.chk.scrubLine)⟩]
            ∧ t.fld CHK_CECNT_COUNT s.chk.scrubRam = min (s.fld CHK_CECNT_COUNT s.chk.scrubRam + 1) 0xFFFFFFFF))
      ∧ (scrubRuns s = true → scrubVisits s s.chk.scrubRam = true → s.chk.scrubLine + 1 = ramLines s.chk.scrubRam →
        (∀ k : Fin 6, s.chk.scrubRam < k.val → scrubVisits s k = false) → ∃ t, exec .scrubRead s = .next t
        ∧ t.fld CHK_SCPASS_COUNT = (s.fld CHK_SCPASS_COUNT + 1) % 4294967296 ∧ t.chk.scrubLine = 0 ∧ t.chk.scrubRam = 0 ∧ t.mem = s.mem)
      ∧ (scrubRuns s = false → exec .scrubRead s = .next s)
      ∧ (∀ (m : Fin 64) (u : Fin 2),
        (∀ (kind : Fin 4) (order : Bool), (s.flag CHK_CRCCFG_OWNED u = false ∨ s.fld CHK_CRCCFG_MASTER u = m) →
          MasterWrites s m (0xA20 + 4 * u.val) (wordOf (order.toNat * 16 + kind.val * 4 + 1)) →
          (kind.val ≠ 3 → ∃ t, exec (.crcClaim m u kind order) s = .next t ∧ t.flag CHK_CRCCFG_OWNED u = true
            ∧ t.fld CHK_CRCCFG_MASTER u = m ∧ t.fld CHK_CRCCFG_KIND u = kind ∧ cellGet 0 t.chk.crc u = crcInit kind
            ∧ t.fld CHK_CRCRES_CRC u = crcFinal kind (crcInit kind))
          ∧ (kind.val = 3 → 48 ≤ m.val → exec (.crcClaim m u kind order) s = .next (askedBy s m (0xA20 + 4 * u.val))))
        ∧ (s.flag CHK_CRCCFG_OWNED u = true → s.fld CHK_CRCCFG_MASTER u = m →
          (s.fld CHK_CRCCFG_KIND u ≠ 3 →
            MasterWrites s m (0xA20 + 4 * u.val) (wordOf (s.fld CHK_CRCCFG_ORDER u * 16 + s.fld CHK_CRCCFG_KIND u * 4 + 2)) → ∃ t, exec (.crcRelease m u) s = .next t ∧ t.flag CHK_CRCCFG_OWNED u = false
            ∧ t.fld CHK_CRCCFG_MASTER u = 0)
          ∧ (∀ w, MasterWrites s m (0xA21 + 4 * u.val) w → ∃ t, exec (.crcdataWrite m u w) s = .next t
            ∧ cellGet 0 t.chk.crc u = crcFeed (s.fld CHK_CRCCFG_KIND u) (cellGet 0 s.chk.crc u) (crcOrder s u w)
            ∧ RegsOnly { askedBy s m (0xA21 + 4 * u.val) with chk := t.chk } t [CHK_CRCRES.addr u])
          ∧ (∀ b : Byte, MasterWrites s m (0xA22 + 4 * u.val) (wordOf b.toNat) → ∃ t, exec (.crcdatabWrite m u b) s = .next t
            ∧ cellGet 0 t.chk.crc u = crcByte (s.fld CHK_CRCCFG_KIND u) (cellGet 0 s.chk.crc u) b.toNat))
        ∧ (s.flag CHK_CRCCFG_OWNED u = false ∨ s.fld CHK_CRCCFG_MASTER u ≠ m → 48 ≤ m.val → ∀ (w : Word) (b : Byte),
          MasterWrites s m (0xA21 + 4 * u.val) w → MasterWrites s m (0xA22 + 4 * u.val) (wordOf b.toNat) →
          exec (.crcdataWrite m u w) s = .next (askedBy s m (0xA21 + 4 * u.val))
            ∧ exec (.crcdatabWrite m u b) s = .next (askedBy s m (0xA22 + 4 * u.val)))
        ∧ (s.flag CHK_CRCCFG_OWNED u = true → ∃ t, exec (.crcUnitTimeout u) s = .next t ∧ t.flag CHK_CRCCFG_OWNED u = false
          ∧ RegsOnly s t [CHK_CRCCFG.addr u]))
      ∧ (∀ m : Fin 51, s.fld CHK_SJSTAT_STATE ≠ sjRunning → s.flag SYS_SFRZ_FROZEN = false → s.fld CHK_SJLEN_LEN ≠ 0 →
        s.fld CHK_SJADDR_WORD + s.fld CHK_SJLEN_LEN ≤ spaceWords (s.fld CHK_SJADDR_SPACE) → s.fld CHK_SJCTRL_KIND ≠ 3 →
        MasterWrites s m 0xA30 (wordOf (256 * s.fld CHK_SJCTRL_KIND + 16 * s.fld CHK_SJCTRL_JKIND + 1)) →
        (jobAllowed (s.fld CHK_SJCTRL_JKIND) (s.fld CHK_SJADDR_SPACE) = true →
          s.fld CHK_SJCTRL_JKIND ≠ 3 ∨ s.fld CHK_SJADDR_SPACE ≠ 2 ∨ rangeLive s (s.fld CHK_SJADDR_WORD) (s.fld CHK_SJLEN_LEN) = false →
          ∃ t, exec (.scanJobGo m) s = .next t ∧ t.fld CHK_SJSTAT_STATE = sjRunning ∧ t.fld CHK_SJSTAT_MASTER = m
            ∧ t.chk.job = some ⟨s.fld CHK_SJADDR_SPACE, s.fld CHK_SJADDR_WORD, s.fld CHK_SJLEN_LEN, s.fld CHK_SJCTRL_JKIND,
                s.fld CHK_SJCTRL_KIND, 0, { crc := crcInit (s.fld CHK_SJCTRL_KIND) }⟩)
        ∧ (jobAllowed (s.fld CHK_SJCTRL_JKIND) (s.fld CHK_SJADDR_SPACE) = false → ∃ t, exec (.scanJobGo m) s = .next t
          ∧ t.flag SYS_SFRZ_FROZEN = true ∧ t.fld CHK_SJSTAT_STATE = sjFrozen ∧ t.chk.job = none))
      ∧ (∀ m : Fin 51, m.val = s.fld CHK_SJSTAT_MASTER ∨ m.val = 48 → s.chk.job ≠ none → s.fld CHK_SJCTRL_KIND ≠ 3 →
        MasterWrites s m 0xA30 (wordOf (256 * s.fld CHK_SJCTRL_KIND + 16 * s.fld CHK_SJCTRL_JKIND + 2)) → ∃ t, exec (.scanJobAbort m) s = .next t
        ∧ t.fld CHK_SJSTAT_STATE = sjAborted ∧ t.chk.job = none ∧ t.flag CHK_EVT_ABORTED = true)
      ∧ (∀ job, s.chk.job = some job → (jobLines job).any (fillStops s job) = false → ∃ t, exec .scanJobEnd s = .next t
        ∧ t.fld CHK_SJSTAT_STATE = sjDone ∧ t.chk.job = none ∧ t.flag CHK_EVT_JOBEND = true
        ∧ (job.jkind = 0 → t.reg CHK_SJRES = wordOf (crcFinal job.kind (scanRun s job job.len).2.crc))
        ∧ (job.jkind = 1 → s.injects 358 0 = none → t.flag CHK_SJSTAT_RESULT = (s.flag CHK_SJSTAT_RESULT
          || !(scanRun s job job.len).2.ue && wordOf (crcFinal job.kind (scanRun s job job.len).2.crc) == t.reg CHK_SJEXP)))
      ∧ (s.writesOpen = true → ∃ t, exec .chkClrcnt s = .next t ∧ (∀ r : Fin 6, t.fld CHK_CECNT_COUNT r = 0 ∧ t.fld CHK_UECNT_COUNT r = 0) ∧ t.mem = s.mem)
      ∧ (∀ (k : Fin 8) (w : Word), s.writesOpen = true → s.flag CHK_ALV_EN k = true → s.chk.alvOpen.testBit k = false → Word.bit w 31 = true →
        ∃ t, exec (.aliveWrite k w) s = .next t ∧ t.fld CHK_ALV_VAL k = Word.bits w 3 0
          ∧ (Word.bits w 3 0 = (s.fld CHK_ALV_VAL k + 1) % 16 → RegsOnly s t [CHK_ALV.addr k])
          ∧ (Word.bits w 3 0 = s.fld CHK_ALV_VAL k → t.flag CHK_EVT_ALVERR = true
            ∧ t.fld CHK_ALVSTAT_REPEAT k = min (s.fld CHK_ALVSTAT_REPEAT k + 1) 0xFFFF)
          ∧ (Word.bits w 3 0 ≠ (s.fld CHK_ALV_VAL k + 1) % 16 → Word.bits w 3 0 ≠ s.fld CHK_ALV_VAL k → t.flag CHK_EVT_ALVERR = true
            ∧ t.fld CHK_ALVSTAT_SKIP k = min (s.fld CHK_ALVSTAT_SKIP k + 1) 0xFFFF))
      ∧ (∀ k : Fin 8, s.flag CHK_ALV_EN k = true → s.fld CHK_ALV_TMO k ≠ 0 → ∃ t, exec (.alvtmo k) s = .next t
        ∧ t.flag CHK_EVT_ALVTMO = true ∧ RegsOnly s t [CHK_EVT.addr 0]))
    ∧ (∀ x : Fin 149, (4 ≤ x.val ∧ x.val < 40) ∨ (112 ≤ x.val ∧ x.val < 146) ∨ x.val = 148 →
      (crossingLive s x = true → s.stopped x = false → cellGet false s.flt.level (65536 * 360 + x) = false →
        ∃ t, exec (.crossingTimeout x) s = .next t ∧ t.stopped x = true ∧ t.flt.due = s.flt.due ++ [⟨360, x, 0, 0⟩])
      ∧ (s.stopped x = true → exec (.crossingTimeout x) s = .next s))
    ∧ (∀ (key : Fin 65536) (x : Fin 256), s.powered 0 = true →
      (key ≠ 0x2C5A ∨ 149 ≤ x.val ∨ s.writesOpen = false → exec (.clkXrst key x) s = .next s)
      ∧ (s.writesOpen = true → x.val = 148 ∨ (112 ≤ x.val ∧ x.val ≤ 145) → ∃ t, exec (.clkXrst 0x2C5A x) s = .next t ∧ t.chk.xrst.contains x.val = true
        ∧ t.regs = s.regs))
    ∧ (∀ x : Fin 149, (s.chk.xrst.contains x.val = true → xrstDrained s x = true → ∃ t, exec (.pairedResetRelease x) s = .next t
        ∧ t.chk.xrst.contains x.val = false ∧ t.stopped x = false ∧ t.flt.due = s.flt.due)
      ∧ (s.chk.xrst.contains x.val = false → exec (.pairedResetRelease x) s = .next s))

/-! ## Watchdogs (17_watchdogs.md) -/

/-- R395, with R388, R389, R391–R394, R396, R399–R401 and R403: an open window that ends with an enabled slot missing expires with cause
MISSING, and a doubled slot does not excuse it: the evidence records both. Check-ins, the windows, the enable, the clock monitor, and the
evidence. A period that was served or has expired gives way to a fresh one at the next tick; what else a check-in of its last tick does, and
how CLK_STAT shows a lost CK_WD, are the model's choice (assumption log entries 161 and 162). When REMAIN counts and what the evidence's
position is, and that a keyed row without a port freezes none, are the model's choice (assumption log entries 76 and 152). -/
def Obligations.WatchdogsExpireAndCheckIn : Prop :=
  ∀ (n : Fin 8) (s : State), s.powered 0 = true →
    (s.fld WD_STAT_WINDOW n = wdOpen → s.fld WD_STAT_REMAIN n = 0 → wdMissing s n ≠ 0 → (s.wd n).due ≠ .fresh →
      ∃ t, exec (.missingExpiry n) s = .next t ∧ t.flag WD_EVT_EXPIRED n = true
      ∧ t.flt.due = s.flt.due ++ [⟨312 + n, n, 0, wordOf (wdMissing s n)⟩]
      ∧ t.fld WD_EXPCNT_COUNT n = min (s.fld WD_EXPCNT_COUNT n + 1) 0xFFFFFFFF ∧ (t.wd n).due = .fresh
      ∧ (s.flag WD_EVCAUSE_VALID n = false → t.flag WD_EVCAUSE_VALID n = true ∧ t.fld WD_EVCAUSE_CAUSE n = 1
        ∧ t.fld WD_EVMISS_SLOTS n = wdMissing s n % 65536
        ∧ t.flag WD_EVCAUSE_DUPV n = (s.fld WD_CHECKED_DUPMASK n != 0)
        ∧ (s.fld WD_CHECKED_DUPMASK n ≠ 0 → s.fbit WD_CHECKED_DUPMASK (t.fld WD_EVCAUSE_DUPSLOT n) n = true)))
    ∧ (∀ (p : Fin 3) (k : Fin 16),
      (s.flag SYS_HSTAT_FROZEN p = true → exec (.hkick n p k) s = .next s)
      ∧ (HostWrites s p (0x805 + 0x20 * n.val) → wdRuns s n = false ∨ (s.wd n).due = .fresh ∨ (s.wd n).slots.testBit k = false →
        exec (.hkick n p k) s = .next (hostAsked s p (0x805 + 0x20 * n.val)))
      ∧ (HostWrites s p (0x805 + 0x20 * n.val) → wdRuns s n = true → (s.wd n).due ≠ .fresh → (s.wd n).slots.testBit k = true →
        (wdOwns s n k (masterHost p) = false → ∃ t, exec (.hkick n p k) s = .next t ∧ t.flag WD_EVT_WRONGOWN n = true
          ∧ RegsOnly (hostAsked s p (0x805 + 0x20 * n.val)) t [WD_EVT.addr n])
        ∧ (wdOwns s n k (masterHost p) = true →
          (s.fld WD_STAT_WINDOW n = wdClosed → s.flag WD_EVCAUSE_VALID n = false → ∃ t, exec (.hkick n p k) s = .next t
            ∧ t.flag WD_EVT_EXPIRED n = true ∧ t.fld WD_EVCAUSE_CAUSE n = 3 ∧ t.fld WD_EVCAUSE_SLOT n = k)
          ∧ (s.fld WD_STAT_WINDOW n = wdOpen → s.fbit WD_CHECKED_DONE k n = false →
            (∀ j : Fin 16, j ≠ k → (s.wd n).slots.testBit j = true → s.fbit WD_CHECKED_DONE j n = true) →
            ∃ t, exec (.hkick n p k) s = .next t ∧ (t.wd n).due = .service ∧ t.fbit WD_CHECKED_DONE k n = true ∧ t.flt.due = s.flt.due)
          ∧ (∀ j : Fin 16, s.fld WD_STAT_WINDOW n = wdOpen → s.fbit WD_CHECKED_DONE k n = false → j ≠ k →
            (s.wd n).slots.testBit j = true → s.fbit WD_CHECKED_DONE j n = false → ∃ t, exec (.hkick n p k) s = .next t
              ∧ t.fbit WD_CHECKED_DONE k n = true ∧ cellGet 0 (t.wd n).times k = s.tbaseLo ∧ SameRegs s t [WD_CHECKED.addr n]))))
    ∧ ((s.wd n).due = .service ∨ (s.wd n).due = .fresh → (wdTickOne s n).reg WD_CHECKED n = 0 ∧ ((wdTickOne s n).wd n).due = .nothing
      ∧ wdRuns (wdTickOne s n) n = true ∧ ((wdTickOne s n).wd n).slots = s.fld WD_SLOTEN_SLOTS n
      ∧ ((s.wd n).due = .service → (wdTickOne s n).flag WD_EVT_SERVICE n = true))
    ∧ (s.fld WD_STAT_WINDOW n = wdClosed → s.fld WD_STAT_REMAIN n = 0 → (s.wd n).bootHeld = false → ∃ t, exec (.windowOpen n) s = .next t
      ∧ t.fld WD_STAT_WINDOW n = wdOpen ∧ RegsOnly s t [WD_STAT.addr n])
    ∧ (s.fld WD_STAT_WINDOW n ≠ wdClosed ∨ s.fld WD_STAT_REMAIN n ≠ 0 → exec (.windowOpen n) s = .next s)
    ∧ (s.fld WD_STAT_WINDOW n = wdOpen → Word.bits (s.wd n).cfg 23 20 ≠ 0 → wdMissing s n ≠ 0 →
      (s.wd n).due ≠ .fresh → wdWarnTicks (s.wd n).cfg ≤ wdOpenTicks (s.wd n).cfg - s.fld WD_STAT_REMAIN n →
      ((s.wd n).warned = false → ∃ t, exec (.preexp n) s = .next t ∧ t.flag WD_EVT_PREEXP n = true ∧ (t.wd n).warned = true
        ∧ SameRegs s t [WD_EVT.addr n])
      ∧ ((s.wd n).warned = true → exec (.preexp n) s = .next s))
    ∧ (s.flag WD_CTRL_HWSTART n = true ∨ s.writesOpen = false → ∀ en, exec (.wdEnWrite n en) s = .next s)
    ∧ (s.flag WD_CTRL_HWSTART n = false → s.writesOpen = true →
      (s.flag WD_CTRL_EN n = false → wdNoCfg s n = false → ∃ t, exec (.wdEnWrite n true) s = .next t ∧ t.flag WD_CTRL_EN n = true
        ∧ (wdPauses s.cur = true → t.fld WD_STAT_WINDOW n = wdPaused)
        ∧ (wdPauses s.cur = false → (t.wd n).due = .fresh ∧ SameRegs s t [WD_CTRL.addr n]))
      ∧ (s.flag WD_CTRL_EN n = false → wdNoCfg s n = true → exec (.wdEnWrite n true) s = .next s)
      ∧ (s.flag WD_CTRL_EN n = true → ∃ t, exec (.wdEnWrite n false) s = .next t ∧ t.flag WD_CTRL_EN n = false
        ∧ t.fld WD_STAT_WINDOW n = wdStopped ∧ t.flag WD_EVT_ABORTED n = true))
    ∧ ((s.wd n).tripped = false → ∃ t, exec (.clockMonitorTrip n) s = .next t
      ∧ t.flag WD_STAT_CLKINUSE n = !s.flag WD_STAT_CLKINUSE n ∧ t.flag WD_STAT_CLKFAIL n = true ∧ t.flag WD_EVT_CLKMON n = true
      ∧ (t.wd n).tripped = true ∧ t.flt.due = s.flt.due ++ [⟨369, n, 0, 0⟩])
    ∧ ((s.wd n).tripped = true → ∃ t, exec (.clockMonitorTrip n) s = .next t ∧ (t.wd n).lost = true ∧ SameRegs s t [CLK_STAT.addr 0])
    ∧ (∃ t, exec (.clockMonitorTrip n) s = .next t
      ∧ t.flag CLK_STAT_WDOSC_OK = (s.flag WD_STAT_CLKINUSE n && s.flag CLK_STAT_WDOSC_OK))
    ∧ (s.writesOpen = true → ∃ t, exec (.evclr n 0x9D1E) s = .next t ∧ t.flag WD_EVCAUSE_VALID n = false ∧ t.fld WD_EVMISS_SLOTS n = 0
      ∧ RegsOnly s t [WD_EVCAUSE.addr n, WD_EVMISS.addr n, WD_EVPC.addr n, WD_EVSVC.addr n, WD_EVTIME.addr n])
    ∧ (∀ key : Fin 65536, key ≠ 0x9D1E ∨ s.writesOpen = false → exec (.evclr n key) s = .next s)
    ∧ (s.writesOpen = true → ∃ t, exec (.wdClrcnt n) s = .next t ∧ t.fld WD_EXPCNT_COUNT n = 0 ∧ (t.wd n).sat = false ∧ SameRegs s t [WD_EXPCNT.addr n])

/-! ## One-time-programmable memory (18_otp.md) -/

/-- R414–R416, R420, R422: a burn starts on the one bits of its word, and on those of it whose verify a reset cut short, and a finalisation
on the digest and the lock bits; a good pulse makes its bit 1 for good, a bad supply ends the command; an abort; the shadow overrides. What
a pulse leaves that fails its verify or is cut short, and that a keyed row without a port freezes none, are the model's choice (assumption
log entries 73 and 152). -/
def Obligations.OtpCommandsAct : Prop :=
  ∀ (s : State), s.powered 1 = true →
    (∀ key : Fin 65536, key ≠ 0x07A3 → exec (.burn key) s = .next s ∧ exec (.otpAbort key) s = .next s
      ∧ ∀ force, exec (.finalize key force) s = .next s)
    ∧ (s.cur ≠ modeProvision → exec (.burn 0x07A3) s = .next s)
    ∧ (s.flag OTP_STAT_BUSY = false → s.cur = modeProvision →
      (burnIllegal (s.fld OTP_PADDR_REGION) (s.fld OTP_PADDR_WORD) (s.reg OTP_PDATA) = false →
        regionState s (s.fld OTP_PADDR_REGION) = 0 →
        (∀ b : Fin 32, decide ((s.fld OTP_PADDR_WORD, b.val) ∈ namedBits s (s.fld OTP_PADDR_REGION) (s.fld OTP_PADDR_WORD) (s.reg OTP_PDATA))
          = (Word.bit (s.reg OTP_PDATA) b
            || cellGet false s.otp.cut (bitKey (s.fld OTP_PADDR_REGION) (s.fld OTP_PADDR_WORD) b)))
        ∧ (namedBits s (s.fld OTP_PADDR_REGION) (s.fld OTP_PADDR_WORD) (s.reg OTP_PDATA) ≠ [] →
          ∃ t, exec (.burn 0x07A3) s = .next t ∧ t.flag OTP_STAT_BUSY = true ∧ t.mem = s.mem
          ∧ t.otp.cmd = some ⟨s.fld OTP_PADDR_REGION,
              namedBits s (s.fld OTP_PADDR_REGION) (s.fld OTP_PADDR_WORD) (s.reg OTP_PDATA), 0, false, false⟩)
        ∧ (namedBits s (s.fld OTP_PADDR_REGION) (s.fld OTP_PADDR_WORD) (s.reg OTP_PDATA) = [] → ∃ t, exec (.burn 0x07A3) s = .next t ∧ t.flag OTP_STAT_BUSY = false ∧ t.fld OTP_PRES_RESULT = 1
          ∧ t.flag OTP_EVT_DONE = true ∧ t.otp.cmd = none))
      ∧ (regionState s (s.fld OTP_PADDR_REGION) ≠ 0 → exec (.burn 0x07A3) s = .next s)
      ∧ (∀ force, s.fld OTP_PADDR_REGION ≠ 15 → regionState s (s.fld OTP_PADDR_REGION) < 2 →
        critMask s (s.fld OTP_PADDR_REGION) .mismatch = 0 → regionMissing s (s.fld OTP_PADDR_REGION) = 0 →
        cellGet false s.otp.cut (bitKey (s.fld OTP_PADDR_REGION) 127 8) = false →
        ∃ t c, exec (.finalize 0x07A3 force) s = .next t ∧ t.flag OTP_STAT_BUSY = true ∧ t.otp.cmd = some c
          ∧ c.region = s.fld OTP_PADDR_REGION ∧ (∀ b : Fin 8, (127, b.val) ∈ c.todo) ∧ (127, 8) ∉ c.todo))
    ∧ (∀ c, s.otp.cmd = some c →
      (pulsing s c = true → ∃ t, exec (.otpAbort 0x07A3) s = .next t ∧ t.otp.cmd = some { c with ending := true } ∧ t.regs = s.regs)
      ∧ (pulsing s c = false → ∃ t, exec (.otpAbort 0x07A3) s = .next t ∧ t.otp.cmd = none ∧ t.flag OTP_STAT_BUSY = false
        ∧ t.fld OTP_PRES_RESULT = 4 ∧ t.flag OTP_EVT_ABORTED = true)
      ∧ (s.flag OTP_PCFG_VPPSRC = false → ∃ t, exec .pumpCharged s = .next t ∧ t.otp.cmd = some { c with charged := true }
        ∧ t.regs = s.regs)
      ∧ (∀ x rest vpp, c.todo = x :: rest → x.1 < 128 → x.2 < 32 → c.region < 16 → pulsing s c = true → s.flag OTP_PCFG_VPPSRC = false →
        ∃ t, exec (.pulseComplete true vpp) s = .next t ∧ otpBit t c.region x.1 x.2 = true
          ∧ (∀ r w b, b < 32 → r < 16 → w < 128 → otpBit s r w b = true → otpBit t r w b = true)
          ∧ (rest = [] → t.otp.cmd = none ∧ t.fld OTP_PRES_RESULT = (if c.ending then 4 else 1) ∧ t.flag OTP_STAT_BUSY = false)
          ∧ (rest ≠ [] → c.ending = false → t.otp.cmd = some { c with todo := rest, tries := 0 }))
      ∧ (∀ x rest vpp, c.todo = x :: rest → otpBit s c.region x.1 x.2 = false → s.flag OTP_PCFG_VPPSRC = true →
        vpp < 6200 ∨ 6800 < vpp → ∃ t, exec (.pulseComplete true vpp) s = .next t ∧ t.otp.cmd = none ∧ t.fld OTP_PRES_RESULT = 3
          ∧ t.flag OTP_STAT_VPPOK = false ∧ t.mem = s.mem))
    ∧ (s.otp.cmd = none → ∀ ok vpp, exec (.pulseComplete ok vpp) s = .next s)
    ∧ (∀ v : Word,
      (shadowMode s = false → exec (.shadowWrite v) s = .next s ∧ exec .rel s = .next s ∧ exec .relall s = .next s)
      ∧ (shadowMode s = true → shadowField (s.fld OTP_SHSEL_FIELD) = true → ∃ t u, exec (.shadowWrite v) s = .next t
        ∧ t.reg OTP_SHDATA = v ∧ t.fbit OTP_SHMASK_FIELDS (s.fld OTP_SHSEL_FIELD) = true ∧ exec .rel s = .next u
        ∧ u.fbit OTP_SHMASK_FIELDS (s.fld OTP_SHSEL_FIELD) = false)
      ∧ (shadowMode s = true → ∃ t, exec .relall s = .next t ∧ t.fld OTP_SHMASK_FIELDS = 0 ∧ t.otp.shadow = []
        ∧ SameRegs s t [OTP_SHMASK.addr 0]))

/-! ## The patina log (19_patina_log.md) -/

/-- R424, R427–R432, R435, R436: the oldest queued record is written at HEAD with its sequence, and nothing else of the memory changes, the MODE
record that is held before it; its mark; the clear, which writes the CLEAR record to slot 0, and the rebuild; the counters; the offload
port. -/
def Obligations.PatinaRecordsAreWrittenAndRead : Prop :=
  ∀ (s : State), s.powered 10 = true →
    (∀ r l, s.flag PAT_STAT_PEND = false → s.flag PAT_STAT_CLEARING = false → s.flag PAT_STAT_REBUILD = false →
      s.flag PAT_CTRL_EN = true → s.mode.heldRecord = none → s.pat.queue = r :: l → ringStopped s = false → r.kind < 256 → r.src < 256 → (∀ b ∈ r.bytes, b < 256) →
      ∃ t, exec .recordWrite s = .next t ∧ t.fld PAT_HEAD_HEAD = (s.fld PAT_HEAD_HEAD + 1) % 4096
        ∧ t.fld PAT_HEAD_NEXTSEQ = (s.fld PAT_HEAD_NEXTSEQ + 1) % 65536 ∧ t.flag PAT_STAT_PEND = formMark s r.kind
        ∧ (slotBytes t (s.fld PAT_HEAD_HEAD)).take 30
            = recordHead r (s.fld PAT_HEAD_NEXTSEQ) (r.mode.getD s.cur) s.pat.lostFlag (formMark s r.kind)
        ∧ SameBytes s t (fun a => patBase + 32 * s.fld PAT_HEAD_HEAD ≤ a ∧ a < patBase + 32 * s.fld PAT_HEAD_HEAD + 32))
    ∧ (∀ r, s.flag PAT_STAT_PEND = false → s.flag PAT_STAT_CLEARING = false → s.flag PAT_STAT_REBUILD = false → s.flag PAT_CTRL_EN = true →
      s.mode.heldRecord = some r → ringStopped s = false → r.kind < 256 → r.src < 256 → (∀ b ∈ r.bytes, b < 256) →
      ∃ t, exec .recordWrite s = .next t ∧ t.mode.heldRecord = none ∧ (slotBytes t (s.fld PAT_HEAD_HEAD)).take 30
        = recordHead r (s.fld PAT_HEAD_NEXTSEQ) (r.mode.getD s.cur) s.pat.lostFlag (formMark s r.kind))
    ∧ (s.flag PAT_STAT_PEND = true → exec .recordWrite s = .next s)
    ∧ (∀ i, s.pat.mark = some i → i < 4096 → recordAltered s = false → ReadsClean s 3 i → ∃ t, exec .markWrite s = .next t
      ∧ t.byte (patBase + 32 * i + 31) = 0xA5 ∧ t.pat.mark = none
      ∧ t.flag PAT_STAT_PEND = false ∧ SameBytes s t (fun a => a = patBase + 32 * i + 31))
    ∧ (∀ m : Fin 51, s.flag PAT_STAT_CLEARING = false → s.flag PAT_STAT_REBUILD = false → MasterWrites s m 0xB06 0xC1EA0001 → ∃ t, exec (.patClr m 0xC1EA) s = .next t
      ∧ t.flag PAT_STAT_CLEARING = true ∧ t.pat.clearBy = (if m.val < 48 then s.fld ENG_STAT_PROG m else m) ∧ SameRegs s t [PAT_STAT.addr 0])
    ∧ (∀ (p : Fin 3), HostWrites s p 0xB06 →
      (s.flag PAT_STAT_CLEARING = true → exec (.patClr ⟨48 + p.val, by omega⟩ 0xC1EA) s = .next (hostAsked s p 0xB06))
      ∧ ∀ key : Fin 65536, key ≠ 0xC1EA → ∃ t, exec (.patClr ⟨48 + p.val, by omega⟩ key) s = .next t ∧ FreezesPort s t p 3 0xB06)
    ∧ (s.flag PAT_STAT_CLEARING = true → s.flag PAT_STAT_PEND = false → ∃ t, exec .clearComplete s = .next t
      ∧ t.flag PAT_STAT_CLEARING = false ∧ t.flag PAT_EVT_CLEARED = true
      ∧ (∀ k : Fin 131072, 32 ≤ k.val → t.byte (patBase + k) = 0) ∧ SameBytes s t (fun a => patBase ≤ a ∧ a < patBase + 131072)
      ∧ (s.flag PAT_CTRL_EN = false → t.fld PAT_HEAD_HEAD = 0 ∧ patCount t = 0 ∧ ∀ k : Fin 32, t.byte (patBase + k) = 0)
      ∧ (s.flag PAT_CTRL_EN = true → s.pat.clearBy < 256 → t.fld PAT_HEAD_HEAD = 1
        ∧ t.fld PAT_HEAD_NEXTSEQ = (s.fld PAT_HEAD_NEXTSEQ + 1) % 65536
        ∧ ∀ b, b = [s.pat.clearBy] ++ natBytes 2 ((s.fld PAT_HEAD_NEXTSEQ + 65535) % 65536) ++ natBytes 2 (patCount s) →
          (slotBytes t 0).take 30 = recordHead { kind := 0xA, src := s.pat.clearBy, time := s.tbase, bytes := b }
            (s.fld PAT_HEAD_NEXTSEQ) s.cur s.pat.lostFlag (formMark s 0xA)))
    ∧ (s.flag PAT_STAT_REBUILD = true → ∃ t, exec .rebuildComplete s = .next t ∧ t.flag PAT_STAT_REBUILD = false
      ∧ t.fld PAT_GEN_GEN = 0 ∧ t.mem = s.mem ∧ t.mode.heldRecord = s.mode.heldRecord ∧ t.pat.queue = s.pat.queue
      ∧ (usedSlots s = [] → t.fld PAT_HEAD_HEAD = 0 ∧ t.fld PAT_HEAD_NEXTSEQ = 0 ∧ patCount t = 0))
    ∧ (s.flag PAT_STAT_REBUILD = false → exec .rebuildComplete s = .next s)
    ∧ (s.writesOpen = true → ∃ t, exec .ackNew s = .next t ∧ t.fld PAT_NEW_COUNT = 0 ∧ t.pat.wmarkDone = false ∧ SameRegs s t [PAT_NEW.addr 0])
    ∧ (s.writesOpen = true → ∃ t, exec .patClrcnt s = .next t ∧ t.fld PAT_LOST_COUNT = 0 ∧ SameRegs s t [PAT_LOST.addr 0])
    ∧ (∀ m : Fin 51, frozenPort s m = true → exec (.offdata0Read m) s = .next s ∧ exec (.offdata7Read m) s = .next s)
    ∧ (∀ m : Fin 51, frozenPort s m = false →
      (s.flag PAT_STAT_CLEARING = false → s.flag PAT_STAT_REBUILD = false → ReadsClean s 3 (s.fld PAT_OFFIDX_IDX m) →
        ∃ t, exec (.offdata0Read m) s = .next t ∧ t.mem = s.mem ∧ t.fld PAT_OFFSTAT_SNAPIDX m = s.fld PAT_OFFIDX_IDX m
          ∧ t.flag PAT_OFFSTAT_VALID m = slotValid s (s.fld PAT_OFFIDX_IDX m) ∧ t.flag PAT_OFFSTAT_ECC m = false
          ∧ ∀ k : Fin 8, t.reg (offData k) m = s.word patBase (8 * s.fld PAT_OFFIDX_IDX m + k))
      ∧ (s.flag PAT_OFFIDX_AUTOINC m = true → ∃ t, exec (.offdata7Read m) s = .next t
        ∧ t.fld PAT_OFFIDX_IDX m = (s.fld PAT_OFFIDX_IDX m + 1) % 4096 ∧ RegsOnly s t [PAT_OFFIDX.addr m])
      ∧ (s.flag PAT_OFFIDX_AUTOINC m = false → exec (.offdata7Read m) s = .next s))

/-! ## The test port (20_package_pins.md) -/

/-- R453: the port takes an instruction with the contents of its data register, EXTEST only under its conditions; TRST_N low holds it,
powered or not. The chain holds one cell for each ball of it, in an order that is the model's choice (assumption log entry 171): a cell
captures the level at its ball. In SHIP the plinth IO is undriven (R289, R451); elsewhere the balls of the error pair differ (R356). What of
IEEE 1149.1 the port follows is the model's choice (assumption log entry 119). -/
def Obligations.TestPortTakesInstructions : Prop :=
  ∀ (levels shift : BitVec 181) (s : State),
    (s.powered 7 = true → s.tap.trst = false →
      (∃ t, exec .bypass s = .next t ∧ t.tap.instr = .bypass ∧ t.tap.dr = [false] ∧ t = { s with tap := t.tap })
      ∧ (∃ t, exec .idcode s = .next t ∧ t.tap.instr = .idcode ∧ t.tap.dr = wordBits (idcodeWord s) ∧ t = { s with tap := t.tap })
      ∧ (∃ t, exec (.samplePreload levels shift) s = .next t ∧ t.tap.instr = .samplePreload ∧ t.tap.dr = captured s levels
        ∧ t.tap.latch = chainBits shift ∧ t = { s with tap := t.tap })
      ∧ (∃ t, exec (.extest levels shift) s = .next t ∧ t = { s with tap := t.tap } ∧ t.tap.instr = .extest
        ∧ (extestAllowed s = true → t.tap.dr = captured s levels ∧ t.tap.latch = chainBits shift ∧ tapDrives t = true)
        ∧ (extestAllowed s = false → t.tap.dr = [false] ∧ t.tap.latch = s.tap.latch ∧ tapDrives t = false)))
    ∧ (boundaryChain.length = 181 ∧ (captured s levels).length = 181
      ∧ (∀ i : Fin 181, tapDrives s = false →
        (captured s levels).getD i false = ballLevel s (boundaryChain.getD i .assistEn) (levels.getLsbD i)))
    ∧ (s.cur = modeShip → (∀ j : Fin 8, ballDrive s (.rsto j) = .undriven) ∧ ballDrive s .errp = .undriven ∧ ballDrive s .errn = .undriven)
    ∧ (s.cur ≠ modeShip → s.pins.preOff = false → ballDrive s .errp ≠ ballDrive s .errn
      ∧ ∀ j : Fin 8, s.flag RSTO_STAT_LEVEL j = false → ballDrive s (.rsto j) = .low)
    ∧ (s.tap.trst = true → exec .bypass s = .next s ∧ exec .idcode s = .next s ∧ exec (.samplePreload levels shift) s = .next s
      ∧ exec (.extest levels shift) s = .next s)
    ∧ (∃ t, exec (.trst true) s = .next t ∧ t.tap.trst = true ∧ t.tap.reset = true ∧ t = { s with tap := t.tap })
    ∧ (∃ t, exec (.trst false) s = .next t ∧ t.tap.trst = false ∧ t.tap.instr = s.tap.instr ∧ t = { s with tap := t.tap })

/-! ## Transfers and register writes (00_scope.md, 01_architecture.md) -/

/-- R17, with R11, R18, R19, R168, R335, R373: a transfer that a hop finds mismatched is discarded, the target keeps its value, the master
gets PAIRERR, and ARM_PAIR asserts with the hop and the master. A matched transfer is applied with its status on its way back; of two that
reach one word in one cycle the write of the higher rank stands, and the other master gets SUPERSEDED. A register write acts by its master's
rights and by its form. When a transfer is superseded, the hop in ARM_PAIR's detail, and the numbers of the rails as masters are the model's
choice (assumption log entries 100, 101 and 126). -/
def Obligations.TransfersAndRegisterWrites : Prop :=
  ∀ (s : State), s.powered 1 = true →
    (∀ (m : Fin 48) t q, takeTransfer m s.armq = some (t, q) → t.master = m.val → t.kind = .write → (s.eng m).issue = [] →
      (∀ hop, ∃ u, exec (.armatureTransfer [.queue m] (some (m.val, hop))) s = .next u ∧ u.armq = q ∧ u.regs = s.regs ∧ u.mem = s.mem
        ∧ u.rails = s.rails ∧ (u.eng m).posted = (s.eng m).posted ++ [⟨.pairerr, 0, t.addr⟩]
        ∧ u.flt.due = s.flt.due ++ [⟨354, hop, m, wordOf t.addr⟩])
      ∧ (t.comp ≠ ~~~t.value → s.flt.armed.map (fun x => x.1) ≠ some 354 → ∃ u, exec (.armatureTransfer [.queue m] none) s = .next u ∧ u.regs = s.regs ∧ u.mem = s.mem
        ∧ u.rails = s.rails ∧ (u.eng m).posted = (s.eng m).posted ++ [⟨.pairerr, 0, t.addr⟩])
      ∧ (t.comp = ~~~t.value → s.flt.armed.map (fun x => x.1) ≠ some 354 →
        (∀ x, t.act = some x → ∃ u, exec (.armatureTransfer [.queue m] none) s = .next u
          ∧ u.regs = (effectArrives { s with armq := q } m x).1.regs ∧ u.rails = (effectArrives { s with armq := q } m x).1.rails
          ∧ u.sigs = (effectArrives { s with armq := q } m x).1.sigs ∧ u.pat = (effectArrives { s with armq := q } m x).1.pat
          ∧ (u.eng m).posted = ((stxStatus (effectArrives { s with armq := q } m x).1 m t.addr (effectArrives { s with armq := q } m x).2).eng m).posted)
        ∧ (t.act = none → ∃ u, exec (.armatureTransfer [.queue m] none) s = .next u
          ∧ u.regs = (stxDeliver { s with armq := q } m t.addr t.value).1.regs ∧ u.mem = (stxDeliver { s with armq := q } m t.addr t.value).1.mem
          ∧ u.rails = (stxDeliver { s with armq := q } m t.addr t.value).1.rails
          ∧ (t.addr = 0x0A33 → s.powered 10 = true → u.reg CHK_SJEXP = t.value ∧ u.armq = q ∧ u.mem = s.mem
            ∧ (u.eng m).posted = (s.eng m).posted ∧ SameRegs s u [CHK_SJEXP.addr 0])
          ∧ (t.addr = 0x0A33 → s.powered 10 = true → HostWrites s 0 0x0A33 → ∀ v : Word,
            ∃ w, exec (.armatureTransfer [.queue m, .sent 0x30 0x0A33 v] none) s = .next w ∧ w.reg CHK_SJEXP = v ∧ w.armq = q
              ∧ (w.eng m).posted = (s.eng m).posted ++ [⟨.superseded, 0, 0x0A33⟩] ∧ SameRegs s w [CHK_SJEXP.addr 0]))))
    ∧ (∀ m : Fin 48, takeTransfer m s.armq = none → exec (.armatureTransfer [.queue m] none) s = .next s)
    ∧ (∀ (a : Fin 65536) (v : Word), s.flag SYS_HSTAT_FROZEN 1 = true → exec (.armatureTransfer [.sent 0x31 a v] none) s = .next s)
    ∧ (∀ (n : Fin 32) (a : Fin 65536) (v : Word), s.flt.armed.map (fun x => x.1) ≠ some 354 → ∃ u, exec (.armatureTransfer [.event n a v] none) s = .next u ∧ u.regs = s.regs
      ∧ u.mem = s.mem ∧ u.rails = s.rails
      ∧ cellGet 0 u.armSeq (masterRail n) = (cellGet 0 s.armSeq (masterRail n) + 1) % 16)
    ∧ (∀ v : Word, s.powered 7 = true → s.flag SYS_HSTAT_FROZEN 0 = false → s.flag SYS_BOOTSTAT_OTPHOLD = false → s.cur ≠ modePlinth →
      s.powered 10 = true → ∃ t, exec (.registerWrite 0x30 0x0A33 (.plain v)) s = .next t ∧ t.reg CHK_SJEXP = v
        ∧ RegsOnly (hostAsked s 0 0x0A33) t [CHK_SJEXP.addr 0])
    ∧ (∀ (a : Fin 65536) (f : WriteForm), s.powered 7 = true → s.flag SYS_HSTAT_FROZEN 0 = true →
      exec (.registerWrite 0x30 a f) s = .next s)
    ∧ (∀ (a : Fin 65536) (v c : Word), s.powered 7 = true → s.flag SYS_HSTAT_FROZEN 0 = false → c ≠ ~~~v →
      ∃ t, exec (.registerWrite 0x30 a (.pair v c)) s = .next t ∧ t.regs = s.regs ∧ t.mem = s.mem
        ∧ t.flt.due = s.flt.due ++ [⟨354, 0, 0x30, wordOf a⟩])
    ∧ (∀ (m : Fin 48) (a : Fin 65536) (v : Word), s.engPresent m = true → s.powered (engDomain m) = true → stxAllowed s m a = false →
      engState s m = esRunning → ∃ t, exec (.registerWrite ⟨m.val, by omega⟩ a (.plain v)) s = .next t ∧ engState t m = esFrozen
        ∧ t.fld ENG_FREEZE_CAUSE m = 5 ∧ t.fld ENG_FREEZE_ADDR m = a)
    ∧ (∀ (m : Fin 48) (a : Fin 65536) (f : WriteForm), engState s m = esFenced → exec (.registerWrite ⟨m.val, by omega⟩ a f) s = .next s)
    ∧ (∀ (a : Fin 65536) (v : Word), ∃ t, exec (.registerWrite 0x35 a (.valueHalf v)) s = .next t ∧ t.regs = s.regs ∧ t.mem = s.mem
      ∧ t.chk.split = s.chk.split.filter (fun h => h.addr != a.val) ++ [⟨a.val, 0x35, v⟩])

/-! ## The block as a whole -/

/-- A step takes the command at the front of the queue and gives it the queue's rest; on an empty queue a microsecond passes,
which is the model's choice (assumption log entry 8). -/
def Obligations.StepRunsTheFrontCommand : Prop :=
  (∀ (c : Instr) (rest : List Instr) (s : State), s.pending = c :: rest → step s = exec c { s with pending := rest })
  ∧ ∀ s : State, s.pending = [] → step s = .next (idle s)

/-- No command stops the block: exec of each of the 347 commands answers a next state, in every state and with every operand, and so
does every step. What the next state holds, command by command, is stated above. -/
def Obligations.EveryStepAnswersNext : Prop := (∀ (c : Instr) (s : State), ∃ t, exec c s = .next t) ∧ ∀ s : State, safeStep s

/-- Every step keeps the memory and the register words in canonical form (addresses strictly rising, no entry equal to what an
unlisted one reads as), and takes from the queue the front command alone. -/
def Obligations.EveryStepKeepsTheCanonicalForm : Prop :=
  ∀ s t : State, s.canonical → step s = .next t → t.canonical ∧ t.pending = s.pending.tail

/-- Every Lannos instruction, with every operand its encoding admits, is read back from the words that encode it, whatever words
follow (R188, R191, R192, R200, R201, R205–R209, R211). Words written out from the spec's encodings, those of the listing after R218
among them, decode to the instructions they stand for. -/
def Obligations.LannosWordsReadBack : Prop :=
  (∀ (i : Instr) (e : Fin 48) (rest : List Nat), i.lannosEngine = some e → i.wf = true →
    decodeLannos e (encodeLannos i ++ rest) = .instr i rest)
  ∧ ∀ e : Fin 48,
    decodeLannos e [0xC8000180, 0x18440000, 0x000000C8, 0x0006DDD0] = .instr (.subj e ⟨6, 4, false, some 0x6DDD0, 0, 0⟩ 200 384) []
    ∧ decodeLannos e [0x989003E8, 0x000BBFD0] = .instr (.setv e 4 (.word 0xBBFD0) 1000) []
    ∧ decodeLannos e [0xA4800007] = .instr (.phaseArm e 4 (.imm 7)) []
    ∧ decodeLannos e [0x90400000] = .instr (.enr e 2) []
    ∧ decodeLannos e [0xE4000000] = .instr (.ckpt e) []

/-- R395: when the open window ends with an enabled slot not checked in, the period expires, with cause MISSING in the evidence and every
missing slot in the fault's data; a slot that checked in twice under DUPACT = 1 excuses none of them, and the evidence then records it
beside them. The evidence is that of the first expiry since it was cleared. -/
def Obligations.MissingSlotExpires : Prop :=
  ∀ (n : Fin 8) (s : State), s.powered 0 = true → s.fld WD_STAT_WINDOW n = wdOpen → s.fld WD_STAT_REMAIN n = 0 → (s.wd n).due ≠ .fresh →
    (∃ k : Fin 16, (wdMissing s n).testBit k = true) →
    ∃ t, exec (.missingExpiry n) s = .next t ∧ t.flag WD_EVT_EXPIRED n = true
      ∧ t.flt.due = s.flt.due ++ [⟨312 + n, n, 0, wordOf (wdMissing s n)⟩]
      ∧ (∀ k : Fin 16, (s.wd n).slots.testBit k = true → s.fbit WD_CHECKED_DONE k n = false → (wdMissing s n).testBit k = true)
      ∧ (s.flag WD_EVCAUSE_VALID n = false → t.flag WD_EVCAUSE_VALID n = true ∧ t.fld WD_EVCAUSE_CAUSE n = 1
        ∧ (∀ k : Fin 16, t.fbit WD_EVMISS_SLOTS k n = (wdMissing s n).testBit k)
        ∧ t.flag WD_EVCAUSE_DUPV n = (s.fld WD_CHECKED_DUPMASK n != 0)
        ∧ (s.fld WD_CHECKED_DUPMASK n ≠ 0 → s.fbit WD_CHECKED_DUPMASK (t.fld WD_EVCAUSE_DUPSLOT n) n = true))

/-- After reset, which is a power-up of PD0, every register reads its reset value, the hour counters and TBASE are zero, the current mode is
WAKE with its transition in progress, the patina log and the memory are empty, every engine is HALTED, and no command waits (R34, R50, R54,
R72). The memory's zero is the model's choice (assumption log entry 4). The values of state for which the spec gives none at a power-up, and
of fields whose reset value is in OTP, are the model's choice (assumption log entries 10 and 13). -/
def Obligations.ResetLeavesTheStatedValues : Prop :=
  State.reset.canonical ∧ State.reset.pending = [] ∧ (∀ (r : Reg) (n : Nat), State.reset.reg r n = r.reset n)
    ∧ State.reset.tbase = 0 ∧ State.reset.cur = 2 ∧ State.reset.flag SYS_MODE_TRANS = true
    ∧ (∀ m : Fin 12, State.reset.fld SYS_HOUR_SECONDS m = 0) ∧ State.reset.fld SYS_BOOTCNT_FAILS = 0
    ∧ State.reset.pat.queue = [] ∧ (∀ a : Nat, State.reset.byte a = 0)
    ∧ ∀ e : Fin 48, State.reset.fld ENG_STAT_STATE e = 0 ∧ State.reset.fld ENG_PC_PC e = 0 ∧ ∀ i : Fin 16, State.reset.g e i = 0
end

