-- ==== Sys2Proof/Laws/Bits.lean ====
section
/-! SUPPORT. The laws of bit fields: a field read after it was set, and the other fields of the word. -/
namespace Sys2Proof.Machine

theorem Word.testBit_bits (w : Word) (hi lo i : Nat) :
    (Word.bits w hi lo).testBit i = (decide (i < hi + 1 - lo) && w.getLsbD (lo + i)) := by
  unfold Word.bits
  rw [Nat.testBit_mod_two_pow, Nat.testBit_shiftRight]
  rfl

theorem Word.bits_lt (w : Word) (hi lo : Nat) : Word.bits w hi lo < 2 ^ (hi + 1 - lo) := by
  unfold Word.bits
  exact Nat.mod_lt _ (Nat.two_pow_pos _)

theorem Word.getLsbD_setBits (w : Word) (hi lo v i : Nat) :
    (Word.setBits w hi lo v).getLsbD i
      = (decide (i < 32) && if lo ≤ i ∧ i < hi + 1 then v.testBit (i - lo) else w.getLsbD i) := by
  unfold Word.setBits
  simp only [BitVec.getLsbD_or, BitVec.getLsbD_and, BitVec.getLsbD_not, BitVec.getLsbD_ofNat, Nat.testBit_shiftLeft,
    Nat.testBit_two_pow_sub_one]
  by_cases h32 : i < 32
  · by_cases h1 : lo ≤ i
    · by_cases h2 : i < hi + 1
      · have h3 : i - lo < hi + 1 - lo := by omega
        simp [h32, h1, h2, h3]
      · have h3 : ¬ i - lo < hi + 1 - lo := by omega
        simp [h32, h1, h2, h3]
    · simp [h32, h1]
  · simp [h32]

/-- A field reads back what was set into it. -/
theorem Word.bits_setBits_same (w : Word) {hi lo : Nat} (v : Nat) (h : hi < 32) :
    Word.bits (Word.setBits w hi lo v) hi lo = v % 2 ^ (hi + 1 - lo) := by
  apply Nat.eq_of_testBit_eq
  intro i
  rw [Word.testBit_bits, Word.getLsbD_setBits, Nat.testBit_mod_two_pow]
  by_cases hi' : i < hi + 1 - lo
  · have h1 : lo + i < 32 := by omega
    have h2 : lo + i < hi + 1 := by omega
    have h3 : lo + i - lo = i := by omega
    simp [hi', h1, h2, h3]
  · simp [hi']

/-- A field keeps its value when a field apart from it is set. -/
theorem Word.bits_setBits_ne (w : Word) {hi lo hi' lo' : Nat} (v : Nat) (h : hi' < 32) (hd : hi < lo' ∨ hi' < lo) :
    Word.bits (Word.setBits w hi lo v) hi' lo' = Word.bits w hi' lo' := by
  apply Nat.eq_of_testBit_eq
  intro i
  rw [Word.testBit_bits, Word.getLsbD_setBits, Word.testBit_bits]
  by_cases hi'' : i < hi' + 1 - lo'
  · have h1 : lo' + i < 32 := by omega
    have h2 : ¬ (lo ≤ lo' + i ∧ lo' + i < hi + 1) := by omega
    rw [if_neg h2]; simp [hi'', h1]
  · simp [hi'']

end Sys2Proof.Machine
end

