-- ==== Sys2Proof/Laws/Cells.lean ====
section
/-! SUPPORT. The laws of the sparse maps: a read after a write, and the canonical form. -/
namespace Sys2Proof.Machine

variable {α : Type}

theorem cellGet_erase (d : α) (m : List (Nat × α)) (a b : Nat) :
    cellGet d (cellErase m a) b = if a = b then d else cellGet d m b := by
  induction m with
  | nil => simp [cellErase, cellGet]
  | cons kv t ih =>
    obtain ⟨k, v⟩ := kv
    simp only [cellErase, cellGet]
    split
    · rw [ih]; split <;> simp_all
    · simp only [cellGet]; rw [ih]; split <;> split <;> simp_all

theorem cellGet_insert (d : α) (m : List (Nat × α)) (a b : Nat) (v : α) :
    cellGet d (cellInsert m a v) b = if a = b then v else cellGet d m b := by
  induction m with
  | nil => simp [cellInsert, cellGet]
  | cons kv t ih =>
    obtain ⟨k, w⟩ := kv
    simp only [cellInsert]
    split
    · simp [cellGet]
    · split
      · subst_vars; simp only [cellGet]; split <;> simp_all
      · simp only [cellGet]; rw [ih]; split <;> simp_all

/-- A read after a write: the value written at its key, every other key as before. -/
theorem cellGet_set [DecidableEq α] (d : α) (m : List (Nat × α)) (a b : Nat) (v : α) :
    cellGet d (cellSet d m a v) b = if a = b then v else cellGet d m b := by
  unfold cellSet
  split
  · rw [cellGet_erase]; split <;> simp_all
  · exact cellGet_insert d m a b v

@[simp] theorem cellGet_set_same [DecidableEq α] (d : α) (m : List (Nat × α)) (a : Nat) (v : α) :
    cellGet d (cellSet d m a v) a = v := by simp [cellGet_set]

theorem cellGet_set_ne [DecidableEq α] (d : α) (m : List (Nat × α)) {a b : Nat} (v : α) (h : a ≠ b) :
    cellGet d (cellSet d m a v) b = cellGet d m b := by simp [cellGet_set, h]

/-! ## The canonical form -/

theorem cellWfFrom_mono [DecidableEq α] (d : α) {lo lo' : Nat} {m : List (Nat × α)} (h : lo' ≤ lo)
    (hm : cellWfFrom d lo m = true) : cellWfFrom d lo' m = true := by
  cases m with
  | nil => rfl
  | cons kv t =>
    obtain ⟨k, v⟩ := kv
    simp only [cellWfFrom, Bool.and_eq_true, decide_eq_true_eq] at hm ⊢
    exact ⟨⟨by omega, hm.1.2⟩, hm.2⟩

theorem cellWfFrom_erase [DecidableEq α] (d : α) (a : Nat) {lo : Nat} {m : List (Nat × α)} (hm : cellWfFrom d lo m = true) :
    cellWfFrom d lo (cellErase m a) = true := by
  induction m generalizing lo with
  | nil => rfl
  | cons kv t ih =>
    obtain ⟨k, v⟩ := kv
    simp only [cellWfFrom, Bool.and_eq_true, decide_eq_true_eq] at hm
    simp only [cellErase]
    split
    · exact cellWfFrom_mono d (by omega) (ih hm.2)
    · simp only [cellWfFrom, Bool.and_eq_true, decide_eq_true_eq]
      exact ⟨hm.1, ih hm.2⟩

theorem cellWfFrom_insert [DecidableEq α] (d : α) {a : Nat} {v : α} (hv : v ≠ d) {lo : Nat} {m : List (Nat × α)}
    (ha : lo ≤ a) (hm : cellWfFrom d lo m = true) : cellWfFrom d lo (cellInsert m a v) = true := by
  induction m generalizing lo with
  | nil => simp [cellInsert, cellWfFrom, ha, hv]
  | cons kv t ih =>
    obtain ⟨k, w⟩ := kv
    simp only [cellWfFrom, Bool.and_eq_true, decide_eq_true_eq] at hm
    simp only [cellInsert]
    split
    · simp only [cellWfFrom, Bool.and_eq_true, decide_eq_true_eq]
      exact ⟨⟨ha, by simpa using hv⟩, ⟨by omega, hm.1.2⟩, hm.2⟩
    · split
      · subst_vars
        simp only [cellWfFrom, Bool.and_eq_true, decide_eq_true_eq]
        exact ⟨⟨ha, by simpa using hv⟩, hm.2⟩
      · simp only [cellWfFrom, Bool.and_eq_true, decide_eq_true_eq]
        exact ⟨hm.1, ih (by omega) hm.2⟩

/-- A write keeps the canonical form. -/
theorem cellWf_set [DecidableEq α] (d : α) {m : List (Nat × α)} (a : Nat) (v : α) (hm : cellWf d m = true) :
    cellWf d (cellSet d m a v) = true := by
  unfold cellSet
  split
  · exact cellWfFrom_erase d a hm
  · rename_i hv; exact cellWfFrom_insert d hv (Nat.zero_le _) hm

theorem cellWfFrom_keep [DecidableEq α] (d : α) (p : Nat → Bool) {lo : Nat} {m : List (Nat × α)} (hm : cellWfFrom d lo m = true) :
    cellWfFrom d lo (cellKeep p m) = true := by
  induction m generalizing lo with
  | nil => rfl
  | cons kv t ih =>
    obtain ⟨k, v⟩ := kv
    simp only [cellWfFrom, Bool.and_eq_true, decide_eq_true_eq] at hm
    unfold cellKeep at ih ⊢
    simp only [List.filter_cons]
    split
    · simp only [cellWfFrom, Bool.and_eq_true, decide_eq_true_eq]
      exact ⟨hm.1, ih hm.2⟩
    · exact cellWfFrom_mono d (by omega) (ih hm.2)

/-- Dropping entries keeps the canonical form. -/
theorem cellWf_keep [DecidableEq α] (d : α) (p : Nat → Bool) {m : List (Nat × α)} (hm : cellWf d m = true) :
    cellWf d (cellKeep p m) = true := cellWfFrom_keep d p hm

end Sys2Proof.Machine
end

