-- ==== Sys2Proof/Laws/State.lean ====
section
/-! SUPPORT. The laws of the state: what each named update changes and that it leaves every other part of the state as it was, and the
reads after a write of the registers, their fields and the RAM bytes. -/
namespace Sys2Proof.Machine

variable (s : State)

/-! ## `setReg` changes `regs` alone -/

@[simp] theorem setReg_part (r : Reg) (w : Word) (n : Nat) : (s.setReg r w n).part = s.part := rfl
@[simp] theorem setReg_pairs (r : Reg) (w : Word) (n : Nat) : (s.setReg r w n).pairs = s.pairs := rfl
@[simp] theorem setReg_mem (r : Reg) (w : Word) (n : Nat) : (s.setReg r w n).mem = s.mem := rfl
@[simp] theorem setReg_lines (r : Reg) (w : Word) (n : Nat) : (s.setReg r w n).lines = s.lines := rfl
@[simp] theorem setReg_tbase (r : Reg) (w : Word) (n : Nat) : (s.setReg r w n).tbase = s.tbase := rfl
@[simp] theorem setReg_freeCtr (r : Reg) (w : Word) (n : Nat) : (s.setReg r w n).freeCtr = s.freeCtr := rfl
@[simp] theorem setReg_armq (r : Reg) (w : Word) (n : Nat) : (s.setReg r w n).armq = s.armq := rfl
@[simp] theorem setReg_armSeq (r : Reg) (w : Word) (n : Nat) : (s.setReg r w n).armSeq = s.armSeq := rfl
@[simp] theorem setReg_mode (r : Reg) (w : Word) (n : Nat) : (s.setReg r w n).mode = s.mode := rfl
@[simp] theorem setReg_bud (r : Reg) (w : Word) (n : Nat) : (s.setReg r w n).bud = s.bud := rfl
@[simp] theorem setReg_groups (r : Reg) (w : Word) (n : Nat) : (s.setReg r w n).groups = s.groups := rfl
@[simp] theorem setReg_ports (r : Reg) (w : Word) (n : Nat) : (s.setReg r w n).ports = s.ports := rfl
@[simp] theorem setReg_rails (r : Reg) (w : Word) (n : Nat) : (s.setReg r w n).rails = s.rails := rfl
@[simp] theorem setReg_engs (r : Reg) (w : Word) (n : Nat) : (s.setReg r w n).engs = s.engs := rfl
@[simp] theorem setReg_progs (r : Reg) (w : Word) (n : Nat) : (s.setReg r w n).progs = s.progs := rfl
@[simp] theorem setReg_pmap (r : Reg) (w : Word) (n : Nat) : (s.setReg r w n).pmap = s.pmap := rfl
@[simp] theorem setReg_sigs (r : Reg) (w : Word) (n : Nat) : (s.setReg r w n).sigs = s.sigs := rfl
@[simp] theorem setReg_pat (r : Reg) (w : Word) (n : Nat) : (s.setReg r w n).pat = s.pat := rfl
@[simp] theorem setReg_flt (r : Reg) (w : Word) (n : Nat) : (s.setReg r w n).flt = s.flt := rfl
@[simp] theorem setReg_sup (r : Reg) (w : Word) (n : Nat) : (s.setReg r w n).sup = s.sup := rfl
@[simp] theorem setReg_pins (r : Reg) (w : Word) (n : Nat) : (s.setReg r w n).pins = s.pins := rfl
@[simp] theorem setReg_links (r : Reg) (w : Word) (n : Nat) : (s.setReg r w n).links = s.links := rfl
@[simp] theorem setReg_lx (r : Reg) (w : Word) (n : Nat) : (s.setReg r w n).lx = s.lx := rfl
@[simp] theorem setReg_boot (r : Reg) (w : Word) (n : Nat) : (s.setReg r w n).boot = s.boot := rfl
@[simp] theorem setReg_chg (r : Reg) (w : Word) (n : Nat) : (s.setReg r w n).chg = s.chg := rfl
@[simp] theorem setReg_thm (r : Reg) (w : Word) (n : Nat) : (s.setReg r w n).thm = s.thm := rfl
@[simp] theorem setReg_chk (r : Reg) (w : Word) (n : Nat) : (s.setReg r w n).chk = s.chk := rfl
@[simp] theorem setReg_otp (r : Reg) (w : Word) (n : Nat) : (s.setReg r w n).otp = s.otp := rfl
@[simp] theorem setReg_wds (r : Reg) (w : Word) (n : Nat) : (s.setReg r w n).wds = s.wds := rfl
@[simp] theorem setReg_wdStart (r : Reg) (w : Word) (n : Nat) : (s.setReg r w n).wdStart = s.wdStart := rfl
@[simp] theorem setReg_hosts (r : Reg) (w : Word) (n : Nat) : (s.setReg r w n).hosts = s.hosts := rfl
@[simp] theorem setReg_intc (r : Reg) (w : Word) (n : Nat) : (s.setReg r w n).intc = s.intc := rfl
@[simp] theorem setReg_tap (r : Reg) (w : Word) (n : Nat) : (s.setReg r w n).tap = s.tap := rfl
@[simp] theorem setReg_pending (r : Reg) (w : Word) (n : Nat) : (s.setReg r w n).pending = s.pending := rfl

/-! ## `setFld` changes `regs` alone -/

@[simp] theorem setFld_part (f : Fld) (v n : Nat) : (s.setFld f v n).part = s.part := rfl
@[simp] theorem setFld_pairs (f : Fld) (v n : Nat) : (s.setFld f v n).pairs = s.pairs := rfl
@[simp] theorem setFld_mem (f : Fld) (v n : Nat) : (s.setFld f v n).mem = s.mem := rfl
@[simp] theorem setFld_lines (f : Fld) (v n : Nat) : (s.setFld f v n).lines = s.lines := rfl
@[simp] theorem setFld_tbase (f : Fld) (v n : Nat) : (s.setFld f v n).tbase = s.tbase := rfl
@[simp] theorem setFld_freeCtr (f : Fld) (v n : Nat) : (s.setFld f v n).freeCtr = s.freeCtr := rfl
@[simp] theorem setFld_armq (f : Fld) (v n : Nat) : (s.setFld f v n).armq = s.armq := rfl
@[simp] theorem setFld_armSeq (f : Fld) (v n : Nat) : (s.setFld f v n).armSeq = s.armSeq := rfl
@[simp] theorem setFld_mode (f : Fld) (v n : Nat) : (s.setFld f v n).mode = s.mode := rfl
@[simp] theorem setFld_bud (f : Fld) (v n : Nat) : (s.setFld f v n).bud = s.bud := rfl
@[simp] theorem setFld_groups (f : Fld) (v n : Nat) : (s.setFld f v n).groups = s.groups := rfl
@[simp] theorem setFld_ports (f : Fld) (v n : Nat) : (s.setFld f v n).ports = s.ports := rfl
@[simp] theorem setFld_rails (f : Fld) (v n : Nat) : (s.setFld f v n).rails = s.rails := rfl
@[simp] theorem setFld_engs (f : Fld) (v n : Nat) : (s.setFld f v n).engs = s.engs := rfl
@[simp] theorem setFld_progs (f : Fld) (v n : Nat) : (s.setFld f v n).progs = s.progs := rfl
@[simp] theorem setFld_pmap (f : Fld) (v n : Nat) : (s.setFld f v n).pmap = s.pmap := rfl
@[simp] theorem setFld_sigs (f : Fld) (v n : Nat) : (s.setFld f v n).sigs = s.sigs := rfl
@[simp] theorem setFld_pat (f : Fld) (v n : Nat) : (s.setFld f v n).pat = s.pat := rfl
@[simp] theorem setFld_flt (f : Fld) (v n : Nat) : (s.setFld f v n).flt = s.flt := rfl
@[simp] theorem setFld_sup (f : Fld) (v n : Nat) : (s.setFld f v n).sup = s.sup := rfl
@[simp] theorem setFld_pins (f : Fld) (v n : Nat) : (s.setFld f v n).pins = s.pins := rfl
@[simp] theorem setFld_links (f : Fld) (v n : Nat) : (s.setFld f v n).links = s.links := rfl
@[simp] theorem setFld_lx (f : Fld) (v n : Nat) : (s.setFld f v n).lx = s.lx := rfl
@[simp] theorem setFld_boot (f : Fld) (v n : Nat) : (s.setFld f v n).boot = s.boot := rfl
@[simp] theorem setFld_chg (f : Fld) (v n : Nat) : (s.setFld f v n).chg = s.chg := rfl
@[simp] theorem setFld_thm (f : Fld) (v n : Nat) : (s.setFld f v n).thm = s.thm := rfl
@[simp] theorem setFld_chk (f : Fld) (v n : Nat) : (s.setFld f v n).chk = s.chk := rfl
@[simp] theorem setFld_otp (f : Fld) (v n : Nat) : (s.setFld f v n).otp = s.otp := rfl
@[simp] theorem setFld_wds (f : Fld) (v n : Nat) : (s.setFld f v n).wds = s.wds := rfl
@[simp] theorem setFld_wdStart (f : Fld) (v n : Nat) : (s.setFld f v n).wdStart = s.wdStart := rfl
@[simp] theorem setFld_hosts (f : Fld) (v n : Nat) : (s.setFld f v n).hosts = s.hosts := rfl
@[simp] theorem setFld_intc (f : Fld) (v n : Nat) : (s.setFld f v n).intc = s.intc := rfl
@[simp] theorem setFld_tap (f : Fld) (v n : Nat) : (s.setFld f v n).tap = s.tap := rfl
@[simp] theorem setFld_pending (f : Fld) (v n : Nat) : (s.setFld f v n).pending = s.pending := rfl

/-! ## `setFlag` changes `regs` alone -/

@[simp] theorem setFlag_part (f : Fld) (b : Bool) (n : Nat) : (s.setFlag f b n).part = s.part := rfl
@[simp] theorem setFlag_pairs (f : Fld) (b : Bool) (n : Nat) : (s.setFlag f b n).pairs = s.pairs := rfl
@[simp] theorem setFlag_mem (f : Fld) (b : Bool) (n : Nat) : (s.setFlag f b n).mem = s.mem := rfl
@[simp] theorem setFlag_lines (f : Fld) (b : Bool) (n : Nat) : (s.setFlag f b n).lines = s.lines := rfl
@[simp] theorem setFlag_tbase (f : Fld) (b : Bool) (n : Nat) : (s.setFlag f b n).tbase = s.tbase := rfl
@[simp] theorem setFlag_freeCtr (f : Fld) (b : Bool) (n : Nat) : (s.setFlag f b n).freeCtr = s.freeCtr := rfl
@[simp] theorem setFlag_armq (f : Fld) (b : Bool) (n : Nat) : (s.setFlag f b n).armq = s.armq := rfl
@[simp] theorem setFlag_armSeq (f : Fld) (b : Bool) (n : Nat) : (s.setFlag f b n).armSeq = s.armSeq := rfl
@[simp] theorem setFlag_mode (f : Fld) (b : Bool) (n : Nat) : (s.setFlag f b n).mode = s.mode := rfl
@[simp] theorem setFlag_bud (f : Fld) (b : Bool) (n : Nat) : (s.setFlag f b n).bud = s.bud := rfl
@[simp] theorem setFlag_groups (f : Fld) (b : Bool) (n : Nat) : (s.setFlag f b n).groups = s.groups := rfl
@[simp] theorem setFlag_ports (f : Fld) (b : Bool) (n : Nat) : (s.setFlag f b n).ports = s.ports := rfl
@[simp] theorem setFlag_rails (f : Fld) (b : Bool) (n : Nat) : (s.setFlag f b n).rails = s.rails := rfl
@[simp] theorem setFlag_engs (f : Fld) (b : Bool) (n : Nat) : (s.setFlag f b n).engs = s.engs := rfl
@[simp] theorem setFlag_progs (f : Fld) (b : Bool) (n : Nat) : (s.setFlag f b n).progs = s.progs := rfl
@[simp] theorem setFlag_pmap (f : Fld) (b : Bool) (n : Nat) : (s.setFlag f b n).pmap = s.pmap := rfl
@[simp] theorem setFlag_sigs (f : Fld) (b : Bool) (n : Nat) : (s.setFlag f b n).sigs = s.sigs := rfl
@[simp] theorem setFlag_pat (f : Fld) (b : Bool) (n : Nat) : (s.setFlag f b n).pat = s.pat := rfl
@[simp] theorem setFlag_flt (f : Fld) (b : Bool) (n : Nat) : (s.setFlag f b n).flt = s.flt := rfl
@[simp] theorem setFlag_sup (f : Fld) (b : Bool) (n : Nat) : (s.setFlag f b n).sup = s.sup := rfl
@[simp] theorem setFlag_pins (f : Fld) (b : Bool) (n : Nat) : (s.setFlag f b n).pins = s.pins := rfl
@[simp] theorem setFlag_links (f : Fld) (b : Bool) (n : Nat) : (s.setFlag f b n).links = s.links := rfl
@[simp] theorem setFlag_lx (f : Fld) (b : Bool) (n : Nat) : (s.setFlag f b n).lx = s.lx := rfl
@[simp] theorem setFlag_boot (f : Fld) (b : Bool) (n : Nat) : (s.setFlag f b n).boot = s.boot := rfl
@[simp] theorem setFlag_chg (f : Fld) (b : Bool) (n : Nat) : (s.setFlag f b n).chg = s.chg := rfl
@[simp] theorem setFlag_thm (f : Fld) (b : Bool) (n : Nat) : (s.setFlag f b n).thm = s.thm := rfl
@[simp] theorem setFlag_chk (f : Fld) (b : Bool) (n : Nat) : (s.setFlag f b n).chk = s.chk := rfl
@[simp] theorem setFlag_otp (f : Fld) (b : Bool) (n : Nat) : (s.setFlag f b n).otp = s.otp := rfl
@[simp] theorem setFlag_wds (f : Fld) (b : Bool) (n : Nat) : (s.setFlag f b n).wds = s.wds := rfl
@[simp] theorem setFlag_wdStart (f : Fld) (b : Bool) (n : Nat) : (s.setFlag f b n).wdStart = s.wdStart := rfl
@[simp] theorem setFlag_hosts (f : Fld) (b : Bool) (n : Nat) : (s.setFlag f b n).hosts = s.hosts := rfl
@[simp] theorem setFlag_intc (f : Fld) (b : Bool) (n : Nat) : (s.setFlag f b n).intc = s.intc := rfl
@[simp] theorem setFlag_tap (f : Fld) (b : Bool) (n : Nat) : (s.setFlag f b n).tap = s.tap := rfl
@[simp] theorem setFlag_pending (f : Fld) (b : Bool) (n : Nat) : (s.setFlag f b n).pending = s.pending := rfl

/-! ## `setSfld` changes `regs` alone -/

@[simp] theorem setSfld_part (f : Fld) (v : Int) (n : Nat) : (s.setSfld f v n).part = s.part := rfl
@[simp] theorem setSfld_pairs (f : Fld) (v : Int) (n : Nat) : (s.setSfld f v n).pairs = s.pairs := rfl
@[simp] theorem setSfld_mem (f : Fld) (v : Int) (n : Nat) : (s.setSfld f v n).mem = s.mem := rfl
@[simp] theorem setSfld_lines (f : Fld) (v : Int) (n : Nat) : (s.setSfld f v n).lines = s.lines := rfl
@[simp] theorem setSfld_tbase (f : Fld) (v : Int) (n : Nat) : (s.setSfld f v n).tbase = s.tbase := rfl
@[simp] theorem setSfld_freeCtr (f : Fld) (v : Int) (n : Nat) : (s.setSfld f v n).freeCtr = s.freeCtr := rfl
@[simp] theorem setSfld_armq (f : Fld) (v : Int) (n : Nat) : (s.setSfld f v n).armq = s.armq := rfl
@[simp] theorem setSfld_armSeq (f : Fld) (v : Int) (n : Nat) : (s.setSfld f v n).armSeq = s.armSeq := rfl
@[simp] theorem setSfld_mode (f : Fld) (v : Int) (n : Nat) : (s.setSfld f v n).mode = s.mode := rfl
@[simp] theorem setSfld_bud (f : Fld) (v : Int) (n : Nat) : (s.setSfld f v n).bud = s.bud := rfl
@[simp] theorem setSfld_groups (f : Fld) (v : Int) (n : Nat) : (s.setSfld f v n).groups = s.groups := rfl
@[simp] theorem setSfld_ports (f : Fld) (v : Int) (n : Nat) : (s.setSfld f v n).ports = s.ports := rfl
@[simp] theorem setSfld_rails (f : Fld) (v : Int) (n : Nat) : (s.setSfld f v n).rails = s.rails := rfl
@[simp] theorem setSfld_engs (f : Fld) (v : Int) (n : Nat) : (s.setSfld f v n).engs = s.engs := rfl
@[simp] theorem setSfld_progs (f : Fld) (v : Int) (n : Nat) : (s.setSfld f v n).progs = s.progs := rfl
@[simp] theorem setSfld_pmap (f : Fld) (v : Int) (n : Nat) : (s.setSfld f v n).pmap = s.pmap := rfl
@[simp] theorem setSfld_sigs (f : Fld) (v : Int) (n : Nat) : (s.setSfld f v n).sigs = s.sigs := rfl
@[simp] theorem setSfld_pat (f : Fld) (v : Int) (n : Nat) : (s.setSfld f v n).pat = s.pat := rfl
@[simp] theorem setSfld_flt (f : Fld) (v : Int) (n : Nat) : (s.setSfld f v n).flt = s.flt := rfl
@[simp] theorem setSfld_sup (f : Fld) (v : Int) (n : Nat) : (s.setSfld f v n).sup = s.sup := rfl
@[simp] theorem setSfld_pins (f : Fld) (v : Int) (n : Nat) : (s.setSfld f v n).pins = s.pins := rfl
@[simp] theorem setSfld_links (f : Fld) (v : Int) (n : Nat) : (s.setSfld f v n).links = s.links := rfl
@[simp] theorem setSfld_lx (f : Fld) (v : Int) (n : Nat) : (s.setSfld f v n).lx = s.lx := rfl
@[simp] theorem setSfld_boot (f : Fld) (v : Int) (n : Nat) : (s.setSfld f v n).boot = s.boot := rfl
@[simp] theorem setSfld_chg (f : Fld) (v : Int) (n : Nat) : (s.setSfld f v n).chg = s.chg := rfl
@[simp] theorem setSfld_thm (f : Fld) (v : Int) (n : Nat) : (s.setSfld f v n).thm = s.thm := rfl
@[simp] theorem setSfld_chk (f : Fld) (v : Int) (n : Nat) : (s.setSfld f v n).chk = s.chk := rfl
@[simp] theorem setSfld_otp (f : Fld) (v : Int) (n : Nat) : (s.setSfld f v n).otp = s.otp := rfl
@[simp] theorem setSfld_wds (f : Fld) (v : Int) (n : Nat) : (s.setSfld f v n).wds = s.wds := rfl
@[simp] theorem setSfld_wdStart (f : Fld) (v : Int) (n : Nat) : (s.setSfld f v n).wdStart = s.wdStart := rfl
@[simp] theorem setSfld_hosts (f : Fld) (v : Int) (n : Nat) : (s.setSfld f v n).hosts = s.hosts := rfl
@[simp] theorem setSfld_intc (f : Fld) (v : Int) (n : Nat) : (s.setSfld f v n).intc = s.intc := rfl
@[simp] theorem setSfld_tap (f : Fld) (v : Int) (n : Nat) : (s.setSfld f v n).tap = s.tap := rfl
@[simp] theorem setSfld_pending (f : Fld) (v : Int) (n : Nat) : (s.setSfld f v n).pending = s.pending := rfl

/-! ## `setFbit` changes `regs` alone -/

@[simp] theorem setFbit_part (f : Fld) (k : Nat) (b : Bool) (n : Nat) : (s.setFbit f k b n).part = s.part := rfl
@[simp] theorem setFbit_pairs (f : Fld) (k : Nat) (b : Bool) (n : Nat) : (s.setFbit f k b n).pairs = s.pairs := rfl
@[simp] theorem setFbit_mem (f : Fld) (k : Nat) (b : Bool) (n : Nat) : (s.setFbit f k b n).mem = s.mem := rfl
@[simp] theorem setFbit_lines (f : Fld) (k : Nat) (b : Bool) (n : Nat) : (s.setFbit f k b n).lines = s.lines := rfl
@[simp] theorem setFbit_tbase (f : Fld) (k : Nat) (b : Bool) (n : Nat) : (s.setFbit f k b n).tbase = s.tbase := rfl
@[simp] theorem setFbit_freeCtr (f : Fld) (k : Nat) (b : Bool) (n : Nat) : (s.setFbit f k b n).freeCtr = s.freeCtr := rfl
@[simp] theorem setFbit_armq (f : Fld) (k : Nat) (b : Bool) (n : Nat) : (s.setFbit f k b n).armq = s.armq := rfl
@[simp] theorem setFbit_armSeq (f : Fld) (k : Nat) (b : Bool) (n : Nat) : (s.setFbit f k b n).armSeq = s.armSeq := rfl
@[simp] theorem setFbit_mode (f : Fld) (k : Nat) (b : Bool) (n : Nat) : (s.setFbit f k b n).mode = s.mode := rfl
@[simp] theorem setFbit_bud (f : Fld) (k : Nat) (b : Bool) (n : Nat) : (s.setFbit f k b n).bud = s.bud := rfl
@[simp] theorem setFbit_groups (f : Fld) (k : Nat) (b : Bool) (n : Nat) : (s.setFbit f k b n).groups = s.groups := rfl
@[simp] theorem setFbit_ports (f : Fld) (k : Nat) (b : Bool) (n : Nat) : (s.setFbit f k b n).ports = s.ports := rfl
@[simp] theorem setFbit_rails (f : Fld) (k : Nat) (b : Bool) (n : Nat) : (s.setFbit f k b n).rails = s.rails := rfl
@[simp] theorem setFbit_engs (f : Fld) (k : Nat) (b : Bool) (n : Nat) : (s.setFbit f k b n).engs = s.engs := rfl
@[simp] theorem setFbit_progs (f : Fld) (k : Nat) (b : Bool) (n : Nat) : (s.setFbit f k b n).progs = s.progs := rfl
@[simp] theorem setFbit_pmap (f : Fld) (k : Nat) (b : Bool) (n : Nat) : (s.setFbit f k b n).pmap = s.pmap := rfl
@[simp] theorem setFbit_sigs (f : Fld) (k : Nat) (b : Bool) (n : Nat) : (s.setFbit f k b n).sigs = s.sigs := rfl
@[simp] theorem setFbit_pat (f : Fld) (k : Nat) (b : Bool) (n : Nat) : (s.setFbit f k b n).pat = s.pat := rfl
@[simp] theorem setFbit_flt (f : Fld) (k : Nat) (b : Bool) (n : Nat) : (s.setFbit f k b n).flt = s.flt := rfl
@[simp] theorem setFbit_sup (f : Fld) (k : Nat) (b : Bool) (n : Nat) : (s.setFbit f k b n).sup = s.sup := rfl
@[simp] theorem setFbit_pins (f : Fld) (k : Nat) (b : Bool) (n : Nat) : (s.setFbit f k b n).pins = s.pins := rfl
@[simp] theorem setFbit_links (f : Fld) (k : Nat) (b : Bool) (n : Nat) : (s.setFbit f k b n).links = s.links := rfl
@[simp] theorem setFbit_lx (f : Fld) (k : Nat) (b : Bool) (n : Nat) : (s.setFbit f k b n).lx = s.lx := rfl
@[simp] theorem setFbit_boot (f : Fld) (k : Nat) (b : Bool) (n : Nat) : (s.setFbit f k b n).boot = s.boot := rfl
@[simp] theorem setFbit_chg (f : Fld) (k : Nat) (b : Bool) (n : Nat) : (s.setFbit f k b n).chg = s.chg := rfl
@[simp] theorem setFbit_thm (f : Fld) (k : Nat) (b : Bool) (n : Nat) : (s.setFbit f k b n).thm = s.thm := rfl
@[simp] theorem setFbit_chk (f : Fld) (k : Nat) (b : Bool) (n : Nat) : (s.setFbit f k b n).chk = s.chk := rfl
@[simp] theorem setFbit_otp (f : Fld) (k : Nat) (b : Bool) (n : Nat) : (s.setFbit f k b n).otp = s.otp := rfl
@[simp] theorem setFbit_wds (f : Fld) (k : Nat) (b : Bool) (n : Nat) : (s.setFbit f k b n).wds = s.wds := rfl
@[simp] theorem setFbit_wdStart (f : Fld) (k : Nat) (b : Bool) (n : Nat) : (s.setFbit f k b n).wdStart = s.wdStart := rfl
@[simp] theorem setFbit_hosts (f : Fld) (k : Nat) (b : Bool) (n : Nat) : (s.setFbit f k b n).hosts = s.hosts := rfl
@[simp] theorem setFbit_intc (f : Fld) (k : Nat) (b : Bool) (n : Nat) : (s.setFbit f k b n).intc = s.intc := rfl
@[simp] theorem setFbit_tap (f : Fld) (k : Nat) (b : Bool) (n : Nat) : (s.setFbit f k b n).tap = s.tap := rfl
@[simp] theorem setFbit_pending (f : Fld) (k : Nat) (b : Bool) (n : Nat) : (s.setFbit f k b n).pending = s.pending := rfl

/-! ## `event` changes `regs` alone -/

@[simp] theorem event_part (f : Fld) (n : Nat) : (s.event f n).part = s.part := rfl
@[simp] theorem event_pairs (f : Fld) (n : Nat) : (s.event f n).pairs = s.pairs := rfl
@[simp] theorem event_mem (f : Fld) (n : Nat) : (s.event f n).mem = s.mem := rfl
@[simp] theorem event_lines (f : Fld) (n : Nat) : (s.event f n).lines = s.lines := rfl
@[simp] theorem event_tbase (f : Fld) (n : Nat) : (s.event f n).tbase = s.tbase := rfl
@[simp] theorem event_freeCtr (f : Fld) (n : Nat) : (s.event f n).freeCtr = s.freeCtr := rfl
@[simp] theorem event_armq (f : Fld) (n : Nat) : (s.event f n).armq = s.armq := rfl
@[simp] theorem event_armSeq (f : Fld) (n : Nat) : (s.event f n).armSeq = s.armSeq := rfl
@[simp] theorem event_mode (f : Fld) (n : Nat) : (s.event f n).mode = s.mode := rfl
@[simp] theorem event_bud (f : Fld) (n : Nat) : (s.event f n).bud = s.bud := rfl
@[simp] theorem event_groups (f : Fld) (n : Nat) : (s.event f n).groups = s.groups := rfl
@[simp] theorem event_ports (f : Fld) (n : Nat) : (s.event f n).ports = s.ports := rfl
@[simp] theorem event_rails (f : Fld) (n : Nat) : (s.event f n).rails = s.rails := rfl
@[simp] theorem event_engs (f : Fld) (n : Nat) : (s.event f n).engs = s.engs := rfl
@[simp] theorem event_progs (f : Fld) (n : Nat) : (s.event f n).progs = s.progs := rfl
@[simp] theorem event_pmap (f : Fld) (n : Nat) : (s.event f n).pmap = s.pmap := rfl
@[simp] theorem event_sigs (f : Fld) (n : Nat) : (s.event f n).sigs = s.sigs := rfl
@[simp] theorem event_pat (f : Fld) (n : Nat) : (s.event f n).pat = s.pat := rfl
@[simp] theorem event_flt (f : Fld) (n : Nat) : (s.event f n).flt = s.flt := rfl
@[simp] theorem event_sup (f : Fld) (n : Nat) : (s.event f n).sup = s.sup := rfl
@[simp] theorem event_pins (f : Fld) (n : Nat) : (s.event f n).pins = s.pins := rfl
@[simp] theorem event_links (f : Fld) (n : Nat) : (s.event f n).links = s.links := rfl
@[simp] theorem event_lx (f : Fld) (n : Nat) : (s.event f n).lx = s.lx := rfl
@[simp] theorem event_boot (f : Fld) (n : Nat) : (s.event f n).boot = s.boot := rfl
@[simp] theorem event_chg (f : Fld) (n : Nat) : (s.event f n).chg = s.chg := rfl
@[simp] theorem event_thm (f : Fld) (n : Nat) : (s.event f n).thm = s.thm := rfl
@[simp] theorem event_chk (f : Fld) (n : Nat) : (s.event f n).chk = s.chk := rfl
@[simp] theorem event_otp (f : Fld) (n : Nat) : (s.event f n).otp = s.otp := rfl
@[simp] theorem event_wds (f : Fld) (n : Nat) : (s.event f n).wds = s.wds := rfl
@[simp] theorem event_wdStart (f : Fld) (n : Nat) : (s.event f n).wdStart = s.wdStart := rfl
@[simp] theorem event_hosts (f : Fld) (n : Nat) : (s.event f n).hosts = s.hosts := rfl
@[simp] theorem event_intc (f : Fld) (n : Nat) : (s.event f n).intc = s.intc := rfl
@[simp] theorem event_tap (f : Fld) (n : Nat) : (s.event f n).tap = s.tap := rfl
@[simp] theorem event_pending (f : Fld) (n : Nat) : (s.event f n).pending = s.pending := rfl

/-! ## `plainWrite` changes `regs` alone -/

@[simp] theorem plainWrite_part (r : Reg) (w : Word) (n : Nat) : (s.plainWrite r w n).part = s.part := rfl
@[simp] theorem plainWrite_pairs (r : Reg) (w : Word) (n : Nat) : (s.plainWrite r w n).pairs = s.pairs := rfl
@[simp] theorem plainWrite_mem (r : Reg) (w : Word) (n : Nat) : (s.plainWrite r w n).mem = s.mem := rfl
@[simp] theorem plainWrite_lines (r : Reg) (w : Word) (n : Nat) : (s.plainWrite r w n).lines = s.lines := rfl
@[simp] theorem plainWrite_tbase (r : Reg) (w : Word) (n : Nat) : (s.plainWrite r w n).tbase = s.tbase := rfl
@[simp] theorem plainWrite_freeCtr (r : Reg) (w : Word) (n : Nat) : (s.plainWrite r w n).freeCtr = s.freeCtr := rfl
@[simp] theorem plainWrite_armq (r : Reg) (w : Word) (n : Nat) : (s.plainWrite r w n).armq = s.armq := rfl
@[simp] theorem plainWrite_armSeq (r : Reg) (w : Word) (n : Nat) : (s.plainWrite r w n).armSeq = s.armSeq := rfl
@[simp] theorem plainWrite_mode (r : Reg) (w : Word) (n : Nat) : (s.plainWrite r w n).mode = s.mode := rfl
@[simp] theorem plainWrite_bud (r : Reg) (w : Word) (n : Nat) : (s.plainWrite r w n).bud = s.bud := rfl
@[simp] theorem plainWrite_groups (r : Reg) (w : Word) (n : Nat) : (s.plainWrite r w n).groups = s.groups := rfl
@[simp] theorem plainWrite_ports (r : Reg) (w : Word) (n : Nat) : (s.plainWrite r w n).ports = s.ports := rfl
@[simp] theorem plainWrite_rails (r : Reg) (w : Word) (n : Nat) : (s.plainWrite r w n).rails = s.rails := rfl
@[simp] theorem plainWrite_engs (r : Reg) (w : Word) (n : Nat) : (s.plainWrite r w n).engs = s.engs := rfl
@[simp] theorem plainWrite_progs (r : Reg) (w : Word) (n : Nat) : (s.plainWrite r w n).progs = s.progs := rfl
@[simp] theorem plainWrite_pmap (r : Reg) (w : Word) (n : Nat) : (s.plainWrite r w n).pmap = s.pmap := rfl
@[simp] theorem plainWrite_sigs (r : Reg) (w : Word) (n : Nat) : (s.plainWrite r w n).sigs = s.sigs := rfl
@[simp] theorem plainWrite_pat (r : Reg) (w : Word) (n : Nat) : (s.plainWrite r w n).pat = s.pat := rfl
@[simp] theorem plainWrite_flt (r : Reg) (w : Word) (n : Nat) : (s.plainWrite r w n).flt = s.flt := rfl
@[simp] theorem plainWrite_sup (r : Reg) (w : Word) (n : Nat) : (s.plainWrite r w n).sup = s.sup := rfl
@[simp] theorem plainWrite_pins (r : Reg) (w : Word) (n : Nat) : (s.plainWrite r w n).pins = s.pins := rfl
@[simp] theorem plainWrite_links (r : Reg) (w : Word) (n : Nat) : (s.plainWrite r w n).links = s.links := rfl
@[simp] theorem plainWrite_lx (r : Reg) (w : Word) (n : Nat) : (s.plainWrite r w n).lx = s.lx := rfl
@[simp] theorem plainWrite_boot (r : Reg) (w : Word) (n : Nat) : (s.plainWrite r w n).boot = s.boot := rfl
@[simp] theorem plainWrite_chg (r : Reg) (w : Word) (n : Nat) : (s.plainWrite r w n).chg = s.chg := rfl
@[simp] theorem plainWrite_thm (r : Reg) (w : Word) (n : Nat) : (s.plainWrite r w n).thm = s.thm := rfl
@[simp] theorem plainWrite_chk (r : Reg) (w : Word) (n : Nat) : (s.plainWrite r w n).chk = s.chk := rfl
@[simp] theorem plainWrite_otp (r : Reg) (w : Word) (n : Nat) : (s.plainWrite r w n).otp = s.otp := rfl
@[simp] theorem plainWrite_wds (r : Reg) (w : Word) (n : Nat) : (s.plainWrite r w n).wds = s.wds := rfl
@[simp] theorem plainWrite_wdStart (r : Reg) (w : Word) (n : Nat) : (s.plainWrite r w n).wdStart = s.wdStart := rfl
@[simp] theorem plainWrite_hosts (r : Reg) (w : Word) (n : Nat) : (s.plainWrite r w n).hosts = s.hosts := rfl
@[simp] theorem plainWrite_intc (r : Reg) (w : Word) (n : Nat) : (s.plainWrite r w n).intc = s.intc := rfl
@[simp] theorem plainWrite_tap (r : Reg) (w : Word) (n : Nat) : (s.plainWrite r w n).tap = s.tap := rfl
@[simp] theorem plainWrite_pending (r : Reg) (w : Word) (n : Nat) : (s.plainWrite r w n).pending = s.pending := rfl

/-! ## `resetReg` changes `regs` alone -/

@[simp] theorem resetReg_part (r : Reg) (n : Nat) : (s.resetReg r n).part = s.part := rfl
@[simp] theorem resetReg_pairs (r : Reg) (n : Nat) : (s.resetReg r n).pairs = s.pairs := rfl
@[simp] theorem resetReg_mem (r : Reg) (n : Nat) : (s.resetReg r n).mem = s.mem := rfl
@[simp] theorem resetReg_lines (r : Reg) (n : Nat) : (s.resetReg r n).lines = s.lines := rfl
@[simp] theorem resetReg_tbase (r : Reg) (n : Nat) : (s.resetReg r n).tbase = s.tbase := rfl
@[simp] theorem resetReg_freeCtr (r : Reg) (n : Nat) : (s.resetReg r n).freeCtr = s.freeCtr := rfl
@[simp] theorem resetReg_armq (r : Reg) (n : Nat) : (s.resetReg r n).armq = s.armq := rfl
@[simp] theorem resetReg_armSeq (r : Reg) (n : Nat) : (s.resetReg r n).armSeq = s.armSeq := rfl
@[simp] theorem resetReg_mode (r : Reg) (n : Nat) : (s.resetReg r n).mode = s.mode := rfl
@[simp] theorem resetReg_bud (r : Reg) (n : Nat) : (s.resetReg r n).bud = s.bud := rfl
@[simp] theorem resetReg_groups (r : Reg) (n : Nat) : (s.resetReg r n).groups = s.groups := rfl
@[simp] theorem resetReg_ports (r : Reg) (n : Nat) : (s.resetReg r n).ports = s.ports := rfl
@[simp] theorem resetReg_rails (r : Reg) (n : Nat) : (s.resetReg r n).rails = s.rails := rfl
@[simp] theorem resetReg_engs (r : Reg) (n : Nat) : (s.resetReg r n).engs = s.engs := rfl
@[simp] theorem resetReg_progs (r : Reg) (n : Nat) : (s.resetReg r n).progs = s.progs := rfl
@[simp] theorem resetReg_pmap (r : Reg) (n : Nat) : (s.resetReg r n).pmap = s.pmap := rfl
@[simp] theorem resetReg_sigs (r : Reg) (n : Nat) : (s.resetReg r n).sigs = s.sigs := rfl
@[simp] theorem resetReg_pat (r : Reg) (n : Nat) : (s.resetReg r n).pat = s.pat := rfl
@[simp] theorem resetReg_flt (r : Reg) (n : Nat) : (s.resetReg r n).flt = s.flt := rfl
@[simp] theorem resetReg_sup (r : Reg) (n : Nat) : (s.resetReg r n).sup = s.sup := rfl
@[simp] theorem resetReg_pins (r : Reg) (n : Nat) : (s.resetReg r n).pins = s.pins := rfl
@[simp] theorem resetReg_links (r : Reg) (n : Nat) : (s.resetReg r n).links = s.links := rfl
@[simp] theorem resetReg_lx (r : Reg) (n : Nat) : (s.resetReg r n).lx = s.lx := rfl
@[simp] theorem resetReg_boot (r : Reg) (n : Nat) : (s.resetReg r n).boot = s.boot := rfl
@[simp] theorem resetReg_chg (r : Reg) (n : Nat) : (s.resetReg r n).chg = s.chg := rfl
@[simp] theorem resetReg_thm (r : Reg) (n : Nat) : (s.resetReg r n).thm = s.thm := rfl
@[simp] theorem resetReg_chk (r : Reg) (n : Nat) : (s.resetReg r n).chk = s.chk := rfl
@[simp] theorem resetReg_otp (r : Reg) (n : Nat) : (s.resetReg r n).otp = s.otp := rfl
@[simp] theorem resetReg_wds (r : Reg) (n : Nat) : (s.resetReg r n).wds = s.wds := rfl
@[simp] theorem resetReg_wdStart (r : Reg) (n : Nat) : (s.resetReg r n).wdStart = s.wdStart := rfl
@[simp] theorem resetReg_hosts (r : Reg) (n : Nat) : (s.resetReg r n).hosts = s.hosts := rfl
@[simp] theorem resetReg_intc (r : Reg) (n : Nat) : (s.resetReg r n).intc = s.intc := rfl
@[simp] theorem resetReg_tap (r : Reg) (n : Nat) : (s.resetReg r n).tap = s.tap := rfl
@[simp] theorem resetReg_pending (r : Reg) (n : Nat) : (s.resetReg r n).pending = s.pending := rfl

/-! ## `setG` changes `regs` alone -/

@[simp] theorem setG_part (e i : Nat) (w : Word) : (s.setG e i w).part = s.part := rfl
@[simp] theorem setG_pairs (e i : Nat) (w : Word) : (s.setG e i w).pairs = s.pairs := rfl
@[simp] theorem setG_mem (e i : Nat) (w : Word) : (s.setG e i w).mem = s.mem := rfl
@[simp] theorem setG_lines (e i : Nat) (w : Word) : (s.setG e i w).lines = s.lines := rfl
@[simp] theorem setG_tbase (e i : Nat) (w : Word) : (s.setG e i w).tbase = s.tbase := rfl
@[simp] theorem setG_freeCtr (e i : Nat) (w : Word) : (s.setG e i w).freeCtr = s.freeCtr := rfl
@[simp] theorem setG_armq (e i : Nat) (w : Word) : (s.setG e i w).armq = s.armq := rfl
@[simp] theorem setG_armSeq (e i : Nat) (w : Word) : (s.setG e i w).armSeq = s.armSeq := rfl
@[simp] theorem setG_mode (e i : Nat) (w : Word) : (s.setG e i w).mode = s.mode := rfl
@[simp] theorem setG_bud (e i : Nat) (w : Word) : (s.setG e i w).bud = s.bud := rfl
@[simp] theorem setG_groups (e i : Nat) (w : Word) : (s.setG e i w).groups = s.groups := rfl
@[simp] theorem setG_ports (e i : Nat) (w : Word) : (s.setG e i w).ports = s.ports := rfl
@[simp] theorem setG_rails (e i : Nat) (w : Word) : (s.setG e i w).rails = s.rails := rfl
@[simp] theorem setG_engs (e i : Nat) (w : Word) : (s.setG e i w).engs = s.engs := rfl
@[simp] theorem setG_progs (e i : Nat) (w : Word) : (s.setG e i w).progs = s.progs := rfl
@[simp] theorem setG_pmap (e i : Nat) (w : Word) : (s.setG e i w).pmap = s.pmap := rfl
@[simp] theorem setG_sigs (e i : Nat) (w : Word) : (s.setG e i w).sigs = s.sigs := rfl
@[simp] theorem setG_pat (e i : Nat) (w : Word) : (s.setG e i w).pat = s.pat := rfl
@[simp] theorem setG_flt (e i : Nat) (w : Word) : (s.setG e i w).flt = s.flt := rfl
@[simp] theorem setG_sup (e i : Nat) (w : Word) : (s.setG e i w).sup = s.sup := rfl
@[simp] theorem setG_pins (e i : Nat) (w : Word) : (s.setG e i w).pins = s.pins := rfl
@[simp] theorem setG_links (e i : Nat) (w : Word) : (s.setG e i w).links = s.links := rfl
@[simp] theorem setG_lx (e i : Nat) (w : Word) : (s.setG e i w).lx = s.lx := rfl
@[simp] theorem setG_boot (e i : Nat) (w : Word) : (s.setG e i w).boot = s.boot := rfl
@[simp] theorem setG_chg (e i : Nat) (w : Word) : (s.setG e i w).chg = s.chg := rfl
@[simp] theorem setG_thm (e i : Nat) (w : Word) : (s.setG e i w).thm = s.thm := rfl
@[simp] theorem setG_chk (e i : Nat) (w : Word) : (s.setG e i w).chk = s.chk := rfl
@[simp] theorem setG_otp (e i : Nat) (w : Word) : (s.setG e i w).otp = s.otp := rfl
@[simp] theorem setG_wds (e i : Nat) (w : Word) : (s.setG e i w).wds = s.wds := rfl
@[simp] theorem setG_wdStart (e i : Nat) (w : Word) : (s.setG e i w).wdStart = s.wdStart := rfl
@[simp] theorem setG_hosts (e i : Nat) (w : Word) : (s.setG e i w).hosts = s.hosts := rfl
@[simp] theorem setG_intc (e i : Nat) (w : Word) : (s.setG e i w).intc = s.intc := rfl
@[simp] theorem setG_tap (e i : Nat) (w : Word) : (s.setG e i w).tap = s.tap := rfl
@[simp] theorem setG_pending (e i : Nat) (w : Word) : (s.setG e i w).pending = s.pending := rfl

/-! ## `setByte` changes `mem` alone -/

@[simp] theorem setByte_part (a : Nat) (b : Byte) : (s.setByte a b).part = s.part := rfl
@[simp] theorem setByte_regs (a : Nat) (b : Byte) : (s.setByte a b).regs = s.regs := rfl
@[simp] theorem setByte_pairs (a : Nat) (b : Byte) : (s.setByte a b).pairs = s.pairs := rfl
@[simp] theorem setByte_lines (a : Nat) (b : Byte) : (s.setByte a b).lines = s.lines := rfl
@[simp] theorem setByte_tbase (a : Nat) (b : Byte) : (s.setByte a b).tbase = s.tbase := rfl
@[simp] theorem setByte_freeCtr (a : Nat) (b : Byte) : (s.setByte a b).freeCtr = s.freeCtr := rfl
@[simp] theorem setByte_armq (a : Nat) (b : Byte) : (s.setByte a b).armq = s.armq := rfl
@[simp] theorem setByte_armSeq (a : Nat) (b : Byte) : (s.setByte a b).armSeq = s.armSeq := rfl
@[simp] theorem setByte_mode (a : Nat) (b : Byte) : (s.setByte a b).mode = s.mode := rfl
@[simp] theorem setByte_bud (a : Nat) (b : Byte) : (s.setByte a b).bud = s.bud := rfl
@[simp] theorem setByte_groups (a : Nat) (b : Byte) : (s.setByte a b).groups = s.groups := rfl
@[simp] theorem setByte_ports (a : Nat) (b : Byte) : (s.setByte a b).ports = s.ports := rfl
@[simp] theorem setByte_rails (a : Nat) (b : Byte) : (s.setByte a b).rails = s.rails := rfl
@[simp] theorem setByte_engs (a : Nat) (b : Byte) : (s.setByte a b).engs = s.engs := rfl
@[simp] theorem setByte_progs (a : Nat) (b : Byte) : (s.setByte a b).progs = s.progs := rfl
@[simp] theorem setByte_pmap (a : Nat) (b : Byte) : (s.setByte a b).pmap = s.pmap := rfl
@[simp] theorem setByte_sigs (a : Nat) (b : Byte) : (s.setByte a b).sigs = s.sigs := rfl
@[simp] theorem setByte_pat (a : Nat) (b : Byte) : (s.setByte a b).pat = s.pat := rfl
@[simp] theorem setByte_flt (a : Nat) (b : Byte) : (s.setByte a b).flt = s.flt := rfl
@[simp] theorem setByte_sup (a : Nat) (b : Byte) : (s.setByte a b).sup = s.sup := rfl
@[simp] theorem setByte_pins (a : Nat) (b : Byte) : (s.setByte a b).pins = s.pins := rfl
@[simp] theorem setByte_links (a : Nat) (b : Byte) : (s.setByte a b).links = s.links := rfl
@[simp] theorem setByte_lx (a : Nat) (b : Byte) : (s.setByte a b).lx = s.lx := rfl
@[simp] theorem setByte_boot (a : Nat) (b : Byte) : (s.setByte a b).boot = s.boot := rfl
@[simp] theorem setByte_chg (a : Nat) (b : Byte) : (s.setByte a b).chg = s.chg := rfl
@[simp] theorem setByte_thm (a : Nat) (b : Byte) : (s.setByte a b).thm = s.thm := rfl
@[simp] theorem setByte_chk (a : Nat) (b : Byte) : (s.setByte a b).chk = s.chk := rfl
@[simp] theorem setByte_otp (a : Nat) (b : Byte) : (s.setByte a b).otp = s.otp := rfl
@[simp] theorem setByte_wds (a : Nat) (b : Byte) : (s.setByte a b).wds = s.wds := rfl
@[simp] theorem setByte_wdStart (a : Nat) (b : Byte) : (s.setByte a b).wdStart = s.wdStart := rfl
@[simp] theorem setByte_hosts (a : Nat) (b : Byte) : (s.setByte a b).hosts = s.hosts := rfl
@[simp] theorem setByte_intc (a : Nat) (b : Byte) : (s.setByte a b).intc = s.intc := rfl
@[simp] theorem setByte_tap (a : Nat) (b : Byte) : (s.setByte a b).tap = s.tap := rfl
@[simp] theorem setByte_pending (a : Nat) (b : Byte) : (s.setByte a b).pending = s.pending := rfl

/-! ## `zeroBytes` changes `mem` alone -/

@[simp] theorem zeroBytes_part (a k : Nat) : (s.zeroBytes a k).part = s.part := rfl
@[simp] theorem zeroBytes_regs (a k : Nat) : (s.zeroBytes a k).regs = s.regs := rfl
@[simp] theorem zeroBytes_pairs (a k : Nat) : (s.zeroBytes a k).pairs = s.pairs := rfl
@[simp] theorem zeroBytes_lines (a k : Nat) : (s.zeroBytes a k).lines = s.lines := rfl
@[simp] theorem zeroBytes_tbase (a k : Nat) : (s.zeroBytes a k).tbase = s.tbase := rfl
@[simp] theorem zeroBytes_freeCtr (a k : Nat) : (s.zeroBytes a k).freeCtr = s.freeCtr := rfl
@[simp] theorem zeroBytes_armq (a k : Nat) : (s.zeroBytes a k).armq = s.armq := rfl
@[simp] theorem zeroBytes_armSeq (a k : Nat) : (s.zeroBytes a k).armSeq = s.armSeq := rfl
@[simp] theorem zeroBytes_mode (a k : Nat) : (s.zeroBytes a k).mode = s.mode := rfl
@[simp] theorem zeroBytes_bud (a k : Nat) : (s.zeroBytes a k).bud = s.bud := rfl
@[simp] theorem zeroBytes_groups (a k : Nat) : (s.zeroBytes a k).groups = s.groups := rfl
@[simp] theorem zeroBytes_ports (a k : Nat) : (s.zeroBytes a k).ports = s.ports := rfl
@[simp] theorem zeroBytes_rails (a k : Nat) : (s.zeroBytes a k).rails = s.rails := rfl
@[simp] theorem zeroBytes_engs (a k : Nat) : (s.zeroBytes a k).engs = s.engs := rfl
@[simp] theorem zeroBytes_progs (a k : Nat) : (s.zeroBytes a k).progs = s.progs := rfl
@[simp] theorem zeroBytes_pmap (a k : Nat) : (s.zeroBytes a k).pmap = s.pmap := rfl
@[simp] theorem zeroBytes_sigs (a k : Nat) : (s.zeroBytes a k).sigs = s.sigs := rfl
@[simp] theorem zeroBytes_pat (a k : Nat) : (s.zeroBytes a k).pat = s.pat := rfl
@[simp] theorem zeroBytes_flt (a k : Nat) : (s.zeroBytes a k).flt = s.flt := rfl
@[simp] theorem zeroBytes_sup (a k : Nat) : (s.zeroBytes a k).sup = s.sup := rfl
@[simp] theorem zeroBytes_pins (a k : Nat) : (s.zeroBytes a k).pins = s.pins := rfl
@[simp] theorem zeroBytes_links (a k : Nat) : (s.zeroBytes a k).links = s.links := rfl
@[simp] theorem zeroBytes_lx (a k : Nat) : (s.zeroBytes a k).lx = s.lx := rfl
@[simp] theorem zeroBytes_boot (a k : Nat) : (s.zeroBytes a k).boot = s.boot := rfl
@[simp] theorem zeroBytes_chg (a k : Nat) : (s.zeroBytes a k).chg = s.chg := rfl
@[simp] theorem zeroBytes_thm (a k : Nat) : (s.zeroBytes a k).thm = s.thm := rfl
@[simp] theorem zeroBytes_chk (a k : Nat) : (s.zeroBytes a k).chk = s.chk := rfl
@[simp] theorem zeroBytes_otp (a k : Nat) : (s.zeroBytes a k).otp = s.otp := rfl
@[simp] theorem zeroBytes_wds (a k : Nat) : (s.zeroBytes a k).wds = s.wds := rfl
@[simp] theorem zeroBytes_wdStart (a k : Nat) : (s.zeroBytes a k).wdStart = s.wdStart := rfl
@[simp] theorem zeroBytes_hosts (a k : Nat) : (s.zeroBytes a k).hosts = s.hosts := rfl
@[simp] theorem zeroBytes_intc (a k : Nat) : (s.zeroBytes a k).intc = s.intc := rfl
@[simp] theorem zeroBytes_tap (a k : Nat) : (s.zeroBytes a k).tap = s.tap := rfl
@[simp] theorem zeroBytes_pending (a k : Nat) : (s.zeroBytes a k).pending = s.pending := rfl

/-! ## `fillBytes` changes `mem` alone -/

@[simp] theorem fillBytes_part (a k : Nat) (l : List Byte) : (s.fillBytes a k l).part = s.part := rfl
@[simp] theorem fillBytes_regs (a k : Nat) (l : List Byte) : (s.fillBytes a k l).regs = s.regs := rfl
@[simp] theorem fillBytes_pairs (a k : Nat) (l : List Byte) : (s.fillBytes a k l).pairs = s.pairs := rfl
@[simp] theorem fillBytes_lines (a k : Nat) (l : List Byte) : (s.fillBytes a k l).lines = s.lines := rfl
@[simp] theorem fillBytes_tbase (a k : Nat) (l : List Byte) : (s.fillBytes a k l).tbase = s.tbase := rfl
@[simp] theorem fillBytes_freeCtr (a k : Nat) (l : List Byte) : (s.fillBytes a k l).freeCtr = s.freeCtr := rfl
@[simp] theorem fillBytes_armq (a k : Nat) (l : List Byte) : (s.fillBytes a k l).armq = s.armq := rfl
@[simp] theorem fillBytes_armSeq (a k : Nat) (l : List Byte) : (s.fillBytes a k l).armSeq = s.armSeq := rfl
@[simp] theorem fillBytes_mode (a k : Nat) (l : List Byte) : (s.fillBytes a k l).mode = s.mode := rfl
@[simp] theorem fillBytes_bud (a k : Nat) (l : List Byte) : (s.fillBytes a k l).bud = s.bud := rfl
@[simp] theorem fillBytes_groups (a k : Nat) (l : List Byte) : (s.fillBytes a k l).groups = s.groups := rfl
@[simp] theorem fillBytes_ports (a k : Nat) (l : List Byte) : (s.fillBytes a k l).ports = s.ports := rfl
@[simp] theorem fillBytes_rails (a k : Nat) (l : List Byte) : (s.fillBytes a k l).rails = s.rails := rfl
@[simp] theorem fillBytes_engs (a k : Nat) (l : List Byte) : (s.fillBytes a k l).engs = s.engs := rfl
@[simp] theorem fillBytes_progs (a k : Nat) (l : List Byte) : (s.fillBytes a k l).progs = s.progs := rfl
@[simp] theorem fillBytes_pmap (a k : Nat) (l : List Byte) : (s.fillBytes a k l).pmap = s.pmap := rfl
@[simp] theorem fillBytes_sigs (a k : Nat) (l : List Byte) : (s.fillBytes a k l).sigs = s.sigs := rfl
@[simp] theorem fillBytes_pat (a k : Nat) (l : List Byte) : (s.fillBytes a k l).pat = s.pat := rfl
@[simp] theorem fillBytes_flt (a k : Nat) (l : List Byte) : (s.fillBytes a k l).flt = s.flt := rfl
@[simp] theorem fillBytes_sup (a k : Nat) (l : List Byte) : (s.fillBytes a k l).sup = s.sup := rfl
@[simp] theorem fillBytes_pins (a k : Nat) (l : List Byte) : (s.fillBytes a k l).pins = s.pins := rfl
@[simp] theorem fillBytes_links (a k : Nat) (l : List Byte) : (s.fillBytes a k l).links = s.links := rfl
@[simp] theorem fillBytes_lx (a k : Nat) (l : List Byte) : (s.fillBytes a k l).lx = s.lx := rfl
@[simp] theorem fillBytes_boot (a k : Nat) (l : List Byte) : (s.fillBytes a k l).boot = s.boot := rfl
@[simp] theorem fillBytes_chg (a k : Nat) (l : List Byte) : (s.fillBytes a k l).chg = s.chg := rfl
@[simp] theorem fillBytes_thm (a k : Nat) (l : List Byte) : (s.fillBytes a k l).thm = s.thm := rfl
@[simp] theorem fillBytes_chk (a k : Nat) (l : List Byte) : (s.fillBytes a k l).chk = s.chk := rfl
@[simp] theorem fillBytes_otp (a k : Nat) (l : List Byte) : (s.fillBytes a k l).otp = s.otp := rfl
@[simp] theorem fillBytes_wds (a k : Nat) (l : List Byte) : (s.fillBytes a k l).wds = s.wds := rfl
@[simp] theorem fillBytes_wdStart (a k : Nat) (l : List Byte) : (s.fillBytes a k l).wdStart = s.wdStart := rfl
@[simp] theorem fillBytes_hosts (a k : Nat) (l : List Byte) : (s.fillBytes a k l).hosts = s.hosts := rfl
@[simp] theorem fillBytes_intc (a k : Nat) (l : List Byte) : (s.fillBytes a k l).intc = s.intc := rfl
@[simp] theorem fillBytes_tap (a k : Nat) (l : List Byte) : (s.fillBytes a k l).tap = s.tap := rfl
@[simp] theorem fillBytes_pending (a k : Nat) (l : List Byte) : (s.fillBytes a k l).pending = s.pending := rfl

/-! ## `setRail` changes `rails` alone -/

@[simp] theorem setRail_part (n : Nat) (h : RailH) : (s.setRail n h).part = s.part := rfl
@[simp] theorem setRail_regs (n : Nat) (h : RailH) : (s.setRail n h).regs = s.regs := rfl
@[simp] theorem setRail_pairs (n : Nat) (h : RailH) : (s.setRail n h).pairs = s.pairs := rfl
@[simp] theorem setRail_mem (n : Nat) (h : RailH) : (s.setRail n h).mem = s.mem := rfl
@[simp] theorem setRail_lines (n : Nat) (h : RailH) : (s.setRail n h).lines = s.lines := rfl
@[simp] theorem setRail_tbase (n : Nat) (h : RailH) : (s.setRail n h).tbase = s.tbase := rfl
@[simp] theorem setRail_freeCtr (n : Nat) (h : RailH) : (s.setRail n h).freeCtr = s.freeCtr := rfl
@[simp] theorem setRail_armq (n : Nat) (h : RailH) : (s.setRail n h).armq = s.armq := rfl
@[simp] theorem setRail_armSeq (n : Nat) (h : RailH) : (s.setRail n h).armSeq = s.armSeq := rfl
@[simp] theorem setRail_mode (n : Nat) (h : RailH) : (s.setRail n h).mode = s.mode := rfl
@[simp] theorem setRail_bud (n : Nat) (h : RailH) : (s.setRail n h).bud = s.bud := rfl
@[simp] theorem setRail_groups (n : Nat) (h : RailH) : (s.setRail n h).groups = s.groups := rfl
@[simp] theorem setRail_ports (n : Nat) (h : RailH) : (s.setRail n h).ports = s.ports := rfl
@[simp] theorem setRail_engs (n : Nat) (h : RailH) : (s.setRail n h).engs = s.engs := rfl
@[simp] theorem setRail_progs (n : Nat) (h : RailH) : (s.setRail n h).progs = s.progs := rfl
@[simp] theorem setRail_pmap (n : Nat) (h : RailH) : (s.setRail n h).pmap = s.pmap := rfl
@[simp] theorem setRail_sigs (n : Nat) (h : RailH) : (s.setRail n h).sigs = s.sigs := rfl
@[simp] theorem setRail_pat (n : Nat) (h : RailH) : (s.setRail n h).pat = s.pat := rfl
@[simp] theorem setRail_flt (n : Nat) (h : RailH) : (s.setRail n h).flt = s.flt := rfl
@[simp] theorem setRail_sup (n : Nat) (h : RailH) : (s.setRail n h).sup = s.sup := rfl
@[simp] theorem setRail_pins (n : Nat) (h : RailH) : (s.setRail n h).pins = s.pins := rfl
@[simp] theorem setRail_links (n : Nat) (h : RailH) : (s.setRail n h).links = s.links := rfl
@[simp] theorem setRail_lx (n : Nat) (h : RailH) : (s.setRail n h).lx = s.lx := rfl
@[simp] theorem setRail_boot (n : Nat) (h : RailH) : (s.setRail n h).boot = s.boot := rfl
@[simp] theorem setRail_chg (n : Nat) (h : RailH) : (s.setRail n h).chg = s.chg := rfl
@[simp] theorem setRail_thm (n : Nat) (h : RailH) : (s.setRail n h).thm = s.thm := rfl
@[simp] theorem setRail_chk (n : Nat) (h : RailH) : (s.setRail n h).chk = s.chk := rfl
@[simp] theorem setRail_otp (n : Nat) (h : RailH) : (s.setRail n h).otp = s.otp := rfl
@[simp] theorem setRail_wds (n : Nat) (h : RailH) : (s.setRail n h).wds = s.wds := rfl
@[simp] theorem setRail_wdStart (n : Nat) (h : RailH) : (s.setRail n h).wdStart = s.wdStart := rfl
@[simp] theorem setRail_hosts (n : Nat) (h : RailH) : (s.setRail n h).hosts = s.hosts := rfl
@[simp] theorem setRail_intc (n : Nat) (h : RailH) : (s.setRail n h).intc = s.intc := rfl
@[simp] theorem setRail_tap (n : Nat) (h : RailH) : (s.setRail n h).tap = s.tap := rfl
@[simp] theorem setRail_pending (n : Nat) (h : RailH) : (s.setRail n h).pending = s.pending := rfl

/-! ## `setEng` changes `engs` alone -/

@[simp] theorem setEng_part (n : Nat) (h : EngH) : (s.setEng n h).part = s.part := rfl
@[simp] theorem setEng_regs (n : Nat) (h : EngH) : (s.setEng n h).regs = s.regs := rfl
@[simp] theorem setEng_pairs (n : Nat) (h : EngH) : (s.setEng n h).pairs = s.pairs := rfl
@[simp] theorem setEng_mem (n : Nat) (h : EngH) : (s.setEng n h).mem = s.mem := rfl
@[simp] theorem setEng_lines (n : Nat) (h : EngH) : (s.setEng n h).lines = s.lines := rfl
@[simp] theorem setEng_tbase (n : Nat) (h : EngH) : (s.setEng n h).tbase = s.tbase := rfl
@[simp] theorem setEng_freeCtr (n : Nat) (h : EngH) : (s.setEng n h).freeCtr = s.freeCtr := rfl
@[simp] theorem setEng_armq (n : Nat) (h : EngH) : (s.setEng n h).armq = s.armq := rfl
@[simp] theorem setEng_armSeq (n : Nat) (h : EngH) : (s.setEng n h).armSeq = s.armSeq := rfl
@[simp] theorem setEng_mode (n : Nat) (h : EngH) : (s.setEng n h).mode = s.mode := rfl
@[simp] theorem setEng_bud (n : Nat) (h : EngH) : (s.setEng n h).bud = s.bud := rfl
@[simp] theorem setEng_groups (n : Nat) (h : EngH) : (s.setEng n h).groups = s.groups := rfl
@[simp] theorem setEng_ports (n : Nat) (h : EngH) : (s.setEng n h).ports = s.ports := rfl
@[simp] theorem setEng_rails (n : Nat) (h : EngH) : (s.setEng n h).rails = s.rails := rfl
@[simp] theorem setEng_progs (n : Nat) (h : EngH) : (s.setEng n h).progs = s.progs := rfl
@[simp] theorem setEng_pmap (n : Nat) (h : EngH) : (s.setEng n h).pmap = s.pmap := rfl
@[simp] theorem setEng_sigs (n : Nat) (h : EngH) : (s.setEng n h).sigs = s.sigs := rfl
@[simp] theorem setEng_pat (n : Nat) (h : EngH) : (s.setEng n h).pat = s.pat := rfl
@[simp] theorem setEng_flt (n : Nat) (h : EngH) : (s.setEng n h).flt = s.flt := rfl
@[simp] theorem setEng_sup (n : Nat) (h : EngH) : (s.setEng n h).sup = s.sup := rfl
@[simp] theorem setEng_pins (n : Nat) (h : EngH) : (s.setEng n h).pins = s.pins := rfl
@[simp] theorem setEng_links (n : Nat) (h : EngH) : (s.setEng n h).links = s.links := rfl
@[simp] theorem setEng_lx (n : Nat) (h : EngH) : (s.setEng n h).lx = s.lx := rfl
@[simp] theorem setEng_boot (n : Nat) (h : EngH) : (s.setEng n h).boot = s.boot := rfl
@[simp] theorem setEng_chg (n : Nat) (h : EngH) : (s.setEng n h).chg = s.chg := rfl
@[simp] theorem setEng_thm (n : Nat) (h : EngH) : (s.setEng n h).thm = s.thm := rfl
@[simp] theorem setEng_chk (n : Nat) (h : EngH) : (s.setEng n h).chk = s.chk := rfl
@[simp] theorem setEng_otp (n : Nat) (h : EngH) : (s.setEng n h).otp = s.otp := rfl
@[simp] theorem setEng_wds (n : Nat) (h : EngH) : (s.setEng n h).wds = s.wds := rfl
@[simp] theorem setEng_wdStart (n : Nat) (h : EngH) : (s.setEng n h).wdStart = s.wdStart := rfl
@[simp] theorem setEng_hosts (n : Nat) (h : EngH) : (s.setEng n h).hosts = s.hosts := rfl
@[simp] theorem setEng_intc (n : Nat) (h : EngH) : (s.setEng n h).intc = s.intc := rfl
@[simp] theorem setEng_tap (n : Nat) (h : EngH) : (s.setEng n h).tap = s.tap := rfl
@[simp] theorem setEng_pending (n : Nat) (h : EngH) : (s.setEng n h).pending = s.pending := rfl

/-! ## `setProg` changes `progs` alone -/

@[simp] theorem setProg_part (n : Nat) (h : ProgH) : (s.setProg n h).part = s.part := rfl
@[simp] theorem setProg_regs (n : Nat) (h : ProgH) : (s.setProg n h).regs = s.regs := rfl
@[simp] theorem setProg_pairs (n : Nat) (h : ProgH) : (s.setProg n h).pairs = s.pairs := rfl
@[simp] theorem setProg_mem (n : Nat) (h : ProgH) : (s.setProg n h).mem = s.mem := rfl
@[simp] theorem setProg_lines (n : Nat) (h : ProgH) : (s.setProg n h).lines = s.lines := rfl
@[simp] theorem setProg_tbase (n : Nat) (h : ProgH) : (s.setProg n h).tbase = s.tbase := rfl
@[simp] theorem setProg_freeCtr (n : Nat) (h : ProgH) : (s.setProg n h).freeCtr = s.freeCtr := rfl
@[simp] theorem setProg_armq (n : Nat) (h : ProgH) : (s.setProg n h).armq = s.armq := rfl
@[simp] theorem setProg_armSeq (n : Nat) (h : ProgH) : (s.setProg n h).armSeq = s.armSeq := rfl
@[simp] theorem setProg_mode (n : Nat) (h : ProgH) : (s.setProg n h).mode = s.mode := rfl
@[simp] theorem setProg_bud (n : Nat) (h : ProgH) : (s.setProg n h).bud = s.bud := rfl
@[simp] theorem setProg_groups (n : Nat) (h : ProgH) : (s.setProg n h).groups = s.groups := rfl
@[simp] theorem setProg_ports (n : Nat) (h : ProgH) : (s.setProg n h).ports = s.ports := rfl
@[simp] theorem setProg_rails (n : Nat) (h : ProgH) : (s.setProg n h).rails = s.rails := rfl
@[simp] theorem setProg_engs (n : Nat) (h : ProgH) : (s.setProg n h).engs = s.engs := rfl
@[simp] theorem setProg_pmap (n : Nat) (h : ProgH) : (s.setProg n h).pmap = s.pmap := rfl
@[simp] theorem setProg_sigs (n : Nat) (h : ProgH) : (s.setProg n h).sigs = s.sigs := rfl
@[simp] theorem setProg_pat (n : Nat) (h : ProgH) : (s.setProg n h).pat = s.pat := rfl
@[simp] theorem setProg_flt (n : Nat) (h : ProgH) : (s.setProg n h).flt = s.flt := rfl
@[simp] theorem setProg_sup (n : Nat) (h : ProgH) : (s.setProg n h).sup = s.sup := rfl
@[simp] theorem setProg_pins (n : Nat) (h : ProgH) : (s.setProg n h).pins = s.pins := rfl
@[simp] theorem setProg_links (n : Nat) (h : ProgH) : (s.setProg n h).links = s.links := rfl
@[simp] theorem setProg_lx (n : Nat) (h : ProgH) : (s.setProg n h).lx = s.lx := rfl
@[simp] theorem setProg_boot (n : Nat) (h : ProgH) : (s.setProg n h).boot = s.boot := rfl
@[simp] theorem setProg_chg (n : Nat) (h : ProgH) : (s.setProg n h).chg = s.chg := rfl
@[simp] theorem setProg_thm (n : Nat) (h : ProgH) : (s.setProg n h).thm = s.thm := rfl
@[simp] theorem setProg_chk (n : Nat) (h : ProgH) : (s.setProg n h).chk = s.chk := rfl
@[simp] theorem setProg_otp (n : Nat) (h : ProgH) : (s.setProg n h).otp = s.otp := rfl
@[simp] theorem setProg_wds (n : Nat) (h : ProgH) : (s.setProg n h).wds = s.wds := rfl
@[simp] theorem setProg_wdStart (n : Nat) (h : ProgH) : (s.setProg n h).wdStart = s.wdStart := rfl
@[simp] theorem setProg_hosts (n : Nat) (h : ProgH) : (s.setProg n h).hosts = s.hosts := rfl
@[simp] theorem setProg_intc (n : Nat) (h : ProgH) : (s.setProg n h).intc = s.intc := rfl
@[simp] theorem setProg_tap (n : Nat) (h : ProgH) : (s.setProg n h).tap = s.tap := rfl
@[simp] theorem setProg_pending (n : Nat) (h : ProgH) : (s.setProg n h).pending = s.pending := rfl

/-! ## `setPort` changes `ports` alone -/

@[simp] theorem setPort_part (n : Nat) (h : PortH) : (s.setPort n h).part = s.part := rfl
@[simp] theorem setPort_regs (n : Nat) (h : PortH) : (s.setPort n h).regs = s.regs := rfl
@[simp] theorem setPort_pairs (n : Nat) (h : PortH) : (s.setPort n h).pairs = s.pairs := rfl
@[simp] theorem setPort_mem (n : Nat) (h : PortH) : (s.setPort n h).mem = s.mem := rfl
@[simp] theorem setPort_lines (n : Nat) (h : PortH) : (s.setPort n h).lines = s.lines := rfl
@[simp] theorem setPort_tbase (n : Nat) (h : PortH) : (s.setPort n h).tbase = s.tbase := rfl
@[simp] theorem setPort_freeCtr (n : Nat) (h : PortH) : (s.setPort n h).freeCtr = s.freeCtr := rfl
@[simp] theorem setPort_armq (n : Nat) (h : PortH) : (s.setPort n h).armq = s.armq := rfl
@[simp] theorem setPort_armSeq (n : Nat) (h : PortH) : (s.setPort n h).armSeq = s.armSeq := rfl
@[simp] theorem setPort_mode (n : Nat) (h : PortH) : (s.setPort n h).mode = s.mode := rfl
@[simp] theorem setPort_bud (n : Nat) (h : PortH) : (s.setPort n h).bud = s.bud := rfl
@[simp] theorem setPort_groups (n : Nat) (h : PortH) : (s.setPort n h).groups = s.groups := rfl
@[simp] theorem setPort_rails (n : Nat) (h : PortH) : (s.setPort n h).rails = s.rails := rfl
@[simp] theorem setPort_engs (n : Nat) (h : PortH) : (s.setPort n h).engs = s.engs := rfl
@[simp] theorem setPort_progs (n : Nat) (h : PortH) : (s.setPort n h).progs = s.progs := rfl
@[simp] theorem setPort_pmap (n : Nat) (h : PortH) : (s.setPort n h).pmap = s.pmap := rfl
@[simp] theorem setPort_sigs (n : Nat) (h : PortH) : (s.setPort n h).sigs = s.sigs := rfl
@[simp] theorem setPort_pat (n : Nat) (h : PortH) : (s.setPort n h).pat = s.pat := rfl
@[simp] theorem setPort_flt (n : Nat) (h : PortH) : (s.setPort n h).flt = s.flt := rfl
@[simp] theorem setPort_sup (n : Nat) (h : PortH) : (s.setPort n h).sup = s.sup := rfl
@[simp] theorem setPort_pins (n : Nat) (h : PortH) : (s.setPort n h).pins = s.pins := rfl
@[simp] theorem setPort_links (n : Nat) (h : PortH) : (s.setPort n h).links = s.links := rfl
@[simp] theorem setPort_lx (n : Nat) (h : PortH) : (s.setPort n h).lx = s.lx := rfl
@[simp] theorem setPort_boot (n : Nat) (h : PortH) : (s.setPort n h).boot = s.boot := rfl
@[simp] theorem setPort_chg (n : Nat) (h : PortH) : (s.setPort n h).chg = s.chg := rfl
@[simp] theorem setPort_thm (n : Nat) (h : PortH) : (s.setPort n h).thm = s.thm := rfl
@[simp] theorem setPort_chk (n : Nat) (h : PortH) : (s.setPort n h).chk = s.chk := rfl
@[simp] theorem setPort_otp (n : Nat) (h : PortH) : (s.setPort n h).otp = s.otp := rfl
@[simp] theorem setPort_wds (n : Nat) (h : PortH) : (s.setPort n h).wds = s.wds := rfl
@[simp] theorem setPort_wdStart (n : Nat) (h : PortH) : (s.setPort n h).wdStart = s.wdStart := rfl
@[simp] theorem setPort_hosts (n : Nat) (h : PortH) : (s.setPort n h).hosts = s.hosts := rfl
@[simp] theorem setPort_intc (n : Nat) (h : PortH) : (s.setPort n h).intc = s.intc := rfl
@[simp] theorem setPort_tap (n : Nat) (h : PortH) : (s.setPort n h).tap = s.tap := rfl
@[simp] theorem setPort_pending (n : Nat) (h : PortH) : (s.setPort n h).pending = s.pending := rfl

/-! ## `setGroup` changes `groups` alone -/

@[simp] theorem setGroup_part (n : Nat) (h : GroupH) : (s.setGroup n h).part = s.part := rfl
@[simp] theorem setGroup_regs (n : Nat) (h : GroupH) : (s.setGroup n h).regs = s.regs := rfl
@[simp] theorem setGroup_pairs (n : Nat) (h : GroupH) : (s.setGroup n h).pairs = s.pairs := rfl
@[simp] theorem setGroup_mem (n : Nat) (h : GroupH) : (s.setGroup n h).mem = s.mem := rfl
@[simp] theorem setGroup_lines (n : Nat) (h : GroupH) : (s.setGroup n h).lines = s.lines := rfl
@[simp] theorem setGroup_tbase (n : Nat) (h : GroupH) : (s.setGroup n h).tbase = s.tbase := rfl
@[simp] theorem setGroup_freeCtr (n : Nat) (h : GroupH) : (s.setGroup n h).freeCtr = s.freeCtr := rfl
@[simp] theorem setGroup_armq (n : Nat) (h : GroupH) : (s.setGroup n h).armq = s.armq := rfl
@[simp] theorem setGroup_armSeq (n : Nat) (h : GroupH) : (s.setGroup n h).armSeq = s.armSeq := rfl
@[simp] theorem setGroup_mode (n : Nat) (h : GroupH) : (s.setGroup n h).mode = s.mode := rfl
@[simp] theorem setGroup_bud (n : Nat) (h : GroupH) : (s.setGroup n h).bud = s.bud := rfl
@[simp] theorem setGroup_ports (n : Nat) (h : GroupH) : (s.setGroup n h).ports = s.ports := rfl
@[simp] theorem setGroup_rails (n : Nat) (h : GroupH) : (s.setGroup n h).rails = s.rails := rfl
@[simp] theorem setGroup_engs (n : Nat) (h : GroupH) : (s.setGroup n h).engs = s.engs := rfl
@[simp] theorem setGroup_progs (n : Nat) (h : GroupH) : (s.setGroup n h).progs = s.progs := rfl
@[simp] theorem setGroup_pmap (n : Nat) (h : GroupH) : (s.setGroup n h).pmap = s.pmap := rfl
@[simp] theorem setGroup_sigs (n : Nat) (h : GroupH) : (s.setGroup n h).sigs = s.sigs := rfl
@[simp] theorem setGroup_pat (n : Nat) (h : GroupH) : (s.setGroup n h).pat = s.pat := rfl
@[simp] theorem setGroup_flt (n : Nat) (h : GroupH) : (s.setGroup n h).flt = s.flt := rfl
@[simp] theorem setGroup_sup (n : Nat) (h : GroupH) : (s.setGroup n h).sup = s.sup := rfl
@[simp] theorem setGroup_pins (n : Nat) (h : GroupH) : (s.setGroup n h).pins = s.pins := rfl
@[simp] theorem setGroup_links (n : Nat) (h : GroupH) : (s.setGroup n h).links = s.links := rfl
@[simp] theorem setGroup_lx (n : Nat) (h : GroupH) : (s.setGroup n h).lx = s.lx := rfl
@[simp] theorem setGroup_boot (n : Nat) (h : GroupH) : (s.setGroup n h).boot = s.boot := rfl
@[simp] theorem setGroup_chg (n : Nat) (h : GroupH) : (s.setGroup n h).chg = s.chg := rfl
@[simp] theorem setGroup_thm (n : Nat) (h : GroupH) : (s.setGroup n h).thm = s.thm := rfl
@[simp] theorem setGroup_chk (n : Nat) (h : GroupH) : (s.setGroup n h).chk = s.chk := rfl
@[simp] theorem setGroup_otp (n : Nat) (h : GroupH) : (s.setGroup n h).otp = s.otp := rfl
@[simp] theorem setGroup_wds (n : Nat) (h : GroupH) : (s.setGroup n h).wds = s.wds := rfl
@[simp] theorem setGroup_wdStart (n : Nat) (h : GroupH) : (s.setGroup n h).wdStart = s.wdStart := rfl
@[simp] theorem setGroup_hosts (n : Nat) (h : GroupH) : (s.setGroup n h).hosts = s.hosts := rfl
@[simp] theorem setGroup_intc (n : Nat) (h : GroupH) : (s.setGroup n h).intc = s.intc := rfl
@[simp] theorem setGroup_tap (n : Nat) (h : GroupH) : (s.setGroup n h).tap = s.tap := rfl
@[simp] theorem setGroup_pending (n : Nat) (h : GroupH) : (s.setGroup n h).pending = s.pending := rfl

/-! ## `setLink` changes `links` alone -/

@[simp] theorem setLink_part (n : Nat) (h : LinkH) : (s.setLink n h).part = s.part := rfl
@[simp] theorem setLink_regs (n : Nat) (h : LinkH) : (s.setLink n h).regs = s.regs := rfl
@[simp] theorem setLink_pairs (n : Nat) (h : LinkH) : (s.setLink n h).pairs = s.pairs := rfl
@[simp] theorem setLink_mem (n : Nat) (h : LinkH) : (s.setLink n h).mem = s.mem := rfl
@[simp] theorem setLink_lines (n : Nat) (h : LinkH) : (s.setLink n h).lines = s.lines := rfl
@[simp] theorem setLink_tbase (n : Nat) (h : LinkH) : (s.setLink n h).tbase = s.tbase := rfl
@[simp] theorem setLink_freeCtr (n : Nat) (h : LinkH) : (s.setLink n h).freeCtr = s.freeCtr := rfl
@[simp] theorem setLink_armq (n : Nat) (h : LinkH) : (s.setLink n h).armq = s.armq := rfl
@[simp] theorem setLink_armSeq (n : Nat) (h : LinkH) : (s.setLink n h).armSeq = s.armSeq := rfl
@[simp] theorem setLink_mode (n : Nat) (h : LinkH) : (s.setLink n h).mode = s.mode := rfl
@[simp] theorem setLink_bud (n : Nat) (h : LinkH) : (s.setLink n h).bud = s.bud := rfl
@[simp] theorem setLink_groups (n : Nat) (h : LinkH) : (s.setLink n h).groups = s.groups := rfl
@[simp] theorem setLink_ports (n : Nat) (h : LinkH) : (s.setLink n h).ports = s.ports := rfl
@[simp] theorem setLink_rails (n : Nat) (h : LinkH) : (s.setLink n h).rails = s.rails := rfl
@[simp] theorem setLink_engs (n : Nat) (h : LinkH) : (s.setLink n h).engs = s.engs := rfl
@[simp] theorem setLink_progs (n : Nat) (h : LinkH) : (s.setLink n h).progs = s.progs := rfl
@[simp] theorem setLink_pmap (n : Nat) (h : LinkH) : (s.setLink n h).pmap = s.pmap := rfl
@[simp] theorem setLink_sigs (n : Nat) (h : LinkH) : (s.setLink n h).sigs = s.sigs := rfl
@[simp] theorem setLink_pat (n : Nat) (h : LinkH) : (s.setLink n h).pat = s.pat := rfl
@[simp] theorem setLink_flt (n : Nat) (h : LinkH) : (s.setLink n h).flt = s.flt := rfl
@[simp] theorem setLink_sup (n : Nat) (h : LinkH) : (s.setLink n h).sup = s.sup := rfl
@[simp] theorem setLink_pins (n : Nat) (h : LinkH) : (s.setLink n h).pins = s.pins := rfl
@[simp] theorem setLink_lx (n : Nat) (h : LinkH) : (s.setLink n h).lx = s.lx := rfl
@[simp] theorem setLink_boot (n : Nat) (h : LinkH) : (s.setLink n h).boot = s.boot := rfl
@[simp] theorem setLink_chg (n : Nat) (h : LinkH) : (s.setLink n h).chg = s.chg := rfl
@[simp] theorem setLink_thm (n : Nat) (h : LinkH) : (s.setLink n h).thm = s.thm := rfl
@[simp] theorem setLink_chk (n : Nat) (h : LinkH) : (s.setLink n h).chk = s.chk := rfl
@[simp] theorem setLink_otp (n : Nat) (h : LinkH) : (s.setLink n h).otp = s.otp := rfl
@[simp] theorem setLink_wds (n : Nat) (h : LinkH) : (s.setLink n h).wds = s.wds := rfl
@[simp] theorem setLink_wdStart (n : Nat) (h : LinkH) : (s.setLink n h).wdStart = s.wdStart := rfl
@[simp] theorem setLink_hosts (n : Nat) (h : LinkH) : (s.setLink n h).hosts = s.hosts := rfl
@[simp] theorem setLink_intc (n : Nat) (h : LinkH) : (s.setLink n h).intc = s.intc := rfl
@[simp] theorem setLink_tap (n : Nat) (h : LinkH) : (s.setLink n h).tap = s.tap := rfl
@[simp] theorem setLink_pending (n : Nat) (h : LinkH) : (s.setLink n h).pending = s.pending := rfl

/-! ## `setLxm` changes `lx` alone -/

@[simp] theorem setLxm_part (n : Nat) (h : LxH) : (s.setLxm n h).part = s.part := rfl
@[simp] theorem setLxm_regs (n : Nat) (h : LxH) : (s.setLxm n h).regs = s.regs := rfl
@[simp] theorem setLxm_pairs (n : Nat) (h : LxH) : (s.setLxm n h).pairs = s.pairs := rfl
@[simp] theorem setLxm_mem (n : Nat) (h : LxH) : (s.setLxm n h).mem = s.mem := rfl
@[simp] theorem setLxm_lines (n : Nat) (h : LxH) : (s.setLxm n h).lines = s.lines := rfl
@[simp] theorem setLxm_tbase (n : Nat) (h : LxH) : (s.setLxm n h).tbase = s.tbase := rfl
@[simp] theorem setLxm_freeCtr (n : Nat) (h : LxH) : (s.setLxm n h).freeCtr = s.freeCtr := rfl
@[simp] theorem setLxm_armq (n : Nat) (h : LxH) : (s.setLxm n h).armq = s.armq := rfl
@[simp] theorem setLxm_armSeq (n : Nat) (h : LxH) : (s.setLxm n h).armSeq = s.armSeq := rfl
@[simp] theorem setLxm_mode (n : Nat) (h : LxH) : (s.setLxm n h).mode = s.mode := rfl
@[simp] theorem setLxm_bud (n : Nat) (h : LxH) : (s.setLxm n h).bud = s.bud := rfl
@[simp] theorem setLxm_groups (n : Nat) (h : LxH) : (s.setLxm n h).groups = s.groups := rfl
@[simp] theorem setLxm_ports (n : Nat) (h : LxH) : (s.setLxm n h).ports = s.ports := rfl
@[simp] theorem setLxm_rails (n : Nat) (h : LxH) : (s.setLxm n h).rails = s.rails := rfl
@[simp] theorem setLxm_engs (n : Nat) (h : LxH) : (s.setLxm n h).engs = s.engs := rfl
@[simp] theorem setLxm_progs (n : Nat) (h : LxH) : (s.setLxm n h).progs = s.progs := rfl
@[simp] theorem setLxm_pmap (n : Nat) (h : LxH) : (s.setLxm n h).pmap = s.pmap := rfl
@[simp] theorem setLxm_sigs (n : Nat) (h : LxH) : (s.setLxm n h).sigs = s.sigs := rfl
@[simp] theorem setLxm_pat (n : Nat) (h : LxH) : (s.setLxm n h).pat = s.pat := rfl
@[simp] theorem setLxm_flt (n : Nat) (h : LxH) : (s.setLxm n h).flt = s.flt := rfl
@[simp] theorem setLxm_sup (n : Nat) (h : LxH) : (s.setLxm n h).sup = s.sup := rfl
@[simp] theorem setLxm_pins (n : Nat) (h : LxH) : (s.setLxm n h).pins = s.pins := rfl
@[simp] theorem setLxm_links (n : Nat) (h : LxH) : (s.setLxm n h).links = s.links := rfl
@[simp] theorem setLxm_boot (n : Nat) (h : LxH) : (s.setLxm n h).boot = s.boot := rfl
@[simp] theorem setLxm_chg (n : Nat) (h : LxH) : (s.setLxm n h).chg = s.chg := rfl
@[simp] theorem setLxm_thm (n : Nat) (h : LxH) : (s.setLxm n h).thm = s.thm := rfl
@[simp] theorem setLxm_chk (n : Nat) (h : LxH) : (s.setLxm n h).chk = s.chk := rfl
@[simp] theorem setLxm_otp (n : Nat) (h : LxH) : (s.setLxm n h).otp = s.otp := rfl
@[simp] theorem setLxm_wds (n : Nat) (h : LxH) : (s.setLxm n h).wds = s.wds := rfl
@[simp] theorem setLxm_wdStart (n : Nat) (h : LxH) : (s.setLxm n h).wdStart = s.wdStart := rfl
@[simp] theorem setLxm_hosts (n : Nat) (h : LxH) : (s.setLxm n h).hosts = s.hosts := rfl
@[simp] theorem setLxm_intc (n : Nat) (h : LxH) : (s.setLxm n h).intc = s.intc := rfl
@[simp] theorem setLxm_tap (n : Nat) (h : LxH) : (s.setLxm n h).tap = s.tap := rfl
@[simp] theorem setLxm_pending (n : Nat) (h : LxH) : (s.setLxm n h).pending = s.pending := rfl

/-! ## `setWd` changes `wds` alone -/

@[simp] theorem setWd_part (n : Nat) (h : WdH) : (s.setWd n h).part = s.part := rfl
@[simp] theorem setWd_regs (n : Nat) (h : WdH) : (s.setWd n h).regs = s.regs := rfl
@[simp] theorem setWd_pairs (n : Nat) (h : WdH) : (s.setWd n h).pairs = s.pairs := rfl
@[simp] theorem setWd_mem (n : Nat) (h : WdH) : (s.setWd n h).mem = s.mem := rfl
@[simp] theorem setWd_lines (n : Nat) (h : WdH) : (s.setWd n h).lines = s.lines := rfl
@[simp] theorem setWd_tbase (n : Nat) (h : WdH) : (s.setWd n h).tbase = s.tbase := rfl
@[simp] theorem setWd_freeCtr (n : Nat) (h : WdH) : (s.setWd n h).freeCtr = s.freeCtr := rfl
@[simp] theorem setWd_armq (n : Nat) (h : WdH) : (s.setWd n h).armq = s.armq := rfl
@[simp] theorem setWd_armSeq (n : Nat) (h : WdH) : (s.setWd n h).armSeq = s.armSeq := rfl
@[simp] theorem setWd_mode (n : Nat) (h : WdH) : (s.setWd n h).mode = s.mode := rfl
@[simp] theorem setWd_bud (n : Nat) (h : WdH) : (s.setWd n h).bud = s.bud := rfl
@[simp] theorem setWd_groups (n : Nat) (h : WdH) : (s.setWd n h).groups = s.groups := rfl
@[simp] theorem setWd_ports (n : Nat) (h : WdH) : (s.setWd n h).ports = s.ports := rfl
@[simp] theorem setWd_rails (n : Nat) (h : WdH) : (s.setWd n h).rails = s.rails := rfl
@[simp] theorem setWd_engs (n : Nat) (h : WdH) : (s.setWd n h).engs = s.engs := rfl
@[simp] theorem setWd_progs (n : Nat) (h : WdH) : (s.setWd n h).progs = s.progs := rfl
@[simp] theorem setWd_pmap (n : Nat) (h : WdH) : (s.setWd n h).pmap = s.pmap := rfl
@[simp] theorem setWd_sigs (n : Nat) (h : WdH) : (s.setWd n h).sigs = s.sigs := rfl
@[simp] theorem setWd_pat (n : Nat) (h : WdH) : (s.setWd n h).pat = s.pat := rfl
@[simp] theorem setWd_flt (n : Nat) (h : WdH) : (s.setWd n h).flt = s.flt := rfl
@[simp] theorem setWd_sup (n : Nat) (h : WdH) : (s.setWd n h).sup = s.sup := rfl
@[simp] theorem setWd_pins (n : Nat) (h : WdH) : (s.setWd n h).pins = s.pins := rfl
@[simp] theorem setWd_links (n : Nat) (h : WdH) : (s.setWd n h).links = s.links := rfl
@[simp] theorem setWd_lx (n : Nat) (h : WdH) : (s.setWd n h).lx = s.lx := rfl
@[simp] theorem setWd_boot (n : Nat) (h : WdH) : (s.setWd n h).boot = s.boot := rfl
@[simp] theorem setWd_chg (n : Nat) (h : WdH) : (s.setWd n h).chg = s.chg := rfl
@[simp] theorem setWd_thm (n : Nat) (h : WdH) : (s.setWd n h).thm = s.thm := rfl
@[simp] theorem setWd_chk (n : Nat) (h : WdH) : (s.setWd n h).chk = s.chk := rfl
@[simp] theorem setWd_otp (n : Nat) (h : WdH) : (s.setWd n h).otp = s.otp := rfl
@[simp] theorem setWd_wdStart (n : Nat) (h : WdH) : (s.setWd n h).wdStart = s.wdStart := rfl
@[simp] theorem setWd_hosts (n : Nat) (h : WdH) : (s.setWd n h).hosts = s.hosts := rfl
@[simp] theorem setWd_intc (n : Nat) (h : WdH) : (s.setWd n h).intc = s.intc := rfl
@[simp] theorem setWd_tap (n : Nat) (h : WdH) : (s.setWd n h).tap = s.tap := rfl
@[simp] theorem setWd_pending (n : Nat) (h : WdH) : (s.setWd n h).pending = s.pending := rfl

/-! ## `setHost` changes `hosts` alone -/

@[simp] theorem setHost_part (n : Nat) (h : HostH) : (s.setHost n h).part = s.part := rfl
@[simp] theorem setHost_regs (n : Nat) (h : HostH) : (s.setHost n h).regs = s.regs := rfl
@[simp] theorem setHost_pairs (n : Nat) (h : HostH) : (s.setHost n h).pairs = s.pairs := rfl
@[simp] theorem setHost_mem (n : Nat) (h : HostH) : (s.setHost n h).mem = s.mem := rfl
@[simp] theorem setHost_lines (n : Nat) (h : HostH) : (s.setHost n h).lines = s.lines := rfl
@[simp] theorem setHost_tbase (n : Nat) (h : HostH) : (s.setHost n h).tbase = s.tbase := rfl
@[simp] theorem setHost_freeCtr (n : Nat) (h : HostH) : (s.setHost n h).freeCtr = s.freeCtr := rfl
@[simp] theorem setHost_armq (n : Nat) (h : HostH) : (s.setHost n h).armq = s.armq := rfl
@[simp] theorem setHost_armSeq (n : Nat) (h : HostH) : (s.setHost n h).armSeq = s.armSeq := rfl
@[simp] theorem setHost_mode (n : Nat) (h : HostH) : (s.setHost n h).mode = s.mode := rfl
@[simp] theorem setHost_bud (n : Nat) (h : HostH) : (s.setHost n h).bud = s.bud := rfl
@[simp] theorem setHost_groups (n : Nat) (h : HostH) : (s.setHost n h).groups = s.groups := rfl
@[simp] theorem setHost_ports (n : Nat) (h : HostH) : (s.setHost n h).ports = s.ports := rfl
@[simp] theorem setHost_rails (n : Nat) (h : HostH) : (s.setHost n h).rails = s.rails := rfl
@[simp] theorem setHost_engs (n : Nat) (h : HostH) : (s.setHost n h).engs = s.engs := rfl
@[simp] theorem setHost_progs (n : Nat) (h : HostH) : (s.setHost n h).progs = s.progs := rfl
@[simp] theorem setHost_pmap (n : Nat) (h : HostH) : (s.setHost n h).pmap = s.pmap := rfl
@[simp] theorem setHost_sigs (n : Nat) (h : HostH) : (s.setHost n h).sigs = s.sigs := rfl
@[simp] theorem setHost_pat (n : Nat) (h : HostH) : (s.setHost n h).pat = s.pat := rfl
@[simp] theorem setHost_flt (n : Nat) (h : HostH) : (s.setHost n h).flt = s.flt := rfl
@[simp] theorem setHost_sup (n : Nat) (h : HostH) : (s.setHost n h).sup = s.sup := rfl
@[simp] theorem setHost_pins (n : Nat) (h : HostH) : (s.setHost n h).pins = s.pins := rfl
@[simp] theorem setHost_links (n : Nat) (h : HostH) : (s.setHost n h).links = s.links := rfl
@[simp] theorem setHost_lx (n : Nat) (h : HostH) : (s.setHost n h).lx = s.lx := rfl
@[simp] theorem setHost_boot (n : Nat) (h : HostH) : (s.setHost n h).boot = s.boot := rfl
@[simp] theorem setHost_chg (n : Nat) (h : HostH) : (s.setHost n h).chg = s.chg := rfl
@[simp] theorem setHost_thm (n : Nat) (h : HostH) : (s.setHost n h).thm = s.thm := rfl
@[simp] theorem setHost_chk (n : Nat) (h : HostH) : (s.setHost n h).chk = s.chk := rfl
@[simp] theorem setHost_otp (n : Nat) (h : HostH) : (s.setHost n h).otp = s.otp := rfl
@[simp] theorem setHost_wds (n : Nat) (h : HostH) : (s.setHost n h).wds = s.wds := rfl
@[simp] theorem setHost_wdStart (n : Nat) (h : HostH) : (s.setHost n h).wdStart = s.wdStart := rfl
@[simp] theorem setHost_intc (n : Nat) (h : HostH) : (s.setHost n h).intc = s.intc := rfl
@[simp] theorem setHost_tap (n : Nat) (h : HostH) : (s.setHost n h).tap = s.tap := rfl
@[simp] theorem setHost_pending (n : Nat) (h : HostH) : (s.setHost n h).pending = s.pending := rfl

/-! ## `setProgClaim` changes `bud` alone -/

@[simp] theorem setProgClaim_part (p k : Nat) (c : Claim) : (s.setProgClaim p k c).part = s.part := rfl
@[simp] theorem setProgClaim_regs (p k : Nat) (c : Claim) : (s.setProgClaim p k c).regs = s.regs := rfl
@[simp] theorem setProgClaim_pairs (p k : Nat) (c : Claim) : (s.setProgClaim p k c).pairs = s.pairs := rfl
@[simp] theorem setProgClaim_mem (p k : Nat) (c : Claim) : (s.setProgClaim p k c).mem = s.mem := rfl
@[simp] theorem setProgClaim_lines (p k : Nat) (c : Claim) : (s.setProgClaim p k c).lines = s.lines := rfl
@[simp] theorem setProgClaim_tbase (p k : Nat) (c : Claim) : (s.setProgClaim p k c).tbase = s.tbase := rfl
@[simp] theorem setProgClaim_freeCtr (p k : Nat) (c : Claim) : (s.setProgClaim p k c).freeCtr = s.freeCtr := rfl
@[simp] theorem setProgClaim_armq (p k : Nat) (c : Claim) : (s.setProgClaim p k c).armq = s.armq := rfl
@[simp] theorem setProgClaim_armSeq (p k : Nat) (c : Claim) : (s.setProgClaim p k c).armSeq = s.armSeq := rfl
@[simp] theorem setProgClaim_mode (p k : Nat) (c : Claim) : (s.setProgClaim p k c).mode = s.mode := rfl
@[simp] theorem setProgClaim_groups (p k : Nat) (c : Claim) : (s.setProgClaim p k c).groups = s.groups := rfl
@[simp] theorem setProgClaim_ports (p k : Nat) (c : Claim) : (s.setProgClaim p k c).ports = s.ports := rfl
@[simp] theorem setProgClaim_rails (p k : Nat) (c : Claim) : (s.setProgClaim p k c).rails = s.rails := rfl
@[simp] theorem setProgClaim_engs (p k : Nat) (c : Claim) : (s.setProgClaim p k c).engs = s.engs := rfl
@[simp] theorem setProgClaim_progs (p k : Nat) (c : Claim) : (s.setProgClaim p k c).progs = s.progs := rfl
@[simp] theorem setProgClaim_pmap (p k : Nat) (c : Claim) : (s.setProgClaim p k c).pmap = s.pmap := rfl
@[simp] theorem setProgClaim_sigs (p k : Nat) (c : Claim) : (s.setProgClaim p k c).sigs = s.sigs := rfl
@[simp] theorem setProgClaim_pat (p k : Nat) (c : Claim) : (s.setProgClaim p k c).pat = s.pat := rfl
@[simp] theorem setProgClaim_flt (p k : Nat) (c : Claim) : (s.setProgClaim p k c).flt = s.flt := rfl
@[simp] theorem setProgClaim_sup (p k : Nat) (c : Claim) : (s.setProgClaim p k c).sup = s.sup := rfl
@[simp] theorem setProgClaim_pins (p k : Nat) (c : Claim) : (s.setProgClaim p k c).pins = s.pins := rfl
@[simp] theorem setProgClaim_links (p k : Nat) (c : Claim) : (s.setProgClaim p k c).links = s.links := rfl
@[simp] theorem setProgClaim_lx (p k : Nat) (c : Claim) : (s.setProgClaim p k c).lx = s.lx := rfl
@[simp] theorem setProgClaim_boot (p k : Nat) (c : Claim) : (s.setProgClaim p k c).boot = s.boot := rfl
@[simp] theorem setProgClaim_chg (p k : Nat) (c : Claim) : (s.setProgClaim p k c).chg = s.chg := rfl
@[simp] theorem setProgClaim_thm (p k : Nat) (c : Claim) : (s.setProgClaim p k c).thm = s.thm := rfl
@[simp] theorem setProgClaim_chk (p k : Nat) (c : Claim) : (s.setProgClaim p k c).chk = s.chk := rfl
@[simp] theorem setProgClaim_otp (p k : Nat) (c : Claim) : (s.setProgClaim p k c).otp = s.otp := rfl
@[simp] theorem setProgClaim_wds (p k : Nat) (c : Claim) : (s.setProgClaim p k c).wds = s.wds := rfl
@[simp] theorem setProgClaim_wdStart (p k : Nat) (c : Claim) : (s.setProgClaim p k c).wdStart = s.wdStart := rfl
@[simp] theorem setProgClaim_hosts (p k : Nat) (c : Claim) : (s.setProgClaim p k c).hosts = s.hosts := rfl
@[simp] theorem setProgClaim_intc (p k : Nat) (c : Claim) : (s.setProgClaim p k c).intc = s.intc := rfl
@[simp] theorem setProgClaim_tap (p k : Nat) (c : Claim) : (s.setProgClaim p k c).tap = s.tap := rfl
@[simp] theorem setProgClaim_pending (p k : Nat) (c : Claim) : (s.setProgClaim p k c).pending = s.pending := rfl

/-! ## `setHwClaim` changes `bud` alone -/

@[simp] theorem setHwClaim_part (n : Nat) (c : Claim) : (s.setHwClaim n c).part = s.part := rfl
@[simp] theorem setHwClaim_regs (n : Nat) (c : Claim) : (s.setHwClaim n c).regs = s.regs := rfl
@[simp] theorem setHwClaim_pairs (n : Nat) (c : Claim) : (s.setHwClaim n c).pairs = s.pairs := rfl
@[simp] theorem setHwClaim_mem (n : Nat) (c : Claim) : (s.setHwClaim n c).mem = s.mem := rfl
@[simp] theorem setHwClaim_lines (n : Nat) (c : Claim) : (s.setHwClaim n c).lines = s.lines := rfl
@[simp] theorem setHwClaim_tbase (n : Nat) (c : Claim) : (s.setHwClaim n c).tbase = s.tbase := rfl
@[simp] theorem setHwClaim_freeCtr (n : Nat) (c : Claim) : (s.setHwClaim n c).freeCtr = s.freeCtr := rfl
@[simp] theorem setHwClaim_armq (n : Nat) (c : Claim) : (s.setHwClaim n c).armq = s.armq := rfl
@[simp] theorem setHwClaim_armSeq (n : Nat) (c : Claim) : (s.setHwClaim n c).armSeq = s.armSeq := rfl
@[simp] theorem setHwClaim_mode (n : Nat) (c : Claim) : (s.setHwClaim n c).mode = s.mode := rfl
@[simp] theorem setHwClaim_groups (n : Nat) (c : Claim) : (s.setHwClaim n c).groups = s.groups := rfl
@[simp] theorem setHwClaim_ports (n : Nat) (c : Claim) : (s.setHwClaim n c).ports = s.ports := rfl
@[simp] theorem setHwClaim_rails (n : Nat) (c : Claim) : (s.setHwClaim n c).rails = s.rails := rfl
@[simp] theorem setHwClaim_engs (n : Nat) (c : Claim) : (s.setHwClaim n c).engs = s.engs := rfl
@[simp] theorem setHwClaim_progs (n : Nat) (c : Claim) : (s.setHwClaim n c).progs = s.progs := rfl
@[simp] theorem setHwClaim_pmap (n : Nat) (c : Claim) : (s.setHwClaim n c).pmap = s.pmap := rfl
@[simp] theorem setHwClaim_sigs (n : Nat) (c : Claim) : (s.setHwClaim n c).sigs = s.sigs := rfl
@[simp] theorem setHwClaim_pat (n : Nat) (c : Claim) : (s.setHwClaim n c).pat = s.pat := rfl
@[simp] theorem setHwClaim_flt (n : Nat) (c : Claim) : (s.setHwClaim n c).flt = s.flt := rfl
@[simp] theorem setHwClaim_sup (n : Nat) (c : Claim) : (s.setHwClaim n c).sup = s.sup := rfl
@[simp] theorem setHwClaim_pins (n : Nat) (c : Claim) : (s.setHwClaim n c).pins = s.pins := rfl
@[simp] theorem setHwClaim_links (n : Nat) (c : Claim) : (s.setHwClaim n c).links = s.links := rfl
@[simp] theorem setHwClaim_lx (n : Nat) (c : Claim) : (s.setHwClaim n c).lx = s.lx := rfl
@[simp] theorem setHwClaim_boot (n : Nat) (c : Claim) : (s.setHwClaim n c).boot = s.boot := rfl
@[simp] theorem setHwClaim_chg (n : Nat) (c : Claim) : (s.setHwClaim n c).chg = s.chg := rfl
@[simp] theorem setHwClaim_thm (n : Nat) (c : Claim) : (s.setHwClaim n c).thm = s.thm := rfl
@[simp] theorem setHwClaim_chk (n : Nat) (c : Claim) : (s.setHwClaim n c).chk = s.chk := rfl
@[simp] theorem setHwClaim_otp (n : Nat) (c : Claim) : (s.setHwClaim n c).otp = s.otp := rfl
@[simp] theorem setHwClaim_wds (n : Nat) (c : Claim) : (s.setHwClaim n c).wds = s.wds := rfl
@[simp] theorem setHwClaim_wdStart (n : Nat) (c : Claim) : (s.setHwClaim n c).wdStart = s.wdStart := rfl
@[simp] theorem setHwClaim_hosts (n : Nat) (c : Claim) : (s.setHwClaim n c).hosts = s.hosts := rfl
@[simp] theorem setHwClaim_intc (n : Nat) (c : Claim) : (s.setHwClaim n c).intc = s.intc := rfl
@[simp] theorem setHwClaim_tap (n : Nat) (c : Claim) : (s.setHwClaim n c).tap = s.tap := rfl
@[simp] theorem setHwClaim_pending (n : Nat) (c : Claim) : (s.setHwClaim n c).pending = s.pending := rfl

/-! ## `setChildClaim` changes `bud` alone -/

@[simp] theorem setChildClaim_part (n : Nat) (c : Claim) : (s.setChildClaim n c).part = s.part := rfl
@[simp] theorem setChildClaim_regs (n : Nat) (c : Claim) : (s.setChildClaim n c).regs = s.regs := rfl
@[simp] theorem setChildClaim_pairs (n : Nat) (c : Claim) : (s.setChildClaim n c).pairs = s.pairs := rfl
@[simp] theorem setChildClaim_mem (n : Nat) (c : Claim) : (s.setChildClaim n c).mem = s.mem := rfl
@[simp] theorem setChildClaim_lines (n : Nat) (c : Claim) : (s.setChildClaim n c).lines = s.lines := rfl
@[simp] theorem setChildClaim_tbase (n : Nat) (c : Claim) : (s.setChildClaim n c).tbase = s.tbase := rfl
@[simp] theorem setChildClaim_freeCtr (n : Nat) (c : Claim) : (s.setChildClaim n c).freeCtr = s.freeCtr := rfl
@[simp] theorem setChildClaim_armq (n : Nat) (c : Claim) : (s.setChildClaim n c).armq = s.armq := rfl
@[simp] theorem setChildClaim_armSeq (n : Nat) (c : Claim) : (s.setChildClaim n c).armSeq = s.armSeq := rfl
@[simp] theorem setChildClaim_mode (n : Nat) (c : Claim) : (s.setChildClaim n c).mode = s.mode := rfl
@[simp] theorem setChildClaim_groups (n : Nat) (c : Claim) : (s.setChildClaim n c).groups = s.groups := rfl
@[simp] theorem setChildClaim_ports (n : Nat) (c : Claim) : (s.setChildClaim n c).ports = s.ports := rfl
@[simp] theorem setChildClaim_rails (n : Nat) (c : Claim) : (s.setChildClaim n c).rails = s.rails := rfl
@[simp] theorem setChildClaim_engs (n : Nat) (c : Claim) : (s.setChildClaim n c).engs = s.engs := rfl
@[simp] theorem setChildClaim_progs (n : Nat) (c : Claim) : (s.setChildClaim n c).progs = s.progs := rfl
@[simp] theorem setChildClaim_pmap (n : Nat) (c : Claim) : (s.setChildClaim n c).pmap = s.pmap := rfl
@[simp] theorem setChildClaim_sigs (n : Nat) (c : Claim) : (s.setChildClaim n c).sigs = s.sigs := rfl
@[simp] theorem setChildClaim_pat (n : Nat) (c : Claim) : (s.setChildClaim n c).pat = s.pat := rfl
@[simp] theorem setChildClaim_flt (n : Nat) (c : Claim) : (s.setChildClaim n c).flt = s.flt := rfl
@[simp] theorem setChildClaim_sup (n : Nat) (c : Claim) : (s.setChildClaim n c).sup = s.sup := rfl
@[simp] theorem setChildClaim_pins (n : Nat) (c : Claim) : (s.setChildClaim n c).pins = s.pins := rfl
@[simp] theorem setChildClaim_links (n : Nat) (c : Claim) : (s.setChildClaim n c).links = s.links := rfl
@[simp] theorem setChildClaim_lx (n : Nat) (c : Claim) : (s.setChildClaim n c).lx = s.lx := rfl
@[simp] theorem setChildClaim_boot (n : Nat) (c : Claim) : (s.setChildClaim n c).boot = s.boot := rfl
@[simp] theorem setChildClaim_chg (n : Nat) (c : Claim) : (s.setChildClaim n c).chg = s.chg := rfl
@[simp] theorem setChildClaim_thm (n : Nat) (c : Claim) : (s.setChildClaim n c).thm = s.thm := rfl
@[simp] theorem setChildClaim_chk (n : Nat) (c : Claim) : (s.setChildClaim n c).chk = s.chk := rfl
@[simp] theorem setChildClaim_otp (n : Nat) (c : Claim) : (s.setChildClaim n c).otp = s.otp := rfl
@[simp] theorem setChildClaim_wds (n : Nat) (c : Claim) : (s.setChildClaim n c).wds = s.wds := rfl
@[simp] theorem setChildClaim_wdStart (n : Nat) (c : Claim) : (s.setChildClaim n c).wdStart = s.wdStart := rfl
@[simp] theorem setChildClaim_hosts (n : Nat) (c : Claim) : (s.setChildClaim n c).hosts = s.hosts := rfl
@[simp] theorem setChildClaim_intc (n : Nat) (c : Claim) : (s.setChildClaim n c).intc = s.intc := rfl
@[simp] theorem setChildClaim_tap (n : Nat) (c : Claim) : (s.setChildClaim n c).tap = s.tap := rfl
@[simp] theorem setChildClaim_pending (n : Nat) (c : Claim) : (s.setChildClaim n c).pending = s.pending := rfl

/-! ## `postFault` changes `flt` alone -/

@[simp] theorem postFault_part (a b c : Nat) (w : Word) : (s.postFault a b c w).part = s.part := rfl
@[simp] theorem postFault_regs (a b c : Nat) (w : Word) : (s.postFault a b c w).regs = s.regs := rfl
@[simp] theorem postFault_pairs (a b c : Nat) (w : Word) : (s.postFault a b c w).pairs = s.pairs := rfl
@[simp] theorem postFault_mem (a b c : Nat) (w : Word) : (s.postFault a b c w).mem = s.mem := rfl
@[simp] theorem postFault_lines (a b c : Nat) (w : Word) : (s.postFault a b c w).lines = s.lines := rfl
@[simp] theorem postFault_tbase (a b c : Nat) (w : Word) : (s.postFault a b c w).tbase = s.tbase := rfl
@[simp] theorem postFault_freeCtr (a b c : Nat) (w : Word) : (s.postFault a b c w).freeCtr = s.freeCtr := rfl
@[simp] theorem postFault_armq (a b c : Nat) (w : Word) : (s.postFault a b c w).armq = s.armq := rfl
@[simp] theorem postFault_armSeq (a b c : Nat) (w : Word) : (s.postFault a b c w).armSeq = s.armSeq := rfl
@[simp] theorem postFault_mode (a b c : Nat) (w : Word) : (s.postFault a b c w).mode = s.mode := rfl
@[simp] theorem postFault_bud (a b c : Nat) (w : Word) : (s.postFault a b c w).bud = s.bud := rfl
@[simp] theorem postFault_groups (a b c : Nat) (w : Word) : (s.postFault a b c w).groups = s.groups := rfl
@[simp] theorem postFault_ports (a b c : Nat) (w : Word) : (s.postFault a b c w).ports = s.ports := rfl
@[simp] theorem postFault_rails (a b c : Nat) (w : Word) : (s.postFault a b c w).rails = s.rails := rfl
@[simp] theorem postFault_engs (a b c : Nat) (w : Word) : (s.postFault a b c w).engs = s.engs := rfl
@[simp] theorem postFault_progs (a b c : Nat) (w : Word) : (s.postFault a b c w).progs = s.progs := rfl
@[simp] theorem postFault_pmap (a b c : Nat) (w : Word) : (s.postFault a b c w).pmap = s.pmap := rfl
@[simp] theorem postFault_sigs (a b c : Nat) (w : Word) : (s.postFault a b c w).sigs = s.sigs := rfl
@[simp] theorem postFault_pat (a b c : Nat) (w : Word) : (s.postFault a b c w).pat = s.pat := rfl
@[simp] theorem postFault_sup (a b c : Nat) (w : Word) : (s.postFault a b c w).sup = s.sup := rfl
@[simp] theorem postFault_pins (a b c : Nat) (w : Word) : (s.postFault a b c w).pins = s.pins := rfl
@[simp] theorem postFault_links (a b c : Nat) (w : Word) : (s.postFault a b c w).links = s.links := rfl
@[simp] theorem postFault_lx (a b c : Nat) (w : Word) : (s.postFault a b c w).lx = s.lx := rfl
@[simp] theorem postFault_boot (a b c : Nat) (w : Word) : (s.postFault a b c w).boot = s.boot := rfl
@[simp] theorem postFault_chg (a b c : Nat) (w : Word) : (s.postFault a b c w).chg = s.chg := rfl
@[simp] theorem postFault_thm (a b c : Nat) (w : Word) : (s.postFault a b c w).thm = s.thm := rfl
@[simp] theorem postFault_chk (a b c : Nat) (w : Word) : (s.postFault a b c w).chk = s.chk := rfl
@[simp] theorem postFault_otp (a b c : Nat) (w : Word) : (s.postFault a b c w).otp = s.otp := rfl
@[simp] theorem postFault_wds (a b c : Nat) (w : Word) : (s.postFault a b c w).wds = s.wds := rfl
@[simp] theorem postFault_wdStart (a b c : Nat) (w : Word) : (s.postFault a b c w).wdStart = s.wdStart := rfl
@[simp] theorem postFault_hosts (a b c : Nat) (w : Word) : (s.postFault a b c w).hosts = s.hosts := rfl
@[simp] theorem postFault_intc (a b c : Nat) (w : Word) : (s.postFault a b c w).intc = s.intc := rfl
@[simp] theorem postFault_tap (a b c : Nat) (w : Word) : (s.postFault a b c w).tap = s.tap := rfl
@[simp] theorem postFault_pending (a b c : Nat) (w : Word) : (s.postFault a b c w).pending = s.pending := rfl

/-! ## `postMode` changes `mode` alone -/

@[simp] theorem postMode_part (r : ModeReq) : (s.postMode r).part = s.part := rfl
@[simp] theorem postMode_regs (r : ModeReq) : (s.postMode r).regs = s.regs := rfl
@[simp] theorem postMode_pairs (r : ModeReq) : (s.postMode r).pairs = s.pairs := rfl
@[simp] theorem postMode_mem (r : ModeReq) : (s.postMode r).mem = s.mem := rfl
@[simp] theorem postMode_lines (r : ModeReq) : (s.postMode r).lines = s.lines := rfl
@[simp] theorem postMode_tbase (r : ModeReq) : (s.postMode r).tbase = s.tbase := rfl
@[simp] theorem postMode_freeCtr (r : ModeReq) : (s.postMode r).freeCtr = s.freeCtr := rfl
@[simp] theorem postMode_armq (r : ModeReq) : (s.postMode r).armq = s.armq := rfl
@[simp] theorem postMode_armSeq (r : ModeReq) : (s.postMode r).armSeq = s.armSeq := rfl
@[simp] theorem postMode_bud (r : ModeReq) : (s.postMode r).bud = s.bud := rfl
@[simp] theorem postMode_groups (r : ModeReq) : (s.postMode r).groups = s.groups := rfl
@[simp] theorem postMode_ports (r : ModeReq) : (s.postMode r).ports = s.ports := rfl
@[simp] theorem postMode_rails (r : ModeReq) : (s.postMode r).rails = s.rails := rfl
@[simp] theorem postMode_engs (r : ModeReq) : (s.postMode r).engs = s.engs := rfl
@[simp] theorem postMode_progs (r : ModeReq) : (s.postMode r).progs = s.progs := rfl
@[simp] theorem postMode_pmap (r : ModeReq) : (s.postMode r).pmap = s.pmap := rfl
@[simp] theorem postMode_sigs (r : ModeReq) : (s.postMode r).sigs = s.sigs := rfl
@[simp] theorem postMode_pat (r : ModeReq) : (s.postMode r).pat = s.pat := rfl
@[simp] theorem postMode_flt (r : ModeReq) : (s.postMode r).flt = s.flt := rfl
@[simp] theorem postMode_sup (r : ModeReq) : (s.postMode r).sup = s.sup := rfl
@[simp] theorem postMode_pins (r : ModeReq) : (s.postMode r).pins = s.pins := rfl
@[simp] theorem postMode_links (r : ModeReq) : (s.postMode r).links = s.links := rfl
@[simp] theorem postMode_lx (r : ModeReq) : (s.postMode r).lx = s.lx := rfl
@[simp] theorem postMode_boot (r : ModeReq) : (s.postMode r).boot = s.boot := rfl
@[simp] theorem postMode_chg (r : ModeReq) : (s.postMode r).chg = s.chg := rfl
@[simp] theorem postMode_thm (r : ModeReq) : (s.postMode r).thm = s.thm := rfl
@[simp] theorem postMode_chk (r : ModeReq) : (s.postMode r).chk = s.chk := rfl
@[simp] theorem postMode_otp (r : ModeReq) : (s.postMode r).otp = s.otp := rfl
@[simp] theorem postMode_wds (r : ModeReq) : (s.postMode r).wds = s.wds := rfl
@[simp] theorem postMode_wdStart (r : ModeReq) : (s.postMode r).wdStart = s.wdStart := rfl
@[simp] theorem postMode_hosts (r : ModeReq) : (s.postMode r).hosts = s.hosts := rfl
@[simp] theorem postMode_intc (r : ModeReq) : (s.postMode r).intc = s.intc := rfl
@[simp] theorem postMode_tap (r : ModeReq) : (s.postMode r).tap = s.tap := rfl
@[simp] theorem postMode_pending (r : ModeReq) : (s.postMode r).pending = s.pending := rfl

/-! ## `postCause` changes `mode` alone -/

@[simp] theorem postCause_part (c t : Nat) : (s.postCause c t).part = s.part := rfl
@[simp] theorem postCause_regs (c t : Nat) : (s.postCause c t).regs = s.regs := rfl
@[simp] theorem postCause_pairs (c t : Nat) : (s.postCause c t).pairs = s.pairs := rfl
@[simp] theorem postCause_mem (c t : Nat) : (s.postCause c t).mem = s.mem := rfl
@[simp] theorem postCause_lines (c t : Nat) : (s.postCause c t).lines = s.lines := rfl
@[simp] theorem postCause_tbase (c t : Nat) : (s.postCause c t).tbase = s.tbase := rfl
@[simp] theorem postCause_freeCtr (c t : Nat) : (s.postCause c t).freeCtr = s.freeCtr := rfl
@[simp] theorem postCause_armq (c t : Nat) : (s.postCause c t).armq = s.armq := rfl
@[simp] theorem postCause_armSeq (c t : Nat) : (s.postCause c t).armSeq = s.armSeq := rfl
@[simp] theorem postCause_bud (c t : Nat) : (s.postCause c t).bud = s.bud := rfl
@[simp] theorem postCause_groups (c t : Nat) : (s.postCause c t).groups = s.groups := rfl
@[simp] theorem postCause_ports (c t : Nat) : (s.postCause c t).ports = s.ports := rfl
@[simp] theorem postCause_rails (c t : Nat) : (s.postCause c t).rails = s.rails := rfl
@[simp] theorem postCause_engs (c t : Nat) : (s.postCause c t).engs = s.engs := rfl
@[simp] theorem postCause_progs (c t : Nat) : (s.postCause c t).progs = s.progs := rfl
@[simp] theorem postCause_pmap (c t : Nat) : (s.postCause c t).pmap = s.pmap := rfl
@[simp] theorem postCause_sigs (c t : Nat) : (s.postCause c t).sigs = s.sigs := rfl
@[simp] theorem postCause_pat (c t : Nat) : (s.postCause c t).pat = s.pat := rfl
@[simp] theorem postCause_flt (c t : Nat) : (s.postCause c t).flt = s.flt := rfl
@[simp] theorem postCause_sup (c t : Nat) : (s.postCause c t).sup = s.sup := rfl
@[simp] theorem postCause_pins (c t : Nat) : (s.postCause c t).pins = s.pins := rfl
@[simp] theorem postCause_links (c t : Nat) : (s.postCause c t).links = s.links := rfl
@[simp] theorem postCause_lx (c t : Nat) : (s.postCause c t).lx = s.lx := rfl
@[simp] theorem postCause_boot (c t : Nat) : (s.postCause c t).boot = s.boot := rfl
@[simp] theorem postCause_chg (c t : Nat) : (s.postCause c t).chg = s.chg := rfl
@[simp] theorem postCause_thm (c t : Nat) : (s.postCause c t).thm = s.thm := rfl
@[simp] theorem postCause_chk (c t : Nat) : (s.postCause c t).chk = s.chk := rfl
@[simp] theorem postCause_otp (c t : Nat) : (s.postCause c t).otp = s.otp := rfl
@[simp] theorem postCause_wds (c t : Nat) : (s.postCause c t).wds = s.wds := rfl
@[simp] theorem postCause_wdStart (c t : Nat) : (s.postCause c t).wdStart = s.wdStart := rfl
@[simp] theorem postCause_hosts (c t : Nat) : (s.postCause c t).hosts = s.hosts := rfl
@[simp] theorem postCause_intc (c t : Nat) : (s.postCause c t).intc = s.intc := rfl
@[simp] theorem postCause_tap (c t : Nat) : (s.postCause c t).tap = s.tap := rfl
@[simp] theorem postCause_pending (c t : Nat) : (s.postCause c t).pending = s.pending := rfl

/-! ## Registers and their fields -/

theorem addr_cases (r : Reg) (n : Nat) :
    (n < r.count ∧ r.addr n = r.base + r.stride * n) ∨ (r.count ≤ n ∧ r.addr n = r.base + 0x10000 * (n + 1)) := by
  unfold Reg.addr
  split
  · exact .inl ⟨‹_›, rfl⟩
  · exact .inr ⟨by omega, rfl⟩

/-- Two registers stand at different keys when none of their forms meet. -/
theorem addr_ne_of {r r' : Reg} {n m : Nat}
    (h1 : n < r.count → m < r'.count → r.base + r.stride * n ≠ r'.base + r'.stride * m)
    (h2 : n < r.count → r'.count ≤ m → r.base + r.stride * n ≠ r'.base + 0x10000 * (m + 1))
    (h3 : r.count ≤ n → m < r'.count → r.base + 0x10000 * (n + 1) ≠ r'.base + r'.stride * m)
    (h4 : r.count ≤ n → r'.count ≤ m → r.base + 0x10000 * (n + 1) ≠ r'.base + 0x10000 * (m + 1)) : r.addr n ≠ r'.addr m := by
  rcases addr_cases r n with ⟨hn, e1⟩ | ⟨hn, e1⟩ <;> rcases addr_cases r' m with ⟨hm, e2⟩ | ⟨hm, e2⟩ <;> rw [e1, e2]
  · exact h1 hn hm
  · exact h2 hn hm
  · exact h3 hn hm
  · exact h4 hn hm

theorem reg_setReg (r r' : Reg) (w : Word) (n n' : Nat) :
    (s.setReg r w n).reg r' n' = if r.addr n = r'.addr n' then w ^^^ r.reset n ^^^ r'.reset n' else s.reg r' n' := by
  simp only [State.reg, State.setReg, cellGet_set]
  split <;> rfl

/-- A register reads back what was written. -/
@[simp] theorem reg_setReg_same (r : Reg) (w : Word) (n : Nat) : (s.setReg r w n).reg r n = w := by
  rw [reg_setReg, if_pos rfl, BitVec.xor_assoc, BitVec.xor_self, BitVec.xor_zero]

/-- A register at another key keeps its word. -/
theorem reg_setReg_ne {r r' : Reg} (w : Word) {n n' : Nat} (h : r.addr n ≠ r'.addr n') :
    (s.setReg r w n).reg r' n' = s.reg r' n' := by
  rw [reg_setReg, if_neg h]

theorem reg_setFld_same (f : Fld) (v n : Nat) :
    (s.setFld f v n).reg f.reg n = Word.setBits (s.reg f.reg n) f.hi f.lo v := reg_setReg_same s _ _ _

theorem reg_setFld_ne {f : Fld} {r' : Reg} (v : Nat) {n n' : Nat} (h : f.reg.addr n ≠ r'.addr n') :
    (s.setFld f v n).reg r' n' = s.reg r' n' := reg_setReg_ne s _ h

/-- A field reads back what was set, cut to its width. -/
theorem fld_setFld_same (f : Fld) (v n : Nat) (h : f.hi < 32) :
    (s.setFld f v n).fld f n = v % 2 ^ (f.hi + 1 - f.lo) := by
  rw [State.fld, reg_setFld_same, Word.bits_setBits_same _ _ h]

/-- A field of a register at another key keeps its value. -/
theorem fld_setFld_reg_ne {f g : Fld} (v : Nat) {n n' : Nat} (h : f.reg.addr n ≠ g.reg.addr n') :
    (s.setFld f v n).fld g n' = s.fld g n' := by
  rw [State.fld, reg_setFld_ne s v h]; rfl

/-- A field of the same word apart from the one set keeps its value. -/
theorem fld_setFld_bits_ne {f g : Fld} (v n : Nat) (hr : f.reg = g.reg) (h : g.hi < 32) (hd : f.hi < g.lo ∨ g.hi < f.lo) :
    (s.setFld f v n).fld g n = s.fld g n := by
  simp only [State.fld]
  rw [← hr, reg_setFld_same, Word.bits_setBits_ne _ _ h hd]

theorem fld_setReg_ne {r : Reg} {g : Fld} (w : Word) {n n' : Nat} (h : r.addr n ≠ g.reg.addr n') :
    (s.setReg r w n).fld g n' = s.fld g n' := by
  rw [State.fld, reg_setReg_ne s w h]; rfl

/-- A field reads alike where its register does. -/
theorem fld_of_reg {s t : State} {f : Fld} {n : Nat} (h : t.reg f.reg n = s.reg f.reg n) : t.fld f n = s.fld f n := by
  unfold State.fld; rw [h]

/-- A mask bit reads back what was set. -/
theorem fbit_setFbit_same (f : Fld) (k : Nat) (b : Bool) (n : Nat) (h : f.hi < 32) (hk : k < f.hi + 1 - f.lo) :
    (s.setFbit f k b n).fbit f k n = b := by
  unfold State.setFbit
  rw [State.fbit, fld_setFld_same _ _ _ _ h, Nat.testBit_mod_two_pow]
  simp only [hk, decide_true, Bool.true_and]
  cases b
  · cases hb : s.fbit f k n
    · simpa [State.fbit] using hb
    · have ht : (s.fld f n).testBit k = true := hb
      rw [Nat.testBit_eq_decide_div_mod_eq] at ht
      simp only [decide_eq_true_eq] at ht
      have hd := Nat.sub_mul_div (s.fld f n) (2 ^ k) 1
      rw [Nat.mul_one] at hd
      simp only [Bool.false_eq_true, if_false, if_true]
      rw [Nat.shiftLeft_eq, Nat.one_mul, Nat.testBit_eq_decide_div_mod_eq, hd]
      have : (s.fld f n / 2 ^ k - 1) % 2 ≠ 1 := by omega
      simp only [this, decide_false]
  · simp only [if_true, Nat.testBit_or, Nat.shiftLeft_eq, Nat.one_mul, Nat.testBit_two_pow_self, Bool.or_true]

/-- The assertion waits for FLT behind those before it. -/
theorem postFault_due (a b c : Nat) (w : Word) : (s.postFault a b c w).flt.due = s.flt.due ++ [⟨a, b, c, w⟩] := rfl

theorem setFlag_eq (f : Fld) (b : Bool) (n : Nat) : s.setFlag f b n = s.setFld f b.toNat n := rfl
theorem event_eq (f : Fld) (n : Nat) : s.event f n = s.setFld f 1 n := rfl

/-- Reads that only depend on the registers agree where the registers agree. -/
theorem reg_congr {s t : State} (h : s.regs = t.regs) (r : Reg) (n : Nat) : s.reg r n = t.reg r n := by
  unfold State.reg; rw [h]
theorem fld_congr {s t : State} (h : s.regs = t.regs) (f : Fld) (n : Nat) : s.fld f n = t.fld f n := by
  unfold State.fld; rw [reg_congr h]
theorem flag_congr {s t : State} (h : s.regs = t.regs) (f : Fld) (n : Nat) : s.flag f n = t.flag f n := by
  unfold State.flag; rw [fld_congr h]

/-! ## RAM bytes -/

theorem byte_setByte (a b : Nat) (v : Byte) : (s.setByte a v).byte b = if a = b then v else s.byte b := by
  simp only [State.byte, State.setByte, cellGet_set]

/-- Bytes outside those written keep their values. -/
theorem byte_setBytes_out (l : List Byte) (a b : Nat) (h : b < a ∨ a + l.length ≤ b) : (s.setBytes a l).byte b = s.byte b := by
  induction l generalizing s a with
  | nil => rfl
  | cons v t ih =>
    simp only [List.length_cons] at h
    simp only [State.setBytes]
    rw [ih _ _ (by omega), byte_setByte, if_neg (by omega)]

theorem byte_setBytes_in (l : List Byte) (a i : Nat) (h : i < l.length) : (s.setBytes a l).byte (a + i) = l[i] := by
  induction l generalizing s a i with
  | nil => simp at h
  | cons v t ih =>
    simp only [State.setBytes]
    cases i with
    | zero => rw [byte_setBytes_out _ _ _ _ (by omega), byte_setByte]; simp
    | succ j =>
      have := ih (s.setByte a v) (a + 1) j (by simpa using h)
      rw [show a + (j + 1) = a + 1 + j by omega, this]; rfl

/-- A RAM word reads back what was written. -/
theorem word_setWord_same (base i : Nat) (w : Word) : (s.setWord base i w).word base i = w := by
  have h : ∀ k (hk : k < (wordBytes w).length), (s.setWord base i w).byte (base + 4 * i + k) = (wordBytes w)[k] :=
    fun k hk => byte_setBytes_in s _ _ k hk
  have hl : (wordBytes w).length = 4 := rfl
  have h0 := h 0 (by omega); have h1 := h 1 (by omega); have h2 := h 2 (by omega); have h3 := h 3 (by omega)
  simp only [State.word]
  rw [Nat.add_zero] at h0
  rw [h0, h1, h2, h3]
  apply BitVec.eq_of_toNat_eq
  have hw := w.isLt
  simp only [wordBytes, List.getElem_cons_zero, List.getElem_cons_succ, BitVec.toNat_ofNat, Nat.shiftRight_eq_div_pow]
  omega

/-- A RAM word at another index, or of a RAM apart, keeps its value. -/
theorem word_setWord_ne {base i base' i' : Nat} (w : Word) (h : base' + 4 * i' + 4 ≤ base + 4 * i ∨ base + 4 * i + 4 ≤ base' + 4 * i') :
    (s.setWord base i w).word base' i' = s.word base' i' := by
  have hb : ∀ b, b < base + 4 * i ∨ base + 4 * i + 4 ≤ b → (s.setWord base i w).byte b = s.byte b :=
    fun b hb => byte_setBytes_out s _ _ _ hb
  simp only [State.word]
  rw [hb _ (by omega), hb _ (by omega), hb _ (by omega), hb _ (by omega)]

/-! ## The canonical form of the memory -/

theorem setByte_wf (a : Nat) (b : Byte) (h : Memory.wf s.mem) : Memory.wf (s.setByte a b).mem := cellWf_set _ _ _ h

theorem setBytes_wf (l : List Byte) (a : Nat) (h : Memory.wf s.mem) : Memory.wf (s.setBytes a l).mem := by
  induction l generalizing s a with
  | nil => exact h
  | cons v t ih => exact ih _ _ (setByte_wf s a v h)

theorem setWord_wf (base i : Nat) (w : Word) (h : Memory.wf s.mem) : Memory.wf (s.setWord base i w).mem := setBytes_wf _ _ _ h

theorem setWords_wf (l : List Word) (base i : Nat) (h : Memory.wf s.mem) : Memory.wf (s.setWords base i l).mem := by
  induction l generalizing s i with
  | nil => exact h
  | cons v t ih => exact ih _ _ (setWord_wf s base i v h)

theorem zeroBytes_wf (a k : Nat) (h : Memory.wf s.mem) : Memory.wf (s.zeroBytes a k).mem :=
  cellWf_keep _ (fun x => decide (x < a) || decide (a + k ≤ x)) h

theorem cellWfFrom_append {α : Type} [DecidableEq α] (d : α) {lo b : Nat} {m m' : List (Nat × α)} (hb : lo ≤ b)
    (hk : ∀ kv ∈ m, kv.1 < b) (hm : cellWfFrom d lo m = true) (hm' : cellWfFrom d b m' = true) :
    cellWfFrom d lo (m ++ m') = true := by
  induction m generalizing lo with
  | nil => exact cellWfFrom_mono d hb hm'
  | cons kv t ih =>
    obtain ⟨k, v⟩ := kv
    have := hk (k, v) (by simp)
    simp only [List.cons_append, cellWfFrom, Bool.and_eq_true, decide_eq_true_eq] at hm ⊢
    exact ⟨hm.1, ih (by simpa using this) (fun x hx => hk x (by simp [hx])) hm.2⟩

theorem cellWfFrom_above {α : Type} [DecidableEq α] (d : α) {lo b : Nat} {m : List (Nat × α)}
    (hm : cellWfFrom d lo m = true) : cellWfFrom d b (m.filter (fun c => decide (b ≤ c.1))) = true := by
  induction m generalizing lo with
  | nil => rfl
  | cons kv t ih =>
    obtain ⟨k, v⟩ := kv
    simp only [cellWfFrom, Bool.and_eq_true, decide_eq_true_eq] at hm
    rw [List.filter_cons]
    split
    · rename_i hk
      simp only [cellWfFrom, Bool.and_eq_true, decide_eq_true_eq]
      refine ⟨⟨by simpa using hk, hm.1.2⟩, ?_⟩
      have := cellWfFrom_keep d (fun x => decide (b ≤ x)) hm.2
      simpa [cellKeep] using this
    · exact ih hm.2

theorem cellWfFrom_zipIdx (l : List Byte) (a : Nat) :
    cellWfFrom memDefault a (((l.zipIdx a).map (fun x => (x.2, x.1))).filter (fun c => c.2 != memDefault)) = true := by
  induction l generalizing a with
  | nil => rfl
  | cons v t ih =>
    simp only [List.zipIdx_cons, List.map_cons, List.filter_cons]
    split
    · rename_i hv
      simp only [cellWfFrom, Bool.and_eq_true, decide_eq_true_eq]
      exact ⟨⟨Nat.le_refl a, by simpa using hv⟩, ih (a + 1)⟩
    · exact cellWfFrom_mono _ (Nat.le_succ a) (ih (a + 1))

theorem fillBytes_wf (a k : Nat) (l : List Byte) (h : Memory.wf s.mem) : Memory.wf (s.fillBytes a k l).mem := by
  have h1 : cellWfFrom memDefault 0 (s.mem.filter (fun c => decide (c.1 < a))) = true := by
    have := cellWfFrom_keep memDefault (fun x => decide (x < a)) h
    simpa [cellKeep] using this
  have h3 : cellWfFrom memDefault (a + k) (s.mem.filter (fun c => decide (a + k ≤ c.1))) = true := cellWfFrom_above memDefault h
  show cellWfFrom memDefault 0 _ = true
  simp only [State.fillBytes, List.append_assoc]
  refine cellWfFrom_append memDefault (Nat.zero_le a) ?_ h1 ?_
  · intro kv hkv; simpa using (List.mem_filter.mp hkv).2
  · refine cellWfFrom_append memDefault (Nat.le_add_right a k) ?_ (cellWfFrom_zipIdx (l.take k) a) h3
    intro kv hkv
    have hm := (List.mem_filter.mp hkv).1
    obtain ⟨x, hx, rfl⟩ := List.mem_map.mp hm
    have hlt := List.snd_lt_of_mem_zipIdx (x := x) hx
    simp only [List.length_take] at hlt
    show x.2 < a + k
    omega

theorem reset_wf : Memory.wf State.reset.mem := by decide

/-- `setBytes`, `setWord` and `setWords` change the memory alone. -/
theorem setBytes_frame (l : List Byte) (a : Nat) : s.setBytes a l = { s with mem := (s.setBytes a l).mem } := by
  induction l generalizing s a with
  | nil => rfl
  | cons v t ih => simp only [State.setBytes]; rw [ih]; rfl

theorem setWord_frame (base i : Nat) (w : Word) : s.setWord base i w = { s with mem := (s.setWord base i w).mem } :=
  setBytes_frame s _ _

end Sys2Proof.Machine
end

