-- ==== Sys2Proof/Laws/Engine.lean ====
section
/-! SUPPORT. The laws of the engines: how an instruction runs, what retiring changes, and the data instructions' writes. -/
namespace Sys2Proof.Machine

variable {s t : State} {e d k : Nat}

/-- A line that reads without damage changes nothing. -/
theorem readLine_clean {ram i : Nat} (h : ReadsClean s ram i) : s.readLine ram i = (s, true) := by
  obtain ⟨hd, h1, h2⟩ := h
  have hi : s.injectLine ram i = s := by simp only [State.injectLine, State.injectItem, h1, h2]
  unfold State.readLine
  simp only [hi, State.decodeLine, hd, State.injectTake, h1, h2, reduceCtorEq, if_false]

/-- The fetch of lines that read without damage changes nothing. -/
theorem fetchRead_clean {pc : Nat} (h : ∀ i ∈ fetchLines pc k, ReadsClean s 0 i) : fetchRead s pc k = s := by
  unfold fetchRead
  revert h
  generalize fetchLines pc k = l
  intro h
  induction l with
  | nil => rfl
  | cons i l ih =>
    rw [List.foldl_cons, readLine_clean (h i (List.mem_cons_self ..))]
    exact ih (fun j hj => h j (List.mem_cons_of_mem _ hj))

/-- The first word's line is among those that a fetch reads. -/
theorem mem_fetchLines (pc k : Nat) : pc / 8 ∈ fetchLines pc k := by
  unfold fetchLines
  split <;> simp

theorem engRun_eq (h : Executes s e k) (body : State → Nat → Retire) :
    engRun s e k body = (body s (s.fld ENG_PC_PC e)).apply s e (s.fld ENG_PC_PC e) := by
  unfold engRun
  rw [if_pos h.1]
  simp only [h.2.1, fetchRead_clean h.2.2, (h.2.2 _ (mem_fetchLines _ k)).1, reduceCtorEq, if_false]

theorem engSimple_eq (h : Executes s e k) (f : State → State) : engSimple s e k f = retire (f s) e (s.fld ENG_PC_PC e + k) :=
  engRun_eq h _

/-- Nothing of an engine that does not execute changes. -/
theorem engRun_idle (h : engReady s e = false) (body : State → Nat → Retire) : engRun s e k body = s := by
  unfold engRun; rw [if_neg (by simp [h])]

/-! ## Keys of the engines' registers -/

theorem engAddr_stat {n m : Nat} : ENG_PC.addr n ≠ ENG_STAT.addr m := by
  apply addr_ne_of <;> simp only [ENG_PC, ENG_STAT] <;> intros <;> omega
theorem engAddr_pc_retired {n m : Nat} : ENG_PC.addr n ≠ ENG_RETIRED.addr m := by
  apply addr_ne_of <;> simp only [ENG_PC, ENG_RETIRED] <;> intros <;> omega
theorem engAddr_retired_stat {n m : Nat} : ENG_RETIRED.addr n ≠ ENG_STAT.addr m := by
  apply addr_ne_of <;> simp only [ENG_RETIRED, ENG_STAT] <;> intros <;> omega
theorem engAddr_flags_pc {n m : Nat} : ENG_FLAGS.addr n ≠ ENG_PC.addr m := by
  apply addr_ne_of <;> simp only [ENG_FLAGS, ENG_PC] <;> intros <;> omega
theorem engAddr_flags_retired {n m : Nat} : ENG_FLAGS.addr n ≠ ENG_RETIRED.addr m := by
  apply addr_ne_of <;> simp only [ENG_FLAGS, ENG_RETIRED] <;> intros <;> omega
theorem engAddr_flags_stat {n m : Nat} : ENG_FLAGS.addr n ≠ ENG_STAT.addr m := by
  apply addr_ne_of <;> simp only [ENG_FLAGS, ENG_STAT] <;> intros <;> omega
theorem engAddr_g_pc {n m : Nat} : ENG_G.addr n ≠ ENG_PC.addr m := by
  apply addr_ne_of <;> simp only [ENG_G, ENG_PC] <;> intros <;> omega
theorem engAddr_g_retired {n m : Nat} : ENG_G.addr n ≠ ENG_RETIRED.addr m := by
  apply addr_ne_of <;> simp only [ENG_G, ENG_RETIRED] <;> intros <;> omega
theorem engAddr_g_stat {n m : Nat} : ENG_G.addr n ≠ ENG_STAT.addr m := by
  apply addr_ne_of <;> simp only [ENG_G, ENG_STAT] <;> intros <;> omega
theorem engAddr_g_flags {n m : Nat} : ENG_G.addr n ≠ ENG_FLAGS.addr m := by
  apply addr_ne_of <;> simp only [ENG_G, ENG_FLAGS] <;> intros <;> omega

/-! ## Reads of an update at a key -/

theorem key_setReg_ne (s : State) (r : Reg) (w : Word) (n : Nat) {k : Nat} (h : k ≠ r.addr n) :
    cellGet 0 (s.setReg r w n).regs k = cellGet 0 s.regs k := by
  simp only [State.setReg, cellGet_set]; rw [if_neg (Ne.symm h)]

theorem key_setFld_ne (s : State) (f : Fld) (v n : Nat) {k : Nat} (h : k ≠ f.reg.addr n) :
    cellGet 0 (s.setFld f v n).regs k = cellGet 0 s.regs k := key_setReg_ne s _ _ _ h

theorem SameRegs.refl (s : State) (l : List Nat) : SameRegs s s l := fun _ _ => rfl

theorem SameRegs.trans {a b c : State} {l : List Nat} (h1 : SameRegs a b l) (h2 : SameRegs b c l) : SameRegs a c l :=
  fun k hk => (h2 k hk).trans (h1 k hk)

theorem SameRegs.mono {a b : State} {l l' : List Nat} (h : ∀ x ∈ l, x ∈ l') (h1 : SameRegs a b l) : SameRegs a b l' :=
  fun k hk => h1 k (fun hx => hk (h k hx))

theorem SameRegs.setReg (s : State) (r : Reg) (w : Word) (n : Nat) : SameRegs s (s.setReg r w n) [r.addr n] :=
  fun _ hk => key_setReg_ne s r w n (by simpa using hk)

theorem SameRegs.setFld (s : State) (f : Fld) (v n : Nat) : SameRegs s (s.setFld f v n) [f.reg.addr n] := SameRegs.setReg s _ _ _

theorem SameRegs.reg {a b : State} {l : List Nat} (h : SameRegs a b l) {r : Reg} {n : Nat} (hk : r.addr n ∉ l) :
    b.reg r n = a.reg r n := by
  unfold State.reg; rw [h _ hk]

theorem SameRegs.fld {a b : State} {l : List Nat} (h : SameRegs a b l) {f : Fld} {n : Nat} (hk : f.reg.addr n ∉ l) :
    b.fld f n = a.fld f n := by
  unfold State.fld; rw [h.reg hk]

theorem RegsOnly.refl (s : State) (l : List Nat) : RegsOnly s s l := ⟨rfl, SameRegs.refl s l⟩

/-- A field set after changes of the words listed, in a word of the list. -/
theorem RegsOnly.setFld {a b : State} {l : List Nat} (h : RegsOnly a b l) {f : Fld} (v : Nat) {n : Nat} (hk : f.reg.addr n ∈ l) :
    RegsOnly a (b.setFld f v n) l := by
  refine ⟨?_, SameRegs.trans h.2 ((SameRegs.setFld b f v n).mono (by simpa using hk))⟩
  conv => lhs; unfold State.setFld State.setReg; rw [h.1]
  rfl

theorem RegsOnly.setReg {a b : State} {l : List Nat} (h : RegsOnly a b l) {r : Reg} (w : Word) {n : Nat} (hk : r.addr n ∈ l) :
    RegsOnly a (b.setReg r w n) l := by
  refine ⟨?_, SameRegs.trans h.2 ((SameRegs.setReg b r w n).mono (by simpa using hk))⟩
  conv => lhs; unfold State.setReg; rw [h.1]
  rfl

/-! ## Retiring -/

/-- What retiring changes, and that it changes nothing else. -/
theorem retire_spec (s : State) (e next : Nat) :
    Retired s (retire s e next) e next ∧ EngineOnly s (retire s e next) e ∧ SameRegs s (retire s e next) (retireKeys s e) := by
  have hp : ∀ v, progOf (s.setFld ENG_PC_PC v e) e = progOf s e := fun v => fld_setFld_reg_ne s v engAddr_stat
  have hr : ∀ v p, (s.setFld ENG_PC_PC v e).reg ENG_RETIRED p = s.reg ENG_RETIRED p := fun v p =>
    reg_setFld_ne s v engAddr_pc_retired
  have hst : ∀ v p w, ((s.setFld ENG_PC_PC v e).setReg ENG_RETIRED w p).reg ENG_STAT e = s.reg ENG_STAT e := fun v p w => by
    rw [reg_setReg_ne _ _ engAddr_retired_stat, reg_setFld_ne s v engAddr_stat]
  have hpc : ∀ v p w, ((s.setFld ENG_PC_PC v e).setReg ENG_RETIRED w p).fld ENG_PC_PC e = v % 65536 := fun v p w => by
    rw [fld_setReg_ne _ _ (Ne.symm engAddr_pc_retired), fld_setFld_same s _ _ _ (by decide)]; rfl
  have hkeys : ∀ v w, SameRegs s ((s.setFld ENG_PC_PC v e).setReg ENG_RETIRED w (progOf s e)) (retireKeys s e) := fun v w =>
    SameRegs.trans ((SameRegs.setFld s _ _ _).mono (by simp [retireKeys, ENG_PC_PC]))
      ((SameRegs.setReg _ _ _ _).mono (by simp [retireKeys]))
  have heng : ∀ v p w, ((s.setFld ENG_PC_PC v e).setReg ENG_RETIRED w p).eng e = s.eng e := fun _ _ _ => rfl
  unfold retire
  simp only [hr, heng]
  split
  · rename_i h0
    refine ⟨⟨?_, ?_, ?_, ?_⟩, ⟨rfl, fun _ _ => rfl, ?_⟩, hkeys _ _⟩
    · rw [hpc]; omega
    · rw [reg_setReg_same]
    · rw [heng]; omega
    · rw [hst, if_neg (by omega)]
    · rw [heng, show (s.eng e).replayLeft - 1 = (s.eng e).replayLeft by omega]
  · rename_i h0
    have hother : ∀ (u : State) x (h : EngH), u.engs = s.engs → x ≠ e → (u.setEng e h).eng x = s.eng x := fun u x h hu hx => by
      simp only [State.eng, State.setEng, hu]; rw [cellGet_set_ne _ _ _ (Ne.symm hx)]
    have hsame : ∀ (u : State) (h : EngH), (u.setEng e h).eng e = h := fun u h => by
      simp only [State.eng, State.setEng, cellGet_set_same]
    split
    · rename_i h1
      refine ⟨⟨?_, ?_, ?_, ?_⟩, ⟨rfl, fun x hx => hother _ x _ rfl hx, hsame _ _⟩, ?_⟩
      · rw [setFlag_eq, fld_setFld_reg_ne _ _ (Ne.symm engAddr_stat)]
        show State.fld ((s.setFld ENG_PC_PC _ e).setReg ENG_RETIRED _ _) ENG_PC_PC e = _
        rw [hpc]; omega
      · rw [setFlag_eq, reg_setFld_ne _ _ (Ne.symm engAddr_retired_stat)]
        show State.reg ((s.setFld ENG_PC_PC _ e).setReg ENG_RETIRED _ _) ENG_RETIRED _ = _
        rw [reg_setReg_same]
      · exact congrArg EngH.replayLeft (hsame _ _)
      · rw [setFlag_eq, if_pos h1]
        show ((State.setEng ((s.setFld ENG_PC_PC _ e).setReg ENG_RETIRED _ _) e _).setFld ENG_STAT_REPLAY _ e).reg ENG_STAT_REPLAY.reg e = _
        rw [reg_setFld_same]
        show Word.setBits (State.reg ((s.setFld ENG_PC_PC _ e).setReg ENG_RETIRED _ _) ENG_STAT e) 16 16 0 = _
        rw [hst]
      · exact SameRegs.trans (hkeys _ _) ((SameRegs.setFld _ ENG_STAT_REPLAY _ e).mono (by simp [retireKeys, ENG_STAT_REPLAY]))
    · rename_i h1
      refine ⟨⟨?_, ?_, ?_, ?_⟩, ⟨rfl, fun x hx => hother _ x _ rfl hx, hsame _ _⟩, hkeys _ _⟩
      · show State.fld ((s.setFld ENG_PC_PC _ e).setReg ENG_RETIRED _ _) ENG_PC_PC e = _
        rw [hpc]; omega
      · show State.reg ((s.setFld ENG_PC_PC _ e).setReg ENG_RETIRED _ _) ENG_RETIRED _ = _
        rw [reg_setReg_same]
      · exact congrArg EngH.replayLeft (hsame _ _)
      · show State.reg ((s.setFld ENG_PC_PC _ e).setReg ENG_RETIRED _ _) ENG_STAT e = _
        rw [hst, if_neg h1]

/-- Retiring after a change of other parts of the state, and of registers that are not its own. -/
theorem retire_from {s u : State} {e next : Nat} {l : List Nat} (hl : SameRegs s u l)
    (hr : (u.eng e).replayLeft = (s.eng e).replayLeft)
    (h2 : ENG_RETIRED.addr (progOf s e) ∉ l) (h3 : ENG_STAT.addr e ∉ l) :
    Retired s (retire u e next) e next ∧ SameRegs s (retire u e next) (l ++ retireKeys s e)
      ∧ (∀ r n, r.addr n ∉ retireKeys s e → (retire u e next).reg r n = u.reg r n)
      ∧ retire u e next = { u with regs := (retire u e next).regs, engs := (retire u e next).engs }
      ∧ (retire u e next).eng e = { u.eng e with replayLeft := (u.eng e).replayLeft - 1 } := by
  have hst : u.reg ENG_STAT e = s.reg ENG_STAT e := hl.reg h3
  have hp : progOf u e = progOf s e := hl.fld (f := ENG_STAT_PROG) h3
  have hret : u.reg ENG_RETIRED (progOf s e) = s.reg ENG_RETIRED (progOf s e) := hl.reg h2
  obtain ⟨⟨a, b, c, d⟩, ⟨f, _, h⟩, k⟩ := retire_spec u e next
  have hkeys : retireKeys u e = retireKeys s e := by unfold retireKeys; rw [hp]
  rw [hkeys] at k
  refine ⟨⟨a, ?_, ?_, ?_⟩, ?_, fun r n hn => k.reg hn, f, h⟩
  · rw [hp] at b; rw [b, hret]
  · rw [c, hr]
  · rw [d, hr, hst]
  · exact SameRegs.trans (hl.mono (by simp; exact fun x hx => Or.inl hx)) (k.mono (by simp; exact fun x hx => Or.inr hx))

theorem retire_pc (s : State) (e next : Nat) : (retire s e next).fld ENG_PC_PC e = next % 65536 := (retire_spec s e next).1.1
@[simp] theorem retire_mem (s : State) (e next : Nat) : (retire s e next).mem = s.mem := by rw [(retire_spec s e next).2.1.1]
@[simp] theorem retire_armq (s : State) (e next : Nat) : (retire s e next).armq = s.armq := by rw [(retire_spec s e next).2.1.1]
@[simp] theorem retire_rails (s : State) (e next : Nat) : (retire s e next).rails = s.rails := by rw [(retire_spec s e next).2.1.1]
@[simp] theorem retire_progs (s : State) (e next : Nat) : (retire s e next).progs = s.progs := by rw [(retire_spec s e next).2.1.1]
@[simp] theorem retire_bud (s : State) (e next : Nat) : (retire s e next).bud = s.bud := by rw [(retire_spec s e next).2.1.1]
@[simp] theorem retire_sigs (s : State) (e next : Nat) : (retire s e next).sigs = s.sigs := by rw [(retire_spec s e next).2.1.1]
@[simp] theorem retire_flt (s : State) (e next : Nat) : (retire s e next).flt = s.flt := by rw [(retire_spec s e next).2.1.1]
@[simp] theorem retire_mode (s : State) (e next : Nat) : (retire s e next).mode = s.mode := by rw [(retire_spec s e next).2.1.1]
@[simp] theorem retire_pat (s : State) (e next : Nat) : (retire s e next).pat = s.pat := by rw [(retire_spec s e next).2.1.1]

/-- Retiring leaves the engine's state. -/
theorem retire_state (s : State) (e next : Nat) : (retire s e next).fld ENG_STAT_STATE e = s.fld ENG_STAT_STATE e := by
  show Word.bits (State.reg _ ENG_STAT e) 3 0 = Word.bits (State.reg _ ENG_STAT e) 3 0
  rw [(retire_spec s e next).1.2.2.2]
  split
  · rw [Word.bits_setBits_ne _ _ (by decide) (by decide)]
  · rfl

/-- The keys written where an instruction changes registers, the engine's state among them, and retires. -/
theorem retire_keys {s u : State} {e next : Nat} {l : List Nat} (hl : SameRegs s u l) (hp : progOf u e = progOf s e) :
    SameRegs s (retire u e next) (l ++ retireKeys s e) := by
  have k := (retire_spec u e next).2.2
  rw [show retireKeys u e = retireKeys s e by unfold retireKeys; rw [hp]] at k
  exact SameRegs.trans (hl.mono (by simp; exact fun x hx => Or.inl hx)) (k.mono (by simp; exact fun x hx => Or.inr hx))

/-- Setting the engine's state leaves its program. -/
theorem progOf_setEngState (s : State) (e st : Nat) : progOf (setEngState s e st) e = progOf s e :=
  fld_setFld_bits_ne s _ _ rfl (by decide) (by decide)

/-- The record of an engine set, read back. -/
@[simp] theorem eng_setEng (s : State) (e : Nat) (h : EngH) : (s.setEng e h).eng e = h := by
  simp only [State.eng, State.setEng, cellGet_set_same]

/-- Retiring after a change of registers that are not its own. -/
theorem retire_after {s u : State} {e next : Nat} {l : List Nat} (hu : u = { s with regs := u.regs }) (hl : SameRegs s u l)
    (_h1 : ENG_PC.addr e ∉ l) (h2 : ENG_RETIRED.addr (progOf s e) ∉ l) (h3 : ENG_STAT.addr e ∉ l) :
    Retired s (retire u e next) e next ∧ EngineOnly s (retire u e next) e
      ∧ SameRegs s (retire u e next) (l ++ retireKeys s e)
      ∧ (∀ r n, r.addr n ∉ retireKeys s e → (retire u e next).reg r n = u.reg r n) := by
  have hst : u.reg ENG_STAT e = s.reg ENG_STAT e := hl.reg h3
  have hp : progOf u e = progOf s e := hl.fld (f := ENG_STAT_PROG) h3
  have hret : u.reg ENG_RETIRED (progOf s e) = s.reg ENG_RETIRED (progOf s e) := hl.reg h2
  have he : u.engs = s.engs := by rw [hu]
  have heng : ∀ x, u.eng x = s.eng x := fun x => by unfold State.eng; rw [he]
  obtain ⟨⟨a, b, c, d⟩, ⟨f, g, h⟩, k⟩ := retire_spec u e next
  have hkeys : retireKeys u e = retireKeys s e := by unfold retireKeys; rw [hp]
  rw [hkeys] at k
  refine ⟨⟨a, ?_, ?_, ?_⟩, ⟨?_, ?_, ?_⟩, ?_, fun r n hn => k.reg hn⟩
  · rw [hp] at b; rw [b, hret]
  · rw [c, heng]
  · rw [d, heng, hst]
  · rw [f, hu]
  · intro x hx; rw [g x hx, heng]
  · rw [h, heng]
  · exact SameRegs.trans (hl.mono (by simp; exact fun x hx => Or.inl hx)) (k.mono (by simp; exact fun x hx => Or.inr hx))

theorem setFlags_keys (s : State) (e : Nat) (z n c v : Bool) : SameRegs s (setFlags s e z n c v) [ENG_FLAGS.addr e] :=
  ((((SameRegs.setFld s ENG_FLAGS_Z _ e).trans (SameRegs.setFld _ ENG_FLAGS_N _ e)).trans
    (SameRegs.setFld _ ENG_FLAGS_C _ e)).trans (SameRegs.setFld _ ENG_FLAGS_V _ e))

theorem setFlags_regs (s : State) (e : Nat) (z n c v : Bool) :
    setFlags s e z n c v = { s with regs := (setFlags s e z n c v).regs } := rfl

theorem setFlags_flags (s : State) (e : Nat) (z n c v : Bool) : FlagsAre (setFlags s e z n c v) e z n c v := by
  have same : ∀ (u : State) (f : Fld) (b : Bool), f.hi < 32 → f.hi = f.lo → (u.setFlag f b e).flag f e = b := fun u f b h h' => by
    rw [State.flag, setFlag_eq, fld_setFld_same _ _ _ _ h, show f.hi + 1 - f.lo = 1 by omega]; cases b <;> rfl
  have ne : ∀ (u : State) (f g : Fld) (b : Bool), f.reg = g.reg → g.hi < 32 → (f.hi < g.lo ∨ g.hi < f.lo) →
      (u.setFlag f b e).flag g e = u.flag g e := fun u f g b hr h hd => by
    rw [State.flag, setFlag_eq, fld_setFld_bits_ne _ _ _ hr h hd]; rfl
  unfold setFlags
  refine ⟨?_, ?_, ?_, ?_⟩
  · rw [ne _ ENG_FLAGS_V ENG_FLAGS_Z _ rfl (by decide) (by decide),
      ne _ ENG_FLAGS_C ENG_FLAGS_Z _ rfl (by decide) (by decide),
      ne _ ENG_FLAGS_N ENG_FLAGS_Z _ rfl (by decide) (by decide),
      same _ ENG_FLAGS_Z _ (by decide) rfl]
  · rw [ne _ ENG_FLAGS_V ENG_FLAGS_N _ rfl (by decide) (by decide),
      ne _ ENG_FLAGS_C ENG_FLAGS_N _ rfl (by decide) (by decide),
      same _ ENG_FLAGS_N _ (by decide) rfl]
  · rw [ne _ ENG_FLAGS_V ENG_FLAGS_C _ rfl (by decide) (by decide),
      same _ ENG_FLAGS_C _ (by decide) rfl]
  · rw [same _ ENG_FLAGS_V _ (by decide) rfl]

theorem setFlags_other (s : State) (e : Nat) (z n c v : Bool) : OtherFlagBits s (setFlags s e z n c v) e := by
  have h : ∀ (u : State) (f : Fld) (b : Nat), f.reg = ENG_FLAGS → f.hi < 4 →
      Word.bits ((u.setFld f b e).reg ENG_FLAGS e) 31 4 = Word.bits (u.reg ENG_FLAGS e) 31 4 := fun u f b hr hh => by
    rw [← hr, reg_setFld_same, Word.bits_setBits_ne _ _ (by decide) (by omega)]
  unfold OtherFlagBits setFlags
  simp only [setFlag_eq]
  rw [h _ ENG_FLAGS_V _ rfl (by decide), h _ ENG_FLAGS_C _ rfl (by decide), h _ ENG_FLAGS_N _ rfl (by decide), h _ ENG_FLAGS_Z _ rfl (by decide)]

/-- Flags read alike where the words of ENGe_FLAGS are alike. -/
theorem FlagsAre.of_reg {t u : State} {e : Nat} {z n c v : Bool} (h : t.reg ENG_FLAGS e = u.reg ENG_FLAGS e)
    (hu : FlagsAre u e z n c v) : FlagsAre t e z n c v := by
  have : ∀ f : Fld, f.reg = ENG_FLAGS → t.flag f e = u.flag f e := fun f hf => by
    unfold State.flag State.fld; rw [hf, h]
  exact ⟨(this _ rfl).trans hu.1, (this _ rfl).trans hu.2.1, (this _ rfl).trans hu.2.2.1, (this _ rfl).trans hu.2.2.2⟩

theorem flags_not_retireKeys (s : State) (e : Nat) : ENG_FLAGS.addr e ∉ retireKeys s e := by
  simp [retireKeys, engAddr_flags_pc, engAddr_flags_retired, engAddr_flags_stat]
theorem g_not_retireKeys (s : State) (e n : Nat) : ENG_G.addr n ∉ retireKeys s e := by
  simp [retireKeys, engAddr_g_pc, engAddr_g_retired, engAddr_g_stat]

/-- A write of Gd retires. -/
theorem retire_setG (s : State) (e d : Nat) (w : Word) (next : Nat) :
    (retire (s.setG e d w) e next).g e d = w ∧ Retired s (retire (s.setG e d w) e next) e next
      ∧ EngineOnly s (retire (s.setG e d w) e next) e
      ∧ SameRegs s (retire (s.setG e d w) e next) (ENG_G.addr (16 * e + d) :: retireKeys s e) := by
  obtain ⟨a, b, c, h⟩ := retire_after (s := s) (u := s.setG e d w) (e := e) (next := next)
    (l := [ENG_G.addr (16 * e + d)]) rfl (SameRegs.setReg s _ _ _)
    (by simp [Ne.symm engAddr_g_pc]) (by simp [Ne.symm engAddr_g_retired]) (by simp [Ne.symm engAddr_g_stat])
  refine ⟨?_, a, b, c⟩
  rw [State.g, h _ _ (g_not_retireKeys s e _)]
  exact reg_setReg_same s _ _ _

theorem writesG_of (s : State) (e d : Nat) (w : Word) : WritesG s (retire (s.setG e d w) e (s.fld ENG_PC_PC e + 1)) e d w :=
  retire_setG s e d w _

/-- A write of Gd and the flags retires. -/
theorem retire_setGFlags (s : State) (e d : Nat) (w : Word) (z n c v : Bool) (next : Nat) (t : State)
    (ht : t = retire (setFlags (s.setG e d w) e z n c v) e next) :
    t.g e d = w ∧ FlagsAre t e z n c v ∧ OtherFlagBits s t e ∧ Retired s t e next ∧ EngineOnly s t e
      ∧ SameRegs s t (ENG_G.addr (16 * e + d) :: ENG_FLAGS.addr e :: retireKeys s e) := by
  subst ht
  obtain ⟨a, b, k, h⟩ := retire_after (s := s) (u := setFlags (s.setG e d w) e z n c v) (e := e) (next := next)
    (l := [ENG_G.addr (16 * e + d), ENG_FLAGS.addr e]) rfl
    (((SameRegs.setReg s _ _ _).mono (by simp)).trans ((setFlags_keys _ e z n c v).mono (by simp)))
    (by simp [Ne.symm engAddr_g_pc, Ne.symm engAddr_flags_pc]) (by simp [Ne.symm engAddr_g_retired, Ne.symm engAddr_flags_retired])
    (by simp [Ne.symm engAddr_g_stat, Ne.symm engAddr_flags_stat])
  have hf := h _ _ (flags_not_retireKeys s e)
  refine ⟨?_, FlagsAre.of_reg hf (setFlags_flags _ e z n c v), ?_, a, b, k⟩
  · rw [State.g, h _ _ (g_not_retireKeys s e _), (setFlags_keys _ e z n c v).reg (by simp [engAddr_g_flags])]
    exact reg_setReg_same s _ _ _
  · unfold OtherFlagBits
    rw [hf, setFlags_other]
    rw [State.setG, reg_setReg_ne _ _ engAddr_g_flags]

theorem writesGFlags_of (s : State) (e d : Nat) (w : Word) (z n c v : Bool) :
    WritesGFlags s (retire (setFlags (s.setG e d w) e z n c v) e (s.fld ENG_PC_PC e + 1)) e d w z n c v :=
  retire_setGFlags s e d w z n c v _ _ rfl

/-- A change of the flags retires. -/
theorem writesFlags_of (s : State) (e : Nat) (z n c v : Bool) :
    WritesFlags s (retire (setFlags s e z n c v) e (s.fld ENG_PC_PC e + 1)) e z n c v := by
  obtain ⟨a, b, k, h⟩ := retire_after (s := s) (u := setFlags s e z n c v) (e := e) (next := s.fld ENG_PC_PC e + 1)
    (l := [ENG_FLAGS.addr e]) rfl (setFlags_keys _ e z n c v)
    (by simp [Ne.symm engAddr_flags_pc]) (by simp [Ne.symm engAddr_flags_retired]) (by simp [Ne.symm engAddr_flags_stat])
  have hf := h _ _ (flags_not_retireKeys s e)
  refine ⟨FlagsAre.of_reg hf (setFlags_flags _ e z n c v), ?_, a, b, k⟩
  unfold OtherFlagBits
  rw [hf, setFlags_other]

/-- A control instruction that changes nothing retires. -/
theorem goesTo_of (s : State) (e next : Nat) : GoesTo s (retire s e next) e next := retire_spec s e next

end Sys2Proof.Machine
end

