-- ==== Sys2Proof/Tests/Slice0.lean ====
section
/-! SUPPORT. Tests: words written out from the spec's encodings and what they decode to, an ill-formed command for every check of
WellFormed, single steps worked out by hand from the spec's rules, and for every statement concrete states and operands that meet
its hypotheses, clause by clause (`witness_<statement>`). -/
set_option maxRecDepth 20000
open Sys2Proof Sys2Proof.Machine
namespace Sys2Proof.Tests

/-- Every domain is powered. -/
def allOn (s : State) : State := s.setFld PDC_STAT_ON 0xFFF
/-- The mode code is `m`. -/
def inMode (s : State) (m : Nat) : State := s.setFld SYS_MODECUR_CUR m

/-! ## Decoding: the encoded examples of 08_instruction_set.md -/

/-- The tentative margin step, words 0x0170–0x0173. -/
theorem test_decode_subj : decodeLannos 36 [0xC8000180, 0x18440000, 0x000000C8, 0x0006DDD0]
    = .instr (.subj 36 ⟨6, 4, false, some 450000, 0, 0⟩ 200 0x180) [] := by decide
theorem test_decode_setv : decodeLannos 36 [0x989003E8, 0x000BBFD0, 7] = .instr (.setv 36 4 (.word 770000) 1000) [7] := by decide
theorem test_decode_phase_arm : decodeLannos 36 [0xA4800007] = .instr (.phaseArm 36 4 (.imm 7)) [] := by decide
theorem test_decode_waitc : decodeLannos 36 [0x88000180, 0x38000000, 0x0000012C]
    = .instr (.waitc 36 ⟨14, 0, false, none, 0, 0⟩ 300 0x180) [] := by decide
theorem test_decode_ckpt : decodeLannos 36 [0xE4000000] = .instr (.ckpt 36) [] := by decide
theorem test_decode_log : decodeLannos 36 [0xE0C00412] = .instr (.log 36 0x412 3 none) [] := by decide
/-- The lines of the sequence program. -/
theorem test_decode_enr : decodeLannos 36 [0x90400000] = .instr (.enr 36 2) [] := by decide
theorem test_decode_check : decodeLannos 36 [0xB4000021, 0x04200000, 0x00C81388]
    = .instr (.check 36 ⟨1, 2, false, none, 0, 0⟩ 200 5000 0x21 0) [] := by decide
theorem test_decode_track : decodeLannos 36 [0xA8A40100] = .instr (.track 36 5 4 1 (.imm 0)) [] := by decide
theorem test_decode_sig : decodeLannos 36 [0xD0410000] = .instr (.sig 36 4 1) [] := by decide
theorem test_decode_mode : decodeLannos 36 [0xD9000000] = .instr (.mode 36 4 0) [] := by decide
/-- Words written out bit by bit from the formats of R188, R191 and R192: ADD G3, G1, G2; ADDI G1, G2, −1; SHR G1, G2, #5; LD G4, G5, 16;
JC NE, 0x0123; BREQ pool 2, 1000; TEL G1, kind 3, 4. -/
theorem test_decode_add : decodeLannos 0 [0b001000_0011_0001_0010_00000000000000] = .instr (.add 0 3 1 2) [] := by decide
theorem test_decode_addi : decodeLannos 0 [0b001001_0001_0010_111111111111111111] = .instr (.addi 0 1 2 0x3FFFF) [] := by decide
theorem test_decode_shr : decodeLannos 0 [0b010010_0001_0010_0000_1_0000000_000101] = .instr (.shr 0 1 2 (.imm 5)) [] := by decide
theorem test_decode_ld : decodeLannos 0 [0b000100_0100_0101_000000000000010000] = .instr (.ld 0 4 5 16) [] := by decide
theorem test_decode_jc : decodeLannos 0 [0b011010_0001_000000_0000000100100011] = .instr (.jc 0 1 0x123) [] := by decide
theorem test_decode_breq : decodeLannos 0 [0b110000_010_00_0000_00000001111101000] = .instr (.breq 0 2 (.imm 1000)) [] := by decide
theorem test_decode_tel : decodeLannos 0 [0b101110_0001_000011_000100_0_000000000] = .instr (.tel 0 1 3 4 false) [] := by decide
/-- A reserved opcode, a field that must be zero and is not, and an instruction cut short. -/
theorem test_decode_undefined : decodeLannos 0 [0] = .undefined ∧ decodeLannos 0 [0x20000001] = .undefined
    ∧ decodeLannos 0 [0x989003E8] = .short := by decide

/-! ## Ill-formed commands -/

theorem test_wf_refuses : [(.seti 0 4 (.imm 4096) : Instr), .bound 0 4 1 (.imm 4096), .track 0 5 4 1 (.imm 1),
    .registerWrite 0x3A 0 (.plain 0), .armatureTransfer [] none, .armatureTransfer [.sent 3 0 0] none,
    .measuredUseRefresh [1]].all (fun i => !i.wf) = true := by decide
theorem test_wf_accepts : [(.seti 0 4 (.imm 4095) : Instr), .bound 0 4 1 (.imm 4095), .track 0 5 4 1 (.imm 0),
    .registerWrite 0x39 0 (.plain 0), .armatureTransfer [.queue 0, .sent 0x30 0 0, .event 31 0 0] none, .measuredUseRefresh [0, 1, 2, 3]].all Instr.wf = true := by
  decide

/-! ## Single steps and functions, worked out by hand from the rules -/

/-- The check values of R375: the CRCs of the nine ASCII bytes "123456789". -/
theorem test_crc_check_values :
    (List.range 3).map (fun k => crcFinal k (crcFeed k (crcInit k) [49, 50, 51, 52, 53, 54, 55, 56, 57])) = [0xCBF43926, 0x29B1, 0x4B]
      ∧ crc16 72 0x313233343536373839 = 0x29B1 ∧ crc8 72 0x313233343536373839 = 0x4B := by decide

/-- E36 runs program 36 with G1 = 0x7FFFFFFF and G2 = 1. -/
def runner : State :=
  (((allOn (inMode State.reset 5)).setFld ENG_STAT_STATE 1 36).setG 36 1 0x7FFFFFFF).setG 36 2 1

/-- R193: 0x7FFFFFFF + 1 = 0x80000000, N and V set, C and Z clear, and the PC moves on. -/
theorem test_add_overflow : (match exec (.add 36 3 1 2) runner with
    | .next t => t.g 36 3 == 0x80000000 && t.reg ENG_FLAGS 36 == 0b1010 && t.fld ENG_PC_PC 36 == 1
    | _ => false) = true := by decide

/-- R193: a logical shift right by 33 gives zero with C clear; one by 1 gives 0x3FFFFFFF with C set. -/
theorem test_shr_counts : (match exec (.shr 36 3 1 (.imm 33)) runner, exec (.shr 36 4 1 (.imm 1)) runner with
    | .next t, .next u => t.g 36 3 == 0 && t.reg ENG_FLAGS 36 == 0b0001 && u.g 36 4 == 0x3FFFFFFF && u.reg ENG_FLAGS 36 == 0b0100
    | _, _ => false) = true := by decide

/-- R43: a request of SERVICE with a wrong key reads KEYERR, one with its key PENDING. -/
theorem test_mode_key : (match exec (.hostModeRequest 0 0x1234 9 0) runner, exec (.hostModeRequest 0 0x5E7C 9 0) runner with
    | .next t, .next u => t.fld SYS_MODEREQ_STATUS 0x30 == 5 && u.fld SYS_MODEREQ_STATUS 0x30 == 1
    | _, _ => false) = true := by decide

/-! ## The data instructions -/

namespace Data

def b0 := (allOn (inMode State.reset 5))
def eng (s : State) (e p st : Nat) : State := ((s.setFld ENG_STAT_PROG p e).setFld ENG_STAT_STATE st e)
def setg (s : State) : State := ((((s.setG 5 0 0x7FFFFFFF).setG 5 1 0x80000000).setG 5 2 33).setG 5 3 0xFFFFFFFF).setG 5 15 32
def b1 := setg (eng b0 5 7 esRunning)

theorem witness_DataInstructionsComputeTheTable :
    (∃ (e : Fin 48) (n : ShiftCount) (s : State), Executes s e 1
      ∧ (match (match n with | .imm x => x.val | .reg g => (s.g e g).toNat % 256) with | _ => decide (True)) = true)
    ∧ (∃ (e : Fin 48) (im : BitVec 22) (s : State), Executes s e 1 ∧ im.toNat < 65536)
    ∧ (∃ (e : Fin 48) (k6 : Fin 64) (s : State), Executes s e 1 ∧ k6.val < 32)
    ∧ (∃ (e : Fin 48) (im : BitVec 22) (s : State), Executes s e 1 ∧ 65536 ≤ im.toNat)
    ∧ (∃ (e : Fin 48) (k6 : Fin 64) (s : State), Executes s e 1 ∧ 32 ≤ k6.val)
    ∧ (∃ (e : Fin 48) (s : State) (w : Nat), Executes s e 1
      ∧ (match fieldAt w 26 6 with | op => decide ((op = 0x10 ∧ fieldAt w 14 4 ≠ 0 ∨ (op = 0x11 ∨ op = 0x12 ∨ op = 0x13) ∧ fieldAt w 13 1 = 0 ∧ fieldAt w 0 6 ≠ 0 ∨ (op = 0x14 ∨ op = 0x15) ∧ fieldAt w 22 4 ≠ 0 ∨ op = 0x18 ∧ (fieldAt w 13 1 = 1 ∨ fieldAt w 14 4 ≠ 0)))) = true) :=
  ⟨⟨5, .reg 2, b1, by decide⟩, ⟨5, 0xFFFF, b1, by decide⟩, ⟨5, 31, b1, by decide⟩, ⟨5, 0x3FFFFF, b1, by decide⟩, ⟨5, 63, b1, by
   decide⟩, ⟨5, b1, 0x10*2^26+2^14, by decide⟩⟩

end Data

/-! ## Loads, stores, control and waiting -/

namespace Control

def b0 := (allOn (inMode State.reset 5))
def eng (s : State) (e p st : Nat) : State := ((s.setFld ENG_STAT_PROG p e).setFld ENG_STAT_STATE st e)
def b1 := (((eng b0 5 7 esRunning).setG 5 0 0x10).setG 5 1 0x1005).setG 5 2 0x3FF0
def cnd : Cond := { sel := 0, idx := 0, neg := true, kind := 0, value := 0 }
def cl (s : State) (h : List Effect) : State := s.setEng 5 { s.eng 5 with clause := some { cond := cnd, label := 0x33, window := 100, opened := 0, rails := [3] }, held := h }
def b2 := cl b1 []
def b4 := { b1.setFld ENG_WRMASK_MASK 0x3FFFF 7 with armq := List.replicate 3 ⟨5, 0x3000, 0, 0xFFFFFFFF, .write, 0, none⟩ }
def b5 := { b4 with armq := List.replicate 4 ⟨5, 0, 0, 0xFFFFFFFF, .write, 0, none⟩ }
def b4c := cl b4 []
def b6 := b1.setEng 5 { b1.eng 5 with stack := [1,2,3,4,5,6,7,8] }
def w (x : Waiting) : State := let s := eng b0 5 7 esWaiting; s.setEng 5 { s.eng 5 with wait := some x }
def b8 := w (.time 5 0)
def b9 := w (.cond cnd 9 5 0)
def b10 := w (.cond { cnd with neg := false } 9 5 0)
def tb (s : State) (n : Nat) : State := { s with tbase := n }
def b11 := tb (w (.check { cnd with neg := false } 9 5 6 8 77 ⟨true,0,0,0⟩)) 5
def b12 := tb (w (.check { cnd with neg := false } 9 5 6 8 77 ⟨true,3,9,0⟩)) 6
def b18 := tb (w (.check { cnd with neg := false } 9 5 6 8 77 ⟨true,5,0,0⟩)) 7
def b19 := b1.setEng 5 { b1.eng 5 with badRead := some 3 }
def b14 := (eng (w (.sync 2 1 9 4 0)) 6 8 esRunning).setFbit ENG_BAR_BARMASK 2 true 8
def b15 := b1.setFbit ENG_BAR_BARMASK 2 true 7
def b16 := (eng b15 6 8 esRunning).setFbit ENG_BAR_BARMASK 2 true 8

theorem witness_LoadsAndReadsWriteGd :
    (∃ (e : Fin 48) (a : Fin 16) (imm : BitVec 18) (s : State) (w : Nat), Executes s e 1
      ∧ (match (s.g e a + imm.signExtend 32).toNat with | x => decide ((x < 0x100 ∧ w = 0x1000 + 0x100 * progOf s e + x ∨ 0x1000 ≤ x ∧ x < 0x2000 ∧ w = x - 0x1000) ∧ s.injects 357 1 = none)) = true)
    ∧ (∃ (e : Fin 48) (a : Fin 16) (imm : BitVec 18) (s : State) (w : Nat), Executes s e 1
      ∧ (match (s.g e a + imm.signExtend 32).toNat with | x => decide ((x < 0x100 ∧ w = 0x1000 + 0x100 * progOf s e + x ∨ 0x1000 ≤ x ∧ x < 0x2000 ∧ w = x - 0x1000) ∧ ReadsClean s 1 (w / 8))) = true)
    ∧ (∃ (e : Fin 48) (a : Fin 16) (imm : BitVec 18) (s : State), Executes s e 1
      ∧ (match (s.g e a + imm.signExtend 32).toNat % 65536 with | _ => decide (mustWait s e = true)) = true)
    ∧ (∃ (e : Fin 48) (a : Fin 16) (imm : BitVec 18) (s : State), Executes s e 1
      ∧ (match (s.g e a + imm.signExtend 32).toNat % 65536 with | x => decide ((match (armSend s e x 0 .read none).1 with | _ => decide (mustWait s e = false ∧ (s.eng e).badRead = none)) = true)) = true)
    ∧ (∃ (e : Fin 48) (a : Fin 16) (imm : BitVec 18) (s : State), Executes s e 1
      ∧ (match (s.g e a + imm.signExtend 32).toNat % 65536 with | _ => decide ((match (s.eng e).badRead with | some _ => decide (mustWait s e = false) | _ => false) = true)) = true)
    ∧ (∃ (e : Fin 48) (kind : Fin 64) (idx : Fin 64) (raw : Bool) (s : State), Executes s e 1 ∧ telCheck s kind idx raw = .ok)
    ∧ (∃ (e : Fin 48) (kind : Fin 64) (idx : Fin 64) (s : State), Executes s e 1 ∧ telCheck s kind idx false = .ok) :=
  ⟨⟨5, 0, 0, b1, 0x1710, by decide⟩, ⟨5, 0, 0, b1, 0x1710, by decide⟩, ⟨5, 0, 0, b4, by decide⟩, ⟨5, 0, 0, b1, by decide⟩, ⟨5, 0,
   0, b19, by decide⟩, ⟨5, 0, 0, true, b1, by decide⟩, ⟨5, 0, 0, b1, by decide⟩⟩

theorem witness_StoresWriteOneWordOrPost :
    (∃ (e : Fin 48) (a : Fin 16) (imm : BitVec 18) (s : State), Executes s e 1
      ∧ (match (s.g e a + imm.signExtend 32).toNat with | x => decide (x < 0x100 ∧ (match 0x1000 + 0x100 * progOf s e + x with | w => decide (ReadsClean s 1 (w / 8))) = true)) = true)
    ∧ (∃ (e : Fin 48) (a : Fin 16) (imm : BitVec 18) (s : State), Executes s e 1
      ∧ (match (s.g e a + imm.signExtend 32).toNat with | x => decide (0x1000 ≤ x ∧ x < 0x2000 ∧ (match x - 0x1000 with | w => decide (inClause s e = false ∧ issuing s e = false ∧ ReadsClean s 1 (w / 8))) = true)) = true)
    ∧ (∃ (e : Fin 48) (a : Fin 16) (imm : BitVec 18) (s : State), Executes s e 1
      ∧ (match (s.g e a + imm.signExtend 32).toNat with | x => decide (0x1000 ≤ x ∧ x < 0x2000 ∧ inClause s e = true ∧ (s.eng e).held.length < 16)) = true)
    ∧ (∃ (e : Fin 48) (a : Fin 16) (imm : BitVec 18) (s : State), Executes s e 1
      ∧ (match (s.g e a + imm.signExtend 32).toNat % 65536 with | x => decide (stxAllowed s e x = true ∧ inClause s e = false ∧ issuing s e = false ∧ ownCount s e < 4)) = true)
    ∧ (∃ (e : Fin 48) (a : Fin 16) (imm : BitVec 18) (s : State), Executes s e 1
      ∧ (match (s.g e a + imm.signExtend 32).toNat % 65536 with | x => decide (stxAllowed s e x = true ∧ inClause s e = false ∧ 4 ≤ ownCount s e)) = true)
    ∧ (∃ (e : Fin 48) (a : Fin 16) (imm : BitVec 18) (s : State), Executes s e 1
      ∧ (match (s.g e a + imm.signExtend 32).toNat % 65536 with | x => decide (stxAllowed s e x = true ∧ inClause s e = true ∧ (s.eng e).held.length < 16)) = true) :=
  ⟨⟨5, 0, 0, b1, by decide⟩, ⟨5, 1, 0, b1, by decide⟩, ⟨5, 1, 0, b2, by decide⟩, ⟨5, 0, 0, b4, by decide⟩, ⟨5, 0, 0, b5, by
   decide⟩, ⟨5, 0, 0, b4c, by decide⟩⟩

theorem witness_ControlInstructionsMoveThePc :
    (∃ (e : Fin 48) (s : State) (cond : Fin 16) (z : Bool) (n : Bool) (c : Bool) (v : Bool) (taken : Bool), Executes s e 1
      ∧ FlagsAre s e z n c v ∧ cond.val ≠ 15
      ∧ taken = (match cond.val with | 0 => z | 1 => !z | 2 => c | 3 => !c | 4 => n | 5 => !n | 6 => v | 7 => !v | 8 => c && !z | 9 => !c || z | 10 => n == v | 11 => n != v | 12 => !z && (n == v) | 13 => z || (n != v) | _ => true))
    ∧ (∃ (e : Fin 48) (s : State), Executes s e 1 ∧ (s.eng e).stack.length < 8)
    ∧ (∃ (e : Fin 48) (s : State), Executes s e 1 ∧ (match (s.eng e).stack with | _ :: _ => decide (True) | _ => false) = true)
    ∧ (∃ (e : Fin 48) (s : State), Executes s e 1 ∧ inClause s e = false) :=
  ⟨⟨5, b1, 0, false, false, false, false, false, by decide⟩, ⟨5, b1, by decide⟩, ⟨5, b6, by decide⟩, ⟨5, b1, by decide⟩⟩

theorem witness_WaitsAndClausesBegin :
    (∃ (e : Fin 48) (us : WaitTime) (s : State), Executes s e 1
      ∧ (match (match us with | .imm k => k.val | .reg g => (s.g e g).toNat) with | u => decide (u = 0)) = true)
    ∧ (∃ (e : Fin 48) (us : WaitTime) (s : State), Executes s e 1
      ∧ (match (match us with | .imm k => k.val | .reg g => (s.g e g).toNat) with | u => decide (u ≠ 0)) = true)
    ∧ (∃ (e : Fin 48) (c : CondWord) (x : Fin 65536) (s : State), Executes s e (condWords c) ∧ condStop s c = none ∧ x.val = 0
      ∧ condTrue s e (condRead s e c) = true)
    ∧ (∃ (e : Fin 48) (c : CondWord) (x : Fin 65536) (s : State), Executes s e (condWords c) ∧ condStop s c = none ∧ x.val = 0
      ∧ condTrue s e (condRead s e c) = false)
    ∧ (∃ (e : Fin 48) (c : CondWord) (x : Fin 65536) (s : State), Executes s e (condWords c) ∧ condStop s c = none
      ∧ inClause s e = false ∧ x.val ≠ 0)
    ∧ (∃ (e : Fin 48) (s : State), Executes s e 1 ∧ inClause s e = false)
    ∧ (∃ (e : Fin 48) (b : Fin 8) (s : State), Executes s e 2 ∧ inClause s e = false ∧ s.fbit ENG_BAR_BARMASK b (progOf s e) = true
      ∧ (match (barGen s (progOf s e) b + 1) % 16 with | g => decide (leadBroken s (progOf s e) b g = false ∧ barComplete (setBarGen s (progOf s e) b g) b g = true)) = true)
    ∧ (∃ (e : Fin 48) (x : Fin 65536) (b : Fin 8) (s : State), Executes s e 2 ∧ inClause s e = false
      ∧ s.fbit ENG_BAR_BARMASK b (progOf s e) = true
      ∧ (match (barGen s (progOf s e) b + 1) % 16 with | g => decide (leadBroken s (progOf s e) b g = false ∧ barComplete (setBarGen s (progOf s e) b g) b g = false ∧ x.val = 0)) = true)
    ∧ (∃ (e : Fin 48) (x : Fin 65536) (b : Fin 8) (s : State), Executes s e 2 ∧ inClause s e = false
      ∧ s.fbit ENG_BAR_BARMASK b (progOf s e) = true
      ∧ (match (barGen s (progOf s e) b + 1) % 16 with | g => decide (leadBroken s (progOf s e) b g = false ∧ barComplete (setBarGen s (progOf s e) b g) b g = false ∧ x.val ≠ 0)) = true) :=
  ⟨⟨5, .imm 0, b1, by decide⟩, ⟨5, .imm 9, b1, by decide⟩, ⟨5, ⟨0,0,false,none,0,0⟩, 0, b1, by decide⟩, ⟨5, ⟨0,0,true,none,0,0⟩,
   0, b1, by decide⟩, ⟨5, ⟨0,0,false,none,0,0⟩, 0x33, b1, by decide⟩, ⟨5, b1, by decide⟩, ⟨5, 2, b15, by decide⟩, ⟨5, 0, 2, b16,
   by decide⟩, ⟨5, 0x33, 2, b16, by decide⟩⟩

theorem witness_WaitingEnginesRunOn :
    (∃ (e : Fin 48) (s : State),
      (match s.waiting e with | some (.time us start) => decide (timeOver s.tbase start us = true) | _ => false) = true)
    ∧ (∃ (e : Fin 48) (s : State),
      (match s.waiting e with | some (.time us start) => decide (us ≠ 0 ∧ s.tbase ≤ start + us) | _ => false) = true)
    ∧ (∃ (e : Fin 48) (s : State),
      (match s.waiting e with | some (.cond c _ x start) => decide (condTrue s e c = true ∧ timeOver s.tbase start x = false) | _ => false) = true)
    ∧ (∃ (e : Fin 48) (s : State),
      (match s.waiting e with | some (.cond _ _ x start) => decide (timeOver s.tbase start x = true) | _ => false) = true)
    ∧ (∃ (e : Fin 48) (s : State),
      (match s.waiting e with | some (.cond _ _ x start) => decide (timeOver s.tbase start x = false) | _ => false) = true)
    ∧ (∃ (e : Fin 48) (s : State),
      (match checkEval s with | u => decide ((match u.waiting e with | some (.check c _ x y _ _ w) => decide (checkPasses u.tbase c x y w = true) | _ => false) = true)) = true)
    ∧ (∃ (e : Fin 48) (s : State),
      (match checkEval s with | u => decide ((match u.waiting e with | some (.check _ _ _ y lim _ w) => decide (checkChatters y lim w = true) | _ => false) = true)) = true)
    ∧ (∃ (e : Fin 48) (s : State),
      (match checkEval s with | u => decide ((match u.waiting e with | some (.check c _ x y _ _ w) => decide (checkExpires u.tbase c x y w = true) | _ => false) = true)) = true)
    ∧ (∃ (e : Fin 48) (s : State),
      (match s.waiting e with | some (.sync b g _ x start) => decide (timeOver s.tbase start x = true ∧ barComplete s b g = false) | _ => false) = true) :=
  ⟨⟨5, tb b8 6, by decide⟩, ⟨5, b8, by decide⟩, ⟨5, b10, by decide⟩, ⟨5, tb b9 7, by decide⟩, ⟨5, b9, by decide⟩, ⟨5, tb b11 6, by
   decide⟩, ⟨5, b12, by decide⟩, ⟨5, b18, by decide⟩, ⟨5, tb b14 9, by decide⟩⟩

end Control

/-! ## Rail effects, clauses and coordination -/

namespace Effects

def b0 := (allOn (inMode State.reset 5))
def eng (s : State) (e p st : Nat) : State := ((s.setFld ENG_STAT_PROG p e).setFld ENG_STAT_STATE st e)
def own (s : State) : State := { s with pmap := { s.pmap with owner := [(3,7)], delegate := [(4,7)] } }
def b1 := ((own (eng b0 5 7 esRunning)).setG 5 1 1000).setFld ENG_WRMASK_MASK 0x3FFFF 7
def cnd : Cond := { sel := 0, idx := 0, neg := true, kind := 0, value := 0 }
def cl (s : State) (h : List Effect) : State := s.setEng 5 { s.eng 5 with clause := some { cond := cnd, label := 0x33, window := 100, opened := 0, rails := [] }, held := h }
def reg (s : State) (n : Nat) : State := ((s.setFld RL_STAT_STATE rsRegulate n).setFld RL_VREF_VREF 500 n).setFld RL_VCEIL_VCEIL 3000 n
def b2 := reg (reg b1 3) 4
def b3 := cl b2 []
def b4 := cl b2 (List.replicate 16 (.enr 3))
def b6 := ((b1.setFld BUD_RIGHT_MASK 0xFF 7).setFld BUD_RIGHT_MAX 1000 7)
def b7 := inMode b1 11
def b9 := (b1.setFlag IP_CTRL_SRC true 5).setFld IP_CTRL_ENG 5 5
def b10 := b1.setFlag ENG_STAT_REPLAY true 5
def b11 := b1.setEng 5 { b1.eng 5 with stack := [1,2,3,4,5,6,7,8] }
def aq (x : Effect) (a : Nat) : State := { b2 with armq := [⟨5, a, 9, ~~~9, .write, 0, some x⟩] }
def c0 := aq (.enr 3) 0x1180
def c6 := aq (.signal ⟨7,5,1,1,false⟩) 0x30B5
def c7 := let s := aq (.record { kind := 3, src := 0, time := 0, bytes := [] }) 0xB00
  s.setFlag PAT_CTRL_EN true

theorem witness_RailEffectsActAsHostWrites :
    (∃ (e : Fin 48) (n : Fin 32) (s : State), inClause s e = false ∧ issuing s e = false ∧ ownCount s e < 4 ∧ Executes s e 1
      ∧ railDeny s e n true = none
      ∧ (match (if s.mode.resumeBy = some (progOf s e) then passResume s else s) with | _ => decide (True)) = true)
    ∧ (∃ (e : Fin 48) (n : Fin 32) (tg : RegWord) (s : State), inClause s e = false ∧ issuing s e = false ∧ ownCount s e < 4
      ∧ Executes s e (regWordWords tg) ∧ railDeny s e n true = none)
    ∧ (∃ (e : Fin 48) (n : Fin 32) (v : Src) (s : State) (leader : Fin 64) (mode : Fin 8), inClause s e = false ∧ issuing s e = false
      ∧ ownCount s e < 4 ∧ Executes s e (srcWords v) ∧ railDeny s e n true = none
      ∧ (match trackRatio s e v with | some _ => decide (mode.val < 3 ∧ (leader.val < 32 ∧ s.railPresent leader = true ∨ leader.val = 63)) | _ => false) = true)
    ∧ (∃ (e : Fin 48) (n : Fin 32) (v : Src) (s : State), inClause s e = false ∧ issuing s e = false ∧ ownCount s e < 4
      ∧ Executes s e (srcWords v) ∧ railDeny s e n false = none
      ∧ (match srcValue s e v with | some _ => decide (True) | _ => false) = true)
    ∧ (∃ (e : Fin 48) (n : Fin 32) (v : Src) (s : State) (kind : Fin 8), inClause s e = false ∧ issuing s e = false ∧ ownCount s e < 4
      ∧ Executes s e (srcWords v) ∧ railDeny s e n false = none
      ∧ (match srcValue s e v with | some _ => decide (kind.val < 6) | _ => false) = true)
    ∧ (∃ (e : Fin 48) (n : Fin 32) (s : State),
      (match takeTransfer e s.armq with | some (tr, q) => decide (s.powered 1 = true ∧ tr.master = e.val ∧ tr.kind = .write ∧ tr.comp = ~~~tr.value ∧ s.railOpen n = true ∧ (match { s with armq := q } with | _ => decide (True)) = true) | _ => false) = true) :=
  ⟨⟨5, 3, c0, by decide⟩, ⟨5, 3, .reg 1, c0, by decide⟩, ⟨5, 3, .imm 9, c0, 5, 2, by decide⟩, ⟨5, 3, .imm 9, c0, by decide⟩, ⟨5,
   3, .imm 9, c0, 2, by decide⟩, ⟨5, 3, c0, by decide⟩⟩

theorem witness_ClauseHoldsEffects :
    (∃ (e : Fin 48) (n : Fin 32) (s : State), inClause s e = true ∧ railDeny s e n false = none ∧ Executes s e 1)
    ∧ (∃ (e : Fin 48) (n : Fin 32) (v : Src) (s : State), inClause s e = true ∧ railDeny s e n false = none
      ∧ Executes s e (srcWords v) ∧ (match srcValue s e v with | some _ => decide (True) | _ => false) = true)
    ∧ (∃ (e : Fin 48) (n : Fin 32) (tg : RegWord) (rate : Fin 65536) (s : State), inClause s e = true
      ∧ (match clauseSetv s e n (regWordValue s e tg).toNat rate with | u => decide (Executes s e (regWordWords tg) ∧ railDeny s e n true = none ∧ inClause u e = true)) = true) :=
  ⟨⟨5, 3, b3, by decide⟩, ⟨5, 3, .imm 9, b3, by decide⟩, ⟨5, 3, .reg 1, 0x33, b3, by decide⟩⟩

theorem witness_BudgetInstructionsSetLevels :
    (∃ (e : Fin 48) (k : Fin 8) (v : Src) (s : State), Executes s e (srcWords v)
      ∧ (match srcValue s e v with | some w => decide (w.toNat < 2 ^ 20 ∧ budgetRight s (progOf s e) k w.toNat = true ∧ s.powered 4 = true ∧ inClause s e = false ∧ mustWait s e = false) | _ => false) = true) :=
  ⟨5, 2, .imm 9, b6, by decide⟩

theorem witness_CoordinationInstructionsAct :
    (∃ (e : Fin 48) (q : Fin 64) (n : Fin 16) (s : State), Executes s e 1 ∧ inClause s e = false ∧ issuing s e = false
      ∧ (match (⟨progOf s e, q, n, (cellGet 0 (s.prog (progOf s e)).sigTx q + 1) % 256, s.flag ENG_STAT_REPLAY e⟩ : SigMsg) with | _ => decide (q.val < 48 ∧ s.engPresent q = true ∧ ownCount s e < 4)) = true)
    ∧ (∃ (e : Fin 48) (s : State), Executes s e 1 ∧ inClause s e = false ∧ issuing s e = false ∧ ownCount s e < 4)
    ∧ (∃ (e : Fin 48) (s : State), Executes s e 1 ∧ inClause s e = false ∧ issuing s e = false
      ∧ (match takeTransfer e s.armq with | some (tr, _) => decide (s.powered 1 = true ∧ tr.master = e.val ∧ tr.kind = .write ∧ tr.comp = ~~~tr.value ∧ (s.eng e).issue = [] ∧ (match tr.act with | some (.signal _) => decide (True) | _ => false) = true) | _ => false) = true)
    ∧ (∃ (e : Fin 48) (s : State), Executes s e 1 ∧ inClause s e = false ∧ issuing s e = false
      ∧ (match takeTransfer e s.armq with | some (tr, _) => decide (s.powered 1 = true ∧ tr.master = e.val ∧ tr.kind = .write ∧ tr.comp = ~~~tr.value ∧ (s.eng e).issue = [] ∧ (match tr.act with | some (.record _) => decide (s.powered 10 = true ∧ s.flag PAT_CTRL_EN = true ∧ s.pat.queue.length < 8) | _ => false) = true) | _ => false) = true)
    ∧ (∃ (e : Fin 48) (target : Fin 16) (sdend : Fin 4) (s : State), Executes s e 1 ∧ inClause s e = false ∧ issuing s e = false
      ∧ ownTransfer s e = false ∧ target.val ∈ [4, 5, 6, 7, 8, 11] ∧ (sdend.val = 0 ∨ target.val = 11))
    ∧ (∃ (e : Fin 48) (s : State), Executes s e 1 ∧ inClause s e = false ∧ issuing s e = false ∧ ownTransfer s e = false ∧ s.cur = 11)
    ∧ (∃ (e : Fin 48) (kind : Fin 4) (i : Fin 32) (s : State), Executes s e 1 ∧ inClause s e = false ∧ issuing s e = false
      ∧ ownTransfer s e = false ∧ fenceDeny s e kind i = none)
    ∧ (∃ (e : Fin 48) (s : State), Executes s e 1 ∧ inClause s e = false ∧ issuing s e = false ∧ s.powered 10 = true)
    ∧ (∃ (e : Fin 48) (port : Fin 16) (s : State), Executes s e 1 ∧ inClause s e = false ∧ issuing s e = false
      ∧ ownTransfer s e = false ∧ intentRight s e port = true)
    ∧ (∃ (e : Fin 48) (n : Fin 16) (s : State), Executes s e 1 ∧ inClause s e = false ∧ issuing s e = false ∧ ownTransfer s e = false
      ∧ n.val < 8 ∧ wrBit s (progOf s e) 9 = true)
    ∧ (∃ (e : Fin 48) (s : State), Executes s e 1 ∧ inClause s e = false ∧ issuing s e = false ∧ s.flag ENG_STAT_REPLAY e = true)
    ∧ (∃ (e : Fin 48) (s : State), Executes s e 1 ∧ inClause s e = false ∧ issuing s e = false ∧ s.flag ENG_STAT_REPLAY e = false) :=
  ⟨⟨5, 5, 1, c0, by decide⟩, ⟨5, c0, by decide⟩, ⟨5, c6, by decide⟩, ⟨5, c7, by decide⟩, ⟨5, 5, 0, b1, by decide⟩, ⟨5, b7, by
   decide⟩, ⟨5, 0, 3, b1, by decide⟩, ⟨5, c0, by decide⟩, ⟨5, 5, b9, by decide⟩, ⟨5, 1, b1, by decide⟩, ⟨5, b10, by decide⟩, ⟨5,
   c0, by decide⟩⟩

theorem witness_AccessViolationsFreeze :
    (∃ (e : Fin 48) (im : BitVec 22) (s : State), inClause s e = false ∧ Executes s e 1 ∧ 65536 ≤ im.toNat)
    ∧ (∃ (e : Fin 48) (n : Fin 64) (s : State), inClause s e = false ∧ Executes s e 1 ∧ 32 ≤ n.val)
    ∧ (∃ (e : Fin 48) (s : State), inClause s e = false ∧ Executes s e 1 ∧ 8 ≤ (s.eng e).stack.length)
    ∧ (∃ (e : Fin 48) (s : State), inClause s e = false ∧ Executes s e 1 ∧ (s.eng e).stack = [])
    ∧ (∃ (e : Fin 48) (a : Fin 16) (imm : BitVec 18) (s : State), inClause s e = false ∧ Executes s e 1
      ∧ (match (s.g e a + imm.signExtend 32).toNat with | addr => decide (dataWord (progOf s e) addr = none)) = true)
    ∧ (∃ (e : Fin 48) (a : Fin 16) (imm : BitVec 18) (s : State), inClause s e = false ∧ Executes s e 1
      ∧ (match (s.g e a + imm.signExtend 32).toNat with | addr => decide (stxAllowed s e (addr % 65536) = false)) = true)
    ∧ (∃ (e : Fin 48) (s : State) (r : Fin 32), inClause s e = false ∧ Executes s e 1
      ∧ (match railDeny s e r true with | some _ => decide (True) | _ => false) = true) :=
  ⟨⟨5, 0x3FFFFF, c0, by decide⟩, ⟨5, 63, c0, by decide⟩, ⟨5, b11, by decide⟩, ⟨5, c0, by decide⟩, ⟨5, 1, 0, c0, by decide⟩, ⟨5, 1,
   0x2200, c0, by decide⟩, ⟨5, c0, 2, by decide⟩⟩

/-- The instructions of ClauseHoldsEffects: fewer than sixteen held, and sixteen. -/
theorem witness_ClauseHoldsEffects_held :
    (∃ (e : Fin 48) (n : Fin 32) (v : Src) (w : Word) (s : State), inClause s e = true ∧ Executes s e 1 ∧ Executes s e (srcWords v)
      ∧ railDeny s e n false = none ∧ srcValue s e v = some w ∧ (s.eng e).held.length < 16)
    ∧ (∃ (e : Fin 48) (n : Fin 32) (v : Src) (w : Word) (s : State), inClause s e = true ∧ Executes s e 1 ∧ Executes s e (srcWords v)
      ∧ railDeny s e n false = none ∧ srcValue s e v = some w ∧ 16 ≤ (s.eng e).held.length) :=
  ⟨⟨5, 3, .imm 9, 9, b3, by decide⟩, ⟨5, 3, .imm 9, 9, b4, by decide⟩⟩

/-- The SETV and PHASE_ARM of a clause whose rail is free. -/
theorem witness_ClauseHoldsEffects_steps : inClause b3 5 = true ∧ Executes b3 5 1 ∧ srcValue b3 5 (.imm 9) = some 9
    ∧ railDeny b3 5 3 true = none ∧ inClause (clauseSetv b3 5 3 (regWordValue b3 5 (.reg 1)).toNat 20) 5 = true
    ∧ railDeny b3 5 3 false = none ∧ inClause (clauseArm b3 5 3 9) 5 = true := by decide

/-- The rules that AccessViolationsFreeze names, each broken. -/
theorem witness_AccessViolationsFreeze_rules :
    inClause b1 5 = false ∧ Executes b1 5 1 ∧ 65536 ≤ (0x10000 : BitVec 22).toNat ∧ 32 ≤ (32 : Fin 64).val
      ∧ inClause b11 5 = false ∧ Executes b11 5 1 ∧ 8 ≤ (b11.eng 5).stack.length ∧ (b1.eng 5).stack = []
      ∧ dataWord (progOf b1 5) (b1.g 5 0 + (0x100 : BitVec 18).signExtend 32).toNat = none
      ∧ dataWord (progOf b1 5) (b1.g 5 0 + (0x2000 : BitVec 18).signExtend 32).toNat = none
      ∧ stxAllowed b1 5 ((b1.g 5 0 + (0x3000 : BitVec 18).signExtend 32).toNat % 65536) = false
      ∧ railDeny b1 5 2 true = some 1 ∧ railDeny { b1 with part := .olr7248 } 5 24 true = some 2 := by decide

end Effects

/-! ## Modes and clocks -/

namespace Modes

def z0 := inMode State.reset 5
def b0 := (allOn (inMode State.reset 5))
def rq (t : Nat) : ModeReq := { src := .host 1, target := t, sdend := 0, key := 0, held := false }
def rq2 (t : Nat) : ModeReq := { src := .engine 3, target := t, sdend := 0, key := 0, held := false }
def reqs (s : State) (l : List ModeReq) : State := { s with mode := { s.mode with reqs := l } }
def noTr (s : State) : State := { s with mode := { s.mode with trans := none } }
def c0 := noTr b0
def b3 := reqs c0 [rq2 4, rq 6]
def tr (s : State) (x : Transition) : State := { s with mode := { s.mode with trans := some x } }
def b5 := tr b0 ⟨rq 5, 4, 5, [], [[1,2],[3,4],[5]]⟩
def b6 := c0.setFbit PDC_STAT_ON 3 false
def b8 := inMode c0 10
def b9 := { c0 with flt := { c0.flt with chipReset := some 3 } }
def b10 := tr (inMode b0 3) ⟨rq 2, 3, 2, [], [[1]]⟩
def b11 := inMode State.reset 0
def b12 := (inMode c0 1).setReg SYS_WAKECFG 0xF
def b13 := b12.setFld SYS_WAKEALM_SECONDS 9
def b14 := { inMode c0 11 with mode := { c0.mode with rearm := true } }
def b15 := { c0 with pins := { c0.pins with inputLow := true } }
def b16 := inMode c0 11
def b17 := { inMode c0 2 with mode := { c0.mode with wakeTimer := true } }
def b19 := (c0.setFlag SYS_DIELIM_ASSERT true).setFld SYS_DIELIM_SENS 3
def b20 := { c0 with mode := { c0.mode with hourAcc := [(5, 1000005)] } }
def b22 := (b0.setFlag CLK_STAT_TREFSEL true).setFlag CLK_STAT_TIMELOCK true
def b23 := { b0 with flt := { b0.flt with level := [(65536*361, true)] } }
def c1 := b0.setFlag SYS_HSTAT_FROZEN true 0
def c4 := b16.setFld ENG_STAT_STATE 1 3
def c5 := tr ((inMode b0 4).setFlag SYS_MODECFG_FENCEDEG false) ⟨rq 5, 4, 5, [], [[1,2]]⟩
def c6 := { c0 with mode := { c0.mode with optTiers := [[9],[3]] } }
def c7 := tr (reqs ((inMode b0 5).setFld RL_STAT_STATE 6 3) [rq 11, rq 4]) ⟨rq 4, 5, 4, [4], []⟩
def c8 := inMode c0 3

theorem witness_HostModeRequestsAreChecked :
    (∃ (p : Fin 3) (s : State), s.powered 7 = true ∧ s.powered 0 = true ∧ s.flag SYS_BOOTSTAT_OTPHOLD = false
      ∧ s.flag SYS_HSTAT_FROZEN p = true)
    ∧ (∃ (p : Fin 3) (key : Fin 65536) (target : Fin 16) (s : State), s.powered 7 = true ∧ s.powered 0 = true
      ∧ s.flag SYS_BOOTSTAT_OTPHOLD = false
      ∧ (match (if 12 ≤ target.val then 4 else if target.val = 10 ∧ s.otp.provdis = true then 6 else if target.val = 9 ∧ key.val ≠ 0x5E7C ∨ target.val = 10 ∧ key.val ≠ 0xB0F1 ∨ target.val = 5 ∧ s.cur = 8 ∧ key.val ≠ 0x0DE6 then 5 else 1) with | _ => decide (s.flag SYS_HSTAT_FROZEN p = false)) = true) :=
  ⟨⟨0, c1, by decide⟩, ⟨0, 0, 2, b0, by decide⟩⟩

theorem witness_OtherTransitionsAreRefused :
    (∃ (s : State), s.powered 0 = true ∧ s.mode.trans = none ∧ s.mode.optRelease = [] ∧ s.cur < 11
      ∧ (match [(0, 2), (1, 2), (2, 3), (2, 4), (2, 11), (3, 2), (3, 10), (3, 11), (4, 5), (4, 6), (4, 7), (4, 8), (4, 11), (4, 9), (4, 10), (5, 4), (5, 6), (5, 7), (5, 8), (5, 11), (5, 9), (6, 5), (6, 4), (6, 8), (6, 11), (7, 5), (7, 4), (7, 8), (7, 11), (8, 4), (8, 11), (8, 5), (8, 9), (9, 4), (9, 11), (10, 11)] with | rows => decide ((∀ r ∈ s.mode.reqs, (s.cur, r.target) ∉ rows ∧ r.target ≠ 11 ∧ (match r.src with | .host p => decide (p < 3) | _ => true) = true))) = true) :=
  ⟨c0, by decide⟩

theorem witness_ArbitrationBeginsTheTransition :
    (∃ (s : State), s.powered 0 = true ∧ s.mode.trans = none ∧ s.mode.optRelease = [] ∧ s.mode.reqs = [])
    ∧ (∃ (s : State), s.powered 0 = true
      ∧ (match s.mode.trans with | some x => decide (x.target ≠ 2 ∧ x.release.any (domainBusy s) = true) | _ => false) = true) :=
  ⟨⟨c0, by decide⟩, ⟨c7, by decide⟩⟩

theorem witness_DomainCommandsAct :
    (∃ (s : State), s.powered 0 = true
      ∧ (match s.mode.trans with | some x => decide ((match x.tiers with | d :: _ :: _ => decide (x.release = [] ∧ x.target ≠ 2 ∧ x.old ≠ 7 ∧ (match d.foldl domainOn s with | u => decide (safetyAborts u = false)) = true) | _ => false) = true) | _ => false) = true)
    ∧ (∃ (s : State), s.powered 0 = true ∧ s.mode.trans = none
      ∧ (match s.mode.optTiers with | d :: _ => decide ((match d.foldl domainOn s with | _ => decide (True)) = true) | _ => false) = true)
    ∧ (∃ (s : State) (d : Fin 12), s.powered 0 = true ∧ d.val ≠ 0 ∧ s.fbit PDC_STAT_ON d = false ∧ s.mode.trans = none)
    ∧ (∃ (s : State), s.powered 0 = true ∧ s.mode.trans = none ∧ s.writesOpen = true ∧ s.cur ≠ 4)
    ∧ (∃ (s : State), s.powered 0 = true ∧ s.mode.trans = none ∧ s.writesOpen = true ∧ s.cur ≠ 10)
    ∧ (∃ (s : State), s.powered 0 = true ∧ s.mode.trans = none ∧ s.writesOpen = false) :=
  ⟨⟨b5, by decide⟩, ⟨c6, by decide⟩, ⟨b6, 3, by decide⟩, ⟨c0, by decide⟩, ⟨c0, by decide⟩, ⟨c8, by decide⟩⟩

theorem witness_WakeEntriesShowWake :
    (∃ (s : State), s.powered 0 = true ∧ s.flt.chipReset.isSome = true)
    ∧ (∃ (s : State), s.powered 0 = true ∧ s.cur = 3 ∧ (match s.mode.trans with | some x => decide (x.target = 2) | _ => false) = true)
    ∧ (∃ (s : State), s.pins.preOff = false)
    ∧ (∃ (s : State) (btn : Bool) (src : Bool), s.cur = 0 ∧ (btn || src) = true)
    ∧ (∃ (s : State) (btn : Bool) (src : Bool) (errin : Bool), s.powered 0 = true ∧ s.cur = 1 ∧ s.flag SYS_DIELIM_ASSERT = false
      ∧ (match (btn.toNat + 2 * src.toNat + 4 * errin.toNat) &&& (s.reg SYS_WAKECFG).toNat % 16 with | on => decide (on ≠ 0)) = true)
    ∧ (∃ (s : State), s.powered 0 = true ∧ s.cur = 1 ∧ s.flag SYS_DIELIM_ASSERT = false ∧ s.fld SYS_WAKEALM_SECONDS ≠ 0
      ∧ (s.reg SYS_WAKECFG).getLsbD 3 = true)
    ∧ (∃ (s : State), s.powered 0 = true ∧ s.cur = 11 ∧ s.mode.rearm = true ∧ s.mode.optRelease = []) :=
  ⟨⟨b9, by decide⟩, ⟨b10, by decide⟩, ⟨z0, by decide⟩, ⟨b11, true, true, by decide⟩, ⟨b12, true, true, true, by decide⟩, ⟨b13, by
   decide⟩, ⟨b14, by decide⟩⟩

theorem witness_SupplyAndDeadlineEventsAct :
    (∃ (s : State) (again : Bool) (mv : Nat), s.powered 0 = true
      ∧ again = (decide (shutdownEnd s = 2) || decide (shutdownEnd s = 0) && decide (s.fld SYS_MODESRC_HWCAUSE = 1) && !s.pins.inputLow)
      ∧ mv < inlossThreshold s ∧ s.pins.inputLow = false)
    ∧ (∃ (s : State) (again : Bool) (mv : Nat), s.powered 0 = true
      ∧ again = (decide (shutdownEnd s = 2) || decide (shutdownEnd s = 0) && decide (s.fld SYS_MODESRC_HWCAUSE = 1) && !s.pins.inputLow)
      ∧ mv < inlossThreshold s ∧ s.pins.inputLow = true)
    ∧ (∃ (s : State) (again : Bool) (mv : Nat), s.powered 0 = true
      ∧ again = (decide (shutdownEnd s = 2) || decide (shutdownEnd s = 0) && decide (s.fld SYS_MODESRC_HWCAUSE = 1) && !s.pins.inputLow)
      ∧ inlossThreshold s ≤ mv)
    ∧ (∃ (s : State) (again : Bool), s.powered 0 = true
      ∧ again = (decide (shutdownEnd s = 2) || decide (shutdownEnd s = 0) && decide (s.fld SYS_MODESRC_HWCAUSE = 1) && !s.pins.inputLow)
      ∧ s.cur = 11 ∧ s.mode.trans = none ∧ s.mode.rearm = false ∧ s.mode.deadline = false ∧ downRunning s = true)
    ∧ (∃ (s : State) (again : Bool), s.powered 0 = true
      ∧ again = (decide (shutdownEnd s = 2) || decide (shutdownEnd s = 0) && decide (s.fld SYS_MODESRC_HWCAUSE = 1) && !s.pins.inputLow)
      ∧ s.cur = 11 ∧ s.mode.trans = none ∧ s.mode.rearm = false ∧ s.mode.deadline = false ∧ downRunning s = false)
    ∧ (∃ (s : State) (again : Bool), s.powered 0 = true
      ∧ again = (decide (shutdownEnd s = 2) || decide (shutdownEnd s = 0) && decide (s.fld SYS_MODESRC_HWCAUSE = 1) && !s.pins.inputLow)
      ∧ s.cur = 2 ∧ s.mode.wakeTimer = true ∧ s.boot.failDue = none ∧ s.boot.failing = none)
    ∧ (∃ (s : State) (again : Bool), s.powered 0 = true
      ∧ again = (decide (shutdownEnd s = 2) || decide (shutdownEnd s = 0) && decide (s.fld SYS_MODESRC_HWCAUSE = 1) && !s.pins.inputLow)
      ∧ s.flag SYS_DIELIM_ASSERT = true ∧ s.mode.heldWakes = 0)
    ∧ (∃ (s : State) (again : Bool), s.powered 0 = true
      ∧ again = (decide (shutdownEnd s = 2) || decide (shutdownEnd s = 0) && decide (s.fld SYS_MODESRC_HWCAUSE = 1) && !s.pins.inputLow)
      ∧ s.flag SYS_DIELIM_ASSERT = false) :=
  ⟨⟨z0, false, 0, by decide⟩, ⟨b15, false, 0, by decide⟩, ⟨z0, false, 70000, by decide⟩, ⟨c4, false, by decide⟩, ⟨b16, false, by
   decide⟩, ⟨b17, false, by decide⟩, ⟨b19, false, by decide⟩, ⟨z0, false, by decide⟩⟩

theorem witness_HourCountersCountAndClear :
    (∃ (s : State), s.powered 0 = true ∧ s.cur ≠ 0 ∧ 1000000 ≤ cellGet 0 s.mode.hourAcc s.cur)
    ∧ (∃ (s : State), s.powered 0 = true
      ∧ (match 0x0C1E0000 with | _ => decide ((s.cur = 9 ∨ s.cur = 10) ∧ s.writesOpen = true)) = true)
    ∧ (∃ (s : State) (w : Word), s.powered 0 = true ∧ (w.toNat / 65536 ≠ 0x0C1E ∨ s.cur ≠ 9 ∧ s.cur ≠ 10)) :=
  ⟨⟨b20, by decide⟩, ⟨b8, by decide⟩, ⟨z0, 0, by decide⟩⟩

theorem witness_ClockReferencesAct :
    (∃ (s : State), s.powered 4 = true ∧ s.flag CLK_STAT_TREFSEL = true)
    ∧ (∃ (s : State), s.powered 1 = true ∧ cellGet false s.flt.level (65536 * 361) = true) :=
  ⟨⟨b22, by decide⟩, ⟨b23, by decide⟩⟩

/-- Two allowed requests wait: the host's has the higher rank, and the engine's is overruled. -/
theorem witness_ArbitrationBeginsTheTransition_requests : b3.powered 0 = true
    ∧ b3.mode.reqs.filter (reqLegal b3) = [rq2 4] ++ rq 6 :: [] ∧ b3.mode.trans = none ∧ b3.mode.optRelease = [] ∧ b3.cur ≠ 1
    ∧ b3.cur ≠ 11 ∧ (∀ x ∈ [rq2 4], reqRank (rq 6) < reqRank x) := by decide

/-- A last tier of domains waits to come up. -/
theorem witness_DomainCommandsAct_last : ∃ x, c5.mode.trans = some x ∧ x.tiers = [[1, 2]] ∧ x.release = [] ∧ x.target ≠ 2 ∧ x.target < 11
    ∧ x.old ≠ 7 ∧ c5.mode.reqs = [] ∧ c5.flag SYS_MODECFG_FENCEDEG = false ∧ c5.powered 0 = true := ⟨_, rfl, by decide⟩

end Modes

/-! ## Start-up -/

namespace StartUp

def b0 := (allOn (inMode State.reset 5))
def wk (n : Nat) : State := let s := (allOn (inMode State.reset 2)).setFld SYS_BOOTSTAT_STEP n
  { s with mode := { s.mode with trans := none } }
def b1 := wk 1
def b2 := wk 2
def b3 := wk 3
def b4 := let s := wk 4
  { s with mode := { s.mode with trans := some ⟨{ src := .hw 1, target := 2, sdend := 0, key := 0, held := false }, 1, 2, [], []⟩ } }
def b5 := wk 5
def b6 := wk 6
def b7 := { wk 7 with boot := { (wk 7).boot with image := some (0, List.replicate 512 0) } }
def b8 := { wk 8 with boot := { (wk 8).boot with image := some (0, List.replicate 512 3) } }
def b9 := { wk 6 with boot := { (wk 6).boot with hostReq := true, hostWords := [1,2] } }
def b10 := (wk 6).setFlag SYS_BOOTCTL_WAITHOST true
def b11 := b0.setFlag SYS_QSPICMD_BUSY true
def fd (s : State) (r : Nat) : State := { s with boot := { s.boot with failDue := some r } }
def b13 := (fd (wk 5) 3).setFld SYS_BOOTCNT_LIMIT 3
def b14 := { wk 5 with boot := { (wk 5).boot with failing := some false } }
def b15 := { wk 5 with boot := { (wk 5).boot with failing := some true } }
def b16 := (inMode b0 3).setFld SYS_BOOTCNT_FAILS 4
def pl (k : Nat) : State := { inMode b0 3 with boot := { b0.boot with plRun := true, plWait := 0, plNext := k } }
def b17 := pl 0
def b18 := { b17 with boot := { b17.boot with plWait := 1 } }
def b19 := { b17 with boot := { b17.boot with plWait := 2, plNext := 1 } }
def b20 := b19.setFlag AUX_STAT_PG true 0
def prov (s : State) (f : Nat) (v : Word) : State := match (critFields 0).find? (fun x => x.1 == f) with
  | some x => { s with otp := { s.otp with snap := cellSet 0 (cellSet 0 s.otp.snap x.2.1 v) (x.2.1+1) (v ^^^ x.2.2) } } | none => s
def b26 := prov b6 0 0x3
def b33 := { b7 with otp := { b7.otp with snap := cellSet 0 b7.otp.snap 16 5 } }

/-- An array that reads as it was burnt keeps its own digest, whatever its words are. -/
theorem getD_three (g : Nat → Word) : (List.range 3).map (fun k => ((List.range 3).map g).getD k 0) = (List.range 3).map g := rfl
theorem digest_words (d : Nat) : (List.range 3).map (fun k => (digestWords d).getD k 0) = digestWords d := by
  unfold digestWords
  rw [getD_three]
theorem trim_word (s : State) (i : Nat) (h : i ∈ List.range 125) : trimRead s [] i = trimData s i := by
  rw [trimRead, List.foldl_nil, trimArray, if_pos (List.mem_range.mp h)]
theorem trim_digest (s : State) (k : Nat) : trimRead s [] (125 + k) =
    (digestWords (sha256 (wordsBytes ((List.range 125).map (trimData s))))).getD k 0 := by
  rw [trimRead, List.foldl_nil, trimArray, if_neg (by omega), Nat.add_sub_cancel_left]
theorem fdigest_undamaged (s : State) : fdigestOk s [] = true := by
  rw [fdigestOk, List.map_congr_left (trim_word s), List.map_congr_left (fun k _ => trim_digest s k), digest_words]
  exact beq_self_eq_true _
theorem regions_blank : (List.range 15).all (fun r => decide (regionState b3 r < 2)) = true := by decide +kernel
theorem parten_read : partenOk b3 [] 0 = true := by decide +kernel
theorem otp_sound : otpIntegrity b3 [] 0 = true := by
  unfold otpIntegrity
  rw [parten_read, fdigest_undamaged, Bool.true_and, Bool.true_and, List.all_eq_true]
  intro r h
  rw [List.all_eq_true.mp regions_blank r h]
  rfl

theorem witness_WakeStepsFollowInOrder :
    (∃ (s : State), s.powered 0 = true ∧ wakeAt s 1 = true ∧ s.fbit PDC_STAT_SWFAULT 1 = false ∧ safetyAborts s = false)
    ∧ (∃ (s : State), s.powered 1 = true ∧ wakeAt s 2 = true)
    ∧ (∃ (s : State) (damage : List (Fin 128 × Word)) (wires : Fin 1048576), s.powered 1 = true ∧ wakeAt s 3 = true
      ∧ otpIntegrity s damage wires = false)
    ∧ (∃ (s : State) (damage : List (Fin 128 × Word)) (wires : Fin 1048576), s.powered 1 = true ∧ wakeAt s 3 = true
      ∧ (wires.val % 2 = 1 ∨ damage = [(0, 1)]))
    ∧ (∃ (s : State) (damage : List (Fin 128 × Word)) (wires : Fin 1048576), s.powered 1 = true ∧ wakeAt s 3 = true
      ∧ otpIntegrity s damage wires = true ∧ s.boot.carry = false)
    ∧ (∃ (s : State), s.powered 4 = true
      ∧ (match s.mode.trans with | some x => decide (x.target = 2 ∧ x.tiers = [] ∧ s.cur = 2 ∧ s.fld SYS_BOOTSTAT_STEP = 4 ∧ s.mode.reqs = []) | _ => false) = true)
    ∧ (∃ (s : State) (fails : Fin 1024), s.powered 1 = true ∧ wakeAt s 5 = true ∧ fails.val = 0)
    ∧ (∃ (s : State) (fails : Fin 1024), s.powered 1 = true ∧ wakeAt s 5 = true ∧ fails.val ≠ 0) :=
  ⟨⟨b1, by decide⟩, ⟨b2, by decide⟩, ⟨b3, [], 5, by decide⟩, ⟨b3, [], 5, by decide⟩, ⟨b3, [], 0, by decide, by decide, otp_sound, by decide⟩, ⟨b4, by decide⟩, ⟨b5,
   0, by decide⟩, ⟨b5, 3, by decide⟩⟩

theorem witness_HostLoadAndFlashAct :
    (∃ (s : State), hostLoadOn s = true
      ∧ (wakeAt s 4 = true ∨ wakeAt s 5 = true ∨ wakeAt s 6 = true ∧ s.flag SYS_BOOTCTL_WAITHOST = true) ∧ HostWrites s 0 0x56)
    ∧ (∃ (s : State) (p : Fin 3) (key : Nat), hostLoadOn s = true
      ∧ (wakeAt s 4 = true ∨ wakeAt s 5 = true ∨ wakeAt s 6 = true ∧ s.flag SYS_BOOTCTL_WAITHOST = true) ∧ key ≠ 0x4C0D
      ∧ HostWrites s p 0x56)
    ∧ (∃ (s : State) (p : Fin 3), hostLoadOn s = true
      ∧ (wakeAt s 4 = true ∨ wakeAt s 5 = true ∨ wakeAt s 6 = true ∧ s.flag SYS_BOOTCTL_WAITHOST = true) ∧ p ≠ 0
      ∧ HostWrites s p 0x56)
    ∧ (∃ (s : State), s.boot.hostReq = true ∧ s.boot.image = none ∧ HostWrites s 0 0x57)
    ∧ (∃ (s : State) (m : Fin 64) (p : Fin 3), s.boot.hostReq = true ∧ s.boot.image = none ∧ p ≠ 0 ∧ m.val = 0x30 + p
      ∧ HostWrites s p 0x57)
    ∧ (∃ (s : State) (m : Fin 64), s.boot.hostReq = true ∧ s.boot.image = none ∧ m.val ≠ 0x30)
    ∧ (∃ (s : State), s.powered 1 = true ∧ wakeAt s 6 = true ∧ s.boot.hostReq = false ∧ s.boot.tried = []
      ∧ s.flag SYS_BOOTCTL_WAITHOST = false)
    ∧ (∃ (s : State), s.powered 1 = true ∧ wakeAt s 6 = true ∧ s.flag SYS_BOOTCTL_WAITHOST = true)
    ∧ (∃ (s : State), s.powered 1 = true ∧ wakeAt s 6 = true ∧ s.boot.hostReq = true ∧ hostStreamDone s = false)
    ∧ (∃ (s : State) (p : Fin 3), HostWrites s p 0x70 ∧ s.cur ≠ 2 ∧ s.flag SYS_QSPICMD_BUSY = true)
    ∧ (∃ (s : State) (p : Fin 3), HostWrites s p 0x70 ∧ s.cur ≠ 2 ∧ s.flag SYS_QSPICMD_BUSY = false)
    ∧ (∃ (s : State), s.powered 1 = true ∧ s.flag SYS_QSPICMD_BUSY = true) :=
  ⟨⟨b4, by decide⟩, ⟨b4, 0, 0, by decide⟩, ⟨b4, 1, by decide⟩, ⟨b9, by decide⟩, ⟨b9, 0x31, 1, by decide⟩, ⟨b9, 0x31, by decide⟩,
   ⟨b6, by decide⟩, ⟨b10, by decide⟩, ⟨b9, by decide⟩, ⟨b11, 0, by decide⟩, ⟨b0, 0, by decide⟩, ⟨b11, by decide⟩⟩

theorem witness_FailedStartsAreCounted :
    (∃ (s : State) (r : Fin 256), s.powered 0 = true ∧ s.cur = 2 ∧ s.boot.failDue = some r.val ∧ s.boot.failing = none)
    ∧ (∃ (s : State), s.powered 0 = true ∧ s.cur ≠ 2)
    ∧ (∃ (s : State), s.powered 0 = true ∧ s.cur = 2 ∧ s.boot.failing = some false)
    ∧ (∃ (s : State), s.powered 0 = true ∧ s.cur = 2 ∧ s.boot.failing = some true)
    ∧ (∃ (s : State), s.powered 0 = true ∧ (s.cur = 4 ∨ s.cur = 5))
    ∧ (∃ (s : State), s.powered 0 = true ∧ (match 0xB0070000 with | _ => decide ((s.cur = 3 ∨ s.cur = 9))) = true)
    ∧ (∃ (s : State) (w : Word), s.powered 0 = true ∧ (w.toNat / 65536 ≠ 0xB007 ∨ s.cur ≠ 3 ∧ s.cur ≠ 9)) :=
  ⟨⟨b13, 3, by decide⟩, ⟨b0, by decide⟩, ⟨b14, by decide⟩, ⟨b15, by decide⟩, ⟨b0, by decide⟩, ⟨b16, by decide⟩, ⟨b0, 0, by
   decide⟩⟩

theorem witness_PlinthSequenceSteps :
    (∃ (s : State), s.powered 0 = true ∧ s.cur = 3 ∧ s.boot.plRun = true ∧ s.boot.plWait = 0
      ∧ (match s.boot.plNext with | k => decide (k < 8 ∧ (match Word.bits (plStep s k) 31 28 with | _ => decide ((match Word.bits (plStep s k) 27 24 with | _ => decide (True)) = true)) = true)) = true)
    ∧ (∃ (s : State), s.powered 0 = true ∧ s.boot.plRun = true ∧ s.boot.plWait = 1)
    ∧ (∃ (s : State), s.powered 0 = true ∧ s.boot.plRun = true ∧ s.boot.plWait = 2 ∧ plPg s = true) :=
  ⟨⟨b17, by decide⟩, ⟨b18, by decide⟩, ⟨b20, by decide⟩⟩

/-- The 32 bytes of a number, the highest first. -/
def bytes32 (n : Nat) : List Byte := (List.range 32).map (fun i => BitVec.ofNat 8 (n >>> (8 * (31 - i))))
/-- An image of version `v` with the one program word 1, 2, 3, 4 and the two digests given. -/
def image (v : Byte) (body head : Nat) : List Byte :=
  [0x4C, 0x4E, 0x49, 0x4D, 1, 0, 0, 0, v, 0, 0, 0, 0, 0, 0, 0, 1, 0, 0, 0, 0, 0, 0, 0, 0, 0, 0, 0, 4, 0, 0, 0]
    ++ List.replicate 16 0 ++ List.replicate 64 0xFF ++ List.replicate 272 0 ++ bytes32 body ++ List.replicate 64 0 ++ bytes32 head
    ++ [1, 2, 3, 4]
/-- A sound image of version 1, and one of version 3 whose body digest is zero; the digests are those of an independent SHA-256. -/
def imgGood : List Byte := image 1 0x9f64a747e1b97f131fabb6b447296c9b6f0201e79fb3c5356e6c77e89b6a806a
  0x9e5cb2dec5b5dee6ab791dc8085ea1625ac11f47ec5338955319280ac1d5bd1f
def imgBad : List Byte := image 3 0 0x2ee6941fb074fbdcb1f1beb0c83cf1448753c06bad3c5d11088fbc864c7f366f

theorem test_good_candidate : imgCandidate b6 imgGood = true := by decide +kernel
theorem test_good_sound : imgFailure b6 imgGood = none := by decide +kernel
theorem test_bad_candidate : imgCandidate b6 imgBad = true := by decide +kernel
theorem test_bad_fails : imgFailure b6 imgBad = some 0x11 := by decide +kernel

/-- The words of a list of bytes, the lowest byte first. -/
def wordsOf : List Byte → List Word
  | a :: b :: c :: d :: l => (d ++ c ++ b ++ a) :: wordsOf l
  | _ => []

/-- The host has written the sound image, and 512 zero bytes. -/
def b27 : State := { wk 6 with boot := { (wk 6).boot with hostReq := true, hostWords := (wordsOf imgGood).reverse } }
def b28 : State := { wk 6 with boot := { (wk 6).boot with hostReq := true, hostWords := List.replicate 128 0 } }

theorem slots_good : flashFrom [(0, imgGood)] (slotBBase b6) = []
    ∧ flashFrom [(0, []), (slotBBase b6, imgGood)] (slotBBase b6) = imgGood := by decide +kernel
theorem slots_bad : flashFrom [(0, imgBad)] (slotBBase b6) = []
    ∧ flashFrom [(0, imgBad), (slotBBase b6, imgGood)] (slotBBase b6) = imgGood := by decide +kernel
theorem stream_good : hostStream b27 = imgGood := by decide +kernel
theorem stream_candidate : imgCandidate b27 imgGood = true := by
  rw [← test_good_candidate]
  unfold imgCandidate
  rw [show minImgVer b27 = minImgVer b6 by decide]
theorem stream_sound : imgFailure b27 imgGood = none := by
  rw [← test_good_sound]
  unfold imgFailure
  rw [show sigReq b27 = sigReq b6 by decide, show keyHash b27 = keyHash b6 by decide]
  rfl

/-- The slots: a sound image in either, a failing one alone and before a sound one, and no image with and without a host load. The host's
stream: unfinished, sound, and without an image. -/
theorem witness_ImagesLoadVerifyAndInstall :
    (b6.powered 1 = true ∧ wakeAt b6 6 = true ∧ b6.flag SYS_BOOTCTL_WAITHOST = false ∧ b6.boot.hostReq = false ∧ b6.boot.tried = []
      ∧ b6.boot.image = none ∧ imgCandidate b6 [] = false ∧ hostLoadOn b6 = true)
    ∧ (imgCandidate b6 imgGood = true ∧ imgFailure b6 imgGood = none ∧ imgCandidate b6 imgBad = true ∧ imgFailure b6 imgBad = some 0x11
      ∧ imgNum imgGood 8 4 ≤ imgNum imgBad 8 4)
    ∧ (b26.powered 1 = true ∧ wakeAt b26 6 = true ∧ b26.flag SYS_BOOTCTL_WAITHOST = false ∧ b26.boot.hostReq = false
      ∧ b26.boot.tried = [] ∧ b26.boot.image = none ∧ imgCandidate b26 [] = false ∧ hostLoadOn b26 = false)
    ∧ (b9.powered 1 = true ∧ wakeAt b9 6 = true ∧ b9.boot.hostReq = true ∧ hostStreamDone b9 = false)
    ∧ (b27.powered 1 = true ∧ wakeAt b27 6 = true ∧ b27.flag SYS_BOOTCTL_WAITHOST = false ∧ b27.boot.hostReq = true
      ∧ b27.boot.tried = [] ∧ b27.boot.image = none ∧ imgCandidate b27 imgGood = true ∧ imgFailure b27 imgGood = none)
    ∧ (wakeAt b28 6 = true ∧ b28.boot.hostReq = true ∧ hostStreamDone b28 = true ∧ imgCandidate b28 (hostStream b28) = false)
    ∧ (b7.powered 1 = true ∧ wakeAt b7 7 = true ∧ b7.boot.image.isSome = true ∧ signatureGood b7 (List.replicate 512 0) = true)
    ∧ (b33.powered 1 = true ∧ wakeAt b33 7 = true ∧ b33.boot.image.isSome = true ∧ signatureGood b33 (List.replicate 512 0) = false)
    ∧ (b8.powered 1 = true ∧ wakeAt b8 8 = true ∧ b8.boot.image.isSome = true)
    ∧ (b1.powered 1 = true ∧ b1.cur = 2 ∧ b1.boot.started = false ∧ b1.boot.failing = none) :=
  ⟨by decide, ⟨test_good_candidate, test_good_sound, test_bad_candidate, test_bad_fails, by decide +kernel⟩, by decide, by decide,
   ⟨by decide, by decide, by decide, by decide, by decide, by decide, stream_candidate, stream_sound⟩, by decide +kernel, by decide +kernel,
   by decide +kernel, by decide, by decide⟩

end StartUp

/-! ## Rails -/

namespace Rails

def b00 := (allOn (inMode { State.reset with mode := { State.reset.mode with trans := none } } 5))
def b0 := { b00.setFld ENG_STAT_PROG 5 5 with pmap := { b00.pmap with owner := [(2,5)] } }
def up (s : State) (l : List Nat) := l.foldl (fun s p => s.setFld PH_FXSTAT_LSTATE 6 p) s
def rl (s : State) : State := ((((s.setFld RL_PMAP_PMAP 7 2).setFld RL_ILIM_ILIM 100 2).setFld RL_VCEIL_VCEIL 2000000 2).setFld RL_VFLOOR_VFLOOR 1000 2).setFld RL_VSET_VSET 900000 2
def cfg (s : State) : State := up (rl s) [0,1,2]
def b1 := cfg b0
def st (s : State) (n : Nat) : State := s.setFld RL_STAT_STATE n 2
def b2 := (st b1 rsRegulate).setRail 2 { b1.rail 2 with gen := 700000*1024, target := 900000, managed := 1 }
def b3 := b2.setFlag RL_CTRL_STOPMODE true 2
def b5 := st b1 rsHiccupOff
def b6 := st b1 rsDraining
def b7 := ((b2.setFld RL_PHTH_ADDTH 100 2).setFld RL_PHBND_PHCEIL 16 2).setRail 2 { b2.rail 2 with addNs := 100000, shedNs := 100000000, managed := 1, limited := true }
def b8 := b7.setRail 2 { b7.rail 2 with addNs := 0, managed := 2 }
def b10 := b7.setFld RL_HICC_NCYC 0 2
def b16 := b2.setLink 1 { b2.link 1 with range := true }
def b17 := b3.setFlag SYS_BOOTSTAT_OTPHOLD true
def b18 := st b1 rsLatched

theorem witness_RailEnableAndDisable :
    (∃ (n : Fin 32) (s : State), (s.railPresent n = false ∨ s.railOpen n = false ∨ s.writesOpen = false))
    ∧ (∃ (n : Fin 32) (s : State), s.railPresent n = true ∧ s.railOpen n = true ∧ s.writesOpen = true ∧ railEnableMode s.cur = true
      ∧ railState s n = rsOff ∧ s.fld RL_PMAP_PMAP n ≠ 0 ∧ s.fld RL_ILIM_ILIM n ≠ 0
      ∧ s.fld RL_VFLOOR_VFLOOR n ≤ s.fld RL_VSET_VSET n ∧ s.fld RL_VSET_VSET n ≤ railCeil s n ∧ railHot s n = false
      ∧ s.powered 6 = true ∧ railService s n = railPhases s n)
    ∧ (∃ (n : Fin 32) (s : State), s.railPresent n = true ∧ s.railOpen n = true ∧ s.writesOpen = true
      ∧ (railEnableMode s.cur = false ∨ railState s n = rsFenced ∨ railState s n = rsDraining ∨ railState s n = rsSoftstart ∨ railState s n = rsRegulate ∨ railState s n = rsHiccupOff ∨ s.fld RL_PMAP_PMAP n = 0 ∨ s.fld RL_ILIM_ILIM n = 0 ∨ s.fld RL_VSET_VSET n < s.fld RL_VFLOOR_VFLOOR n ∨ railCeil s n < s.fld RL_VSET_VSET n ∨ railHot s n = true))
    ∧ (∃ (n : Fin 32) (s : State), s.railPresent n = true ∧ s.railOpen n = true ∧ s.writesOpen = true
      ∧ (railState s n = rsSoftstart ∨ railState s n = rsRegulate) ∧ s.flag RL_CTRL_STOPMODE n = false)
    ∧ (∃ (n : Fin 32) (s : State), s.railPresent n = true ∧ s.railOpen n = true ∧ s.writesOpen = true
      ∧ (railState s n = rsSoftstart ∨ railState s n = rsRegulate) ∧ s.flag RL_CTRL_STOPMODE n = true)
    ∧ (∃ (n : Fin 32) (s : State), s.railPresent n = true ∧ s.railOpen n = true ∧ s.writesOpen = true
      ∧ (railState s n = rsHiccupOff ∨ railState s n = rsLatched))
    ∧ (∃ (n : Fin 32) (s : State), s.railPresent n = true ∧ s.railOpen n = true ∧ s.writesOpen = true
      ∧ (railState s n = rsOff ∨ railState s n = rsFenced ∨ railState s n = rsDraining)) :=
  ⟨⟨2, b17, by decide⟩, ⟨2, b1, by decide⟩, ⟨2, b16, by decide⟩, ⟨2, b16, by decide⟩, ⟨2, b3, by decide⟩, ⟨2, b18, by decide⟩, ⟨2,
   b0, by decide⟩⟩

theorem witness_TargetsAreCheckedAndTaken :
    (∃ (m : Fin 51) (n : Fin 32) (v : Word) (s : State), s.railPresent n = true ∧ MasterWrites s m (0x1002 + 0x80 * n) v
      ∧ (match (if railMax s n < v.toNat then Status.outofrange else Status.outofbound) with | _ => decide ((railMax s n < v.toNat ∨ v.toNat < s.fld RL_VFLOOR_VFLOOR n ∨ s.fld RL_VCEIL_VCEIL n < v.toNat))) = true)
    ∧ (∃ (m : Fin 51) (n : Fin 32) (v : Word) (s : State), s.railPresent n = true ∧ MasterWrites s m (0x1002 + 0x80 * n) v
      ∧ v.toNat ≤ railMax s n ∧ s.fld RL_VFLOOR_VFLOOR n ≤ v.toNat ∧ v.toNat ≤ s.fld RL_VCEIL_VCEIL n
      ∧ (railState s n = rsSoftstart ∨ railState s n = rsRegulate) ∧ (s.rail n).target ≠ v.toNat
      ∧ (s.rail n).gen ≠ v.toNat * 1024)
    ∧ (∃ (m : Fin 51) (n : Fin 32) (v : Word) (s : State), s.railPresent n = true ∧ MasterWrites s m (0x1002 + 0x80 * n) v
      ∧ v.toNat ≤ railMax s n ∧ s.fld RL_VFLOOR_VFLOOR n ≤ v.toNat ∧ v.toNat ≤ s.fld RL_VCEIL_VCEIL n
      ∧ railState s n ≠ rsSoftstart ∧ railState s n ≠ rsRegulate) :=
  ⟨⟨5, 2, 0, b16, by decide⟩, ⟨5, 2, 500000, b16, by decide⟩, ⟨5, 2, 500000, b18, by decide⟩⟩

theorem witness_TheGeneratorMovesAtItsRate :
    (∃ (n : Fin 32) (s : State), s.railPresent n = true ∧ s.powered (railDomain n) = true ∧ s.powered 6 = true
      ∧ railState s n = rsRegulate ∧ s.fld RL_TRACK_MODE n = 0
      ∧ (match 1024 * max (s.fld RL_VFLOOR_VFLOOR n) (min (railCeil s n) (s.rail n).target) with | goal => decide ((match decide ((s.rail n).gen < goal) with | up => decide ((match max 1 (if (s.rail n).rate ≠ 0 then (s.rail n).rate else if up then s.fld RL_SLEW_UP n else s.fld RL_SLEW_DOWN n) with | fresh => decide ((match (match (s.rail n).move with | some (k, u) => if u = up then k else fresh | none => fresh) with | rate => decide ((match max 1 rate * (if s.flag RL_STAT_RATE n then 100 else 50) * 1024 / 1000 with | step => decide ((match (if (s.rail n).gen < goal then min goal ((s.rail n).gen + step) else max goal ((s.rail n).gen - step)) with | gen => decide (gen < 2 ^ 42)) = true)) = true)) = true)) = true)) = true)) = true) :=
  ⟨2, b16, by decide⟩

theorem witness_PhaseCommandsAct :
    (∃ (n : Fin 32) (s : State), s.powered (railDomain n) = true ∧ railRuns s n = true ∧ s.fld RL_PHTH_ADDTH n ≠ 0
      ∧ s.fld RL_PHDLY_ADDDLY n * 50 ≤ (s.rail n).addNs ∧ (s.rail n).addNs ≠ 0
      ∧ (match min (s.fld RL_PHBND_PHCEIL n) (railNsvc s n) with | top => decide ((match max ((s.rail n).managed + 1) (ceilDiv (s.sfld RL_IRAIL_IRAIL n).toNat (s.fld RL_PHTH_ADDTH n * 10)) with | want => decide ((s.rail n).managed < min want top)) = true)) = true)
    ∧ (∃ (n : Fin 32) (s : State), s.powered (railDomain n) = true ∧ railRuns s n = true ∧ s.fld RL_PHTH_ADDTH n ≠ 0
      ∧ s.fld RL_PHDLY_SHEDDLY n * 1000 ≤ (s.rail n).shedNs ∧ (s.rail n).shedNs ≠ 0
      ∧ s.fld RL_PHBND_PHFLOOR n < (s.rail n).managed)
    ∧ (∃ (n : Fin 32) (ph : Fin 64) (cause : Fin 6) (s : State), s.powered (railDomain n) = true ∧ railOfPhase s ph = some n.val
      ∧ fenceHolds s n ph cause = false)
    ∧ (∃ (n : Fin 32) (ph : Fin 64) (cause : Fin 6) (s : State), s.powered (railDomain n) = true ∧ railOfPhase s ph = some n.val
      ∧ fenceHolds s n ph cause = true ∧ railState s n = rsRegulate ∧ phInService s ph = true ∧ 2 ≤ railNsvc s n)
    ∧ (∃ (n : Fin 32) (s : State), s.powered (railDomain n) = true ∧ s.railPresent n = true ∧ s.railOpen n = true
      ∧ s.writesOpen = true ∧ railState s n = rsOff)
    ∧ (∃ (n : Fin 32) (s : State), s.powered (railDomain n) = true ∧ s.railPresent n = true ∧ railState s n ≠ rsOff) :=
  ⟨⟨2, b7, by decide⟩, ⟨2, b8, by decide⟩, ⟨2, 1, 0, b16, by decide⟩, ⟨2, 1, 3, b16, by decide⟩, ⟨2, b0, by decide⟩, ⟨2, b16, by
   decide⟩⟩

theorem witness_HiccupAndDrainAct :
    (∃ (n : Fin 32) (s : State), s.powered (railDomain n) = true ∧ railState s n = rsRegulate
      ∧ (match (if periodLimited s n then min 255 (s.fld RL_HSTAT_COUNT n + 1) else s.fld RL_HSTAT_COUNT n - 1) with | c => decide ((periodLimited s n = false ∨ c < max 1 (s.fld RL_HICC_NCYC n)))) = true)
    ∧ (∃ (n : Fin 32) (s : State), s.powered (railDomain n) = true ∧ railState s n = rsRegulate
      ∧ (match (if periodLimited s n then min 255 (s.fld RL_HSTAT_COUNT n + 1) else s.fld RL_HSTAT_COUNT n - 1) with | c => decide (periodLimited s n = true ∧ max 1 (s.fld RL_HICC_NCYC n) ≤ c)) = true)
    ∧ (∃ (n : Fin 32) (s : State), s.powered (railDomain n) = true ∧ railState s n = rsHiccupOff ∧ railService s n = railPhases s n
      ∧ railPhases s n ≠ [])
    ∧ (∃ (n : Fin 32) (s : State), s.powered (railDomain n) = true ∧ s.railPresent n = true ∧ s.railOpen n = true
      ∧ s.writesOpen = true)
    ∧ (∃ (n : Fin 32) (s : State), s.powered (railDomain n) = true ∧ railState s n = rsDraining ∧ s.mode.trans = none
      ∧ s.mode.optRelease = []) :=
  ⟨⟨2, b16, by decide⟩, ⟨2, b10, by decide⟩, ⟨2, b5, by decide⟩, ⟨2, b16, by decide⟩, ⟨2, b6, by decide⟩⟩

end Rails

/-! ## Fenxo links -/

namespace Links

def b0 := (allOn (inMode State.reset 5)).setFlag CLK_STAT_TIMELOCK true
def lk (st v : Nat) : State := ((b0.setLink 5 { b0.link 5 with ver := v }).setFld PH_FXSTAT_LSTATE st 5).setFld PH_FXCTRL_ERRLIM 0 5
def b1 := lk lsSetup 1
def b4 := (lk lsUp 2)
def b5 := let s := lk lsUp 1
  s.setLink 5 { s.link 5 with bads := 3 }
def b6 := b0.setFlag PH_FXCTRL_EN true 5
def b7 := ((lk lsLost 1).setFlag PH_FXCTRL_EN true 5).setFlag PH_FXCTRL_AUTORT true 5
def b8 := let s := b6
  (s.setLink 5 { s.link 5 with retry := true }).setFld PH_FXSTAT_ATTEMPT 1 5
def b9 := lk lsAlign 1
def b10 := b9.setLink 5 { b9.link 5 with count := 63 }
def b11 := let s := lk lsCaps 1
  s.setLink 5 { s.link 5 with cap := some (3,1,2,3,4), count := 7 }
def b12 := lk lsRtt 2
def b13 := (lk lsRtt 2).setFld PH_FXSTAT_ATTEMPT 3 5
def b15 := let s := { b0 with mode := { b0.mode with trans := none } }
  s.setLink 5 { s.link 5 with draining := 5 }
def b16 := let s := lk lsUp 2
  s.setLink 5 { s.link 5 with sent := [{ code := 3, arg := 0x1234, resends := 3 }] }
def b17 := let s := lk lsUp 2
  s.setLink 5 { s.link 5 with sent := [{ code := 3, arg := 0x1234, resends := 1 }] }
def mkUp (v : Nat) (rise : Option Nat) (placed : Option Nat) (d p0 : Nat) : State :=
  let s := (lk lsUp v).setFld RL_PMAP_PMAP 0 2
  let s := ((s.setFld RL_PMAP_PMAP 32 0).setFld RL_STAT_STATE rsRegulate 0).setFld RL_DUTY_D d 0
  let s := s.setRail 0 { s.rail 0 with start := some p0, managed := 1 }
  s.setLink 5 { s.link 5 with drv := true, rise := rise, placed := placed, window := 0, framed := false }
def b21 := b0.setFlag PH_FXCTRL_EN false 5
def b23 := inMode b4 3

theorem witness_DownstreamFramesCarryTheirFields :
    (∃ (l : Fin 72) (b : Nat) (s : State) (c : Nat) (a : Nat), s.powered (linkDomain l) = true ∧ (64 ≤ l.val ∨ s.phPresent l = true)
      ∧ (match s.link l with | h => decide (h.draining = 0 ∧ frameDue h b = true ∧ (h.ver = 1 ∨ h.ver = 2 ∨ h.ver = 3) ∧ (h.cmds = [] ∧ c = 0 ∧ a = 0 ∨ (match h.cmds with | x :: _ => decide (c = x.code ∧ a = x.arg) | [] => false) = true) ∧ lstate s l = lsSetup)) = true)
    ∧ (∃ (l : Fin 72) (b : Nat) (s : State) (c : Nat) (a : Nat), s.powered (linkDomain l) = true ∧ (64 ≤ l.val ∨ s.phPresent l = true)
      ∧ (match s.link l with | h => decide (h.draining = 0 ∧ frameDue h b = true ∧ (h.ver = 1 ∨ h.ver = 2 ∨ h.ver = 3) ∧ (h.cmds = [] ∧ c = 0 ∧ a = 0 ∨ (match h.cmds with | x :: _ => decide (c = x.code ∧ a = x.arg) | [] => false) = true) ∧ (match railOfPhase s l with | some n => decide ((match (s.rail n).start with | some p0 => decide ((match 512 * b with | w => decide ((match (if h.ver = 1 then 1024 else 512) with | _ => decide ((match max w (riseTick s n l p0) with | _ => decide ((match onTicks s n l with | _ => decide (l.val < 64 ∧ lstate s l = lsUp ∧ railRuns s n = true ∧ cellGet 0 s.flt.phF l = 0 ∧ phActive s n l = true ∧ h.drv = true)) = true)) = true)) = true)) = true) | _ => false) = true) | _ => false) = true)) = true) :=
  ⟨⟨5, 0, b1, 0, 0, by decide⟩, ⟨5, 0, mkUp 3 none none 0x100 500, 0, 0, by decide⟩⟩

theorem witness_UpstreamFramesAreJudged :
    (∃ (l : Fin 72) (f : BitVec 64) (codeOk : Bool) (ref : Fin 16) (s : State), s.powered (linkDomain l) = true
      ∧ (64 ≤ l.val ∨ s.phPresent l = true) ∧ lstate s l = lsUp ∧ (s.link l).draining = 0
      ∧ (match upFields (s.link l).ver f with | u => decide (frameSound (s.link l) u codeOk = true ∧ (ref.val + 16 - u.dseq) % 16 = s.fld PH_RTT_LAG l ∧ u.status.testBit 6 = false)) = true)
    ∧ (∃ (l : Fin 72) (f : BitVec 64) (codeOk : Bool) (ref : Fin 16) (s : State), s.powered (linkDomain l) = true
      ∧ (64 ≤ l.val ∨ s.phPresent l = true) ∧ lstate s l = lsUp ∧ (s.link l).draining = 0
      ∧ (match upFields (s.link l).ver f with | u => decide ((frameSound (s.link l) u codeOk = false ∨ (ref.val + 16 - u.dseq) % 16 ≠ s.fld PH_RTT_LAG l) ∧ s.fld PH_FXCTRL_ERRLIM l = 0 ∧ (s.link l).bads < 3)) = true)
    ∧ (∃ (l : Fin 72) (f : BitVec 64) (codeOk : Bool) (ref : Fin 16) (s : State), s.powered (linkDomain l) = true
      ∧ (64 ≤ l.val ∨ s.phPresent l = true) ∧ lstate s l = lsUp ∧ (s.link l).draining = 0
      ∧ (match upFields (s.link l).ver f with | u => decide ((frameSound (s.link l) u codeOk = false ∨ (ref.val + 16 - u.dseq) % 16 ≠ s.fld PH_RTT_LAG l) ∧ s.fld PH_FXCTRL_ERRLIM l = 0 ∧ (s.link l).bads = 3)) = true) :=
  ⟨⟨5, BitVec.ofNat 64 (crc8 56 0), true, 0, mkUp 2 (some 20) (some 20) 0x4000 20, by decide⟩, ⟨5, BitVec.ofNat 64 (crc8 56 0),
   true, 0, mkUp 3 none none 0x100 500, by decide⟩, ⟨5, BitVec.ofNat 64 (crc8 56 0), true, 5, b5, by decide⟩⟩

theorem witness_TrainingFollowsItsSteps :
    (∃ (l : Fin 72) (s : State), s.powered (linkDomain l) = true ∧ (64 ≤ l.val ∨ s.phPresent l = true)
      ∧ s.flag PH_FXCTRL_EN l = true ∧ s.flag CLK_STAT_TIMELOCK = true ∧ linkGoing s l = false ∧ lstate s l = lsDown)
    ∧ (∃ (l : Fin 72) (s : State), s.powered (linkDomain l) = true ∧ (64 ≤ l.val ∨ s.phPresent l = true)
      ∧ s.flag PH_FXCTRL_EN l = true ∧ s.flag CLK_STAT_TIMELOCK = true ∧ linkGoing s l = false ∧ lstate s l = lsLost
      ∧ s.flag PH_FXCTRL_AUTORT l = true)
    ∧ (∃ (l : Fin 72) (s : State), s.powered (linkDomain l) = true ∧ (64 ≤ l.val ∨ s.phPresent l = true)
      ∧ s.flag PH_FXCTRL_EN l = true ∧ s.flag CLK_STAT_TIMELOCK = true ∧ linkGoing s l = false ∧ s.writesOpen = true
      ∧ (if l.val < 64 then phaseBusy s l = false else lxQuiet s ((l - 64) % 4) = true))
    ∧ (∃ (l : Fin 72) (s : State), s.powered (linkDomain l) = true ∧ (64 ≤ l.val ∨ s.phPresent l = true)
      ∧ s.flag PH_FXCTRL_EN l = true ∧ s.flag CLK_STAT_TIMELOCK = true ∧ linkGoing s l = false ∧ (s.link l).retry = true
      ∧ s.fld PH_FXSTAT_ATTEMPT l < 3)
    ∧ (∃ (l : Fin 72) (s : State), s.powered (linkDomain l) = true ∧ (64 ≤ l.val ∨ s.phPresent l = true)
      ∧ (s.flag PH_FXCTRL_EN l = false ∨ s.flag CLK_STAT_TIMELOCK = false ∨ linkGoing s l = true))
    ∧ (∃ (l : Fin 72) (s : State), s.powered (linkDomain l) = true ∧ (64 ≤ l.val ∨ s.phPresent l = true) ∧ lstate s l = lsAlign
      ∧ (s.link l).retry = false ∧ (s.link l).draining = 0 ∧ (s.link l).count < 63)
    ∧ (∃ (l : Fin 72) (s : State), s.powered (linkDomain l) = true ∧ (64 ≤ l.val ∨ s.phPresent l = true) ∧ lstate s l = lsAlign
      ∧ (s.link l).retry = false ∧ (s.link l).draining = 0 ∧ 63 ≤ (s.link l).count)
    ∧ (∃ (l : Fin 72) (s : State) (crc : Nat), s.powered (linkDomain l) = true ∧ (64 ≤ l.val ∨ s.phPresent l = true)
      ∧ (match (s.link l).cap with | some (vmax, ish, ir, fl, rev) => decide (lstate s l = lsCaps ∧ (s.link l).retry = false ∧ (s.link l).draining = 0 ∧ capValid 0x81 vmax ish ir fl rev crc = true ∧ (s.link l).count = 7 ∧ 0 < vmax) | _ => false) = true)
    ∧ (∃ (l : Fin 72) (s : State) (k : Nat), s.powered (linkDomain l) = true ∧ (64 ≤ l.val ∨ s.phPresent l = true)
      ∧ lstate s l = lsRtt ∧ (s.link l).retry = false ∧ (s.link l).draining = 0 ∧ k ≤ 10240 ∧ (s.link l).rtts < 3)
    ∧ (∃ (l : Fin 72) (s : State), s.powered (linkDomain l) = true ∧ (64 ≤ l.val ∨ s.phPresent l = true) ∧ inTraining s l = true
      ∧ s.fld PH_FXSTAT_ATTEMPT l < max 1 (s.fld PH_FXCTRL_ATTEMPTS l))
    ∧ (∃ (l : Fin 72) (s : State), s.powered (linkDomain l) = true ∧ (64 ≤ l.val ∨ s.phPresent l = true) ∧ inTraining s l = true
      ∧ max 1 (s.fld PH_FXCTRL_ATTEMPTS l) ≤ s.fld PH_FXSTAT_ATTEMPT l) :=
  ⟨⟨66, mkUp 3 none none 0x100 500, by decide⟩, ⟨5, b7, by decide⟩, ⟨66, mkUp 3 none none 0x100 500, by decide⟩, ⟨5, b8, by
   decide⟩, ⟨5, b15, by decide⟩, ⟨5, b9, by decide⟩, ⟨5, b10, by decide⟩, ⟨5, b11, crc8 48 (((((0x81 * 256 + 3) * 256 + 1) * 256
   + 2) * 256 + 3) * 256 + 4), by decide⟩, ⟨5, b12, 0, by decide⟩, ⟨5, b1, by decide⟩, ⟨5, b13, by decide⟩⟩

theorem witness_LinkCommandsAct :
    (∃ (l : Fin 72) (s : State), s.powered (linkDomain l) = true ∧ (64 ≤ l.val ∨ s.phPresent l = true) ∧ s.writesOpen = true
      ∧ s.flag PH_FXCTRL_EN l = false)
    ∧ (∃ (l : Fin 72) (s : State), s.powered (linkDomain l) = true ∧ (64 ≤ l.val ∨ s.phPresent l = true) ∧ s.writesOpen = true
      ∧ s.flag PH_FXCTRL_EN l = true ∧ lstate s l ≠ lsDown ∧ (s.link l).draining = 0)
    ∧ (∃ (l : Fin 72) (s : State), s.powered (linkDomain l) = true ∧ (64 ≤ l.val ∨ s.phPresent l = true) ∧ s.writesOpen = true
      ∧ (if l.val < 64 then phaseBusy s l = false else lxQuiet s ((l - 64) % 4) = true) ∧ lstate s l = lsUp)
    ∧ (∃ (l : Fin 72) (s : State), s.powered (linkDomain l) = true ∧ (64 ≤ l.val ∨ s.phPresent l = true) ∧ s.writesOpen = true
      ∧ (if l.val < 64 then phaseBusy s l = false else lxQuiet s ((l - 64) % 4) = true) ∧ lstate s l ≠ lsUp)
    ∧ (∃ (l : Fin 72) (s : State), s.powered (linkDomain l) = true ∧ (64 ≤ l.val ∨ s.phPresent l = true) ∧ s.writesOpen = false)
    ∧ (∃ (l : Fin 72) (s : State), s.powered (linkDomain l) = true ∧ (64 ≤ l.val ∨ s.phPresent l = true) ∧ (s.link l).draining ≠ 0)
    ∧ (∃ (l : Fin 72) (s : State), s.powered (linkDomain l) = true ∧ (64 ≤ l.val ∨ s.phPresent l = true)
      ∧ (match (s.link l).sent with | x :: _ => decide (x.resends < 3) | _ => false) = true)
    ∧ (∃ (l : Fin 72) (s : State), s.powered (linkDomain l) = true ∧ (64 ≤ l.val ∨ s.phPresent l = true)
      ∧ (match (s.link l).sent with | x :: _ => decide (3 ≤ x.resends ∧ lstate s l = lsUp) | _ => false) = true) :=
  ⟨⟨5, b21, by decide⟩, ⟨5, mkUp 3 none none 0x100 500, by decide⟩, ⟨5, b4, by decide⟩, ⟨66, mkUp 3 none none 0x100 500, by
   decide⟩, ⟨5, b23, by decide⟩, ⟨5, b15, by decide⟩, ⟨5, b17, by decide⟩, ⟨5, b16, by decide⟩⟩

/-- What starts or repeats a training, each with its conditions. -/
theorem witness_TrainingFollowsItsSteps_starts :
    (b6.powered (linkDomain 5) = true ∧ b6.phPresent 5 = true ∧ lstate b6 5 = lsDown ∧ b6.flag PH_FXCTRL_EN 5 = true
      ∧ b6.flag CLK_STAT_TIMELOCK = true ∧ phaseBusy b6 5 = false)
    ∧ (lstate b7 5 = lsLost ∧ b7.flag PH_FXCTRL_AUTORT 5 = true ∧ b7.flag PH_FXCTRL_EN 5 = true)
    ∧ ((b8.link 5).retry = true ∧ b8.fld PH_FXSTAT_ATTEMPT 5 + 1 < 4) := by decide

/-- Phase 5 of rail 0, in UP and driven, in the first window. -/
def upFrame (s : State) : Bool := s.powered (linkDomain 5) && s.phPresent 5 && (s.link 5).draining == 0 && frameDue (s.link 5) 0
  && lstate s 5 == lsUp && railOfPhase s 5 == some 0 && railRuns s 0 && cellGet 0 s.flt.phF 5 == 0 && phActive s 0 5 && (s.link 5).drv
def u1 : State := mkUp 3 none none 0x100 300
def u2 : State := mkUp 2 none (some 500) 0x100 500
def u3 : State := mkUp 3 none none 0x8000 300
def u4 : State := mkUp 1 (some 20) (some 20) 0x10 20
def u5 : State := mkUp 2 (some 20) (some 20) 0x4000 20
def u6 : State := mkUp 3 none none 0x9000 9000

/-- What an UP frame carries: the two edges of a pulse, one of them, none, and the fall of the pulse in progress, in this window or later. -/
theorem witness_DownstreamFramesCarryTheirFields_edges :
    (∀ s ∈ [u1, u2, u3, u4, u5, u6], upFrame s = true)
    ∧ (riseTick u1 0 5 300 < 512 ∧ onTicks u1 0 5 ≠ 0 ∧ riseTick u1 0 5 300 + onTicks u1 0 5 < 512)
    ∧ (riseTick u3 0 5 300 < 512 ∧ onTicks u3 0 5 ≠ 0 ∧ 512 ≤ riseTick u3 0 5 300 + onTicks u3 0 5)
    ∧ ((u2.link 5).rise = none ∧ (u2.link 5).placed = some 500 ∧ (u2.rail 0).start = some 500)
    ∧ (512 ≤ riseTick u6 0 5 9000)
    ∧ (20 + onTicks u4 0 5 < 1024 ∧ 512 ≤ 20 + onTicks u5 0 5) := by decide

end Links

/-! ## The link converter -/

namespace Modules

def b0 := ((allOn (inMode { State.reset with mode := { State.reset.mode with trans := none } } 5)).setFlag CLK_STAT_CORELOCK true)
def up (s : State) (l : List Nat) := l.foldl (fun s p => (s.setFld PH_FXSTAT_LSTATE 6 p).setFld PH_FXSTAT_VER 2 p) s
def c (s : State) : State := (((((s.setFld LXM_XFMR_NTR 5 1).setFld LXM_XFMR_LLK 5 1).setFld LXM_KI_KII 5 1).setFld LXM_DT_DTA 5 1).setFld LXM_DT_DTB 5 1)
def b1 := c (up b0 [65, 69])
def st (s : State) (n : Nat) := setLxState s 1 n
def b2 := st b1 lxTripped
def b3 := st b1 lxRun
def b4 := st b1 lxStart
def b5 := st b1 lxDraining
def b6 := ((st b1 lxWait).setFld PH_TELV_VIN 5000 65).setFld PH_TELV_VIN 5000 69
def b7 := ((b3.setFld LXM_HVOV_V 100 1).setFld LXM_LVOV_V 100 1).setFld LXM_VHV_V 200 1
def b8 := ((b3.setFld LXM_HVOV_V 100 1).setFld LXM_LVOV_V 100 1).setFld LXM_VLV_V 200 1
def b10 := (b3.setFld LXM_STAT_PCST 1 1)
def b11 := b10.setFld LXM_VHV_V 0xFFFFFFFF 1
def b12 := st { b1 with flt := { b1.flt with lxF := [(1, true)] } } lxFenced
def b16 := (b6.setFld LXM_HVUV_V 10 1).setFld LXM_LVUV_V 10 1
def b17 := (st b1 lxStopping).setFld LXM_HVOV_V 100 1
def b19 := { b3 with chk := { b3.chk with xrst := [37] } }
def b22 := (b3.setFld LXM_HVUV_V 0 1).setFld LXM_LVUV_V 0 1
def b23 := (b4.setFld LXM_HVUV_V 0 1).setFld LXM_LVUV_V 0 1

theorem witness_ModulesStartAndStop :
    (∃ (m : Fin 4) (s : State), s.powered 9 = true ∧ s.lxOpen m = false)
    ∧ (∃ (m : Fin 4) (s : State), s.powered 9 = true ∧ s.lxOpen m = true ∧ (lxState s m = lxOff ∨ lxState s m = lxTripped)
      ∧ lstate s (64 + m) = lsUp ∧ lstate s (68 + m) = lsUp ∧ s.fld PH_FXSTAT_VER (64 + m) ≠ 1
      ∧ s.fld PH_FXSTAT_VER (68 + m) ≠ 1 ∧ lxMode s.cur = true ∧ s.fld LXM_XFMR_NTR m ≠ 0 ∧ s.fld LXM_XFMR_LLK m ≠ 0
      ∧ s.fld LXM_KI_KII m ≠ 0 ∧ s.fld LXM_DT_DTA m ≠ 0 ∧ s.fld LXM_DT_DTB m ≠ 0
      ∧ (s.flag LXM_CTRL_PCHG m = true → s.fld LXM_CTRL_CMODE m = 2 ∧ s.flag LXM_CTRL_REVEN m = true)
      ∧ (s.flag LXM_CTRL_CHGEN m = true → s.fld LXM_CTRL_CMODE m ≠ 2) ∧ lxDisagrees s m = false
      ∧ nodeShutdown s (64 + m) = false ∧ nodeShutdown s (68 + m) = false)
    ∧ (∃ (m : Fin 4) (s : State), s.powered 9 = true ∧ s.lxOpen m = true ∧ lxState s m = lxOff
      ∧ (lstate s (64 + m) ≠ lsUp ∨ lstate s (68 + m) ≠ lsUp ∨ lxMode s.cur = false ∨ s.fld LXM_XFMR_NTR m = 0 ∨ s.fld LXM_KI_KII m = 0 ∨ s.fld LXM_DT_DTA m = 0))
    ∧ (∃ (m : Fin 4) (s : State), s.powered 9 = true ∧ s.lxOpen m = true
      ∧ (lxState s m = lxStart ∨ lxState s m = lxRun ∨ lxState s m = lxReversing ∨ lxState s m = lxWait))
    ∧ (∃ (m : Fin 4) (s : State), s.powered 9 = true ∧ s.lxOpen m = true ∧ lxState s m = lxTripped)
    ∧ (∃ (m : Fin 4) (s : State), s.powered 9 = true ∧ lxState s m = lxStart ∧ 17 ≤ (s.lxm m).halves)
    ∧ (∃ (m : Fin 4) (s : State), s.powered 9 = true ∧ lxState s m = lxStart ∧ (s.lxm m).halves < 17)
    ∧ (∃ (m : Fin 4) (s : State), s.powered 9 = true ∧ lxState s m = lxDraining ∧ s.mode.trans = none ∧ s.mode.optRelease = [])
    ∧ (∃ (m : Fin 4) (s : State), s.powered 9 = true
      ∧ (match lxSides s m (s.fld PH_TELV_VIN (64 + m)) (s.fld PH_TELV_VIN (68 + m)) with | (sv, sth, _, _) => decide (lxState s m = lxWait ∧ sth * 102 ≤ sv * 100)) = true) :=
  ⟨⟨1, b19, by decide⟩, ⟨1, b1, by decide⟩, ⟨1, b0, by decide⟩, ⟨1, b4.setLxm 1 { b4.lxm 1 with halves := 18 }, by decide⟩, ⟨1,
   b2, by decide⟩, ⟨1, b4.setLxm 1 { b4.lxm 1 with halves := 18 }, by decide⟩, ⟨1, b23, by decide⟩, ⟨1, b5, by decide⟩, ⟨1, b16,
   by decide⟩⟩

theorem witness_ModuleUpdatesTripWaitOrSwitch :
    (∃ (m : Fin 4) (s : State), s.powered 9 = true
      ∧ (match lxNote (lxTakeMeans s m) m with | u => decide (lxEnabled (lxState s m) = true ∧ u.fld LXM_HVOV_V m < u.fld LXM_VHV_V m)) = true)
    ∧ (∃ (m : Fin 4) (s : State), s.powered 9 = true
      ∧ (match lxNote (lxTakeMeans s m) m with | u => decide (lxEnabled (lxState s m) = true ∧ u.fld LXM_VHV_V m ≤ u.fld LXM_HVOV_V m ∧ u.fld LXM_LVOV_V m < u.fld LXM_VLV_V m)) = true)
    ∧ (∃ (m : Fin 4) (s : State), s.powered 9 = true
      ∧ (match lxNote (lxTakeMeans s m) m with | u => decide (u.fld LXM_VHV_V m ≤ u.fld LXM_HVOV_V m ∧ u.fld LXM_VLV_V m ≤ u.fld LXM_LVOV_V m ∧ (match lxSides u m (u.fld LXM_VHV_V m) (u.fld LXM_VLV_V m) with | (sv, sth, _, _) => decide ((lxState s m = lxStart ∨ lxState s m = lxRun) ∧ sv < sth)) = true)) = true)
    ∧ (∃ (m : Fin 4) (s : State), s.powered 9 = true
      ∧ (match lxNote (lxTakeMeans s m) m with | u => decide (u.fld LXM_VHV_V m ≤ u.fld LXM_HVOV_V m ∧ u.fld LXM_VLV_V m ≤ u.fld LXM_LVOV_V m ∧ (match lxSides u m (u.fld LXM_VHV_V m) (u.fld LXM_VLV_V m) with | (sv, sth, _, _) => decide ((lxState s m = lxStart ∨ lxState s m = lxRun) ∧ sth ≤ sv)) = true)) = true)
    ∧ (∃ (m : Fin 4) (s : State), s.powered 9 = true
      ∧ (match lxNote (lxTakeMeans s m) m with | u => decide (u.fld LXM_VHV_V m ≤ u.fld LXM_HVOV_V m ∧ u.fld LXM_VLV_V m ≤ u.fld LXM_LVOV_V m ∧ lxState s m = lxWait)) = true)
    ∧ (∃ (m : Fin 4) (s : State), s.powered 9 = true
      ∧ (match lxNote (lxTakeMeans s m) m with | u => decide (u.fld LXM_VHV_V m ≤ u.fld LXM_HVOV_V m ∧ u.fld LXM_VLV_V m ≤ u.fld LXM_LVOV_V m ∧ lxState s m = lxStopping ∧ (s.lxm m).phi = 0 ∧ (s.lxm m).phiHalf = 0 ∧ (s.lxm m).w = 0 ∧ (s.lxm m).restart = false)) = true)
    ∧ (∃ (m : Fin 4) (s : State), s.powered 9 = true
      ∧ (match lxNote (lxTakeMeans s m) m with | _ => decide (lxEnabled (lxState s m) = false)) = true) :=
  ⟨⟨1, b7.setFlag CLK_STAT_CORELOCK false, by decide⟩, ⟨1, b8, by decide⟩, ⟨1, b4.setLxm 1 { b4.lxm 1 with halves := 18 }, by
   decide⟩, ⟨1, b22, by decide⟩, ⟨1, b6, by decide⟩, ⟨1, b17, by decide⟩, ⟨1, b0, by decide⟩⟩

theorem witness_ModuleCommandsAct :
    (∃ (m : Fin 4) (w : Word) (s : State), s.powered 9 = true ∧ s.lxOpen m = true ∧ 3 ≤ Word.bits w 6 4)
    ∧ (∃ (m : Fin 4) (w : Word) (s : State), s.powered 9 = true ∧ s.lxOpen m = true ∧ Word.bits w 6 4 < 3 ∧ lxState s m = lxOff)
    ∧ (∃ (m : Fin 4) (w : Word) (s : State), s.powered 9 = true ∧ s.lxOpen m = true ∧ Word.bits w 6 4 < 3 ∧ lxState s m = lxRun
      ∧ lxDiffers w (s.reg LXM_CTRL m) = true)
    ∧ (∃ (m : Fin 4) (s : State), s.powered 9 = true ∧ s.lxOpen m = true ∧ lxState s m = lxFenced)
    ∧ (∃ (m : Fin 4) (key : Fin 65536) (s : State), s.powered 9 = true ∧ s.lxOpen m = true ∧ key.val ≠ 0x1F3C)
    ∧ (∃ (m : Fin 4) (s : State), s.powered 9 = true ∧ s.lxOpen m = false)
    ∧ (∃ (m : Fin 4) (s : State), s.powered 9 = true ∧ s.fld LXM_STAT_PCST m = 1 ∧ (lxState s m = lxStart ∨ lxState s m = lxRun)
      ∧ inPcBand s m = true)
    ∧ (∃ (m : Fin 4) (s : State), s.powered 9 = true ∧ s.fld LXM_STAT_PCST m = 1 ∧ lxEnabled (lxState s m) = true
      ∧ inPcBand s m = false ∧ (s.lxm m).banded = false) :=
  ⟨⟨1, 0x70, b4.setLxm 1 { b4.lxm 1 with halves := 18 }, by decide⟩, ⟨1, 0, b0, by decide⟩, ⟨1, 0, b7.setFlag CLK_STAT_CORELOCK
   false, by decide⟩, ⟨1, b12, by decide⟩, ⟨1, 0, b4.setLxm 1 { b4.lxm 1 with halves := 18 }, by decide⟩, ⟨1, b19, by decide⟩,
   ⟨1, b10, by decide⟩, ⟨1, b11, by decide⟩⟩

end Modules

/-! ## Intent ports -/

namespace Intents

def b0 := (allOn (inMode { State.reset with mode := { State.reset.mode with trans := none } } 5))
def live (s : State) (p v : Nat) : State := ((s.setFld IP_STAT_PSTATE psLive p).setFld IP_STAT_VER v p)
def vec (s : State) (g : Nat) (l : List (Nat × VecAns)) : State := s.setGroup g { s.group g with active := { answers := l, epoch := 3 } }
def ent : Entry := ⟨0x84010203, 0x00005000, 0x12010000 ||| (5 <<< 5 : Word), 0⟩
def gr : VecAns := { ans := .grant, bank := 0, entry := ent }
def vs : List (Nat × VecAns) := [(64+1, gr), (64+2, { ans := .defer, cause := 5, short := 7 }), (64+3, {ans := .refuse}), (64+32, gr), (64+63, {ans := .defer, cause := 2})]
def b1 := vec (live b0 5 1) 1 vs
def b2 := vec (live b0 5 2) 1 vs
def b3 := b2.setPort 5 { b2.port 5 with first := some 1 }
def b4 := b1.setPort 5 { b1.port 5 with fifo := List.replicate 4 ⟨true,0,63,{},0⟩ }
def b5 := (b0.setFld IPT_GRP_IOSTAT 1 1)
def b6 := (b5.setFld IP_STAT_PSTATE psHandshake 5).setFld IP_CTRL_VMAX 2 5
def b7 := (((b0.setFld IP_STAT_PSTATE psClklost 5).setStopped 1 true).setFld IPT_GRP_IOSTAT 1 1)
def regl (s : State) (n : Nat) : State := s.setFld RL_STAT_STATE rsRegulate n
def gb (rel : Bool) (sc : Nat) : Beat := ⟨rel, 1, sc, gr, 0⟩
def b8 := (((regl b1 2).setFld IP_ALLOW_ALLOW 20 5).setFld BUD_IPCFG_ALMAX 100 5).setPort 5 { b1.port 5 with fifo := [gb false 63, ⟨true,0,63,{},0⟩] }
def st (o : Out) (s : State) : State := match o with | .next t => t | _ => s
def b10 := let t := st (execGrantProcessing 5 b8) b8
  t.setPort 5 { t.port 5 with fifo := [gb true 63] }
def b11 := b10.setFld IP_OPEN_STATE 2 5
def b12 := (st (execGrantVectorPublish 1 (b8.setPort 5 {}))) b0
def b19 := { b10 with tbase := 2000 }

theorem witness_PortsAnswerBeats :
    (∃ (p : Fin 16) (c : Fin 64) (s : State), s.powered 4 = true ∧ portSamples s p = true ∧ (s.port p).fifo.length < 4 ∧ c ≠ 0
      ∧ (s.port p).first = none ∧ s.fld IP_STAT_VER p ≠ 2)
    ∧ (∃ (p : Fin 16) (c : Fin 64) (s : State), s.powered 4 = true ∧ portSamples s p = true ∧ (s.port p).fifo.length < 4 ∧ c ≠ 0
      ∧ (s.port p).first = none ∧ s.fld IP_STAT_VER p = 2)
    ∧ (∃ (p : Fin 16) (c : Fin 64) (s : State), s.powered 4 = true ∧ portSamples s p = true ∧ (s.port p).fifo.length < 4
      ∧ (match (s.port p).first with | some _ => decide (c ≠ 0) | _ => false) = true)
    ∧ (∃ (p : Fin 16) (s : State), s.powered 4 = true ∧ portSamples s p = true ∧ (s.port p).fifo.length < 4
      ∧ (match (s.port p).first with | some _ => decide (True) | _ => false) = true)
    ∧ (∃ (p : Fin 16) (s : State), s.powered 4 = true ∧ portSamples s p = true ∧ 4 ≤ (s.port p).fifo.length ∧ (s.port p).first = none)
    ∧ (∃ (p : Fin 16) (s : State), s.powered 4 = true ∧ s.fld IP_STAT_PSTATE p = psDisabled ∧ s.writesOpen = true
      ∧ portsHeld s.cur = false ∧ portsHeld s.anticMode = false ∧ s.fld IPT_GRP_IOSTAT (p.val / 4) ≠ 0)
    ∧ (∃ (p : Fin 16) (s : State), s.powered 4 = true ∧ s.fld IP_STAT_PSTATE p = psDisabled
      ∧ (s.writesOpen = false ∨ portsHeld s.cur = true ∨ portsHeld s.anticMode = true ∨ s.fld IPT_GRP_IOSTAT (p.val / 4) = 0))
    ∧ (∃ (p : Fin 16) (s : State), s.powered 4 = true ∧ s.fld IP_STAT_PSTATE p = psHandshake)
    ∧ (∃ (p : Fin 16) (s : State), s.powered 4 = true ∧ s.fld IP_STAT_PSTATE p ≠ psDisabled)
    ∧ (∃ (s : State) (g : Fin 4) (i : Fin 4), s.powered 4 = true ∧ portOnBalls s (4 * g.val + i) = true)
    ∧ (∃ (s : State) (g : Fin 4) (i : Fin 4), s.powered 4 = true ∧ s.fld IP_STAT_PSTATE (4 * g.val + i) = psClklost) :=
  ⟨⟨5, 1, b1, by decide⟩, ⟨5, 1, b2, by decide⟩, ⟨5, 1, b3, by decide⟩, ⟨5, b3, by decide⟩, ⟨5, b4, by decide⟩, ⟨5, b5, by
   decide⟩, ⟨0, b0, by decide⟩, ⟨5, b6, by decide⟩, ⟨5, b1, by decide⟩, ⟨b1, 1, 1, by decide⟩, ⟨b7, 1, 1, by decide⟩⟩

theorem witness_GrantsOpenAndReleaseIntents :
    (∃ (p : Fin 16) (s : State), s.powered 4 = true
      ∧ (match (s.port p).fifo with | b :: _ => decide (b.release = false) | _ => false) = true)
    ∧ (∃ (p : Fin 16) (s : State), s.powered 4 = true
      ∧ (match (s.port p).fifo with | b :: _ => decide (b.release = true ∧ s.fld IP_OPEN_STATE p = 1) | _ => false) = true)
    ∧ (∃ (p : Fin 16) (s : State), s.powered 4 = true
      ∧ (match (s.port p).fifo with | b :: _ => decide (b.release = true ∧ s.fld IP_OPEN_STATE p = 2) | _ => false) = true)
    ∧ (∃ (p : Fin 16) (s : State), s.powered 4 = true ∧ s.fld IP_OPEN_STATE p = 1 ∧ (s.port p).entry.cwin ≤ intentAge s p)
    ∧ (∃ (p : Fin 16) (s : State), s.powered 4 = true ∧ (s.fld IP_OPEN_STATE p ≠ 1 ∨ intentAge s p < (s.port p).entry.cwin))
    ∧ (∃ (s : State) (n : Fin 32), s.powered 4 = true ∧ s.railPresent n = true ∧ s.powered (railDomain n) = true)
    ∧ (∃ (s : State) (g : Fin 4), s.powered 4 = true
      ∧ (match (s.group g).inactive with | some _ => decide (s.stopped g = false) | _ => false) = true)
    ∧ (∃ (s : State) (g : Fin 4), s.powered 4 = true ∧ s.stopped g = true)
    ∧ (∃ (s : State) (i : Fin 32768), s.powered 4 = true
      ∧ (s.writesOpen = false ∨ bankLive s (i.val % 4096 / 256) (i.val / 4096) = true))
    ∧ (∃ (s : State) (i : Fin 32768), s.powered 4 = true ∧ s.writesOpen = true
      ∧ bankLive s (i.val % 4096 / 256) (i.val / 4096) = false) :=
  ⟨⟨5, b8, by decide⟩, ⟨5, b10, by decide⟩, ⟨5, b11, by decide⟩, ⟨5, b19, by decide⟩, ⟨0, b0, by decide⟩, ⟨b0, 0, by decide⟩,
   ⟨b12, 1, by decide⟩, ⟨b7, 1, by decide⟩, ⟨b1, 5*256+3, by decide⟩, ⟨b0, 0, by decide⟩⟩

end Intents

/-! ## The budget arbiter -/

namespace Budget

def b0 := (allOn (inMode { State.reset with mode := { State.reset.mode with trans := none } } 5))
def cl (l g : Nat) (pend : Bool) (cs : Bool := false) : Claim := { level := l, grant := g, pending := pend, causeSubj := cs }
def b1 := (((b0.setFld BUD_PCFG_CAP 100 3).setProgClaim 5 3 (cl 40 10 true)).setProgClaim 7 3 (cl 20 20 false)).setFld BUD_PCFG_PARENT 15 3
def b3 := ((b1.setFld BUD_CFG_PENDTMO 3).setHwClaim 5 (cl 30 0 true))
def b5 := ((b1.setFld BUD_PSEL_PROG 5).setFld BUD_PSEL_POOL 3)
def b6 := let s := b5.setFld ENG_STAT_PROG 5 5
  s.setFld ENG_STAT_STATE 1 5
def b8 := b0.setPort 5 { b0.port 5 with cut := 7 }
def b9 := ((b1.setFld BUD_CFG_OVLPERS 2).setFld BUD_PMEAS_MEAS 70000 3)
def b10 := { b0.setReg BUD_PINPERS (0x04030201 : Word) with bud := { b0.bud with pinned := [(13, true)], pinMs := [(13, 5), (14, 3)], pinSat := [(13,true)] } }
def bt (s : State) : State := { s with tbase := 1000 }
def b13 := b0.setFlag SYS_BOOTSTAT_OTPHOLD true

theorem witness_BudgetCommandsAct :
    (∃ (w : Word) (s : State) (c : Fin 10), s.powered 4 = true ∧ s.writesOpen = true
      ∧ ((s.hwClaim c).grant = 0 ∧ (s.hwClaim c).level = 0 ∨ Word.bits w 26 24 = s.fld BUD_HWREQ_POOL c))
    ∧ (∃ (w : Word) (s : State) (c : Fin 10), s.powered 4 = true
      ∧ (s.writesOpen = false ∨ Word.bits w 26 24 ≠ s.fld BUD_HWREQ_POOL c ∧ ((s.hwClaim c).grant ≠ 0 ∨ (s.hwClaim c).level ≠ 0)))
    ∧ (∃ (k : Fin 8) (w : Word) (s : State), s.powered 4 = true ∧ s.writesOpen = true ∧ Word.bits w 27 24 = s.fld BUD_PCFG_PARENT k
      ∧ (Word.bits w 27 24 < 8 ∨ Word.bits w 27 24 = 15))
    ∧ (∃ (s : State), s.powered 4 = true ∧ s.writesOpen = false)
    ∧ (∃ (k : Fin 8) (w : Word) (s : State), s.powered 4 = true ∧ Word.bits w 27 24 ≠ s.fld BUD_PCFG_PARENT k
      ∧ (s.fld BUD_PCFG_CAP k ≠ 0 ∨ s.flag BUD_CFG_LOCK = true ∨ (8 ≤ Word.bits w 27 24 ∧ Word.bits w 27 24 ≤ 14)))
    ∧ (∃ (s : State), s.powered 4 = true ∧ s.writesOpen = true ∧ progActive s (s.fld BUD_PSEL_PROG) = false)
    ∧ (∃ (s : State), s.powered 4 = true ∧ (s.writesOpen = false ∨ progActive s (s.fld BUD_PSEL_PROG) = true))
    ∧ (∃ (s : State) (n : Fin 16), s.powered 4 = true ∧ reductionWaits s n = false ∧ (s.port n).cut ≠ 0
      ∧ poolExcess (s.setPort n { s.port n with cut := 0 }) (s.fld IP_CTRL_POOL n) = 0)
    ∧ (∃ (s : State) (n : Fin 16), s.powered 4 = true ∧ (s.port n).cut = 0)
    ∧ (∃ (k : Fin 8) (s : State) (p : Fin 48), s.powered 4 = true ∧ s.fld BUD_CFG_PENDTMO ≠ 0 ∧ (s.progClaim p k).pending = true
      ∧ (s.progClaim p k).causeSubj = false ∧ 100 * s.fld BUD_CFG_PENDTMO ≤ s.tbase - (s.progClaim p k).since)
    ∧ (∃ (s : State) (p : Fin 48), s.powered 4 = true ∧ s.fld BUD_CFG_PENDTMO ≠ 0 ∧ (s.hwClaim p).pending = true
      ∧ (s.hwClaim p).causeSubj = false ∧ 100 * s.fld BUD_CFG_PENDTMO ≤ s.tbase - (s.hwClaim p).since)
    ∧ (∃ (k : Fin 8) (s : State), s.powered 4 = true ∧ s.fld BUD_CFG_OVLPERS ≠ 0 ∧ poolCapEff s k * 250 < s.fld BUD_PMEAS_MEAS k
      ∧ s.flag BUD_PSTAT_OVERLOAD k = false)
    ∧ (∃ (k : Fin 8) (s : State), s.powered 4 = true ∧ s.fld BUD_PMEAS_MEAS k ≤ poolCapEff s k * 250)
    ∧ (∃ (s : State) (n : Fin 32) (q : Fin 4), s.powered 4 = true ∧ s.fld ⟨BUD_PINPERS, 8 * q.val + 7, 8 * q.val⟩ ≠ 0
      ∧ cellGet false s.bud.pinned (4 * n.val + q.val) = true ∧ cellGet false s.bud.pinRaised (4 * n.val + q.val) = false) :=
  ⟨⟨0, b0, 0, by decide⟩, ⟨0x01000010, bt b3, 5, by decide⟩, ⟨0, 0x0F000010, b0, by decide⟩, ⟨b13, by decide⟩, ⟨0, 0x0E000007, b0,
   by decide⟩, ⟨b0, by decide⟩, ⟨b6, by decide⟩, ⟨b8, 5, by decide⟩, ⟨b0, 0, by decide⟩, ⟨3, bt b3, 5, by decide⟩, ⟨bt b3, 5, by
   decide⟩, ⟨3, b9, by decide⟩, ⟨0, b0, by decide⟩, ⟨b10, 3, 1, by decide⟩⟩

/-- One program's claim alone waits, in STANDBY. -/
def b30 : State := inMode ((b0.setFld BUD_PCFG_CAP 100 3).setProgClaim 5 3 (cl 40 10 true)) 4

theorem witness_BudgetCommandsAct_pending : b30.powered 4 = true ∧ poolExcess b30 3 = 0 ∧ poolCutPend b30 3 = 0
    ∧ b30.flag BUD_PSTAT_OVERCOMMIT 3 = false ∧ (∀ j, (b30.childClaim j).pending = false) ∧ (∀ i, (b30.hwClaim i).pending = false)
    ∧ (∀ n, portRefills b30 n = false) ∧ (∀ q, q ≠ 5 → (b30.progClaim q 3).pending = false) ∧ (b30.progClaim 5 3).pending = true
    ∧ (b30.progClaim 5 3).grant ≤ (b30.progClaim 5 3).level ∧ ((b30.progClaim 5 3).short : Int) ≤ poolFree b30 3 := by
  refine ⟨by decide, by decide, by decide, by decide, fun _ => rfl, fun _ => rfl, fun _ => rfl, fun q h => ?_, by decide, by decide,
    by decide⟩
  show (cellGet {} [(43, cl 40 10 true)] (8 * q + 3)).pending = false
  rw [cellGet, if_neg (by omega)]
  rfl

end Budget

/-! ## Engines -/

namespace Engines

def b0 := (allOn (inMode { State.reset with mode := { State.reset.mode with trans := none } } 5))
def eng (s : State) (e p st : Nat) : State := ((s.setFld ENG_STAT_PROG p e).setFld ENG_STAT_STATE st e)
def b1 := eng b0 5 7 esHalted
def cnd : Cond := { sel := 0, idx := 0, neg := true, kind := 0, value := 0 }
def cl (s : State) (e : Nat) (c : Cond) : State := s.setEng e { s.eng e with clause := some { cond := c, label := 0x33, window := 100, opened := 0, rails := [3] }, held := [.enr 3, .sig 5 2, .log 1 2 3 4] }
def b2 := cl (eng b0 5 7 esRunning) 5 cnd
def b3 := cl (eng b0 5 7 esWaiting) 5 {cnd with neg := false}
def b4 := eng b0 5 7 esFrozen
def slot (s : State) (p : Nat) : State :=
  s.setWord ckBase (ckWord p 0x12F) 0xFFFE0001
def b5 := slot b4 7
def b6 := eng b0 5 7 esFenced
def b7 := slot b6 7
def b8 := eng { b7 with pmap := { b7.pmap with spareMask := 0x3000 } } 12 0x3F esHalted
def rs (s : State) (e : Nat) (r : Restore) : State := (setEngState s e esRestoring).setEng e { s.eng e with restore := some r }
def b9 := rs b8 12 ⟨7, 5, true, false⟩
def b10 := rs b8 12 ⟨7, 5, false, false⟩
def b12 := rs b6 12 ⟨7, 5, false, false⟩
def b13 := eng b0 5 7 esDraining
def post (s : State) (p : PostedStatus) : State := s.setEng 5 { s.eng 5 with posted := [p, p] }
def b14 := post b1 ⟨.modedeny, 0, 3⟩
def b16 := post b2 ⟨.violation, 5, 0x1234⟩
def ck (s : State) := s.setEng 5 { s.eng 5 with ckpt := some ⟨7, (List.range 47).map (fun i => wordOf (i*3+1)), 5⟩ }
def b17 := ck b1
def b19 := { b1 with sigs := [⟨4, 7, 3, 1, false⟩, ⟨4,7,3,2,true⟩] }
def b20 := { b1 with sigs := [⟨4, 7, 3, 0, false⟩] }
def late (s : State) : State := { s with tbase := 101 }

theorem witness_EnginesStartHaltFenceAndRestore :
    (∃ (m : Fin 51) (e : Fin 48) (s : State), s.engPresent e = true ∧ s.powered (engDomain e) = true ∧ holdsProgram s e = true
      ∧ engState s e = esHalted ∧ programsRun s = true ∧ MasterWrites s m (0x3017 + 0x20 * e.val) 1)
    ∧ (∃ (m : Fin 51) (e : Fin 48) (s : State), s.engPresent e = true ∧ s.powered (engDomain e) = true ∧ 48 ≤ m.val
      ∧ engState s e ≠ esHalted ∧ MasterWrites s m (0x3017 + 0x20 * e.val) 1)
    ∧ (∃ (m : Fin 51) (e : Fin 48) (s : State), s.engPresent e = true ∧ s.powered (engDomain e) = true
      ∧ (engState s e = esRunning ∨ engState s e = esWaiting ∨ engState s e = esFrozen)
      ∧ MasterWrites s m (0x3017 + 0x20 * e.val) 2)
    ∧ (∃ (m : Fin 51) (e : Fin 48) (s : State) (n : Fin 16), s.engPresent e = true ∧ s.powered (engDomain e) = true
      ∧ holdsProgram s e = true ∧ MasterWrites s m (0x3017 + 0x20 * e.val) (wordOf (128 + 256 * n.val)))
    ∧ (∃ (m : Fin 51) (e : Fin 48) (s : State), s.engPresent e = true ∧ s.powered (engDomain e) = true
      ∧ MasterWrites s m (0x3017 + 0x20 * e.val) 64)
    ∧ (∃ (m : Fin 51) (e : Fin 48) (s : State), s.engPresent e = true ∧ s.powered (engDomain e) = true ∧ m.val < 48
      ∧ engState s m = esFenced)
    ∧ (∃ (h : Fin 3) (e : Fin 48) (s : State) (key : Fin 65536), s.engPresent e = true ∧ s.powered (engDomain e) = true ∧ key ≠ 0x3F0E
      ∧ HostWrites s h (0x3017 + 0x20 * e.val))
    ∧ (∃ (h : Fin 3) (e : Fin 48) (s : State), s.engPresent e = true ∧ s.powered (engDomain e) = true ∧ engState s e = esFrozen
      ∧ HostWrites s h (0x3017 + 0x20 * e.val) ∧ slotOk s (progOf s e) = true ∧ s.injects 357 4 = none)
    ∧ (∃ (h : Fin 3) (e : Fin 48) (s : State), s.engPresent e = true ∧ s.powered (engDomain e) = true ∧ engState s e = esFrozen
      ∧ HostWrites s h (0x3017 + 0x20 * e.val) ∧ slotOk s (progOf s e) = false)
    ∧ (∃ (h : Fin 3) (e : Fin 48) (s : State), s.engPresent e = true ∧ s.powered (engDomain e) = true ∧ engState s e = esFenced
      ∧ holdsProgram s e = true ∧ (s.prog (progOf s e)).awaiting = false ∧ slotOk s (progOf s e) = true ∧ s.injects 357 4 = none
      ∧ HostWrites s h (0x3017 + 0x20 * e.val) ∧ (match freeSpare s with | some _ => decide (True) | _ => false) = true)
    ∧ (∃ (h : Fin 3) (e : Fin 48) (s : State), s.engPresent e = true ∧ s.powered (engDomain e) = true ∧ engState s e = esFenced
      ∧ holdsProgram s e = true ∧ (s.prog (progOf s e)).awaiting = false ∧ slotOk s (progOf s e) = true ∧ s.injects 357 4 = none
      ∧ HostWrites s h (0x3017 + 0x20 * e.val) ∧ freeSpare s = none)
    ∧ (∃ (e : Fin 48) (s : State), s.engPresent e = true ∧ s.powered (engDomain e) = true
      ∧ (engState s e = esRunning ∨ engState s e = esWaiting ∨ engState s e = esFrozen ∨ engState s e = esRestoring))
    ∧ (∃ (e : Fin 48) (s : State), s.engPresent e = true ∧ s.powered (engDomain e) = true
      ∧ (match (s.eng e).restore with | some r => decide (r.checking = true) | _ => false) = true)
    ∧ (∃ (e : Fin 48) (s : State), s.engPresent e = true ∧ s.powered (engDomain e) = true
      ∧ (match (s.eng e).restore with | some r => decide (r.checking = false ∧ r.prog < 48 ∧ r.src < 48 ∧ slotOk s r.prog = false) | _ => false) = true)
    ∧ (∃ (e : Fin 48) (s : State), s.engPresent e = true ∧ s.powered (engDomain e) = true
      ∧ (match (s.eng e).restore with | some r => decide (r.checking = false ∧ r.prog < 48 ∧ r.src < 48 ∧ slotOk s r.prog = true ∧ s.injects 357 4 = none) | _ => false) = true)
    ∧ (∃ (e : Fin 48) (s : State), s.engPresent e = true ∧ s.powered (engDomain e) = true ∧ engState s e = esDraining)
    ∧ (∃ (e : Fin 48) (s : State), s.engPresent e = true ∧ s.powered (engDomain e) = true
      ∧ (match (s.eng e).posted with | p :: _ => decide (p.freeze = 0) | _ => false) = true)
    ∧ (∃ (e : Fin 48) (s : State), s.engPresent e = true ∧ s.powered (engDomain e) = true
      ∧ (match (s.eng e).posted with | p :: _ => decide (p.freeze ≠ 0 ∧ (engState s e = esRunning ∨ engState s e = esWaiting)) | _ => false) = true) :=
  ⟨⟨48, 0, b0, by decide⟩, ⟨48, 5, b2, by decide⟩, ⟨48, 5, b2, by decide⟩, ⟨48, 0, b0, 0, by decide⟩, ⟨48, 0, b0, by decide⟩, ⟨5,
   0, b6, by decide⟩, ⟨0, 0, b0, 0, by decide⟩, ⟨0, 5, b5, by decide⟩, ⟨0, 5, b4, by decide⟩, ⟨0, 5, b8, by decide⟩, ⟨0, 5, b7,
   by decide⟩, ⟨5, b2, by decide⟩, ⟨12, b9, by decide⟩, ⟨12, b12, by decide⟩, ⟨12, b10, by decide⟩, ⟨5, b13, by decide⟩, ⟨5,
   b14, by decide⟩, ⟨5, b16, by decide⟩⟩

theorem witness_CopiesClausesSignalsAndBarriersEnd :
    (∃ (e : Fin 48) (s : State), s.powered 10 = true
      ∧ (match (s.eng e).ckpt with | some c => decide (c.prog < 48 ∧ c.frame.length = 47) | _ => false) = true)
    ∧ (∃ (e : Fin 48) (s : State), s.engPresent e = true ∧ s.powered (engDomain e) = true
      ∧ (match (s.eng e).clause with | some c => decide (condTrue s e c.cond = true ∧ c.window ≠ 0 ∧ s.tbase ≤ c.opened + c.window) | _ => false) = true)
    ∧ (∃ (e : Fin 48) (s : State), s.engPresent e = true ∧ s.powered (engDomain e) = true
      ∧ (match (s.eng e).clause with | some c => decide ((condTrue s e c.cond = false ∨ c.window = 0 ∨ c.opened + c.window < s.tbase)) | _ => false) = true)
    ∧ (∃ (e : Fin 48) (s : State), s.engPresent e = true ∧ s.powered (engDomain e) = true
      ∧ (match (s.eng e).clause with | some c => decide (c.window ≠ 0 ∧ s.tbase ≤ c.opened + c.window) | _ => false) = true)
    ∧ (∃ (e : Fin 48) (s : State), s.engPresent e = true ∧ s.powered (engDomain e) = true
      ∧ (match (s.eng e).clause with | some c => decide ((c.window = 0 ∨ c.opened + c.window < s.tbase)) | _ => false) = true)
    ∧ (∃ (s : State),
      (match s.sigs with | m :: _ => decide (m.dst < 48 ∧ m.signo < 16 ∧ (m.seq + 256 - cellGet 0 (s.prog m.dst).sigRx m.src) % 256 = 1) | _ => false) = true)
    ∧ (∃ (s : State),
      (match s.sigs with | m :: _ => decide (m.dst < 48 ∧ m.signo < 16 ∧ (m.seq + 256 - cellGet 0 (s.prog m.dst).sigRx m.src) % 256 = 0 ∧ m.replay = false) | _ => false) = true) :=
  ⟨⟨5, b17, by decide⟩, ⟨5, b3, by decide⟩, ⟨5, b2, by decide⟩, ⟨5, b2, by decide⟩, ⟨5, late b2, by decide⟩, ⟨b19, by decide⟩,
   ⟨b20, by decide⟩⟩

end Engines

/-! ## The charge unit -/

namespace Charge

def b0 := (allOn (inMode { State.reset with mode := { State.reset.mode with trans := none } } 5))
def chg (s : State) (f : ChgH → ChgH) : State := { s with chg := f s.chg }
def prof (s : State) : State := ((s.setSfld CHG_ICHG_ICHG 10000).setFld CHG_TCOMP_RSH 50)
def vb (s : State) (v : Nat) : State := s.setFld CHG_VBAT_V v
def p0 := prof b0
def setVb := vb p0 24000000
def b1 := setB p0 bCc
def b2 := setB setVb bDetect
def b3 := setB setVb bAbsent
def b4 := setB (vb p0 50000000) bPrecond
def b5 := setB (vb p0 29000000) bCc
def b6 := (((setB p0 bCv).setSfld CHG_IBAT_I 10).setSfld CHG_ILIM_I 5000)
def b8 := setB (vb p0 1000000) bDone
def b9 := setH (b0.setFld CHG_VHB_V 21000000) hDetect
def b10 := chg (setH ((b0.setFld CHG_VHB_V 900000000)) hFast) (fun c => { c with hPeak := 30000000, hBelow := 1, hSecs := 100000 })
def b11 := (b1.setSfld CHG_ILIM_I 10000).setFld CHG_BTMR_COUNT 4000000000
def b12 := ((b0.setFld CHG_HICHG_IFAST 100).setFlag CHG_CTRL_AUXCHG true)
def b13 := b12.setFlag CHG_CTRL_HEN true
def b15 := { p0 with pins := { p0.pins with bdis := false, armed := true } }
def run (s : State) : State := (s.setFlag LXM_CTRL_CHGEN true 1).setFld LXM_STAT_STATE lxRun 1
def d1 := run (chg b0 (fun c => { c with opening := true }))
def d2 := setB (vb (chg b0 (fun c => { c with vlv := 24000001 })) 24000000) bMatch
def d3 := chg (run d2) (fun c => { c with vlv := 0 })
def d4 := chg (setB b0 bStopped) (fun c => { c with bStop := true, bLow := true })
def d5 := chg (setB b0 bStopped) (fun c => { c with bStop := true, bLow := false })
def d6 := chg (setH b0 hStopped) (fun c => { c with hStop := true, hLow := true })
def asst (s : State) (st : Nat) : State :=
  let s := inMode s 7
  setA ((((((s.setFld CHG_ASV_ASV 12000000).setSfld CHG_ASI_ASI 100).setFld CHG_ASCFG_NCELL 6).setFld CHG_ASWIN_VMAX 1500).setFld CHG_ASWIN_VMIN 100).setFld CHG_VAS_V 12000000) st
def a1 := asst b1 aReady
def a2 := asst b0 aIsolate
def a2' := run a2
def a3 := chg (asst b0 aMatch) (fun c => { c with vlv := 12000000 })
def a5 := chg (asst b0 aReturn) (fun c => { c with vlv := 1000 })
def a7 := (asst b0 aReady).setFld CHG_VAS_V 0
def a8 := asst (setB b0 bStopped) aEnded
def c1 := b0.setFld AUX_STAT_STATE 2 3
def win7 (s : State) := s.setFld CHG_STAT_BWIN 7
def e1 := win7 b2
def e2 := chg b6 (fun c => { c with causeB := some (3, 5) })
def e3 := (b9.setFld CHG_STAT_HWIN 7)
def e5 := d3.setFbit CLK_XSTOP_XING 17 true 4
def e6 := setB (asst d2 aCharge) bMatch

theorem witness_ChargePathsRunTheirStates :
    (∃ (s : State) (vbat : Int), s.powered 8 = true ∧ 0 ≤ vbat ∧ vbat < 4294967296)
    ∧ (∃ (s : State), s.powered 8 = true ∧ bState s ≠ bOff)
    ∧ (∃ (s : State), s.powered 8 = true ∧ s.flag CHG_CTRL_BEN = false ∧ s.sfld CHG_ICHG_ICHG ≠ 0 ∧ s.fld CHG_TCOMP_RSH ≠ 0
      ∧ (chgModules s).length ≤ 1 ∧ batmMode s.cur = true)
    ∧ (∃ (s : State), s.powered 8 = true ∧ s.flag CHG_CTRL_BEN = false
      ∧ (batmMode s.cur = false ∨ s.sfld CHG_ICHG_ICHG = 0 ∨ s.fld CHG_TCOMP_RSH = 0))
    ∧ (∃ (s : State), s.powered 8 = true ∧ s.flag CHG_CTRL_HEN = false ∧ s.fld CHG_HICHG_IFAST ≠ 0 ∧ s.flag CHG_CTRL_AUXCHG = true
      ∧ bathMode s.cur = true)
    ∧ (∃ (s : State), s.powered 8 = true ∧ s.flag CHG_CTRL_HEN = false ∧ s.flag CHG_CTRL_AUXCHG = false ∧ auxState s 3 = axOff)
    ∧ (∃ (s : State), s.powered 8 = true ∧ s.flag CHG_CTRL_HEN = false ∧ s.flag CHG_CTRL_AUXCHG = false ∧ auxState s 3 ≠ axOff)
    ∧ (∃ (s : State), s.powered 8 = true ∧ s.flag CHG_CTRL_HEN = true)
    ∧ (∃ (s : State) (c : Fin 4), s.powered 8 = true ∧ (c.val = 3 ∨ bState s ≠ bOff))
    ∧ (∃ (s : State) (c : Fin 4), s.powered 8 = true ∧ c.val ≠ 3 ∧ bState s = bOff)
    ∧ (∃ (s : State), s.powered 8 = true ∧ (ncell s : Int) * 1000000 ≤ vbatOf s ∧ vbatOf s ≤ vcvB s + (ncell s : Int) * 100000
      ∧ bState s = bDetect ∧ s.chg.causeB = none)
    ∧ (∃ (s : State), s.powered 8 = true ∧ (ncell s : Int) * 1000000 ≤ vbatOf s ∧ vbatOf s ≤ vcvB s + (ncell s : Int) * 100000
      ∧ bState s = bAbsent)
    ∧ (∃ (s : State), s.powered 8 = true ∧ bState s = bPrecond ∧ (ncell s : Int) * s.fld CHG_VTHR_VPRE * 100 ≤ vbatOf s)
    ∧ (∃ (s : State), s.powered 8 = true ∧ bState s = bCc ∧ vcvB s - (ncell s : Int) * 10000 ≤ vbatOf s)
    ∧ (∃ (s : State), s.powered 8 = true ∧ bState s = bCv ∧ s.sfld CHG_IBAT_I < taperCurrent s 0
      ∧ 2 * taperCurrent s 0 ≤ s.sfld CHG_ILIM_I ∧ s.chg.causeB = none)
    ∧ (∃ (s : State), s.powered 8 = true ∧ bState s = bCv ∧ s.sfld CHG_IBAT_I < taperCurrent s 0
      ∧ 2 * taperCurrent s 0 ≤ s.sfld CHG_ILIM_I
      ∧ (match s.chg.causeB with | some c => decide (c.1 ≤ causeRank 1) | _ => false) = true)
    ∧ (∃ (s : State), s.powered 8 = true ∧ bState s = bDone ∧ vbatOf s < (ncell s : Int) * s.fld CHG_VTHR_VRECH * 100)
    ∧ (∃ (s : State), s.powered 8 = true ∧ hState s = hDetect ∧ 20000000 ≤ vhbOf s ∧ vhbOf s ≤ 20 * s.fld CHG_HCELL_VHMAX * 100
      ∧ s.chg.causeH = none)
    ∧ (∃ (s : State), s.powered 8 = true ∧ hState s = hFast ∧ s.chg.causeH = none ∧ 20 * (s.fld CHG_HCELL_VHMAX : Int) * 100 < vhbOf s)
    ∧ (∃ (s : State), s.powered 8 = true ∧ bPrecond ≤ bState s ∧ bState s ≤ bFloat ∧ s.chg.causeB = none ∧ chgSource s = false)
    ∧ (∃ (s : State), s.powered 8 = true ∧ bState s = bCc ∧ s.chg.causeB = none ∧ 0 < s.sfld CHG_ILIM_I) :=
  ⟨⟨c1, 24000000, by decide⟩, ⟨e1, by decide⟩, ⟨e1, by decide⟩, ⟨c1, by decide⟩, ⟨b12, by decide⟩, ⟨e1, by decide⟩, ⟨c1, by
   decide⟩, ⟨b13, by decide⟩, ⟨c1, 3, by decide⟩, ⟨c1, 0, by decide⟩, ⟨e1, by decide⟩, ⟨b3, by decide⟩, ⟨b4, by decide⟩, ⟨b5, by
   decide⟩, ⟨b6, by decide⟩, ⟨e2, by decide⟩, ⟨b8, by decide⟩, ⟨e3, by decide⟩, ⟨b10, by decide⟩, ⟨b1, by decide⟩, ⟨b11, by
   decide⟩⟩

theorem witness_WindowsStopsAndSessionsAct :
    (∃ (s : State) (r : Nat), s.powered 8 = true ∧ Word.bits (s.reg CHG_BNTC) 31 16 ≠ 0 ∧ Word.bits (s.reg CHG_BNTC) 15 0 ≠ 0
      ∧ ntcBad (ntcTemp (ntcOhms r) (Word.bits (s.reg CHG_BNTC) 15 0) (Word.bits (s.reg CHG_BNTC) 31 16)) = true)
    ∧ (∃ (s : State) (r : Nat), s.powered 8 = true ∧ Word.bits (s.reg CHG_BNTC) 31 16 ≠ 0 ∧ Word.bits (s.reg CHG_BNTC) 15 0 ≠ 0
      ∧ ntcBad (ntcTemp (ntcOhms r) (Word.bits (s.reg CHG_BNTC) 15 0) (Word.bits (s.reg CHG_BNTC) 31 16)) = false
      ∧ s.fld CHG_STAT_BWIN ≠ 7)
    ∧ (∃ (s : State), s.powered 8 = true ∧ s.fld CHG_STAT_BWIN = 7 ∧ ntcBad (s.sfld CHG_TEMPS_TBAT) = false)
    ∧ (∃ (s : State), s.powered 8 = true ∧ s.chg.opening = true ∧ chgSource s = true)
    ∧ (∃ (s : State), s.powered 8 = true ∧ bState s = bMatch ∧ aActive s = false ∧ (s.chg.vlv - vbatOf s).natAbs ≤ 500000)
    ∧ (∃ (s : State), s.powered 8 = true ∧ bState s = bMatch ∧ aActive s = false
      ∧ (match chgLeader s with | some l => decide (s.fld LXM_CTRL_CMODE l ≠ 2 ∧ s.lxOpen l = true) | _ => false) = true)
    ∧ (∃ (s : State), s.powered 8 = true ∧ s.chg.bStop = true ∧ s.chg.bLow = true ∧ bState s = bStopped)
    ∧ (∃ (s : State), s.powered 8 = true ∧ s.chg.bStop = true ∧ s.chg.bLow = false)
    ∧ (∃ (s : State), s.powered 8 = true ∧ s.chg.hStop = true ∧ s.chg.hLow = true ∧ hState s = hStopped)
    ∧ (∃ (s : State), s.powered 8 = true ∧ bState s = bStopped ∧ hState s = hOff ∧ aState s = aEnded)
    ∧ (∃ (s : State), s.powered 8 = true ∧ s.cur = modeAssist ∧ aState s = aReady ∧ vasInWindow s = true ∧ s.fld CHG_ASV_ASV ≠ 0
      ∧ s.fld CHG_ASI_ASI ≠ 0 ∧ s.fld CHG_ASCFG_NCELL ≠ 0 ∧ s.fld CHG_ASWIN_VMAX ≠ 0
      ∧ s.fld CHG_ASV_ASV ≤ s.fld CHG_ASWIN_VMAX * 10000)
    ∧ (∃ (s : State), s.powered 8 = true ∧ s.cur ≠ modeAssist)
    ∧ (∃ (s : State), s.powered 8 = true ∧ (aState s = aIsolate ∨ aState s = aMatch ∨ aState s = aCharge))
    ∧ (∃ (s : State), s.powered 8 = true ∧ s.pins.assistEn = false ∧ vasInWindow s = true ∧ aState s = aIdle)
    ∧ (∃ (s : State), s.powered 8 = true ∧ s.pins.assistEn = false ∧ vasInWindow s = false ∧ aState s = aReady)
    ∧ (∃ (s : State), s.powered 8 = true ∧ aState s = aIsolate ∧ (s.sfld CHG_IBAT_I).natAbs ≤ 2000 ∧ chgSource s = true)
    ∧ (∃ (s : State), s.powered 8 = true ∧ aState s = aMatch ∧ (s.chg.vlv - vasOf s).natAbs ≤ 500000)
    ∧ (∃ (s : State), s.powered 8 = true ∧ aState s = aCharge
      ∧ (s.fld CHG_ASV_ASV : Int) - (s.fld CHG_ASCFG_NCELL : Int) * 10000 ≤ vasOf s)
    ∧ (∃ (s : State), s.powered 8 = true ∧ aState s = aReturn ∧ (s.chg.vlv - vbatOf s).natAbs ≤ 500000)
    ∧ (∃ (s : State), s.powered 8 = true ∧ aActive s = true
      ∧ (chgSource s = false ∨ hwShutdown s = true ∨ s.chg.vlv < (s.fld CHG_ASWIN_VMIN : Int) * 10000 - 1000000 ∨ (s.fld CHG_ASWIN_VMAX : Int) * 10000 + 1000000 < s.chg.vlv))
    ∧ (∃ (s : State), s.powered 8 = true ∧ s.pins.armed = true) :=
  ⟨⟨c1, 0, by decide⟩, ⟨c1, 900000, by decide⟩, ⟨e1, by decide⟩, ⟨d1, by decide⟩, ⟨d2, by decide⟩, ⟨e5, by decide⟩, ⟨d4, by
   decide⟩, ⟨d5, by decide⟩, ⟨d6, by decide⟩, ⟨a8, by decide⟩, ⟨a1, by decide⟩, ⟨c1, by decide⟩, ⟨e6, by decide⟩, ⟨c1, by
   decide⟩, ⟨a7, by decide⟩, ⟨a2', by decide⟩, ⟨a3, by decide⟩, ⟨e6, by decide⟩, ⟨a5, by decide⟩, ⟨e6, by decide⟩, ⟨b15, by
   decide⟩⟩

end Charge

/-! ## Windows, stops and sessions; supervisors and telemetry -/

namespace Windows

def b0 := (allOn (inMode { State.reset with mode := { State.reset.mode with trans := none } } 5))
def regl (s : State) (n : Nat) : State := s.setFld RL_STAT_STATE rsRegulate n
def sup (s : State) (n : Nat) : State := ((((s.setFlag SUP_CFG_UVEN true n).setFlag SUP_CFG_OVEN true n).setFlag SUP_CFG_PGEN true n).setFlag SUP_CFG_EWEN true n)
def b1 := (((sup (regl b0 3) 3).setFld RL_VSET_VSET 500000 3).setFld SUP_PG_PGHI 1000 3).setFld SUP_PG_PGLO 1000 3
def acts (s : State) (k : Nat) : State := ((s.setFld SUP_CFG_UVACT k 3).setFld SUP_CFG_OVACT k 3).setFld SUP_CFG_EWACT k 3
def b1' := ((acts b1 1).setFld RL_VREF_VREF 500000 3)
def b1'' := ((acts b1' 0).setRail 3 { b1'.rail 3 with gen := 500000 * 1024 })
def b1x := ((acts b1'' 1))
def b2 := (List.range 4).foldl (fun s q => s.setFbit SUP_STAT_RAILS 3 true q) b1x
def b3 := let s := b0.setFlag GS_CFG_EN true 2
  { s with sup := { s.sup with gsRun := [(2, 7)] } }
def b4 := b0.setFlag RSTO_STAT_STRETCHING true 1
def b5 := { b0 with sup := { b0.sup with cnt := [(0, 5), (3, 7)], tel := [(3, {sum := 7, n := 2}), (64*2+3, {sum := 7000000, n := 2}), (64*9+1, {value := 3})] } }
def b6 := (b0.setFlag HADC_CTRL_EN true 1).setFld HADC_CTRL_TRIG 2 1
def b7 := b6.setFlag HADC_STAT_BUSY true 1
def b8 := b6.setFld HADC_CTRL_TRIG 1 1
def b9 := b6.setHadc 1 { scan := [24, 31] }
def b5' := { b5 with tbase := 2048 }
def b11 := { (b6.setFld HADC_PER_PER 7 1) with tbase := 6 }
def b12 := b6.setFlag SYS_BOOTSTAT_OTPHOLD true
def b4'' := { b4 with tbase := 3000000 }
def b13 := b9.setFbit CLK_XSTOP_XING 17 true 4

theorem witness_SupervisorsTelemetryAndConvertersAct :
    (∃ (s : State) (n : Fin 32) (q : Fin 4) (v : Int),
      (compArmed s n q = false ∨ compWant s n q (supVolt s n v) = s.fbit SUP_STAT_RAILS n q))
    ∧ (∃ (s : State) (n : Fin 32) (q : Fin 4) (v : Int), compArmed s n q = true ∧ s.fbit SUP_STAT_RAILS n q = false
      ∧ compWant s n q (supVolt s n v) = true ∧ q.val = 2)
    ∧ (∃ (s : State) (n : Fin 32) (q : Fin 4) (v : Int), compArmed s n q = true ∧ s.fbit SUP_STAT_RAILS n q = false
      ∧ compWant s n q (supVolt s n v) = true ∧ q.val ≠ 2 ∧ compAct s n q = 0)
    ∧ (∃ (s : State) (n : Fin 32) (q : Fin 4) (v : Int), compArmed s n q = true ∧ s.fbit SUP_STAT_RAILS n q = false
      ∧ compWant s n q (supVolt s n v) = true ∧ q.val ≠ 2 ∧ compAct s n q = 1
      ∧ cellGet false s.flt.level (65536 * compSource n q + n) = false)
    ∧ (∃ (s : State) (n : Fin 32) (q : Fin 4) (v : Int), compArmed s n q = true ∧ s.fbit SUP_STAT_RAILS n q = true
      ∧ compWant s n q (supVolt s n v) = false)
    ∧ (∃ (s : State) (k : Fin 16), s.powered 6 = true ∧ s.flag GS_CFG_EN k = true
      ∧ max 1 (s.fld GS_CFG_DGL k) ≤ cellGet 0 s.sup.gsRun k)
    ∧ (∃ (s : State) (j : Fin 8), s.flag RSTO_STAT_STRETCHING j = true
      ∧ 100 * max 1 (s.fld RSTO_CFG_STRETCH j) ≤ s.tbase - cellGet 0 s.sup.rstT j)
    ∧ (∃ (s : State) (j : Fin 8),
      (s.flag RSTO_STAT_STRETCHING j = false ∨ s.tbase - cellGet 0 s.sup.rstT j < 100 * max 1 (s.fld RSTO_CFG_STRETCH j)))
    ∧ (∃ (s : State) (c : Fin 4), s.powered 11 = true
      ∧ (s.tbase % 2 ^ cellGet 10 s.sup.telN c ≠ 0 ∨ cellGet 0 s.sup.telAt c = s.tbase))
    ∧ (∃ (s : State) (c : Fin 4), s.powered 11 = true ∧ s.tbase % 2 ^ cellGet 10 s.sup.telN c = 0 ∧ cellGet 0 s.sup.telAt c ≠ s.tbase
      ∧ cellWf {} s.sup.tel = true)
    ∧ (∃ (s : State) (c : Fin 2), s.powered 6 = true ∧ s.fld HADC_CTRL_TRIG c = 2 ∧ s.tbase % max 1 (s.fld HADC_PER_PER c) ≠ 0)
    ∧ (∃ (s : State) (c : Fin 2), s.powered 6 = true ∧ s.flag HADC_CTRL_EN c = true ∧ s.fld HADC_CTRL_TRIG c = 2
      ∧ s.tbase % max 1 (s.fld HADC_PER_PER c) = 0 ∧ s.flag HADC_STAT_BUSY c = false)
    ∧ (∃ (s : State) (c : Fin 2), s.powered 6 = true ∧ s.flag HADC_CTRL_EN c = true ∧ s.fld HADC_CTRL_TRIG c = 2
      ∧ s.tbase % max 1 (s.fld HADC_PER_PER c) = 0 ∧ s.flag HADC_STAT_BUSY c = true)
    ∧ (∃ (s : State) (c : Fin 2), s.powered 6 = true ∧ s.writesOpen = true ∧ s.flag HADC_CTRL_EN c = true ∧ s.fld HADC_CTRL_TRIG c = 1
      ∧ s.flag HADC_STAT_BUSY c = false)
    ∧ (∃ (s : State) (c : Fin 2), s.powered 6 = true ∧ s.fld HADC_CTRL_TRIG c ≠ 1)
    ∧ (∃ (s : State), s.powered 6 = true ∧ s.writesOpen = false)
    ∧ (∃ (s : State) (c : Fin 2), s.powered 6 = true ∧ s.flag HADC_CTRL_EN c = true
      ∧ (match (s.hadc c).scan with | j :: _ => decide (j < 32 ∧ crossingShut s (144 + c.val) = true) | _ => false) = true)
    ∧ (∃ (s : State) (c : Fin 2) (uv : Nat), s.powered 6 = true ∧ s.flag HADC_CTRL_EN c = true
      ∧ (match (s.hadc c).scan with | j :: _ => decide (j < 32 ∧ crossingShut s (144 + c.val) = false ∧ uv * 65536 < 65535 * hadcFull (32 * c.val + j)) | _ => false) = true)
    ∧ (∃ (s : State) (c : Fin 2) (uv : Int), s.powered 6 = true ∧ s.flag HADC_CTRL_EN c = true
      ∧ (match (s.hadc c).scan with | j :: _ => decide (j < 32 ∧ crossingShut s (144 + c.val) = false ∧ (uv < 0 ∨ 65535 * (hadcFull (32 * c.val + j) : Int) ≤ uv * 65536)) | _ => false) = true)
    ∧ (∃ (s : State) (c : Fin 2), s.powered 6 = true ∧ s.flag HADC_CTRL_EN c = true
      ∧ (match (s.hadc c).scan with | j :: _ => decide (j < 32 ∧ crossingShut s (144 + c.val) = false) | _ => false) = true) :=
  ⟨⟨b0, 0, 0, 0, by decide⟩, ⟨b1, 3, 2, 500000, by decide⟩, ⟨b1, 3, 3, 1000000, by decide⟩, ⟨b1', 3, 0, 0, by decide⟩, ⟨b2, 3, 0,
   500000, by decide⟩, ⟨b3, 2, by decide⟩, ⟨b4'', 1, by decide⟩, ⟨b0, 0, by decide⟩, ⟨b0, 0, by decide⟩, ⟨b5', 0, by decide⟩,
   ⟨b11, 1, by decide⟩, ⟨b6, 1, by decide⟩, ⟨b7, 1, by decide⟩, ⟨b8, 1, by decide⟩, ⟨b0, 0, by decide⟩, ⟨b12, by decide⟩, ⟨b13,
   1, by decide⟩, ⟨b9, 1, 0, by decide⟩, ⟨b9, 1, 39999999, by decide⟩, ⟨b9, 1, by decide⟩⟩

end Windows

/-! ## AUX regulators and the maquette -/

namespace Regulators

def b0 := (allOn (inMode { State.reset with mode := { State.reset.mode with trans := none } } 5))
def ax (s : State) (st : Nat) : State := s.setFld AUX_STAT_STATE st 1
def cfg (s : State) := (s.setFld AUX_CFG_VOUT 1000 1).setFld AUX_CFG_ILIM 100 1
def b1 := cfg b0
def b2 := ax b0 axSoftstart
def b3 := ax b0 axRegulate
def b4 := ax b0 axInloss
def b5 := ax { b0 with flt := { b0.flt with auxF := [(1, true)] } } axFenced
def thm (s : State) : State := let s := ((s.setFlag THM_CTRL_EN true).setFlag THM_STAT_INIT false).setFld THM_NCFG_C 100 5
  { s with thm := { s.thm with temp := [(5, some (2500 * 1048576))], loss := [(5, 123456789)], lossN := [(5, 3)], lvl := [(5, 3)], fresh := [(5, true)] } }
def b7 := thm b0
def b10 := inMode b0 0
def b12 := (((b0.setFld THM_NCFG_C 1 5).setFld THM_LDATA_A 5 0).setFld THM_LDATA_B 127 0).setFld THM_LDATA_G 60000 0

theorem witness_RegulatorsAndMaquetteAct :
    (∃ (n : Fin 4) (s : State), s.writesOpen = true ∧ railEnableMode s.cur = true
      ∧ auxCfgBad (s.fld AUX_CFG_VOUT n) (s.fld AUX_CFG_ILIM n) = false ∧ nodeShutdown s (72 + n) = false ∧ auxState s n = axOff)
    ∧ (∃ (n : Fin 4) (s : State),
      (s.writesOpen = false ∨ railEnableMode s.cur = false ∨ auxCfgBad (s.fld AUX_CFG_VOUT n) (s.fld AUX_CFG_ILIM n) = true))
    ∧ (∃ (n : Fin 4) (s : State), s.writesOpen = true ∧ auxRuns (auxState s n) = true)
    ∧ (∃ (s : State) (w : Word), (s.writesOpen = false ∨ auxCfgBad (Word.bits w 15 0) (Word.bits w 26 16) = true))
    ∧ (∃ (s : State) (w : Word), s.writesOpen = true ∧ auxCfgBad (Word.bits w 15 0) (Word.bits w 26 16) = false)
    ∧ (∃ (n : Fin 4) (s : State), auxState s n = axSoftstart)
    ∧ (∃ (n : Fin 4) (s : State) (mv : Nat), (auxState s n = axSoftstart ∨ auxState s n = axRegulate)
      ∧ cellGet false s.flt.level (65536 * (320 + n.val) + n.val) = false ∧ mv < 4200)
    ∧ (∃ (n : Fin 4) (s : State) (ma : Nat), (auxState s n = axSoftstart ∨ auxState s n = axRegulate)
      ∧ cellGet false s.flt.level (65536 * (320 + n.val) + n.val) = false ∧ (auxIlim s n).1 ≤ ma)
    ∧ (∃ (n : Fin 4) (s : State) (mv : Nat), auxState s n = axInloss ∧ 4500 ≤ mv)
    ∧ (∃ (n : Fin 4) (s : State) (mv : Nat), auxState s n = axInloss ∧ mv < 4500)
    ∧ (∃ (n : Fin 4) (s : State) (mv : Nat), auxState s n = axRegulate ∧ mv < 9 * s.fld AUX_CFG_VOUT n
      ∧ cellGet false s.flt.level (65536 * (320 + n.val) + n.val) = false)
    ∧ (∃ (n : Fin 4) (s : State) (mv : Nat), auxState s n = axRegulate ∧ 940 * s.fld AUX_CFG_VOUT n ≤ 100 * mv
      ∧ 100 * mv ≤ 1060 * s.fld AUX_CFG_VOUT n)
    ∧ (∃ (n : Fin 4) (s : State) (mv : Nat), (100 * mv < 940 * s.fld AUX_CFG_VOUT n ∨ 1060 * s.fld AUX_CFG_VOUT n < 100 * mv))
    ∧ (∃ (n : Fin 4) (s : State), s.writesOpen = true ∧ auxState s n = axFenced)
    ∧ (∃ (s : State) (key : Fin 65536), (key ≠ 0x4A7E ∨ s.writesOpen = false))
    ∧ (∃ (k : Fin 3) (out : Nat) (prein : Nat),
      (match (if k = 0 then (if prein < 6000 then prein - 300 else 5000) else if k = 1 then 800 else 3300) with | nom => decide (92 * nom ≤ 100 * out ∧ 100 * out ≤ 108 * nom)) = true)
    ∧ (∃ (s : State) (k : Fin 3) (out : Nat) (prein : Nat),
      (match (if k = 0 then (if prein < 6000 then prein - 300 else 5000) else if k = 1 then 800 else 3300) with | nom => decide ((100 * out < 92 * nom ∨ 108 * nom < 100 * out) ∧ cellGet false s.flt.level (65536 * (364 + k.val)) = false)) = true)
    ∧ (∃ (s : State) (i : Fin 78), s.powered 11 = true ∧ s.flag THM_CTRL_EN = true ∧ s.flag THM_STAT_INIT = false
      ∧ cellWf none s.thm.temp = true ∧ nodeUsed s i = true
      ∧ (match cellGet none s.thm.temp i with | some _ => decide ((∀ l ∈ thmLinks s, l.a ≠ i.val ∧ l.b ≠ i.val)) | _ => false) = true)
    ∧ (∃ (s : State), s.powered 11 = true ∧ s.flag THM_CTRL_EN = false ∧ badNode s = none ∧ s.flag THM_CTRL_AMBSRC = false)
    ∧ (∃ (s : State), s.powered 11 = true ∧ s.flag THM_CTRL_EN = false
      ∧ (match badNode s with | some i => decide (i < 78) | _ => false) = true)
    ∧ (∃ (s : State) (temps : List Int) (a : Fin 9) (b : Fin 9), temps.length = 9 ∧ a ≠ b ∧ 16500 ≤ temps.getD a 0
      ∧ 16500 ≤ temps.getD b 0 ∧ s.cur ≠ modeShip ∧ s.flag SYS_DIELIM_ASSERT = false
      ∧ cellGet false s.flt.level (65536 * 334) = false)
    ∧ (∃ (s : State) (temps : List Int) (a : Fin 9), (∀ k : Fin 9, k ≠ a → temps.getD k 0 < 16500) ∧ s.fld SYS_DIELIM_SENS = 0
      ∧ s.cur ≠ modeShip)
    ∧ (∃ (s : State), s.cur = modeShip) :=
  ⟨⟨1, b1, by decide⟩, ⟨0, b0, by decide⟩, ⟨1, cfg b3, by decide⟩, ⟨b0, 0, by decide⟩, ⟨b0, 0x006403E8, by decide⟩, ⟨1, b2, by
   decide⟩, ⟨1, cfg b3, 0, by decide⟩, ⟨1, cfg b3, 500, by decide⟩, ⟨1, b4, 4600, by decide⟩, ⟨1, b4, 0, by decide⟩, ⟨1, cfg b3,
   0, by decide⟩, ⟨1, b3, 0, by decide⟩, ⟨0, b0, 500, by decide⟩, ⟨1, b5, by decide⟩, ⟨b0, 0, by decide⟩, ⟨0, 0, 0, by decide⟩,
   ⟨b0, 0, 0, 500, by decide⟩, ⟨b7, 5, by decide⟩, ⟨b0, by decide⟩, ⟨b12, by decide⟩, ⟨b0, List.replicate 9 16500, 0, 3, by
   decide⟩, ⟨b0, List.replicate 9 2500, 0, by decide⟩, ⟨b10, by decide⟩⟩

end Regulators

/-! ## The host ports -/

namespace HostPort

def b0 := (allOn (inMode { State.reset with mode := { State.reset.mode with trans := none } } 5))
def fr0 (ver addr : Nat) (d : Word) (alive : Nat) (early : Bool) : HostFrame := ⟨80, Fin.ofNat 16 ver, Fin.ofNat 65536 addr, d, Fin.ofNat 16 alive, 0, 0, early, none⟩
def fr (cmd ver addr : Nat) (d : Word) (alive : Nat) (early : Bool) : HostFrame :=
  let f := fr0 ver addr d alive early
  { f with crc := BitVec.ofNat 16 (crc16 64 (frameBits cmd f)) }
def b1 := b0.setHost 1 { b0.host 1 with hold := some (0x33, 7), resp := { (b0.host 1).resp with addr := 3 } }
def b2 := b0.setFld SYS_HOSTVER_ACT 2 0x31
def b3 := b0.setFlag SYS_HSTAT_FROZEN true 1

theorem witness_HostFramesAreCheckedAndAnswered :
    (∃ (p : Fin 3) (f : HostFrame) (s : State), s.powered 7 = true ∧ f.early = false ∧ f.undef = none ∧ s.injects 351 p = none
      ∧ (match frameStart s p false with | u => decide ((match (setAlive u p f.alive).setHost p { (setAlive u p f.alive).host p with hold := none, lastAddr := f.addr } with | _ => decide (frameStatus u p 0 f = none)) = true)) = true)
    ∧ (∃ (p : Fin 3) (f : HostFrame) (s : State), s.powered 7 = true ∧ f.early = false ∧ f.undef = none ∧ s.injects 351 p = none
      ∧ (match frameStart s p false with | u => decide ((match (setAlive u p f.alive).setHost p { (setAlive u p f.alive).host p with hold := none, lastAddr := f.addr } with | _ => decide (frameStatus u p 1 f = none)) = true)) = true)
    ∧ (∃ (p : Fin 3) (f : HostFrame) (s : State), s.powered 7 = true ∧ f.early = false ∧ f.undef = none ∧ s.injects 351 p = none
      ∧ (match frameStart s p false with | u => decide ((match (setAlive u p f.alive).setHost p { (setAlive u p f.alive).host p with hold := none, lastAddr := f.addr } with | _ => decide (frameStatus u p 2 f = none)) = true)) = true)
    ∧ (∃ (p : Fin 3) (f : HostFrame) (s : State), s.powered 7 = true ∧ f.early = false ∧ f.undef = none ∧ s.injects 351 p = none
      ∧ (match frameStart s p false with | u => decide ((match (setAlive u p f.alive).setHost p { (setAlive u p f.alive).host p with hold := none, lastAddr := f.addr } with | _ => decide (frameStatus u p 3 f = none)) = true)) = true)
    ∧ (∃ (p : Fin 3) (f : HostFrame) (s : State), s.powered 7 = true ∧ f.early = false ∧ f.undef = none ∧ s.injects 351 p = none
      ∧ (match frameStart s p false with | u => decide ((match (setAlive u p f.alive).setHost p { (setAlive u p f.alive).host p with hold := none, lastAddr := f.addr } with | v => decide (frameStatus u p 4 f = none ∧ (match (u.host p).hold with | some (z1, w) => decide (z1 = f.addr.val ∧ f.data = ~~~w ∧ hopInjected v (masterHost p) f.addr = (v, false)) | _ => false) = true)) = true)) = true)
    ∧ (∃ (p : Fin 3) (f : HostFrame) (s : State), s.powered 7 = true ∧ f.early = false ∧ f.undef = none ∧ s.injects 351 p = none
      ∧ (match frameStart s p false with | u => decide ((match (setAlive u p f.alive).setHost p { (setAlive u p f.alive).host p with hold := none, lastAddr := f.addr } with | _ => decide (frameStatus u p 4 f = none ∧ (u.host p).hold = none)) = true)) = true)
    ∧ (∃ (p : Fin 3) (f : HostFrame) (s : State), s.powered 7 = true ∧ f.early = false ∧ f.undef = none ∧ s.injects 351 p = none
      ∧ (match frameStart s p false with | u => decide ((match (setAlive u p f.alive).setHost p { (setAlive u p f.alive).host p with hold := none, lastAddr := f.addr } with | _ => decide (frameStatus u p 5 f = none)) = true)) = true)
    ∧ (∃ (p : Fin 3) (f : HostFrame) (s : State), s.powered 7 = true ∧ f.early = false ∧ f.undef = none ∧ s.injects 351 p = none
      ∧ (match frameStart s p false with | u => decide ((match (setAlive u p f.alive).setHost p { (setAlive u p f.alive).host p with hold := none, lastAddr := f.addr } with | _ => decide (frameStatus u p 6 f = none)) = true)) = true)
    ∧ (∃ (p : Fin 3) (f : HostFrame) (s : State), s.powered 7 = true ∧ f.early = false ∧ f.undef = none ∧ s.injects 351 p = none
      ∧ (match frameStart s p false with | u => decide ((match (setAlive u p f.alive).setHost p { (setAlive u p f.alive).host p with hold := none, lastAddr := f.addr } with | _ => decide (f.edges = 80 ∧ crc16 64 (frameBits 2 f) ≠ f.crc.toNat)) = true)) = true)
    ∧ (∃ (p : Fin 3) (f : HostFrame) (s : State), s.powered 7 = true ∧ f.early = false
      ∧ (match f.undef with | some k => decide (s.injects 351 p = none ∧ frameStatus (frameStart s p false) p (7 + k.val) f = some .cmderr) | _ => false) = true)
    ∧ (∃ (p : Fin 3) (f : HostFrame) (s : State), s.powered 7 = true ∧ f.early = true ∧ f.undef = none ∧ s.injects 351 p = none
      ∧ (frameStatus (frameStart s p true) p 2 f = none ∨ frameStatus (frameStart s p true) p 2 f = some .frozen))
    ∧ (∃ (p : Fin 3) (s : State) (a : Fin 16), s.powered 7 = true ∧ s.powered 0 = true ∧ s.flag SYS_HSTAT_FROZEN p = false
      ∧ s.flag SYS_BOOTSTAT_OTPHOLD = false ∧ s.fld SYS_HOSTVER_MINVER (masterHost p) ≤ a
      ∧ a ≤ s.fld SYS_HOSTVER_MAXVER (masterHost p))
    ∧ (∃ (p : Fin 3) (s : State) (a : Fin 16), s.powered 7 = true ∧ s.powered 0 = true ∧ s.flag SYS_HSTAT_FROZEN p = false
      ∧ s.flag SYS_BOOTSTAT_OTPHOLD = false ∧ a < s.fld SYS_HOSTVER_MINVER (masterHost p))
    ∧ (∃ (p : Fin 3) (s : State) (m : Fin 16) (q : Fin 3), s.powered 7 = true ∧ s.powered 0 = true ∧ s.flag SYS_HSTAT_FROZEN p = false
      ∧ s.flag SYS_BOOTSTAT_OTPHOLD = false ∧ q ≠ p ∧ m.val.testBit q = true ∧ s.flag SYS_HSTAT_FROZEN q = true)
    ∧ (∃ (p : Fin 3) (s : State) (key : Fin 65536), s.powered 7 = true ∧ s.powered 0 = true ∧ s.flag SYS_HSTAT_FROZEN p = false
      ∧ s.flag SYS_BOOTSTAT_OTPHOLD = false ∧ key ≠ 0x5F12)
    ∧ (∃ (p : Fin 3) (s : State), s.powered 7 = true ∧ s.powered 0 = true ∧ s.flag SYS_HSTAT_FROZEN p = false
      ∧ s.flag SYS_BOOTSTAT_OTPHOLD = false ∧ hostRight s p 0x8F = true ∧ s.cur ≠ modePlinth)
    ∧ (∃ (p : Fin 3) (s : State), s.powered 7 = true ∧ s.flag SYS_HSTAT_FROZEN p = true) :=
  ⟨⟨0, fr 0 1 0x33 7 4 false, b0, by decide⟩, ⟨0, fr 1 1 0 7 4 false, b0, by decide⟩, ⟨0, fr 2 1 0x10 7 4 false, b0, by decide⟩,
   ⟨0, fr 3 1 0x33 7 4 false, b0, by decide⟩, ⟨1, fr 4 1 0x33 (~~~7) 4 false, b1, by decide⟩, ⟨0, fr 4 1 0x33 (~~~7) 4 false,
   b0, by decide⟩, ⟨0, fr 5 1 0x33 7 4 false, b0, by decide⟩, ⟨1, fr 6 2 0x8E 7 4 false, b2, by decide⟩, ⟨0, fr0 1 0 0 1 false,
   b0, by decide⟩, ⟨0, (let f := { fr0 1 0x33 7 4 false with undef := some 3 }; { f with crc := BitVec.ofNat 16 (crc16 64
   (frameBits 10 f)) }), b0, by decide⟩, ⟨0, fr 2 1 0x10 7 4 true, b0, by decide⟩, ⟨0, b0, 1, by decide⟩, ⟨0, b0, 0, by decide⟩,
   ⟨0, b3, 2, 1, by decide⟩, ⟨0, b0, 0, by decide⟩, ⟨0, b0, by decide⟩, ⟨1, b3, by decide⟩⟩

end HostPort

/-! ## Interrupts -/

namespace Interrupts

def b0 := (allOn (inMode { State.reset with mode := { State.reset.mode with trans := none } } 5))
def b1 : State := ((((b0.setFlag INTC_TCTRL_EN true 0).setReg INTC_SWISTAT 3).setFld INTC_SRC_PRI 5 224).setFld INTC_SRC_TMASK 1 224).setFld INTC_SRC_PRI 5 225
def b2 : State := (intcRoute ((b1.setFlag INTC_SRC_ROUTED true 2).setFlag SYS_MODE_TRANS true))
def b3 : State := setIntcStack b2 0 [(224, 4),(3,2)]
def b4 : State := setIntcStack (b2.setFld INTC_SRC_PRI 15 224) 0 ((List.range 16).map (fun k => (k, 4)))

theorem witness_InterruptsAreRoutedAndAcknowledged :
    (∃ (s : State), s.powered 7 = true ∧ s.intc.stopped = true)
    ∧ (∃ (s : State) (g : Fin 4) (d : Nat), s.powered 7 = true ∧ s.intc.stopped = false ∧ d < (intcStack s g).length
      ∧ cellGet 0 s.intc.stkPairs (16 * g.val + d) ≠ 0)
    ∧ (∃ (s : State), s.powered 7 = true ∧ s.intc.stopped = false
      ∧ (∀ (g : Fin 4) (d : Nat), d < (intcStack s g).length → cellGet 0 s.intc.stkPairs (16 * g.val + d) = 0))
    ∧ (∃ (s : State) (m : Fin 51) (g : Fin 4), s.powered 7 = true ∧ 48 ≤ m.val ∧ ownSide s m g = false
      ∧ HostWrites s (m.val - 48) (0x303 + 0x20 * g.val))
    ∧ (∃ (s : State) (m : Fin 51) (g : Fin 4), s.powered 7 = true ∧ 48 ≤ m.val ∧ ownSide s m g = false
      ∧ HostWrites s (m.val - 48) (0x304 + 0x20 * g.val))
    ∧ (∃ (s : State) (m : Fin 51) (g : Fin 4) (i : Fin 256), s.powered 7 = true ∧ MasterWrites s m (0x303 + 0x20 * g.val) (wordOf i)
      ∧ ownSide s m g = true ∧ (∀ d, d < (intcStack s g).length → cellGet 0 s.intc.stkPairs (16 * g.val + d) = 0)
      ∧ routedTo s g i = true ∧ targetRpri s g < s.fld INTC_SRC_PRI i ∧ (intcStack s g).length < 16)
    ∧ (∃ (s : State) (m : Fin 51) (g : Fin 4) (i : Fin 256), s.powered 7 = true ∧ MasterWrites s m (0x303 + 0x20 * g.val) (wordOf i)
      ∧ ownSide s m g = true ∧ (∀ d, d < (intcStack s g).length → cellGet 0 s.intc.stkPairs (16 * g.val + d) = 0)
      ∧ routedTo s g i = true ∧ targetRpri s g < s.fld INTC_SRC_PRI i ∧ 16 ≤ (intcStack s g).length ∧ s.fld INTC_STKERR_KIND = 0)
    ∧ (∃ (s : State) (m : Fin 51) (g : Fin 4) (i : Fin 256), s.powered 7 = true ∧ MasterWrites s m (0x304 + 0x20 * g.val) (wordOf i)
      ∧ ownSide s m g = true ∧ (∀ d, d < (intcStack s g).length → cellGet 0 s.intc.stkPairs (16 * g.val + d) = 0)
      ∧ (match intcStack s g with | (z1, _) :: _ => decide (z1 = i.val) | _ => false) = true)
    ∧ (∃ (s : State) (m : Fin 51) (g : Fin 4) (i : Fin 256), s.powered 7 = true ∧ MasterWrites s m (0x304 + 0x20 * g.val) (wordOf i)
      ∧ ownSide s m g = true ∧ (∀ d, d < (intcStack s g).length → cellGet 0 s.intc.stkPairs (16 * g.val + d) = 0)
      ∧ (∀ x ∈ intcStack s g, x.1 ≠ i.val) ∧ s.fld INTC_STKERR_KIND = 0)
    ∧ (∃ (s : State), s.powered 7 = true ∧ s.writesOpen = true) :=
  ⟨⟨{ b2 with intc := { b2.intc with stopped := true } }, by decide⟩, ⟨{ b3 with intc := { b3.intc with stkPairs := [(1, 5)] } },
   0, 1, by decide⟩, ⟨b0, by decide⟩, ⟨b0, 48, 3, by decide⟩, ⟨b0, 48, 3, by decide⟩, ⟨b2, 48, 0, 224, by decide⟩, ⟨b4, 48, 0,
   224, by decide⟩, ⟨b3, 48, 0, 224, by decide⟩, ⟨b0, 48, 0, 0, by decide⟩, ⟨b0, by decide⟩⟩

end Interrupts

/-! ## Faults -/

namespace Faults

def b0 := allOn State.reset
def due (s : State) (l : List FaultPost) : State := { s with flt := { s.flt with due := l } }
def b1 : State := due ((b0.setFld FLT_CFG_REACT 1 5).setFld FLT_CFG_REACT 1 350) [⟨5, 3, 7, 0xABCD⟩, ⟨350,0,1,2⟩]
def arm (s : State) (x : Option (Nat × Nat × Nat × Bool)) : State := { s with flt := { s.flt with armed := x } }
def b3 := arm b0 (some (5, 0, 5, true))
def b4 := inMode b0 9
def b5 := inMode b0 5
def b6 := inMode (inMode b0 3) 3
def b7 := { b5.setFlag FLT_STAT_EPPEND true with tbase := 12345678901, flt := { b5.flt with level := [(65536*5+3, true)] } }
def b8 := (b7.setFlag FLT_CFG_EP true 5).setFlag FLT_STAT_EPSTATE true

theorem witness_FaultsLatchMergeAndClear :
    (∃ (s : State) (src : Fin 416) (inst : Fin 65536), s.powered 0 = true ∧ srcAbsent s src = false
      ∧ s.flt.injDue.find? (fun f => f.src == src.val && f.inst == inst.val) = none
      ∧ (match s.flt.due.find? (fun f => f.src == src.val && f.inst == inst.val) with | some _ => decide (s.flt.armed = none ∧ s.fld FLT_CFG_REACT src = 1 ∧ s.flag FLT_CFG_EP src = false ∧ s.flag FLT_CFG_FENCE src = false ∧ ¬(192 ≤ src.val ∧ src.val < 240) ∧ src.val ≠ 336 ∧ src.val ≠ 340) | _ => false) = true)
    ∧ (∃ (s : State) (src : Fin 416) (inst : Fin 65536), s.powered 0 = true ∧ srcAbsent s src = false
      ∧ s.flt.injDue.find? (fun f => f.src == src.val && f.inst == inst.val) = none
      ∧ s.flt.due.find? (fun f => f.src == src.val && f.inst == inst.val) = none ∧ s.flt.armed = none ∧ src.val ≠ 367)
    ∧ (∃ (s : State) (src : Fin 416) (inst : Fin 65536), s.powered 0 = true ∧ srcAbsent s src = false
      ∧ s.flt.injDue.find? (fun f => f.src == src.val && f.inst == inst.val) = none
      ∧ s.flt.due.find? (fun f => f.src == src.val && f.inst == inst.val) = none ∧ s.flt.armed = none ∧ src.val = 367
      ∧ s.powered 1 = true ∧ s.flag OTP_STAT_LOADED = true ∧ deliveredField inst = true)
    ∧ (∃ (s : State) (src : Fin 416) (inst : Fin 65536), s.powered 0 = true ∧ srcAbsent s src = false
      ∧ s.flt.injDue.find? (fun f => f.src == src.val && f.inst == inst.val) = none
      ∧ s.flt.due.find? (fun f => f.src == src.val && f.inst == inst.val) = none
      ∧ (match s.flt.armed with | some (z1, _, z2, true) => decide (z1 = src.val ∧ z2 = inst.val ∧ injectsItem src = false ∧ injectEvaluates s src inst = true) | _ => false) = true)
    ∧ (∃ (s : State), s.powered 0 = true ∧ s.cur ≠ modeWake ∧ s.cur ≠ modePlinth ∧ s.flag SYS_BOOTSTAT_OTPHOLD = false)
    ∧ (∃ (s : State), s.powered 0 = true ∧ s.cur = modePlinth)
    ∧ (∃ (s : State) (key : Fin 65536), s.powered 0 = true ∧ key ≠ 0x7C1E)
    ∧ (∃ (s : State), s.powered 0 = true ∧ s.writesOpen = false)
    ∧ (∃ (s : State), s.powered 0 = true ∧ s.writesOpen = true ∧ s.flag FLT_STAT_EPPEND = true
      ∧ s.flt.epSince + 1000 * max 1 (s.fld FLT_EPCTRL_MINT) ≤ s.tbase ∧ epHeld s = false)
    ∧ (∃ (s : State), s.powered 0 = true ∧ s.writesOpen = true ∧ s.flag FLT_STAT_EPPEND = true
      ∧ s.flt.epSince + 1000 * max 1 (s.fld FLT_EPCTRL_MINT) ≤ s.tbase ∧ epHeld s = true)
    ∧ (∃ (s : State), s.powered 0 = true ∧ s.writesOpen = true ∧ (∀ x ∈ s.flt.level, x.2 = false))
    ∧ (∃ (s : State) (key : Fin 65536), s.powered 0 = true ∧ key ≠ 0x6B1D)
    ∧ (∃ (s : State), s.powered 0 = true ∧ s.cur = modeService ∧ s.flt.armed = none ∧ s.fld FLT_INJSEL_SRC < 64
      ∧ s.fld FLT_INJSEL_KIND = 0 ∧ s.railPresent (s.fld FLT_INJSEL_SRC % 32) = true)
    ∧ (∃ (s : State), s.powered 0 = true ∧ s.cur ≠ modeService ∧ s.cur ≠ modeRun)
    ∧ (∃ (s : State), s.powered 0 = true ∧ s.flt.armed ≠ none ∧ s.writesOpen = true) :=
  ⟨⟨b1, 5, 3, by decide⟩, ⟨b0, 5, 0, by decide⟩, ⟨b5.setFlag OTP_STAT_LOADED true, 367, 0, by decide⟩, ⟨b3, 5, 5, by decide⟩, ⟨b4,
   by decide⟩, ⟨b6, by decide⟩, ⟨b0, 0, by decide⟩, ⟨b6, by decide⟩, ⟨b7, by decide⟩, ⟨b8, by decide⟩, ⟨b0, by decide⟩, ⟨b0, 0,
   by decide⟩, ⟨b4, by decide⟩, ⟨b0, by decide⟩, ⟨b3, by decide⟩⟩

end Faults

/-! ## Integrity units -/

namespace Integrity

def b0 := (allOn (inMode { State.reset with mode := { State.reset.mode with trans := none } } 5))
def b1 := { b0 with pairs := [(3, 1)] , chk := { b0.chk with split := [⟨0x15, 1, 3⟩] } }
def b2 := ((b0.setFlag CHK_CTRL_SCRUBEN true).setFld CHK_CTRL_SCRUBMASK 63)
def own (s : State) (m k : Nat) : State := (((s.setFlag CHK_CRCCFG_OWNED true 1).setFld CHK_CRCCFG_MASTER m 1).setFld CHK_CRCCFG_KIND k 1).setFlag CHK_CRCCFG_ORDER true 1
def b4 := own b0 2 1
def job (s : State) (sp w l jk : Nat) : State := (((s.setFld CHK_SJADDR_SPACE sp).setFld CHK_SJADDR_WORD w).setFld CHK_SJLEN_LEN l).setFld CHK_SJCTRL_JKIND jk
def b5 := job b0 0 16 20 1
def b6 := job b0 6 16 20 2
def go (s : State) (m : Nat) := (scanGo s m).1
def b7 := go (job (b0.setWord psBase 16 0x1234567) 0 16 20 0) 2
def b9 := (b0.setFlag CHK_ALV_EN true 1).setFld CHK_ALV_TMO 4 1
def b11 := ((b0.setStopped 148 true).setStopped 4 true)
def b12 := { b0 with chk := { b0.chk with xrst := [148, 4] } }
def eng (s : State) : State := ((s.setFld ENG_STAT_PROG 7 2).setFld ENG_STAT_STATE esRunning 2).setFld ENG_WRMASK_MASK 0xFFFF 7
def e1 := eng b4

theorem witness_IntegrityUnitsAct :
    (∃ (s : State) (a : Fin 65536), s.pairBad a = false ∧ s.injects 355 (blockBit a) = none)
    ∧ (∃ (s : State) (a : Fin 65536),
      (match locate s (masterHost 0) a with | some l => decide (l.paired = true ∧ locOpen s a l = true ∧ s.pairBad a = true ∧ s.injects 355 (blockBit a) = none ∧ cellGet false s.flt.level (65536 * 355 + a) = false) | _ => false) = true)
    ∧ (∃ (s : State) (a : Fin 65536), s.chk.split.any (fun h => h.addr == a.val) = true)
    ∧ (∃ (s : State), s.powered 10 = true ∧ scrubRuns s = true ∧ scrubVisits s s.chk.scrubRam = true
      ∧ s.chk.scrubLine + 1 < ramLines s.chk.scrubRam)
    ∧ (∃ (s : State), s.powered 10 = true ∧ scrubRuns s = true ∧ scrubVisits s s.chk.scrubRam = true
      ∧ s.chk.scrubLine + 1 = ramLines s.chk.scrubRam ∧ (∀ k : Fin 6, s.chk.scrubRam < k.val → scrubVisits s k = false))
    ∧ (∃ (s : State), s.powered 10 = true ∧ scrubRuns s = false)
    ∧ (∃ (s : State) (m : Fin 64) (u : Fin 2) (kind : Fin 4) (order : Bool), s.powered 10 = true
      ∧ (s.flag CHK_CRCCFG_OWNED u = false ∨ s.fld CHK_CRCCFG_MASTER u = m)
      ∧ MasterWrites s m (0xA20 + 4 * u.val) (wordOf (order.toNat * 16 + kind.val * 4 + 1)) ∧ kind.val ≠ 3)
    ∧ (∃ (s : State) (m : Fin 64) (u : Fin 2) (kind : Fin 4) (order : Bool), s.powered 10 = true
      ∧ (s.flag CHK_CRCCFG_OWNED u = false ∨ s.fld CHK_CRCCFG_MASTER u = m)
      ∧ MasterWrites s m (0xA20 + 4 * u.val) (wordOf (order.toNat * 16 + kind.val * 4 + 1)) ∧ kind.val = 3 ∧ 48 ≤ m.val)
    ∧ (∃ (s : State) (m : Fin 64) (u : Fin 2), s.powered 10 = true ∧ s.flag CHK_CRCCFG_OWNED u = true ∧ s.fld CHK_CRCCFG_MASTER u = m
      ∧ s.fld CHK_CRCCFG_KIND u ≠ 3
      ∧ MasterWrites s m (0xA20 + 4 * u.val) (wordOf (s.fld CHK_CRCCFG_ORDER u * 16 + s.fld CHK_CRCCFG_KIND u * 4 + 2)))
    ∧ (∃ (s : State) (m : Fin 64) (u : Fin 2) (w : Nat), s.powered 10 = true ∧ s.flag CHK_CRCCFG_OWNED u = true
      ∧ s.fld CHK_CRCCFG_MASTER u = m ∧ MasterWrites s m (0xA21 + 4 * u.val) w)
    ∧ (∃ (s : State) (m : Fin 64) (u : Fin 2) (b : Byte), s.powered 10 = true ∧ s.flag CHK_CRCCFG_OWNED u = true
      ∧ s.fld CHK_CRCCFG_MASTER u = m ∧ MasterWrites s m (0xA22 + 4 * u.val) (wordOf b.toNat))
    ∧ (∃ (s : State) (m : Fin 64) (u : Fin 2) (w : Word) (b : Byte), s.powered 10 = true
      ∧ (s.flag CHK_CRCCFG_OWNED u = false ∨ s.fld CHK_CRCCFG_MASTER u ≠ m) ∧ 48 ≤ m.val
      ∧ MasterWrites s m (0xA21 + 4 * u.val) w ∧ MasterWrites s m (0xA22 + 4 * u.val) (wordOf b.toNat))
    ∧ (∃ (s : State) (m : Fin 51), s.powered 10 = true ∧ s.fld CHK_SJSTAT_STATE ≠ sjRunning ∧ s.flag SYS_SFRZ_FROZEN = false
      ∧ s.fld CHK_SJLEN_LEN ≠ 0 ∧ s.fld CHK_SJADDR_WORD + s.fld CHK_SJLEN_LEN ≤ spaceWords (s.fld CHK_SJADDR_SPACE)
      ∧ s.fld CHK_SJCTRL_KIND ≠ 3
      ∧ MasterWrites s m 0xA30 (wordOf (256 * s.fld CHK_SJCTRL_KIND + 16 * s.fld CHK_SJCTRL_JKIND + 1))
      ∧ jobAllowed (s.fld CHK_SJCTRL_JKIND) (s.fld CHK_SJADDR_SPACE) = true
      ∧ (s.fld CHK_SJCTRL_JKIND ≠ 3 ∨ s.fld CHK_SJADDR_SPACE ≠ 2 ∨ rangeLive s (s.fld CHK_SJADDR_WORD) (s.fld CHK_SJLEN_LEN) = false))
    ∧ (∃ (s : State) (m : Fin 51), s.powered 10 = true ∧ s.fld CHK_SJSTAT_STATE ≠ sjRunning ∧ s.flag SYS_SFRZ_FROZEN = false
      ∧ s.fld CHK_SJLEN_LEN ≠ 0 ∧ s.fld CHK_SJADDR_WORD + s.fld CHK_SJLEN_LEN ≤ spaceWords (s.fld CHK_SJADDR_SPACE)
      ∧ s.fld CHK_SJCTRL_KIND ≠ 3
      ∧ MasterWrites s m 0xA30 (wordOf (256 * s.fld CHK_SJCTRL_KIND + 16 * s.fld CHK_SJCTRL_JKIND + 1))
      ∧ jobAllowed (s.fld CHK_SJCTRL_JKIND) (s.fld CHK_SJADDR_SPACE) = false)
    ∧ (∃ (s : State) (m : Fin 51), s.powered 10 = true ∧ (m.val = s.fld CHK_SJSTAT_MASTER ∨ m.val = 48) ∧ s.chk.job ≠ none
      ∧ s.fld CHK_SJCTRL_KIND ≠ 3
      ∧ MasterWrites s m 0xA30 (wordOf (256 * s.fld CHK_SJCTRL_KIND + 16 * s.fld CHK_SJCTRL_JKIND + 2)))
    ∧ (∃ (s : State), s.powered 10 = true
      ∧ (match s.chk.job with | some job => decide ((jobLines job).any (fillStops s job) = false) | _ => false) = true)
    ∧ (∃ (s : State) (k : Fin 8) (w : Word), s.powered 10 = true ∧ s.writesOpen = true ∧ s.flag CHK_ALV_EN k = true
      ∧ s.chk.alvOpen.testBit k = false ∧ Word.bit w 31 = true)
    ∧ (∃ (s : State) (k : Fin 8), s.powered 10 = true ∧ s.flag CHK_ALV_EN k = true ∧ s.fld CHK_ALV_TMO k ≠ 0)
    ∧ (∃ (s : State) (x : Fin 149), ((4 ≤ x.val ∧ x.val < 40) ∨ (112 ≤ x.val ∧ x.val < 146) ∨ x.val = 148) ∧ crossingLive s x = true
      ∧ s.stopped x = false ∧ cellGet false s.flt.level (65536 * 360 + x) = false)
    ∧ (∃ (s : State) (x : Fin 149), ((4 ≤ x.val ∧ x.val < 40) ∨ (112 ≤ x.val ∧ x.val < 146) ∨ x.val = 148) ∧ s.stopped x = true)
    ∧ (∃ (s : State) (key : Fin 65536) (x : Fin 256), s.powered 0 = true ∧ (key ≠ 0x2C5A ∨ 149 ≤ x.val ∨ s.writesOpen = false))
    ∧ (∃ (s : State) (x : Fin 256), s.powered 0 = true ∧ s.writesOpen = true ∧ (x.val = 148 ∨ (112 ≤ x.val ∧ x.val ≤ 145)))
    ∧ (∃ (s : State) (x : Fin 149), s.chk.xrst.contains x.val = true ∧ xrstDrained s x = true)
    ∧ (∃ (s : State) (x : Fin 149), s.chk.xrst.contains x.val = false) :=
  ⟨⟨b0, 0, by decide⟩, ⟨{ b0 with pairs := [(0x22, 0, 5)] }, 0x22, by decide⟩, ⟨b1, 0x15, by decide⟩, ⟨b0, by decide⟩, ⟨{ b2 with
   chk := { b2.chk with scrubRam := 5, scrubLine := ramLines 5 - 1 } }, by decide⟩, ⟨b7, by decide⟩, ⟨b0, 48, 0, 0, true, by
   decide⟩, ⟨b0, 48, 0, 3, true, by decide⟩, ⟨e1, 2, 1, by decide⟩, ⟨e1, 2, 1, 0, by decide⟩, ⟨e1, 2, 1, 0, by decide⟩, ⟨b0, 48,
   0, 0, 0, by decide⟩, ⟨b5, 48, by decide⟩, ⟨b6, 48, by decide⟩, ⟨b7, 48, by decide⟩, ⟨b7, by decide⟩, ⟨b9, 1, 0xFFFFFFFF, by
   decide⟩, ⟨b9, 1, by decide⟩, ⟨b0, 4, by decide⟩, ⟨b11, 4, by decide⟩, ⟨b0, 0, 0, by decide⟩, ⟨b0, 115, by decide⟩, ⟨b12, 4,
   by decide⟩, ⟨b0, 0, by decide⟩⟩

end Integrity

/-! ## Watchdogs -/

namespace Watchdogs

def b0 := (allOn (inMode { State.reset with mode := { State.reset.mode with trans := none } } 5))
def cfg (s : State) (n : Nat) (w : Word) : State := (((s.setReg WD_CFG w n).setReg WD_SLOTEN 5 n).setReg WD_OWNER0 (0x00310030 : Word) n)
def b1 := wdFresh (cfg b0 3 (0x00100010 : Word)) 3
def b2 := wdFresh (cfg b0 3 (0x00380010 : Word)) 3
def b3 := b1.setFbit WD_CHECKED_DONE 2 true 3
def b5 := cfg b0 3 0x100010
def b6 := inMode b5 3
def b8 := b1.setFlag WD_CTRL_EN true 3
def b9 := b1.setWd 3 { b1.wd 3 with tripped := true, warned := true }
def z (s : State) : State := s.setFld WD_STAT_REMAIN 0 3
def dq (s : State) (d : WdDue) : State := s.setWd 3 { s.wd 3 with due := d }

theorem witness_WatchdogsExpireAndCheckIn :
    (∃ (n : Fin 8) (s : State), s.powered 0 = true ∧ s.fld WD_STAT_WINDOW n = wdOpen ∧ s.fld WD_STAT_REMAIN n = 0
      ∧ wdMissing s n ≠ 0 ∧ (s.wd n).due ≠ .fresh)
    ∧ (∃ (s : State) (p : Fin 3), s.powered 0 = true ∧ s.flag SYS_HSTAT_FROZEN p = true)
    ∧ (∃ (n : Fin 8) (s : State) (p : Fin 3) (k : Fin 16), s.powered 0 = true ∧ HostWrites s p (0x805 + 0x20 * n.val)
      ∧ (wdRuns s n = false ∨ (s.wd n).due = .fresh ∨ (s.wd n).slots.testBit k = false))
    ∧ (∃ (n : Fin 8) (s : State) (p : Fin 3) (k : Fin 16), s.powered 0 = true ∧ HostWrites s p (0x805 + 0x20 * n.val)
      ∧ wdRuns s n = true ∧ (s.wd n).due ≠ .fresh ∧ (s.wd n).slots.testBit k = true ∧ wdOwns s n k (masterHost p) = false)
    ∧ (∃ (n : Fin 8) (s : State) (p : Fin 3) (k : Fin 16), s.powered 0 = true ∧ HostWrites s p (0x805 + 0x20 * n.val)
      ∧ wdRuns s n = true ∧ (s.wd n).due ≠ .fresh ∧ (s.wd n).slots.testBit k = true ∧ wdOwns s n k (masterHost p) = true
      ∧ s.fld WD_STAT_WINDOW n = wdClosed ∧ s.flag WD_EVCAUSE_VALID n = false)
    ∧ (∃ (n : Fin 8) (s : State) (p : Fin 3) (k : Fin 16), s.powered 0 = true ∧ HostWrites s p (0x805 + 0x20 * n.val)
      ∧ wdRuns s n = true ∧ (s.wd n).due ≠ .fresh ∧ (s.wd n).slots.testBit k = true ∧ wdOwns s n k (masterHost p) = true
      ∧ s.fld WD_STAT_WINDOW n = wdOpen ∧ s.fbit WD_CHECKED_DONE k n = false
      ∧ (∀ j : Fin 16, j ≠ k → (s.wd n).slots.testBit j = true → s.fbit WD_CHECKED_DONE j n = true))
    ∧ (∃ (n : Fin 8) (s : State) (p : Fin 3) (k : Fin 16) (j : Fin 16), s.powered 0 = true ∧ HostWrites s p (0x805 + 0x20 * n.val)
      ∧ wdRuns s n = true ∧ (s.wd n).due ≠ .fresh ∧ (s.wd n).slots.testBit k = true ∧ wdOwns s n k (masterHost p) = true
      ∧ s.fld WD_STAT_WINDOW n = wdOpen ∧ s.fbit WD_CHECKED_DONE k n = false ∧ j ≠ k ∧ (s.wd n).slots.testBit j = true
      ∧ s.fbit WD_CHECKED_DONE j n = false)
    ∧ (∃ (n : Fin 8) (s : State), s.powered 0 = true ∧ ((s.wd n).due = .service ∨ (s.wd n).due = .fresh) ∧ (s.wd n).due = .service)
    ∧ (∃ (n : Fin 8) (s : State), s.powered 0 = true ∧ s.fld WD_STAT_WINDOW n = wdClosed ∧ s.fld WD_STAT_REMAIN n = 0
      ∧ (s.wd n).bootHeld = false)
    ∧ (∃ (n : Fin 8) (s : State), s.powered 0 = true ∧ (s.fld WD_STAT_WINDOW n ≠ wdClosed ∨ s.fld WD_STAT_REMAIN n ≠ 0))
    ∧ (∃ (n : Fin 8) (s : State), s.powered 0 = true ∧ s.fld WD_STAT_WINDOW n = wdOpen ∧ Word.bits (s.wd n).cfg 23 20 ≠ 0
      ∧ wdMissing s n ≠ 0 ∧ (s.wd n).due ≠ .fresh ∧ wdWarnTicks (s.wd n).cfg ≤ wdOpenTicks (s.wd n).cfg - s.fld WD_STAT_REMAIN n
      ∧ (s.wd n).warned = false)
    ∧ (∃ (n : Fin 8) (s : State), s.powered 0 = true ∧ s.fld WD_STAT_WINDOW n = wdOpen ∧ Word.bits (s.wd n).cfg 23 20 ≠ 0
      ∧ wdMissing s n ≠ 0 ∧ (s.wd n).due ≠ .fresh ∧ wdWarnTicks (s.wd n).cfg ≤ wdOpenTicks (s.wd n).cfg - s.fld WD_STAT_REMAIN n
      ∧ (s.wd n).warned = true)
    ∧ (∃ (n : Fin 8) (s : State), s.powered 0 = true ∧ (s.flag WD_CTRL_HWSTART n = true ∨ s.writesOpen = false))
    ∧ (∃ (n : Fin 8) (s : State), s.powered 0 = true ∧ s.flag WD_CTRL_HWSTART n = false ∧ s.writesOpen = true
      ∧ s.flag WD_CTRL_EN n = false ∧ wdNoCfg s n = false)
    ∧ (∃ (n : Fin 8) (s : State), s.powered 0 = true ∧ s.flag WD_CTRL_HWSTART n = false ∧ s.writesOpen = true
      ∧ s.flag WD_CTRL_EN n = false ∧ wdNoCfg s n = true)
    ∧ (∃ (n : Fin 8) (s : State), s.powered 0 = true ∧ s.flag WD_CTRL_HWSTART n = false ∧ s.writesOpen = true
      ∧ s.flag WD_CTRL_EN n = true)
    ∧ (∃ (n : Fin 8) (s : State), s.powered 0 = true ∧ (s.wd n).tripped = false)
    ∧ (∃ (n : Fin 8) (s : State), s.powered 0 = true ∧ (s.wd n).tripped = true)
    ∧ (∃ (s : State) (key : Fin 65536), s.powered 0 = true ∧ (key ≠ 0x9D1E ∨ s.writesOpen = false)) :=
  ⟨⟨3, z b1, by decide⟩, ⟨b8.setFlag SYS_HSTAT_FROZEN true 0, 0, by decide⟩, ⟨0, dq b1 .service, 0, 0, by decide⟩, ⟨3, dq b1
   .service, 0, 2, by decide⟩, ⟨3, b2, 0, 0, by decide⟩, ⟨3, b3, 0, 0, by decide⟩, ⟨3, dq b1 .service, 0, 0, 2, by decide⟩, ⟨3,
   dq b1 .service, by decide⟩, ⟨3, z b2, by decide⟩, ⟨0, dq b1 .service, by decide⟩, ⟨3, z b1, by decide⟩, ⟨3, z b9, by decide⟩,
   ⟨0, b6, by decide⟩, ⟨0, dq b1 .service, by decide⟩, ⟨3, b0.setFld WD_SLOTEN_SLOTS 0 3, by decide⟩, ⟨3, b8, by decide⟩, ⟨0, dq
   b1 .service, by decide⟩, ⟨3, b9, by decide⟩, ⟨dq b1 .service, 0, by decide⟩⟩

/-- The open window of an instance ends with slots missing, without and with a duplicate before it. -/
def m1 : State := dq ((z b1).setFld WD_STAT_WINDOW wdOpen 3) .nothing
def m2 : State := m1.setFbit WD_CHECKED_DUPMASK 2 true 3

theorem witness_MissingSlotExpires : ∀ s ∈ [m1, m2], s.powered 0 = true ∧ s.fld WD_STAT_WINDOW 3 = wdOpen
    ∧ s.fld WD_STAT_REMAIN 3 = 0 ∧ (s.wd 3).due ≠ .fresh ∧ (wdMissing s 3).testBit 0 = true ∧ s.flag WD_EVCAUSE_VALID 3 = false
    ∧ ((s.fld WD_CHECKED_DUPMASK 3 ≠ 0) = (s = m2)) := by decide

end Watchdogs

/-! ## OTP -/

namespace Otp

def b0 := inMode (allOn State.reset) 10
def pad (s : State) (r w : Nat) (d : Word) : State := ((s.setFld OTP_PADDR_REGION r).setFld OTP_PADDR_WORD w).setReg OTP_PDATA d
def b1 := pad b0 3 5 0x80000001
def b3 := inMode b1 9
def b4 := (pad b0 3 5 1).setWord otpConfigBase (128*3+127) 0xFF
def cmd (s : State) (c : OtpCmd) : State := { s.setFlag OTP_STAT_BUSY true with otp := { s.otp with cmd := some c } }
def b5 := cmd b0 ⟨3, [(5,31)], 0, false, false⟩
def b6 := cmd b0 ⟨3, [(5,31),(5,30)], 0, true, false⟩
def b8 := b5.setFlag OTP_PCFG_VPPSRC true
def b9 := b0.setFld OTP_SHSEL_FIELD 19

theorem witness_OtpCommandsAct :
    (∃ (s : State) (key : Fin 65536), s.powered 1 = true ∧ key ≠ 0x07A3)
    ∧ (∃ (s : State), s.powered 1 = true ∧ s.cur ≠ modeProvision)
    ∧ (∃ (s : State), s.powered 1 = true ∧ s.flag OTP_STAT_BUSY = false ∧ s.cur = modeProvision
      ∧ burnIllegal (s.fld OTP_PADDR_REGION) (s.fld OTP_PADDR_WORD) (s.reg OTP_PDATA) = false
      ∧ regionState s (s.fld OTP_PADDR_REGION) = 0
      ∧ namedBits s (s.fld OTP_PADDR_REGION) (s.fld OTP_PADDR_WORD) (s.reg OTP_PDATA) ≠ [])
    ∧ (∃ (s : State), s.powered 1 = true ∧ s.flag OTP_STAT_BUSY = false ∧ s.cur = modeProvision
      ∧ burnIllegal (s.fld OTP_PADDR_REGION) (s.fld OTP_PADDR_WORD) (s.reg OTP_PDATA) = false
      ∧ regionState s (s.fld OTP_PADDR_REGION) = 0
      ∧ namedBits s (s.fld OTP_PADDR_REGION) (s.fld OTP_PADDR_WORD) (s.reg OTP_PDATA) = [])
    ∧ (∃ (s : State), s.powered 1 = true ∧ s.flag OTP_STAT_BUSY = false ∧ s.cur = modeProvision
      ∧ regionState s (s.fld OTP_PADDR_REGION) ≠ 0)
    ∧ (∃ (s : State), s.powered 1 = true ∧ s.flag OTP_STAT_BUSY = false ∧ s.cur = modeProvision ∧ s.fld OTP_PADDR_REGION ≠ 15
      ∧ regionState s (s.fld OTP_PADDR_REGION) < 2 ∧ critMask s (s.fld OTP_PADDR_REGION) .mismatch = 0
      ∧ regionMissing s (s.fld OTP_PADDR_REGION) = 0 ∧ cellGet false s.otp.cut (bitKey (s.fld OTP_PADDR_REGION) 127 8) = false)
    ∧ (∃ (s : State), s.powered 1 = true ∧ (match s.otp.cmd with | some c => decide (pulsing s c = true) | _ => false) = true)
    ∧ (∃ (s : State), s.powered 1 = true ∧ (match s.otp.cmd with | some c => decide (pulsing s c = false) | _ => false) = true)
    ∧ (∃ (s : State), s.powered 1 = true
      ∧ (match s.otp.cmd with | some _ => decide (s.flag OTP_PCFG_VPPSRC = false) | _ => false) = true)
    ∧ (∃ (s : State), s.powered 1 = true
      ∧ (match s.otp.cmd with | some c => decide ((match c.todo with | x :: _ => decide (x.1 < 128 ∧ x.2 < 32 ∧ c.region < 16 ∧ pulsing s c = true ∧ s.flag OTP_PCFG_VPPSRC = false) | _ => false) = true) | _ => false) = true)
    ∧ (∃ (s : State) (vpp : Nat), s.powered 1 = true
      ∧ (match s.otp.cmd with | some c => decide ((match c.todo with | x :: _ => decide (otpBit s c.region x.1 x.2 = false ∧ s.flag OTP_PCFG_VPPSRC = true ∧ (vpp < 6200 ∨ 6800 < vpp)) | _ => false) = true) | _ => false) = true)
    ∧ (∃ (s : State), s.powered 1 = true ∧ s.otp.cmd = none)
    ∧ (∃ (s : State), s.powered 1 = true ∧ shadowMode s = false)
    ∧ (∃ (s : State), s.powered 1 = true ∧ shadowMode s = true ∧ shadowField (s.fld OTP_SHSEL_FIELD) = true) :=
  ⟨⟨b0, 0, by decide⟩, ⟨b3, by decide⟩, ⟨b1, by decide⟩, ⟨b0, by decide⟩, ⟨b4, by decide⟩, ⟨b1, by decide⟩, ⟨b6, by decide⟩, ⟨b5,
   by decide⟩, ⟨b5, by decide⟩, ⟨b6, by decide⟩, ⟨b8, 0, by decide⟩, ⟨b0, by decide⟩, ⟨inMode b9 5, by decide⟩, ⟨b9, by decide⟩⟩

end Otp

/-! ## Patina -/

namespace Patina

def b0 := (allOn (inMode { State.reset with mode := { State.reset.mode with trans := none, heldRecord := none } } 5)).setFlag PAT_STAT_REBUILD false
def rec0 : PatRecord := { kind := 6, src := 0x44, time := 0x123456789AB, bytes := [1,2,3,255], inj := true }
def q (s : State) (l : List PatRecord) : State := { s.setFlag PAT_CTRL_EN true with pat := { s.pat with queue := l } }
def b1 := (q b0 [rec0, rec0]).setFld PAT_HEAD_HEAD 4095
def b2 := ((q (inMode b0 9) [rec0]).setFld PAT_HEAD_HEAD 7).setFld PAT_HEAD_NEXTSEQ 65535
def b3 := match execRecordWrite b2 with | .next t => t | _ => b2
def b4 := b1.setFlag PAT_STAT_CLEARING true
def b5 := b4.setByte (patBase + 77) 3
def b6 := (b5.setFlag PAT_STAT_CLEARING false).setFlag PAT_STAT_REBUILD true
def b8 := (([0,2,48,50] : List Nat).foldl (fun s m => (s.setFlag PAT_OFFIDX_AUTOINC true m).setFld PAT_OFFIDX_IDX 7 m) b3)

theorem witness_PatinaRecordsAreWrittenAndRead :
    (∃ (s : State), s.powered 10 = true ∧ s.flag PAT_STAT_PEND = false ∧ s.flag PAT_STAT_CLEARING = false
      ∧ s.flag PAT_STAT_REBUILD = false ∧ s.flag PAT_CTRL_EN = true ∧ s.mode.heldRecord = none
      ∧ (match s.pat.queue with | r :: _ => decide (ringStopped s = false ∧ r.kind < 256 ∧ r.src < 256 ∧ (∀ b ∈ r.bytes, b < 256)) | _ => false) = true)
    ∧ (∃ (s : State), s.powered 10 = true ∧ s.flag PAT_STAT_PEND = false ∧ s.flag PAT_STAT_CLEARING = false
      ∧ s.flag PAT_STAT_REBUILD = false ∧ s.flag PAT_CTRL_EN = true
      ∧ (match s.mode.heldRecord with | some r => decide (ringStopped s = false ∧ r.kind < 256 ∧ r.src < 256 ∧ (∀ b ∈ r.bytes, b < 256)) | _ => false) = true)
    ∧ (∃ (s : State), s.powered 10 = true ∧ s.flag PAT_STAT_PEND = true)
    ∧ (∃ (s : State), s.powered 10 = true
      ∧ (match s.pat.mark with | some i => decide (i < 4096 ∧ recordAltered s = false ∧ ReadsClean s 3 i) | _ => false) = true)
    ∧ (∃ (s : State) (m : Fin 51), s.powered 10 = true ∧ s.flag PAT_STAT_CLEARING = false ∧ s.flag PAT_STAT_REBUILD = false
      ∧ MasterWrites s m 0xB06 0xC1EA0001)
    ∧ (∃ (s : State) (p : Fin 3), s.powered 10 = true ∧ HostWrites s p 0xB06 ∧ s.flag PAT_STAT_CLEARING = true)
    ∧ (∃ (s : State) (p : Fin 3) (key : Fin 65536), s.powered 10 = true ∧ HostWrites s p 0xB06 ∧ key ≠ 0xC1EA)
    ∧ (∃ (s : State), s.powered 10 = true ∧ s.flag PAT_STAT_CLEARING = true ∧ s.flag PAT_STAT_PEND = false)
    ∧ (∃ (s : State), s.powered 10 = true ∧ s.flag PAT_STAT_REBUILD = true)
    ∧ (∃ (s : State), s.powered 10 = true ∧ s.writesOpen = true)
    ∧ (∃ (s : State) (m : Fin 51), s.powered 10 = true ∧ frozenPort s m = true)
    ∧ (∃ (s : State) (m : Fin 51), s.powered 10 = true ∧ frozenPort s m = false ∧ s.flag PAT_STAT_CLEARING = false
      ∧ s.flag PAT_STAT_REBUILD = false ∧ ReadsClean s 3 (s.fld PAT_OFFIDX_IDX m))
    ∧ (∃ (s : State) (m : Fin 51), s.powered 10 = true ∧ frozenPort s m = false ∧ s.flag PAT_OFFIDX_AUTOINC m = true)
    ∧ (∃ (s : State) (m : Fin 51), s.powered 10 = true ∧ frozenPort s m = false ∧ s.flag PAT_OFFIDX_AUTOINC m = false) :=
  ⟨⟨b1, by decide⟩, ⟨{ b1 with mode := { b1.mode with heldRecord := some rec0 } }, by decide⟩, ⟨b3, by decide⟩, ⟨b3, by decide⟩,
   ⟨b0, 48, by decide⟩, ⟨b4, 0, by decide⟩, ⟨b0, 0, 0, by decide⟩, ⟨b4, by decide⟩, ⟨b6, by decide⟩, ⟨b0, by decide⟩,
   ⟨(b5.setFlag SYS_HSTAT_FROZEN true 0), 48, by decide⟩, ⟨b0, 0, by decide⟩, ⟨b8, 0, by decide⟩, ⟨b0, 0, by decide⟩⟩

end Patina

/-! ## The test port -/

namespace TestPort

def b0 := (allOn (inMode { State.reset with mode := { State.reset.mode with trans := none } } 5))
def b1 := { b0 with tap := { b0.tap with trst := true } }
def b2 := { b0 with tap := { b0.tap with trst := false } }

theorem witness_TestPortTakesInstructions :
    (∃ (s : State), s.powered 7 = true ∧ s.tap.trst = false)
    ∧ (∃ (s : State), tapDrives s = false)
    ∧ (∃ (s : State), s.cur = modeShip)
    ∧ (∃ (s : State) (j : Fin 8), s.cur ≠ modeShip ∧ s.pins.preOff = false ∧ s.flag RSTO_STAT_LEVEL j = false)
    ∧ (∃ (s : State), s.tap.trst = true) :=
  ⟨⟨b0, by decide⟩, ⟨b0, by decide⟩, ⟨inMode b2 0, by decide⟩, ⟨b0, 0, by decide⟩, ⟨b1, by decide⟩⟩

end TestPort

/-! ## Transfers and register writes -/

namespace Transfers

def b0 := (allOn (inMode { State.reset with mode := { State.reset.mode with trans := none } } 5))
def tr (s : State) (l : List Transfer) : State := { s with armq := l }
def b1 := tr b0 [⟨1, 3, 4, 5, .write, 0, none⟩, ⟨2, 0x0A33, 7, ~~~7, .write, 0, none⟩, ⟨2, 3, 7, ~~~7, .write, 1, none⟩, ⟨47, 0x1180, 1, ~~~1, .write, 1, some (.enr 3)⟩]
def b2 := b0.setFlag SYS_HSTAT_FROZEN true 0
def run (s : State) (m : Nat) := setEngState s m esRunning
def b3 := run b0 2
def fen := setEngState b3 2 esFenced
def b5 := b0.setFlag SYS_HSTAT_FROZEN true 1

theorem witness_TransfersAndRegisterWrites :
    (∃ (s : State) (m : Fin 48), s.powered 1 = true
      ∧ (match takeTransfer m s.armq with | some (t, _) => decide (t.master = m.val ∧ t.kind = .write ∧ (s.eng m).issue = []) | _ => false) = true)
    ∧ (∃ (s : State) (m : Fin 48), s.powered 1 = true
      ∧ (match takeTransfer m s.armq with | some (t, _) => decide (t.master = m.val ∧ t.kind = .write ∧ (s.eng m).issue = [] ∧ t.comp ≠ ~~~t.value ∧ s.flt.armed.map (fun x => x.1) ≠ some 354) | _ => false) = true)
    ∧ (∃ (s : State) (m : Fin 48), s.powered 1 = true
      ∧ (match takeTransfer m s.armq with | some (t, _) => decide (t.master = m.val ∧ t.kind = .write ∧ (s.eng m).issue = [] ∧ t.comp = ~~~t.value ∧ s.flt.armed.map (fun x => x.1) ≠ some 354 ∧ (match t.act with | some _ => decide (True) | _ => false) = true) | _ => false) = true)
    ∧ (∃ (s : State) (m : Fin 48), s.powered 1 = true
      ∧ (match takeTransfer m s.armq with | some (t, _) => decide (t.master = m.val ∧ t.kind = .write ∧ (s.eng m).issue = [] ∧ t.comp = ~~~t.value ∧ s.flt.armed.map (fun x => x.1) ≠ some 354 ∧ t.act = none) | _ => false) = true)
    ∧ (∃ (s : State) (m : Fin 48), s.powered 1 = true ∧ takeTransfer m s.armq = none)
    ∧ (∃ (s : State), s.powered 1 = true ∧ s.flag SYS_HSTAT_FROZEN 1 = true)
    ∧ (∃ (s : State), s.powered 1 = true ∧ s.flt.armed.map (fun x => x.1) ≠ some 354)
    ∧ (∃ (s : State), s.powered 1 = true ∧ s.powered 7 = true ∧ s.flag SYS_HSTAT_FROZEN 0 = false
      ∧ s.flag SYS_BOOTSTAT_OTPHOLD = false ∧ s.cur ≠ modePlinth ∧ s.powered 10 = true)
    ∧ (∃ (s : State), s.powered 1 = true ∧ s.powered 7 = true ∧ s.flag SYS_HSTAT_FROZEN 0 = true)
    ∧ (∃ (s : State) (v : Word) (c : Word), s.powered 1 = true ∧ s.powered 7 = true ∧ s.flag SYS_HSTAT_FROZEN 0 = false ∧ c ≠ ~~~v)
    ∧ (∃ (s : State) (m : Fin 48) (a : Fin 65536), s.powered 1 = true ∧ s.engPresent m = true ∧ s.powered (engDomain m) = true
      ∧ stxAllowed s m a = false ∧ engState s m = esRunning)
    ∧ (∃ (s : State) (m : Fin 48), s.powered 1 = true ∧ engState s m = esFenced) :=
  ⟨⟨b1, 1, by decide⟩, ⟨b1, 1, by decide⟩, ⟨b1, 47, by decide⟩, ⟨b1, 2, by decide⟩, ⟨b0, 0, by decide⟩, ⟨b5, by decide⟩, ⟨b0, by
   decide⟩, ⟨b0, by decide⟩, ⟨b2, by decide⟩, ⟨b0, 0, 0, by decide⟩, ⟨b3, 2, 0, by decide⟩, ⟨fen, 2, by decide⟩⟩

end Transfers

/-! ## The block as a whole, and single steps worked out by hand -/

theorem witness_EveryStepKeepsTheCanonicalForm : State.reset.canonical ∧ ∃ t, step State.reset = .next t := ⟨by decide, _, rfl⟩

theorem witness_LannosWordsReadBack :
    (Instr.add 36 15 0 15).lannosEngine = some 36 ∧ (Instr.add 36 15 0 15).wf = true
      ∧ (Instr.track 47 31 63 7 (.word 0xFFFFFFFF)).lannosEngine = some 47 ∧ (Instr.track 47 31 63 7 (.word 0xFFFFFFFF)).wf = true := by
  decide

theorem witness_StepRunsTheFrontCommand :
    ({ State.reset with pending := [.nop 0] } : State).pending = [.nop 0] ∧ State.reset.pending = [] := ⟨rfl, rfl⟩

end Sys2Proof.Tests
end

section
/-! SUPPORT. A frame rule for register writes: a property of the register words, the RAM bytes, the engines' records and the waiting
commands that the primitive updates of the state keep. -/
namespace Sys2Proof.Machine

/-- A property of the stored register words, the RAM bytes, the engines' records and the waiting commands that every primitive update of
them keeps: a register word or a byte set or dropped, an engine's record set with no new effect to issue, or dropped. -/
structure Invariant where
  prop : List (Nat × Word) → List Host.Cell → List (Nat × EngH) → List Instr → Prop
  setWord : ∀ {r m g p} (k : Nat) (w : Word), prop r m g p → prop (cellSet 0 r k w) m g p
  eraseWord : ∀ {r m g p} (k : Nat), prop r m g p → prop (cellErase r k) m g p
  keepWords : ∀ {r m g p} (f : Nat → Bool), prop r m g p → prop (cellKeep f r) m g p
  setByte : ∀ {r m g p} (a : Nat) (b : Byte), prop r m g p → prop r (cellSet memDefault m a b) g p
  keepBytes : ∀ {r m g p} (f : Nat → Bool), prop r m g p → prop r (cellKeep f m) g p
  setEng : ∀ {r m g p} (e : Nat) (h : EngH), h.issue ⊆ (cellGet {} g e).issue → prop r m g p → prop r m (cellSet {} g e h) p
  keepEngs : ∀ {r m g p} (f : Nat → Bool), prop r m g p → prop r m (cellKeep f g) p

/-- State `s` has the property. -/
abbrev Invariant.Holds (I : Invariant) (s : State) : Prop := I.prop s.regs s.mem s.engs s.pending

variable {I : Invariant} {s t : State}

theorem Invariant.Holds.ite {c : Prop} [Decidable c] (hs : I.Holds s) (ht : I.Holds t) : I.Holds (if c then s else t) := by
  split <;> assumption

theorem Invariant.Holds.iteFst {α : Type} {c : Prop} [Decidable c] {x y : State × α} (hx : I.Holds x.1) (hy : I.Holds y.1) :
    I.Holds (if c then x else y).1 := by
  split <;> assumption

theorem Invariant.Holds.foldl {α : Type} {f : State → α → State} {l : List α} (hs : I.Holds s)
    (hf : ∀ t x, I.Holds t → I.Holds (f t x)) : I.Holds (l.foldl f s) :=
  List.foldlRecOn l f hs fun t ht x _ => hf t x ht

/-- The invariant does not speak of the other parts of the state. -/
theorem Invariant.Holds.rest {part pairs lines tbase freeCtr armq armSeq mode bud groups ports rails progs pmap sigs pat flt sup pins links
    lx boot chg thm chk otp wds wdStart hosts intc tap} (h : I.Holds s) :
    I.Holds ⟨part, s.regs, pairs, s.mem, lines, tbase, freeCtr, armq, armSeq, mode, bud, groups, ports, rails, s.engs, progs, pmap, sigs,
      pat, flt, sup, pins, links, lx, boot, chg, thm, chk, otp, wds, wdStart, hosts, intc, tap, s.pending⟩ := h

/-- A property of an intermediate state, from which the state goes on. -/
theorem Invariant.Holds.via (hf : I.Holds t → I.Holds s) (ht : I.Holds t) : I.Holds s := hf ht

theorem Invariant.Holds.foldlFst {α β : Type} {f : State × β → α → State × β} {l : List α} {x : State × β} (hx : I.Holds x.1)
    (hf : ∀ y a, I.Holds y.1 → I.Holds (f y a).1) : I.Holds (l.foldl f x).1 :=
  List.foldlRecOn l f (motive := fun y => I.Holds y.1) hx fun y hy a _ => hf y a hy

theorem Invariant.Holds.of_eq {α : Type} {x : State × α} {a : α} (hx : I.Holds x.1) (he : x = (s, a)) : I.Holds s := by
  rw [he] at hx; exact hx

end Sys2Proof.Machine
end

section
/-! SUPPORT. Every write of a word, by whatever master, keeps such a property: one lemma for each function that a write reaches. -/
namespace Sys2Proof.Machine

variable {I : Invariant} {s t : State}

/-! ### Fields, bytes, records, levels and injections -/

theorem setReg_holds {r w n} (h : I.Holds s) : I.Holds (s.setReg r w n) := I.setWord _ _ h

theorem setFld_holds {f v n} (h : I.Holds s) : I.Holds (State.setFld s f v n) := setReg_holds h

theorem setFlag_holds {f b n} (h : I.Holds s) : I.Holds (State.setFlag s f b n) := setFld_holds h

theorem setSfld_holds {f v n} (h : I.Holds s) : I.Holds (State.setSfld s f v n) := setFld_holds h

theorem setFbit_holds {f k b n} (h : I.Holds s) : I.Holds (State.setFbit s f k b n) := setFld_holds h

theorem event_holds {f n} (h : I.Holds s) : I.Holds (State.event s f n) := setFld_holds h

theorem countTo_holds {f top n} (h : I.Holds s) : I.Holds (State.countTo s f top n) := .ite (setFld_holds h) h

theorem resetReg_holds {r n} (h : I.Holds s) : I.Holds (s.resetReg r n) := I.eraseWord _ h

theorem plainWrite_holds {r w n} (h : I.Holds s) : I.Holds (State.plainWrite s r w n) := setReg_holds h

theorem setByte_holds {a b} (h : I.Holds s) : I.Holds (s.setByte a b) := I.setByte _ _ h

theorem setBytes_holds {a} {l : List Byte} (h : I.Holds s) : I.Holds (s.setBytes a l) := by
  induction l generalizing s a with
  | nil => exact h
  | cons b l ih => exact ih (setByte_holds h)

theorem setWord_holds {base i w} (h : I.Holds s) : I.Holds (State.setWord s base i w) := setBytes_holds h

theorem zeroBytes_holds {a k} (h : I.Holds s) : I.Holds (s.zeroBytes a k) :=
  I.keepBytes (fun x => decide (x < a) || decide (a + k ≤ x)) h

/-- An engine's record is set, and the effects it has still to issue stay, or become fewer. -/
theorem setEngRecord_holds {e} {r : EngH} (h : I.Holds s) (hr : r.issue ⊆ (s.eng e).issue) : I.Holds (s.setEng e r) :=
  I.setEng _ _ hr h

/-- An engine's record is set but for the effects it has still to issue. -/
theorem setEng_holds {e stack wait clause held badRead posted ckpt restore replayLeft satConf satRevk} (h : I.Holds s) :
    I.Holds (s.setEng e ⟨stack, wait, clause, held, (s.eng e).issue, badRead, posted, ckpt, restore, replayLeft, satConf, satRevk⟩) :=
  setEngRecord_holds h fun _ hx => hx

theorem failDue_holds {reason} (h : I.Holds s) : I.Holds (failDue s reason) := .ite h h

theorem noteHist_holds {k} (h : I.Holds s) : I.Holds (s.noteHist k) :=
  .foldl h fun t e ht => by
    dsimp only
    split
    · exact .ite (setEng_holds ht) ht
    · exact ht

theorem noteIf_holds {b k} (h : I.Holds s) : I.Holds (State.noteIf s b k) := .ite (noteHist_holds h) h

theorem noteMode_holds (h1 : I.Holds t) : I.Holds (State.noteMode s t) :=
  .ite h1 <| by
    dsimp only
    split
    · exact noteHist_holds (by split; exacts [noteHist_holds h1, h1])
    · split
      · exact noteHist_holds h1
      · exact h1

theorem dropRecord_holds (h : I.Holds s) : I.Holds (State.dropRecord s) :=
  .via (fun h1 => .ite (.ite (.rest (event_holds (countTo_holds h1))) (countTo_holds h1)) h1) (event_holds h)

theorem postRecord_holds {r} (h : I.Holds s) : I.Holds (State.postRecord s r) := .ite h (.ite h (dropRecord_holds h))

theorem setLevel_holds {src inst detail data1 b} (h : I.Holds s) : I.Holds (State.setLevel s src inst detail data1 b) := .ite h h

theorem injectShown_holds {f} (h : I.Holds s) : I.Holds (State.injectShown s f) :=
  setReg_holds (setReg_holds (.rest (setFld_holds h)))

theorem injectRecord_holds {f} (h : I.Holds s) : I.Holds (State.injectRecord s f) := setFbit_holds (injectShown_holds h)

theorem injectItem_holds {f damage} (h : I.Holds s) (hd : ∀ t, I.Holds t → I.Holds (damage t)) :
    I.Holds (s.injectItem f damage) := by
  unfold State.injectItem
  split; exacts [injectRecord_holds h, hd s h, h]

theorem injectTake_holds {src inst} (h1 : I.Holds t) : I.Holds (State.injectTake s t src inst) :=
  .ite (by split; exacts [.rest (injectShown_holds h1), h1]) h1

theorem setStopped_holds {x b} (h : I.Holds s) : I.Holds (State.setStopped s x b) := setFbit_holds h

theorem setOverrun_holds {x b} (h : I.Holds s) : I.Holds (State.setOverrun s x b) := setFbit_holds h

/-! ### Supervision outputs and comparators -/

theorem supCount_holds {n k} (h : I.Holds s) : I.Holds (supCount s n k) := .ite h (.ite (.ite (.rest (setFbit_holds h)) h) h)

theorem rstoSet_holds {j b} (h : I.Holds s) : I.Holds (rstoSet s j b) := noteIf_holds (setFlag_holds (setFlag_holds h))

theorem rstoLow_holds {j cause} (h : I.Holds s) : I.Holds (rstoLow s j cause) := setFld_holds (rstoSet_holds h)

theorem rstoOne_holds {hold j} (h : I.Holds s) : I.Holds (rstoOne s hold j) :=
  .ite h <| .ite (rstoLow_holds h) <| .ite (.ite (rstoSet_holds h) (rstoLow_holds h)) <|
  .ite (rstoLow_holds h) (by split; exacts [rstoLow_holds h, .ite h (.rest (setFlag_holds h))])

theorem rstoUpdate_holds (h : I.Holds s) : I.Holds (rstoUpdate s) := .foldl h (fun _ _ => rstoOne_holds)

theorem compSet_holds {n q b} (h : I.Holds s) : I.Holds (compSet s n q b) :=
  .ite h <| .via
    (fun h1 => .ite (rstoUpdate_holds (.ite (supCount_holds h1) (setFbit_holds (supCount_holds h1)))) h1)
    (noteHist_holds (.rest (setFbit_holds h)))

theorem compEnd_holds {n q} (h : I.Holds s) : I.Holds (compEnd s n q) := setLevel_holds (compSet_holds h)

theorem supLeave_holds {n} (h : I.Holds s) : I.Holds (supLeave s n) := compSet_holds (compEnd_holds (compEnd_holds h))

/-! ### Pools and claims -/

theorem reduceAllowance_holds {n t} (h : I.Holds s) : I.Holds (reduceAllowance s n t) :=
  .ite (.rest (setFld_holds h)) (setFld_holds h)

theorem claimReductions_holds {k} (h : I.Holds s) : I.Holds (claimReductions s k) := .ite (.foldl h (fun _ _ h => .ite h h)) h

theorem cutAllowances_holds {k n x} (h : I.Holds s) : I.Holds (cutAllowances k n s x).1 := by
  induction n generalizing s x with
  | zero => exact h
  | succ n ih => exact ih <| .ite h <| .ite (.rest (reduceAllowance_holds h)) (reduceAllowance_holds h)

theorem cutProgs_holds {k n x} (h : I.Holds s) : I.Holds (cutProgs k n s x).1 := by
  induction n generalizing s x with
  | zero => exact h
  | succ n ih => exact ih <| .ite h <| event_holds <| .rest h

theorem cutHw_holds {k n x} (h : I.Holds s) : I.Holds (cutHw k n s x).1 := by
  induction n generalizing s x with
  | zero => exact h
  | succ n ih => exact ih <| .ite h <| event_holds <| .rest h

theorem cutChildren_holds {k n x l} (h : I.Holds s) : I.Holds (cutChildren k n s x l).1 := by
  induction n generalizing s x l with
  | zero => exact h
  | succ n ih => exact .iteFst (ih h) (ih h)

theorem endOvercommit_holds {k} (h : I.Holds s) : I.Holds (endOvercommit s k) := setLevel_holds (setFlag_holds h)

theorem markOvercommit_holds {k x} (h : I.Holds s) : I.Holds (markOvercommit s k x) :=
  .ite (endOvercommit_holds h) (.ite h (setLevel_holds (setFbit_holds (setFlag_holds h))))

theorem cutGrants_holds {k x} (h : I.Holds s) : I.Holds (cutGrants k s x).1 := by
  unfold cutGrants
  split
  next h1 =>
  split
  next h2 =>
  split
  next h3 => exact markOvercommit_holds <| (cutChildren_holds <| (cutHw_holds <| (cutProgs_holds h).of_eq h1).of_eq h2).of_eq h3

theorem poolCut_holds {fuel k} (h : I.Holds s) : I.Holds (poolCut fuel k s) := by
  induction fuel generalizing s k with
  | zero => exact h
  | succ fuel ih =>
    show I.Holds (match cutAllowances k 16 (claimReductions s k) (poolExcess (claimReductions s k) k) with
      | (u, x) => match cutGrants k u x with | (v, l) => l.foldl (fun t j => poolCut fuel j t) v)
    split
    next h1 =>
    have h1 := (cutAllowances_holds (claimReductions_holds h)).of_eq h1
    split
    next h2 =>
    have h2 := (cutGrants_holds h1).of_eq h2
    exact .foldl h2 fun _ _ => ih

theorem refundPorts_holds {k x} {l : List Nat} (h : I.Holds s) : I.Holds (refundPorts k l s x).1 := by
  induction l generalizing s x with
  | nil => exact h
  | cons n l ih =>
    exact .iteFst (.iteFst (ih h) <| ih <| countTo_holds <| event_holds <| .ite (setFlag_holds (setFld_holds h)) (setFld_holds h)) (ih h)

theorem refundClaims_holds {k k'} (h : I.Holds s) : I.Holds (refundClaims k s k').1 := by
  unfold refundClaims
  dsimp only
  exact .foldlFst (.foldlFst (.foldlFst h (fun _ _ h => .iteFst h h)) (fun _ _ h => .iteFst h h)) (fun _ _ h => .iteFst h h)

theorem clearOvercommit_holds {k} (h : I.Holds s) : I.Holds (clearOvercommit s k) := .ite (endOvercommit_holds h) h

theorem returnHeadroom_holds {k x port} (h : I.Holds s) : I.Holds (returnHeadroom s k x port) := by
  unfold returnHeadroom
  extract_lets s1 h1
  split
  next h2 =>
  split
  next h3 =>
  have hs := (refundClaims_holds <| (refundPorts_holds <| clearOvercommit_holds h).of_eq h2).of_eq h3
  split
  · exact hs
  · exact .ite hs (setFld_holds hs)

theorem pinCount_holds {n q pin ns} (h : I.Holds s) : I.Holds (pinCount s n q pin ns) := .ite (.ite (event_holds h) h) h

theorem writeCap_holds {k w} (h : I.Holds s) : I.Holds (writeCap s k w).1 :=
  .iteFst h <| .iteFst h <|
  .iteFst h (.iteFst h (poolCut_holds (.ite (.rest (setFld_holds (setFld_holds h))) (.rest (setFld_holds (setFld_holds h))))))

theorem writeHwReq_holds {c w} (h : I.Holds s) : I.Holds (writeHwReq s c w).1 := .iteFst h (.rest (setFld_holds (setFld_holds h)))

theorem writePreq_holds {w} (h : I.Holds s) : I.Holds (writePreq s w).1 := .iteFst h h

theorem writeAlmax_holds {n w} (h : I.Holds s) : I.Holds (writeAlmax s n w).1 :=
  .ite (reduceAllowance_holds (setFld_holds h)) (setFld_holds h)

/-! ### Link commands -/

theorem queueCmd_holds {l code arg} (h : I.Holds s) : I.Holds (queueCmd s l code arg) := .ite h h

theorem sendCmd_holds {l code arg} (h : I.Holds s) : I.Holds (sendCmd s l code arg) := .ite (queueCmd_holds h) h

/-! ### Intents and clauses -/

theorem logIntent_holds {p outcome} (h : I.Holds s) : I.Holds (logIntent s p outcome) := .ite (postRecord_holds h) h

theorem portCount_holds {f p} (h : I.Holds s) : I.Holds (portCount s f p) :=
  .ite (.ite (event_holds (setFld_holds h)) (setFld_holds h)) h

theorem revokeIntent_holds {p reason} (h : I.Holds s) : I.Holds (revokeIntent s p reason) :=
  .ite h <| logIntent_holds <| portCount_holds <| event_holds <| setFld_holds <|
  .foldl (returnHeadroom_holds <| .rest <| setFld_holds h) fun _ _ h => h

theorem releaseIntent_holds {p} (h : I.Holds s) : I.Holds (releaseIntent s p) := .ite h (.rest (setFld_holds h))

theorem engCount_holds {f e conf} (h : I.Holds s) : I.Holds (engCount s f e conf) :=
  .ite (.ite (event_holds <| setEngRecord_holds (setFld_holds h) <| by split <;> exact fun _ hx => hx) (setFld_holds h)) h

theorem unreserve_holds {p k} (h : I.Holds s) : I.Holds (unreserve s p k) := .ite (returnHeadroom_holds h) h

theorem unwindClause_holds {e n} (h : I.Holds s) : I.Holds (unwindClause s e n) := by
  unfold unwindClause
  dsimp only
  split; exacts [.ite (.ite h h) h, h]

theorem revokeClause_holds {e reason branch} (h : I.Holds s) : I.Holds (revokeClause s e reason branch) := by
  unfold revokeClause
  split
  · exact h
  · exact .via
        (fun h1 => .ite (.ite (setFld_holds (setFld_holds (setEng_holds h1))) (setFld_holds (setEng_holds h1))) h1)
        (engCount_holds <| event_holds <| setFld_holds <| setFld_holds <|
        setFld_holds (setEng_holds (.foldl (.foldl h (fun _ _ => unwindClause_holds)) (fun _ _ => unreserve_holds))))

theorem railTermsEnd_holds {n ireason creason} (h : I.Holds s) : I.Holds (railTermsEnd s n ireason creason) :=
  .rest <| .foldl
    (.foldl h (fun _ _ h => .ite (revokeIntent_holds h) h))
    (fun _ _ h => by split; exacts [.ite (revokeClause_holds h) h, h])

/-! ### Rails -/

theorem sendSink_holds {n} (h1 : I.Holds t) : I.Holds (sendSink s t n) := .ite h1 (.foldl h1 (fun _ _ => sendCmd_holds))

theorem setRailState_holds {n st} (h : I.Holds s) : I.Holds (setRailState s n st) :=
  .via
    (fun h1 =>
      sendSink_holds (.ite (.ite (supLeave_holds h1) h1) (noteHist_holds (noteHist_holds (.ite (supLeave_holds h1) h1)))))
    (setFlag_holds (setFld_holds h))

theorem railStop_holds {n st} (h : I.Holds s) : I.Holds (railStop s n st) :=
  setFld_holds <| setFld_holds <| setFld_holds <| setFld_holds <|
  setFld_holds (setFld_holds (setFlag_holds (.foldl (.rest (setRailState_holds h)) (fun _ _ => pinCount_holds))))

theorem railLeave_holds {n st ireason creason} (h : I.Holds s) : I.Holds (railLeave s n st ireason creason) :=
  .ite (railTermsEnd_holds (railStop_holds h)) (railStop_holds h)

theorem railSafeOff_holds {n ireason creason} (h : I.Holds s) : I.Holds (railSafeOff s n ireason creason) :=
  .rest (railLeave_holds h)

theorem railNoPhase_holds {n} (h : I.Holds s) : I.Holds (railNoPhase s n) := .rest (event_holds (railSafeOff_holds h))

theorem recordPhaseFence_holds {n ph cause} (h : I.Holds s) : I.Holds (recordPhaseFence s n ph cause) :=
  .via
    (fun h1 => .ite (.rest (.rest (event_holds (countTo_holds h1)))) (event_holds (countTo_holds h1)))
    (.rest (supCount_holds (event_holds (countTo_holds (setFld_holds (setFld_holds (sendCmd_holds h)))))))

theorem phaseFence_holds {n ph cause} (h : I.Holds s) : I.Holds (phaseFence s n ph cause) :=
  .ite h (.ite (railNoPhase_holds (recordPhaseFence_holds h)) (.rest (recordPhaseFence_holds h)))

theorem fenceUntrained_holds {n} (h : I.Holds s) : I.Holds (fenceUntrained s n) :=
  .foldl h (fun _ _ h => .ite (recordPhaseFence_holds h) h)

theorem compPend_holds {n} (h : I.Holds s) : I.Holds (compPend s n) := setFlag_holds h

theorem compTake_holds {n} (h : I.Holds s) : I.Holds (compTake s n) := compPend_holds h

theorem railStart_holds {n restart} (h : I.Holds s) : I.Holds (railStart s n restart) :=
  .via
    (fun h1 =>
      .ite (railNoPhase_holds h1) <| .via
        (fun h2 => .via (fun h3 => .ite h3 (setFld_holds h3)) (setFlag_holds (.ite (setFlag_holds h2) h2)))
        (.rest (.ite h1 (compTake_holds h1))))
    (supCount_holds (setRailState_holds (fenceUntrained_holds h)))

theorem railEnableIf_holds {n permitted} (h : I.Holds s) : I.Holds (railEnableIf s n permitted).1 :=
  .iteFst h <|
  .iteFst h (.iteFst h (.iteFst h (.iteFst h (.iteFst h (.iteFst (.rest (setRailState_holds h)) (railStart_holds h))))))

theorem railEnable_holds {n} (h : I.Holds s) : I.Holds (railEnable s n).1 := railEnableIf_holds h

theorem supersede_holds {n} (h : I.Holds s) : I.Holds (supersede s n) := .ite (event_holds (setFld_holds h)) h

theorem railDisable_holds {n} (h : I.Holds s) : I.Holds (railDisable s n).1 :=
  .iteFst (railLeave_holds h) <| .iteFst
    (.iteFst
      (.iteFst h (railTermsEnd_holds (setFlag_holds (.rest (setRailState_holds (supersede_holds h))))))
      (railLeave_holds h))
    h

theorem railSetTarget_holds {n v rate m} (h : I.Holds s) : I.Holds (railSetTarget s n v rate m).1 :=
  .iteFst h <| .iteFst h <| .iteFst
    (.iteFst (setFld_holds h) <| .via
      (fun h1 => .iteFst (event_holds (setFlag_holds (.rest h1))) (setFlag_holds (.rest h1)))
      (setFld_holds (supersede_holds h)))
    (.rest (setFld_holds h))

theorem railDrain_holds {n} (h : I.Holds s) : I.Holds (railDrain s n) :=
  .ite h (railTermsEnd_holds (event_holds (setRailState_holds h)))

theorem railUnfence_holds {n mask} (h : I.Holds s) : I.Holds (railUnfence s n mask).1 :=
  .iteFst h (.foldl h (fun _ _ h => .ite h (sendCmd_holds h)))

theorem railTrack_holds {n leader mode ratio} (h : I.Holds s) : I.Holds (railTrack s n leader mode ratio).1 :=
  .iteFst h <| .iteFst h <| .iteFst h <| .via
    (fun h1 => .iteFst (.ite (setFlag_holds (.rest h1)) (.rest h1)) h1)
    (setFlag_holds (setFld_holds (setFld_holds (setFld_holds h))))

theorem railMap_holds {n w} (h : I.Holds s) : I.Holds (railMap s n w).1 := .iteFst h (.iteFst h (.iteFst h (setReg_holds h)))

theorem railCtrlIf_holds {n w permitted} (h : I.Holds s) : I.Holds (railCtrlIf s n w permitted).1 :=
  .iteFst h <| .iteFst h <| .via
    (fun h1 => .ite (.iteFst (railEnableIf_holds h1) (railDisable_holds h1)) h)
    (sendSink_holds (setFld_holds (setFld_holds (setFld_holds h))))

theorem railCtrl_holds {n w} (h : I.Holds s) : I.Holds (railCtrl s n w).1 := railCtrlIf_holds h

theorem railBound_holds {n kind w} (h : I.Holds s) : I.Holds (railBound s n kind w).1 := .iteFst h (plainWrite_holds h)

theorem railWrite_holds {n off m w} (h : I.Holds s) : I.Holds (railWrite s n off m w).1 := by
  unfold railWrite
  split
  · exact railCtrl_holds h
  · exact railSetTarget_holds h
  · exact railTrack_holds h
  iterate 3 · exact compPend_holds (setReg_holds h)
  · exact .via (fun h1 => .iteFst (.rest h1) h1) (compPend_holds (setFld_holds h))
  · exact .iteFst h (setFld_holds h)
  · exact railMap_holds h
  · exact railUnfence_holds h
  · exact .iteFst h (setReg_holds h)
  iterate 6 · exact railBound_holds h
  iterate 9 · exact plainWrite_holds h
  · exact h

/-! ### Links -/

theorem startTraining_holds {l attempt} (h : I.Holds s) : I.Holds (startTraining s l attempt) :=
  setReg_holds (setFld_holds (setFld_holds (setFld_holds (.rest (setOverrun_holds (setStopped_holds h))))))

theorem linkDrain_holds {l} (h : I.Holds s) : I.Holds (linkDrain s l) := .ite h h

theorem linkStop_holds {l} (h : I.Holds s) : I.Holds (linkStop s l) :=
  linkDrain_holds (.ite (by split; exacts [phaseFence_holds h, h]) h)

theorem linkEnable_holds {l en} (h : I.Holds s) : I.Holds (linkEnable s l en) :=
  .ite h (.ite (setFlag_holds h) (linkStop_holds (setFlag_holds h)))

theorem writeFxctrl_holds {l w} (h : I.Holds s) : I.Holds (writeFxctrl s l w).1 :=
  linkEnable_holds (setFlag_holds (setFld_holds (setFld_holds (setFld_holds h))))

theorem writePklim_holds {l w} (h : I.Holds s) : I.Holds (writePklim s l w) := sendCmd_holds (plainWrite_holds h)

theorem linkClrflt_holds {l busy st} (h : I.Holds s) : I.Holds (linkClrflt s l busy st).1 :=
  .iteFst h (.iteFst h (sendCmd_holds h))

theorem linkRetrain_holds {l busy st} (h : I.Holds s) : I.Holds (linkRetrain s l busy st).1 :=
  .iteFst h (.iteFst (startTraining_holds h) (.iteFst (setFld_holds (startTraining_holds h)) h))

theorem linkClrcnt_holds {l} (h : I.Holds s) : I.Holds (linkClrcnt s l) :=
  setFlag_holds (setFlag_holds (setFlag_holds (setFld_holds (setFld_holds (setFld_holds h)))))

theorem writeFxcmd_holds {l w busy st} (h : I.Holds s) : I.Holds (writeFxcmd s l w busy st).1 :=
  .via
    (fun h1 => .iteFst (linkRetrain_holds (.iteFst (linkClrflt_holds h1) h1)) (.iteFst (linkClrflt_holds h1) h1))
    (.ite (linkClrcnt_holds h) h)

theorem linkWrite_holds {l off w busy st} (h : I.Holds s) : I.Holds (linkWrite s l off w busy st).1 := by
  unfold linkWrite
  split
  · exact writeFxctrl_holds h
  · exact plainWrite_holds h
  · exact writePklim_holds h
  · exact writeFxcmd_holds h
  iterate 3 · exact plainWrite_holds h
  · exact h

/-! ### Conversion modules -/

theorem lxRerank_holds (h : I.Holds s) : I.Holds (lxRerank s) := .foldl h (fun _ _ h => setFld_holds (.ite h h))

theorem lxHandOver_holds {a b} (h : I.Holds s) : I.Holds (lxHandOver s a b) := by
  unfold lxHandOver
  split; exacts [.ite h h, h]

theorem setLxState_holds {m st} (h : I.Holds s) : I.Holds (setLxState s m st) :=
  .via (fun h1 => lxRerank_holds (.ite h1 (.rest h1))) (lxHandOver_holds (setFlag_holds (setFld_holds h)))

theorem lxStop_holds {m st} (h : I.Holds s) : I.Holds (lxStop s m st) :=
  setFlag_holds <| setFlag_holds <|
  setFlag_holds (setFlag_holds (setFld_holds (setFld_holds (setFld_holds (.rest (.rest (.rest (setLxState_holds h))))))))

theorem lxDrain_holds {m} (h : I.Holds s) : I.Holds (lxDrain s m) := .ite h (.rest (setLxState_holds h))

theorem lxEnterStart_holds {m} (h : I.Holds s) : I.Holds (lxEnterStart s m) :=
  .via
    (fun h1 => .ite (setFld_holds h1) (.ite h1 (setFld_holds (.rest h1))))
    (setFlag_holds (.rest (.rest (.rest (.ite (setLxState_holds h) (.rest (setLxState_holds h)))))))

theorem lxEnable_holds {m} (h : I.Holds s) : I.Holds (lxEnable s m).1 :=
  .iteFst h (.iteFst h (.iteFst h (.iteFst h (.iteFst h (.iteFst h (.iteFst h (.iteFst h (lxEnterStart_holds h))))))))

theorem lxDisable_holds {m} (h : I.Holds s) : I.Holds (lxDisable s m) :=
  .ite (lxStop_holds h) (.ite h (.ite (setLxState_holds h) h))

theorem lxRetarget_holds {m} (h1 : I.Holds t) : I.Holds (lxRetarget s t m) := .ite (event_holds h1) h1

theorem lxChgDrop_holds {m} (h : I.Holds s) : I.Holds (lxChgDrop s m) := by
  unfold lxChgDrop
  dsimp only
  split; exacts [h, event_holds (lxRetarget_holds (setFlag_holds h))]

theorem lxConfig_holds {m w} (h : I.Holds s) : I.Holds (lxConfig s m w) :=
  .via (fun h1 => .ite (lxChgDrop_holds h1) h1) (setFlag_holds (setFlag_holds (setFlag_holds (setFld_holds h))))

theorem lxPrecharge_holds {m} (h1 : I.Holds t) : I.Holds (lxPrecharge s t m) := .ite h1 (.ite (setFld_holds h1) (setFld_holds h1))

theorem lxReconfigure_holds {m w} (h : I.Holds s) : I.Holds (lxReconfigure s m w) :=
  .ite (.ite (.rest (setLxState_holds h)) h) <| .ite
    (by split; exacts [.ite (event_holds h) h, h])
    (.ite h (.ite (lxPrecharge_holds (lxConfig_holds h)) (lxConfig_holds h)))

theorem writeLxCtrl_holds {m w} (h : I.Holds s) : I.Holds (writeLxCtrl s m w).1 := by
  unfold writeLxCtrl
  refine .iteFst h <| .iteFst ?_ <| lxDisable_holds <| lxReconfigure_holds <|
    .ite (setFlag_holds (setFld_holds h)) (lxChgDrop_holds (setFlag_holds (setFld_holds h)))
  split
  next hr => exact (lxEnable_holds <| lxReconfigure_holds <|
    .ite (setFlag_holds (setFld_holds h)) (lxChgDrop_holds (setFlag_holds (setFld_holds h)))).of_eq hr
  · exact h

theorem writeVtgt_holds {m v} (h : I.Holds s) : I.Holds (writeVtgt s m v) := lxRetarget_holds (setReg_holds h)

theorem lxUnfence_holds {m} (h : I.Holds s) : I.Holds (lxUnfence s m) := .ite (lxStop_holds h) h

theorem writeLxCmd_holds {m w} (h : I.Holds s) : I.Holds (writeLxCmd s m w).1 :=
  .via (fun h1 => .iteFst (.iteFst (lxUnfence_holds h1) h1) h1) (.ite (setFld_holds h) h)

theorem lxWrite_holds {m off w} (h : I.Holds s) : I.Holds (lxWrite s m off w).1 := by
  unfold lxWrite
  split
  · exact writeLxCtrl_holds h
  · exact writeVtgt_holds h
  · exact .iteFst h (setReg_holds h)
  iterate 7 · exact plainWrite_holds h
  · exact sendCmd_holds (sendCmd_holds (plainWrite_holds h))
  iterate 8 · exact plainWrite_holds h
  · exact writeLxCmd_holds h
  · exact h

theorem lxGlobalWrite_holds {off w} (h : I.Holds s) : I.Holds (lxGlobalWrite s off w).1 := by
  unfold lxGlobalWrite
  split
  · exact .iteFst h (.iteFst h (setFld_holds h))
  · exact .iteFst h (lxRerank_holds (plainWrite_holds h))
  · exact plainWrite_holds h
  · exact plainWrite_holds h
  · exact h

theorem anyLinkWrite_holds {l off w} (h : I.Holds s) : I.Holds (anyLinkWrite s l off w).1 :=
  .iteFst (linkWrite_holds h) (linkWrite_holds h)

/-! ### Supervision -/

theorem supTurnOff_holds {n} (h : I.Holds s) : I.Holds (supTurnOff s n) :=
  .ite (supCount_holds h) (railSafeOff_holds (supCount_holds h))

theorem compChange_holds {n q b} (h : I.Holds s) : I.Holds (compChange s n q b) :=
  .via
    (fun h1 =>
      .ite h1 <| .ite
        (.via
          (fun h2 => .ite (supTurnOff_holds (.ite h2 (setLevel_holds h2))) (.ite h2 (setLevel_holds h2)))
          (supCount_holds (setFbit_holds h1)))
        (setLevel_holds h1))
    (compSet_holds h)

theorem gsSet_holds {k b v} (h : I.Holds s) : I.Holds (gsSet s k b v) :=
  rstoUpdate_holds (setLevel_holds (.ite (setFbit_holds (.rest (setFbit_holds h))) (.rest (setFbit_holds h))))

theorem writeGsCfg_holds {k w} (h : I.Holds s) : I.Holds (writeGsCfg s k w).1 :=
  .iteFst h (.iteFst h (.iteFst (gsSet_holds (plainWrite_holds h)) (rstoUpdate_holds (plainWrite_holds h))))

theorem writeGsBound_holds {k r w} (h : I.Holds s) : I.Holds (writeGsBound s k r w).1 := .iteFst h (setReg_holds h)

theorem hadcTrigger_holds {c} (h : I.Holds s) : I.Holds (hadcTrigger s c) :=
  .ite (countTo_holds (event_holds h)) (.rest (setFlag_holds h))

theorem hadcGo_holds {c} (h : I.Holds s) : I.Holds (hadcGo s c) := .ite (hadcTrigger_holds h) h

theorem hadcClrcnt_holds {c} (h : I.Holds s) : I.Holds (hadcClrcnt s c) := setFld_holds h

theorem hadcDrain_holds {c} (h : I.Holds s) : I.Holds (hadcDrain s c) := event_holds (setFlag_holds h)

theorem hadcEnable_holds {c en} (h : I.Holds s) : I.Holds (hadcEnable s c en) :=
  .ite (setFlag_holds h) (.ite (hadcDrain_holds (setFlag_holds h)) h)

theorem writeSupCfg_holds {n w} (h : I.Holds s) : I.Holds (writeSupCfg s n w) :=
  .via
    (fun h1 =>
      .ite
        (.ite
          (.ite (.ite h1 (compChange_holds h1)) (compChange_holds (.ite h1 (compChange_holds h1))))
          (compChange_holds (.ite (.ite h1 (compChange_holds h1)) (compChange_holds (.ite h1 (compChange_holds h1))))))
        (compChange_holds <| .ite
          (.ite (.ite h1 (compChange_holds h1)) (compChange_holds (.ite h1 (compChange_holds h1))))
          (compChange_holds (.ite (.ite h1 (compChange_holds h1)) (compChange_holds (.ite h1 (compChange_holds h1)))))))
    (plainWrite_holds h)

theorem supWrite_holds {off m w} (h : I.Holds s) : I.Holds (supWrite s off m w).1 :=
  .iteFst
    (by
      dsimp only
      split
      · exact plainWrite_holds h
      · exact plainWrite_holds h
      · exact plainWrite_holds h
      · exact writeSupCfg_holds h)
    (.iteFst h <| .iteFst (plainWrite_holds h) <| .iteFst (plainWrite_holds h) <| .iteFst
      (by
        dsimp only
        split
        · exact writeGsCfg_holds h
        · exact writeGsBound_holds h
        · exact writeGsBound_holds h)
      (.iteFst (plainWrite_holds h) <| .iteFst (plainWrite_holds h) <| .iteFst
        (by
          dsimp only
          split
          · exact rstoUpdate_holds (plainWrite_holds h)
          · exact rstoUpdate_holds (plainWrite_holds h)
          · exact rstoUpdate_holds (plainWrite_holds h)
          · exact h)
        (.iteFst
          (.ite (.rest (plainWrite_holds h)) (plainWrite_holds h))
          (.iteFst (plainWrite_holds h) <|
          .iteFst (plainWrite_holds h) (.iteFst (plainWrite_holds h) (.iteFst (plainWrite_holds h) h))))))

theorem writeHadcMask_holds {c w} (h : I.Holds s) : I.Holds (writeHadcMask s c w).1 :=
  .iteFst h (.iteFst (setFld_holds h) (setLevel_holds (.rest (setFld_holds h))))

theorem hadcWrite_holds {c off w} (h : I.Holds s) : I.Holds (hadcWrite s c off w).1 := by
  unfold hadcWrite
  split
  · exact .iteFst h (hadcEnable_holds (setFld_holds (setFld_holds (setFld_holds h))))
  · exact writeHadcMask_holds h
  · exact plainWrite_holds h
  · exact plainWrite_holds h
  · exact .ite (hadcGo_holds (.ite (hadcClrcnt_holds h) h)) (.ite (hadcClrcnt_holds h) h)
  iterate 3 · exact plainWrite_holds h
  · exact h

/-! ### Housekeeping rails -/

theorem auxPg_holds {n b} (h : I.Holds s) : I.Holds (auxPg s n b) := rstoUpdate_holds (setFbit_holds (setFlag_holds h))

theorem auxKindsEnd_holds {n} (h : I.Holds s) : I.Holds (auxKindsEnd s n) := setLevel_holds h

theorem setAuxState_holds {n st} (h : I.Holds s) : I.Holds (setAuxState s n st) :=
  .ite (setFlag_holds (setFld_holds h)) (auxPg_holds (auxKindsEnd_holds (setFlag_holds (setFld_holds h))))

theorem auxStop_holds {n st why} (h : I.Holds s) : I.Holds (auxStop s n st why) := setAuxState_holds (setFld_holds h)

theorem auxTurnOff_holds {n why} (h : I.Holds s) : I.Holds (auxTurnOff s n why) := .ite (auxStop_holds h) h

theorem auxEnable_holds {n plinth} (h : I.Holds s) : I.Holds (auxEnable s n plinth).1 :=
  .iteFst h (.iteFst h (.iteFst h (.iteFst h (.iteFst h (.iteFst (setAuxState_holds h) h)))))

theorem auxDisable_holds {n} (h : I.Holds s) : I.Holds (auxDisable s n) := auxTurnOff_holds h

theorem writeAuxCfg_holds {n w} (h : I.Holds s) : I.Holds (writeAuxCfg s n w).1 := .iteFst h (plainWrite_holds h)

theorem auxUnfence_holds {n} (h : I.Holds s) : I.Holds (auxUnfence s n) := .ite (setAuxState_holds h) h

theorem hkrWrite_holds {off w} (h : I.Holds s) : I.Holds (hkrWrite s off w).1 :=
  .iteFst h <| by
    dsimp only
    split
    · exact .iteFst (auxEnable_holds h) (auxDisable_holds h)
    · exact writeAuxCfg_holds h
    · exact h
    · exact .iteFst h (.iteFst (auxUnfence_holds h) h)

/-! ### Charger -/

theorem setB_holds {st} (h : I.Holds s) : I.Holds (setB s st) := setFld_holds h

theorem setH_holds {st} (h : I.Holds s) : I.Holds (setH s st) := setFld_holds h

theorem setA_holds {st} (h : I.Holds s) : I.Holds (setA s st) := setFld_holds h

theorem bReason_holds {r} (h : I.Holds s) : I.Holds (bReason s r) := setFld_holds h

theorem hReason_holds {r} (h : I.Holds s) : I.Holds (hReason s r) := setFld_holds h

theorem aReason_holds {r} (h : I.Holds s) : I.Holds (aReason s r) := setFld_holds h

theorem setBdis_holds {b} (h : I.Holds s) : I.Holds (setBdis s b) := .rest (setFlag_holds h)

theorem chgWithdraw_holds (h : I.Holds s) : I.Holds (chgWithdraw s) := .foldl h (fun _ _ h => .ite (lxChgDrop_holds h) h)

theorem bSuspend_holds {r} (h : I.Holds s) : I.Holds (bSuspend s r) :=
  .ite h (.ite (bReason_holds (setB_holds h)) (.ite (bReason_holds h) h))

theorem hSuspend_holds {r} (h : I.Holds s) : I.Holds (hSuspend s r) :=
  .ite h (.ite (hReason_holds (setH_holds h)) (.ite (hReason_holds h) h))

theorem chgModeChange_holds (h : I.Holds s) : I.Holds (chgModeChange s) :=
  .ite (.ite h (bSuspend_holds h)) (hSuspend_holds (.ite h (bSuspend_holds h)))

theorem bDetectOrStop_holds (h : I.Holds s) : I.Holds (bDetectOrStop s) := setB_holds h

theorem hDetectOrStop_holds (h : I.Holds s) : I.Holds (hDetectOrStop s) := setH_holds h

theorem bRestart_holds (h : I.Holds s) : I.Holds (bRestart s) := .ite (.ite (setB_holds (setFlag_holds h)) (setFlag_holds h)) h

theorem hRestart_holds (h : I.Holds s) : I.Holds (hRestart s) := .ite (.ite (setH_holds (setFlag_holds h)) (setFlag_holds h)) h

theorem aToReturn_holds {r} (h : I.Holds s) : I.Holds (aToReturn s r) := aReason_holds (setA_holds h)

theorem writeBen_holds {en} (h : I.Holds s) : I.Holds (writeBen s en).1 :=
  .iteFst
    (.iteFst (setFlag_holds h) (setB_holds (setFlag_holds (.ite h (chgWithdraw_holds h)))))
    (.iteFst h (.iteFst h (.iteFst h (.ite (bDetectOrStop_holds (setFlag_holds h)) (setB_holds (setFlag_holds h))))))

theorem writeHen_holds {en} (h : I.Holds s) : I.Holds (writeHen s en).1 :=
  .iteFst (setH_holds (setFlag_holds h)) (.iteFst h (.iteFst h (.iteFst h (hDetectOrStop_holds (setFlag_holds h)))))

theorem writeAuxchg_holds {b} (h : I.Holds s) : I.Holds (writeAuxchg s b).1 :=
  .iteFst h <| .iteFst h <|
  .iteFst (.iteFst (setAuxState_holds (setFlag_holds h)) h) (.ite (setAuxState_holds (setFlag_holds h)) (setFlag_holds h))

theorem writeChem_holds {c} (h : I.Holds s) : I.Holds (writeChem s c).1 :=
  .iteFst h <| .iteFst h <|
  setFld_holds (setReg_holds (setReg_holds (setReg_holds (setSfld_holds (setReg_holds (setReg_holds (setFld_holds h)))))))

theorem clrstop_holds (h : I.Holds s) : I.Holds (clrstop s) := .ite (bRestart_holds (setFlag_holds h)) h

theorem hclrstop_holds (h : I.Holds s) : I.Holds (hclrstop s) := .ite (hRestart_holds (setFlag_holds h)) h

theorem chgClrcnt_holds (h : I.Holds s) : I.Holds (chgClrcnt s) :=
  .via (fun h1 => .ite (setFld_holds (.ite (setFld_holds h1) h1)) (.ite (setFld_holds h1) h1)) (.ite (setFld_holds h) h)

theorem asstart_holds (h : I.Holds s) : I.Holds (asstart s).1 :=
  .iteFst h (.iteFst h (.iteFst h (setA_holds (setFld_holds (.rest (bSuspend_holds h))))))

theorem asstop_holds {r} (h : I.Holds s) : I.Holds (asstop s r) := .ite (aToReturn_holds h) h

theorem chgDrain_holds (h : I.Holds s) : I.Holds (chgDrain s) :=
  .via
    (fun h1 =>
      .via
        (fun h2 =>
          .via
            (fun h3 =>
              .via
                (fun h4 => event_holds (setFlag_holds (setFlag_holds (.rest (aReason_holds (.ite h4 (setA_holds h4)))))))
                (hReason_holds (.ite h3 (setH_holds h3))))
            (bReason_holds (.ite h2 (setB_holds h2))))
        (.ite (setAuxState_holds (setFlag_holds h1)) h1))
    (chgWithdraw_holds (setBdis_holds h))

theorem writeChgCtrl_holds {w} (h : I.Holds s) : I.Holds (writeChgCtrl s w).1 := by
  unfold writeChgCtrl
  split
  next t1 r1 h1 =>
  have h1 : I.Holds t1 := (Invariant.Holds.iteFst h (writeChem_holds h)).of_eq h1
  refine .iteFst h ?_
  split
  next t2 r2 h2 =>
  have h2 : I.Holds t2 := by
    refine .of_eq (.iteFst (writeAuxchg_holds h1) ?_) h2
    split
    next h3 => exact .iteFst (writeAuxchg_holds ((writeHen_holds h1).of_eq h3)) ((writeHen_holds h1).of_eq h3)
  refine .iteFst h ?_
  split
  next t3 r3 h3 =>
  have h3 : I.Holds t3 := (writeHen_holds h2).of_eq h3
  refine .iteFst h ?_
  split
  next h4 => exact .iteFst h <| (writeBen_holds h3).of_eq h4

theorem writeTwin_holds {r w} (h : I.Holds s) : I.Holds (writeTwin s r w).1 := .iteFst (setReg_holds h) h

theorem writeChgCmd_holds {w} (h : I.Holds s) : I.Holds (writeChgCmd s w).1 := by
  unfold writeChgCmd
  extract_lets t1 t2 t3 t4
  have h1 : I.Holds t1 := .ite (chgClrcnt_holds h) h
  have h2 : I.Holds t2 := .ite (clrstop_holds h1) h1
  have h3 : I.Holds t3 := .ite (hclrstop_holds h2) h2
  have h4 : I.Holds t4 := .ite (asstop_holds h3) h3
  refine .iteFst ?_ h4
  split
  next hr => exact (asstart_holds h4).of_eq hr
  · exact h

theorem chgWrite_holds {off w} (h : I.Holds s) : I.Holds (chgWrite s off w).1 := by
  unfold chgWrite
  split
  · exact writeChgCtrl_holds h
  · exact writeChgCmd_holds h
  · exact plainWrite_holds h
  · exact plainWrite_holds h
  · exact .iteFst h (setReg_holds h)
  iterate 5 · exact plainWrite_holds h
  · exact writeTwin_holds h
  · exact setFld_holds h
  · exact setFld_holds h
  iterate 5 · exact plainWrite_holds h
  · exact writeTwin_holds h
  · exact setFld_holds h
  · exact plainWrite_holds h
  · exact .iteFst h (.iteFst h (plainWrite_holds h))
  iterate 4 · exact plainWrite_holds h
  · exact h

/-! ### RAM lines -/

theorem chkCount_holds {f n} (h : I.Holds s) : I.Holds (chkCount s f n) :=
  .ite h (.ite (.ite (event_holds (setFld_holds h)) (setFld_holds h)) h)

theorem uncorrectable_holds {ram i} (h : I.Holds s) : I.Holds (uncorrectable s ram i) :=
  .ite (.rest (chkCount_holds h)) <| by
    dsimp only
    split
    · exact chkCount_holds h
    · split
      · exact setFld_holds (setFld_holds (setFlag_holds (event_holds (.rest (chkCount_holds h)))))
      · exact setFlag_holds (event_holds (.rest (chkCount_holds h)))

theorem decodeLine_holds {ram i} (h : I.Holds s) : I.Holds (State.decodeLine s ram i).1 := by
  unfold State.decodeLine
  split; exacts [h, .rest (.rest (chkCount_holds h)), uncorrectable_holds h]

theorem injectLine_holds {ram i} (h : I.Holds s) : I.Holds (State.injectLine s ram i) :=
  injectItem_holds (injectItem_holds h (fun _ h => .ite h h)) (fun _ h => h)

theorem readLine_holds {ram i} (h : I.Holds s) : I.Holds (State.readLine s ram i).1 :=
  injectTake_holds (injectTake_holds (decodeLine_holds (injectLine_holds h)))

theorem repairLine_holds {ram i} (h : I.Holds s) : I.Holds (repairLine s ram i) := by
  unfold repairLine
  dsimp only
  split; exacts [setReg_holds h, h]

theorem writeRam_holds {ram w v} (h : I.Holds s) : I.Holds (State.writeRam s ram w v).1 :=
  .iteFst (setWord_holds (readLine_holds h)) (setWord_holds (repairLine_holds (zeroBytes_holds (readLine_holds h))))

theorem markWritten_holds {w} (h : I.Holds s) : I.Holds (State.markWritten s w) := .ite h h

/-! ### Intent ports -/

theorem drainPort_holds {p} (h : I.Holds s) : I.Holds (drainPort s p) :=
  .ite (releaseIntent_holds h) <| reduceAllowance_holds <|
  setFlag_holds (setFld_holds (setFld_holds (event_holds (releaseIntent_holds (revokeIntent_holds h)))))

theorem enterHandshake_holds {p} (h : I.Holds s) : I.Holds (enterHandshake s p) :=
  .rest (setFld_holds (setFld_holds (setOverrun_holds (setStopped_holds h))))

theorem portBegin_holds {p} (h : I.Holds s) : I.Holds (portBegin s p) :=
  .ite (.rest (setFld_holds (setFld_holds h))) (enterHandshake_holds h)

theorem enablePort_holds {p} (h : I.Holds s) : I.Holds (enablePort s p).1 :=
  .iteFst h (.iteFst h (.iteFst h (portBegin_holds (setFlag_holds h))))

theorem writeIpCtrl_holds {p w} (h : I.Holds s) : I.Holds (writeIpCtrl s p w).1 := by
  unfold writeIpCtrl
  refine .iteFst h <| .iteFst h <| .iteFst ?_ <| drainPort_holds <| setFlag_holds <| setFld_holds <| setFld_holds <| setFlag_holds <|
    setFld_holds h
  split
  next hr => exact (enablePort_holds <| setFlag_holds <| setFld_holds <| setFld_holds <| setFlag_holds <| setFld_holds h).of_eq hr
  · exact h

theorem readBank_holds {b p} (h : I.Holds s) : I.Holds (readBank s b p) := .foldl h (fun _ _ => readLine_holds)

theorem checkBank_holds {p} (h : I.Holds s) : I.Holds (checkBank s p) :=
  .ite h <| by
    dsimp only
    split
    · exact injectTake_holds (setLevel_holds (injectItem_holds (readBank_holds h) (fun _ h => h)))
    · exact setLevel_holds (injectItem_holds (readBank_holds h) (fun _ h => h))

theorem publish_holds {g} (h : I.Holds s) : I.Holds (publish s g) := .rest (.foldl h (fun _ _ => checkBank_holds))

theorem bankWrite_holds {p w} (h : I.Holds s) : I.Holds (bankWrite s p w) := .ite (plainWrite_holds h) (.rest (plainWrite_holds h))

theorem writeIntentTable_holds {i v} (h : I.Holds s) : I.Holds (writeIntentTable s i v).1 := .iteFst h (writeRam_holds h)

theorem ipClrcnt_holds {p} (h : I.Holds s) : I.Holds (ipClrcnt s p) :=
  setFld_holds (setFld_holds (setFld_holds (setFld_holds (setFld_holds (setFld_holds h)))))

theorem anticipationModeChange_holds {old m} (h : I.Holds s) : I.Holds (anticipationModeChange s old m) :=
  .ite h <| .via
    (fun h1 =>
      .ite
        (.foldl
          (.foldl (.foldl (.foldl h1 (fun _ _ => id)) (fun _ _ => revokeIntent_holds)) (fun _ _ => reduceAllowance_holds))
          (fun _ _ => id))
        (.ite (.foldl (.foldl h1 (fun _ _ h => .ite (revokeIntent_holds h) h)) (fun _ _ => publish_holds)) h1))
    (.ite (.foldl h (fun _ _ => drainPort_holds)) h)

/-! ### Patina log -/

theorem readBack_holds {i} (h : I.Holds s) : I.Holds (readBack s i) :=
  .via
    (fun h1 => .ite (readLine_holds h1) (injectTake_holds (.rest (event_holds (readLine_holds h1)))))
    (injectItem_holds h (fun _ h => h))

theorem markWrite_holds (h : I.Holds s) : I.Holds (markWrite s) := by
  unfold markWrite
  split
  · exact h
  · exact readBack_holds <|
      setFlag_holds (.rest (setByte_holds (.ite (readLine_holds h) (repairLine_holds (zeroBytes_holds (readLine_holds h))))))

theorem patClr_holds {m key} (h : I.Holds s) : I.Holds (patClr s m key).1 := .iteFst h (.iteFst h (.rest (setFlag_holds h)))

theorem patDrain_holds (h : I.Holds s) : I.Holds (patDrain s) :=
  .rest (event_holds (.foldl (markWrite_holds h) (fun _ _ => dropRecord_holds)))

theorem patReset_holds (h : I.Holds s) : I.Holds (patReset s) := .rest (.foldl h (fun _ _ => resetReg_holds))

theorem patAck_holds (h : I.Holds s) : I.Holds (patAck s) := .rest (setFld_holds h)

theorem patClrcnt_holds (h : I.Holds s) : I.Holds (patClrcnt s) := .rest (setFld_holds h)

theorem patWrite_holds {off m w} (h : I.Holds s) : I.Holds (patWrite s off m w).1 := by
  unfold patWrite
  split
  · exact plainWrite_holds h
  · exact .iteFst
        (.via (fun h1 => .ite (patClrcnt_holds h1) h1) <|
        .ite (patAck_holds (.iteFst (patClr_holds h) h)) (.iteFst (patClr_holds h) h))
        h
  iterate 3 · exact plainWrite_holds h
  · exact h

/-! ### Checks and scan jobs -/

theorem pairWritten_holds {m a} (h : I.Holds s) : I.Holds (pairWritten s m a) := .ite h h

theorem writeCrccfg_holds {u m w} (h : I.Holds s) : I.Holds (writeCrccfg s u m w).1 :=
  .iteFst h <| .iteFst h <| .via (fun h1 => .ite (setFld_holds (setFlag_holds h1)) h1) <|
  .ite (.rest (setFld_holds (setFld_holds (setFlag_holds (setFld_holds (setFld_holds h)))))) (setFld_holds (setFld_holds h))

theorem crcWrite_holds {u m l} (h : I.Holds s) : I.Holds (crcWrite s u m l).1 := .iteFst h (.rest (setFld_holds h))

theorem scanLine_holds {job x i} (h : I.Holds x.1) : I.Holds (scanLine job x i).1 := .iteFst h (readLine_holds h)

theorem fillLine_holds {job x i} (h : I.Holds x.1) : I.Holds (fillLine job x i).1 :=
  .iteFst h (.foldl h (fun _ _ h => .ite (markWritten_holds (writeRam_holds h)) (writeRam_holds h)))

theorem jobLine_holds {job x i} (h : I.Holds x.1) : I.Holds (jobLine job x i).1 := .iteFst (fillLine_holds h) (scanLine_holds h)

theorem showAcc_holds {x} (h : I.Holds s) : I.Holds (showAcc s x) := setFld_holds (setFlag_holds h)

theorem scanFreeze_holds {a} (h : I.Holds s) : I.Holds (scanFreeze s a) :=
  .rest (.rest (setFld_holds (setFld_holds (setFlag_holds h))))

theorem scanGo_holds {m} (h : I.Holds s) : I.Holds (scanGo s m).1 :=
  .iteFst h <| .iteFst h <| .iteFst h <| .iteFst (setFld_holds (scanFreeze_holds h)) <|
  .iteFst h (.rest (setFld_holds (setFld_holds (setFld_holds (setReg_holds h)))))

theorem jobAborted_holds {job k x} (h : I.Holds s) : I.Holds (jobAborted s job k x) :=
  .rest (setFld_holds (setFld_holds (showAcc_holds h)))

theorem finishLine_holds {job} (h : I.Holds s) : I.Holds (finishLine s job).1 := by
  unfold finishLine
  split; exacts [.iteFst h (jobLine_holds h), h]

theorem scanAbort_holds (h : I.Holds s) : I.Holds (scanAbort s) := by
  unfold scanAbort
  split; exacts [h, event_holds (jobAborted_holds (finishLine_holds h))]

theorem writeSjctrl_holds {m w} (h : I.Holds s) : I.Holds (writeSjctrl s m w).1 :=
  .iteFst h <| .via
    (fun h1 => .iteFst (scanGo_holds (.ite (scanAbort_holds h1) h1)) (.ite (scanAbort_holds h1) h1))
    (setFld_holds (setFld_holds h))

theorem writeAlv_holds {k w} (h : I.Holds s) : I.Holds (writeAlv s k w) :=
  .via
    (fun h1 =>
      .ite h1 <|
      .ite (.rest h1) (.ite (.rest h1) (.ite h1 (.ite (event_holds (countTo_holds h1)) (event_holds (countTo_holds h1))))))
    (plainWrite_holds h)

theorem chkClrcnt_holds (h : I.Holds s) : I.Holds (chkClrcnt s) := .foldl h (fun _ _ h => resetReg_holds (resetReg_holds h))

theorem chkWrite_holds {off m w} (h : I.Holds s) : I.Holds (chkWrite s off m w).1 :=
  .iteFst (plainWrite_holds h) <|
  .iteFst (plainWrite_holds h) <| .iteFst (plainWrite_holds h) <| .iteFst (.ite (chkClrcnt_holds h) h) <| .iteFst
    (by
      dsimp only
      split
      · exact writeCrccfg_holds h
      · exact crcWrite_holds h
      · exact crcWrite_holds h
      · exact h)
    (.iteFst (writeSjctrl_holds h) <| .iteFst (.iteFst h (plainWrite_holds h)) <|
    .iteFst (plainWrite_holds h) (.iteFst (plainWrite_holds h) (.iteFst (plainWrite_holds h) (.iteFst (writeAlv_holds h) h))))

/-! ### OTP -/

theorem otpJudge_holds (h : I.Holds s) : I.Holds (otpJudge s) :=
  .foldl (setFld_holds h) (fun _ _ h => setFld_holds (setFld_holds h))

theorem otpEnd_holds {result} (h : I.Holds s) : I.Holds (otpEnd s result) := by
  unfold otpEnd
  extract_lets _ s1 s2 s3
  have h2 : I.Holds s2 := setFld_holds <| setFlag_holds h
  have h3 : I.Holds s3 := by unfold s3; split <;> exact event_holds h2
  exact otpJudge_holds h3

theorem otpStart_holds {r todo} (h : I.Holds s) : I.Holds (otpStart s r todo) :=
  .via (fun h1 => .ite (otpEnd_holds h1) h1) (.rest (setFlag_holds (setReg_holds h)))

theorem otpBurn_holds (h : I.Holds s) : I.Holds (otpBurn s).1 := .iteFst h (.iteFst h (.iteFst h (.iteFst h (otpStart_holds h))))

theorem otpFinalize_holds {force} (h : I.Holds s) : I.Holds (otpFinalize s force).1 :=
  .iteFst h (.iteFst h (.iteFst h (.iteFst h (.iteFst h (.iteFst h (otpStart_holds h))))))

theorem otpAbort_holds (h : I.Holds s) : I.Holds (otpAbort s) := by
  unfold otpAbort
  split; exacts [.ite h (otpEnd_holds h), h]

theorem shadowWrite_holds {v} (h : I.Holds s) : I.Holds (shadowWrite s v).1 :=
  .iteFst h (.iteFst h (.rest (setFbit_holds (setReg_holds h))))

theorem shadowRel_holds {f} (h : I.Holds s) : I.Holds (shadowRel s f) := .rest (setFbit_holds h)

theorem shadowRelAll_holds (h : I.Holds s) : I.Holds (shadowRelAll s) := .rest (setFld_holds h)

theorem shadowCtrl_holds {rel all} (h : I.Holds s) : I.Holds (shadowCtrl s rel all).1 :=
  .iteFst h (.iteFst h (.iteFst (shadowRelAll_holds h) (.iteFst h (shadowRel_holds h))))

theorem writeOtpCmd_holds {w} (h : I.Holds s) : I.Holds (writeOtpCmd s w).1 :=
  .iteFst (.iteFst h h) (.iteFst h (.iteFst (otpAbort_holds h) (by split; exacts [otpBurn_holds h, otpFinalize_holds h, h])))

theorem otpWrite_holds {off w} (h : I.Holds s) : I.Holds (otpWrite s off w).1 := by
  unfold otpWrite
  dsimp only
  split
  · exact writeOtpCmd_holds h
  · exact .iteFst h (plainWrite_holds h)
  · exact .iteFst h (plainWrite_holds h)
  iterate 5 · exact plainWrite_holds h
  · exact shadowWrite_holds h
  · exact shadowCtrl_holds h
  · exact h

/-! ### Thermal -/

theorem throttleEnd_holds {n} (h : I.Holds s) : I.Holds (throttleEnd s n) := pinCount_holds (pinCount_holds (resetReg_holds h))

theorem nodeShutdownEnd_holds {i} (h : I.Holds s) : I.Holds (nodeShutdownEnd s i) :=
  .ite (setLevel_holds h) (.ite h (.ite (setLevel_holds h) (setLevel_holds h)))

theorem thmDrain_holds (h : I.Holds s) : I.Holds (thmDrain s) :=
  .rest <| event_holds <| .foldl
    (.foldl (.foldl h (fun _ _ => throttleEnd_holds)) (fun _ _ h => .ite (nodeShutdownEnd_holds h) h))
    (fun _ _ => resetReg_holds)

theorem thmEnable_holds {en} (h : I.Holds s) : I.Holds (thmEnable s en).1 :=
  .iteFst
    (.iteFst h (by split; exacts [setFld_holds h, .iteFst (setFld_holds h) (setFlag_holds (setFld_holds h))]))
    (.iteFst (thmDrain_holds (setFlag_holds h)) h)

theorem clrbrk_holds (h : I.Holds s) : I.Holds (clrbrk s) := .rest (.foldl h (fun _ _ => resetReg_holds))

theorem writeThr_holds {r i w} (h : I.Holds s) : I.Holds (writeThr s r i w).1 := .iteFst (setReg_holds h) h

theorem writeThmCtrl_holds {w} (h : I.Holds s) : I.Holds (writeThmCtrl s w).1 :=
  .iteFst h (.iteFst (thmEnable_holds (setFld_holds (setFlag_holds (.ite (thmEnable_holds h) h)))) (setFld_holds h))

theorem thmWrite_holds {off m w} (h : I.Holds s) : I.Holds (thmWrite s off m w).1 :=
  .iteFst (writeThmCtrl_holds h) <| .iteFst (plainWrite_holds h) <|
  .iteFst (plainWrite_holds h) <| .iteFst (plainWrite_holds h) <| .iteFst (.ite (clrbrk_holds h) h) <|
  .iteFst (plainWrite_holds h) <| .iteFst (plainWrite_holds h) <| .iteFst (plainWrite_holds h) <| .iteFst
    (.iteFst h <| .iteFst (.iteFst h (plainWrite_holds h)) <|
    .iteFst (plainWrite_holds h) (.iteFst (writeThr_holds h) (.iteFst (writeThr_holds h) h)))
    (.iteFst (plainWrite_holds h) <| .iteFst (.iteFst h (.iteFst h (plainWrite_holds h))) <|
    .iteFst (.iteFst h (plainWrite_holds h)) (.iteFst (plainWrite_holds h) h))

/-! ### Watchdogs -/

theorem wdDiscard_holds {n w} (h : I.Holds s) : I.Holds (wdDiscard s n w) := setFld_holds (setFld_holds (setReg_holds h))

theorem wdBegin_holds {n} (h : I.Holds s) : I.Holds (wdBegin s n) := .ite (wdDiscard_holds h) h

theorem wdCount_holds {n} (h : I.Holds s) : I.Holds (wdCount s n) :=
  .ite (.ite (event_holds (.rest (setFld_holds h))) (setFld_holds h)) h

theorem wdPosition_holds {owner} (h : I.Holds s) : I.Holds (wdPosition s owner).1 := .iteFst h (.iteFst h (.iteFst h h))

theorem wdEvidence_holds {n cause k} (h : I.Holds s) : I.Holds (wdEvidence s n cause k) :=
  .ite (setFlag_holds h) <| setFld_holds <| setFld_holds <| setReg_holds <| setFld_holds <|
  setFld_holds (setFlag_holds (setFld_holds (setFld_holds (setFld_holds (setFlag_holds (wdPosition_holds h))))))

theorem wdExpire_holds {n cause k} (h : I.Holds s) : I.Holds (wdExpire s n cause k) :=
  .via (fun h1 => .rest (.rest (.ite (failDue_holds h1) h1))) (.rest (wdCount_holds (event_holds (wdEvidence_holds h))))

theorem wdCheckin_holds {n k who} (h : I.Holds s) : I.Holds (wdCheckin s n k who) :=
  .ite h <| .ite (event_holds h) <| .ite (wdExpire_holds h) <|
  .ite (.ite (event_holds (setFbit_holds h)) (wdExpire_holds h)) (.ite (.rest (setFbit_holds h)) (setFbit_holds h))

theorem wdEnable_holds {n en} (h : I.Holds s) : I.Holds (wdEnable s n en).1 :=
  .iteFst h (.iteFst (.iteFst h (wdBegin_holds (setFlag_holds h))) (wdDiscard_holds (event_holds (setFlag_holds h))))

theorem wdModeChange_holds {old m} (h : I.Holds s) : I.Holds (wdModeChange s old m) :=
  .foldl h (fun _ _ h => .ite h (.ite (wdDiscard_holds h) (.ite h h)))

theorem wdConfig_holds {n r w} (h : I.Holds s) : I.Holds (wdConfig s n r w).1 :=
  .iteFst h (.iteFst h (.iteFst h (.iteFst h (.iteFst (.rest (plainWrite_holds h)) (plainWrite_holds h)))))

theorem writeWdCtrl_holds {n w} (h : I.Holds s) : I.Holds (writeWdCtrl s n w).1 :=
  .iteFst (setFlag_holds (.iteFst h (wdEnable_holds h))) (.iteFst h (wdEnable_holds h))

theorem wdEvclr_holds {n key} (h : I.Holds s) : I.Holds (wdEvclr s n key).1 := .iteFst h (.foldl h (fun _ _ => resetReg_holds))

theorem wdClrcnt_holds {n} (h : I.Holds s) : I.Holds (wdClrcnt s n) := .rest (setFld_holds h)

theorem writeWdCmd_holds {n w} (h : I.Holds s) : I.Holds (writeWdCmd s n w).1 :=
  .iteFst (wdClrcnt_holds (.iteFst (wdEvclr_holds h) h)) (.iteFst (wdEvclr_holds h) h)

theorem wdWrite_holds {n off m w} (h : I.Holds s) : I.Holds (wdWrite s n off m w).1 := by
  unfold wdWrite
  split
  · exact writeWdCtrl_holds h
  · exact wdConfig_holds h
  · exact wdConfig_holds h
  · exact plainWrite_holds h
  · exact .iteFst h (wdCheckin_holds h)
  · exact plainWrite_holds h
  · exact plainWrite_holds h
  iterate 4 · exact wdConfig_holds h
  · exact plainWrite_holds h
  · exact writeWdCmd_holds h
  · exact h

/-! ### Engines -/

theorem setEngState_holds {e st} (h : I.Holds s) : I.Holds (setEngState s e st) := setFld_holds h

theorem postStatus_holds {e st frz addr} (h : I.Holds s) : I.Holds (postStatus s e st frz addr) := .ite h (setEng_holds h)

theorem readSlot_holds {p} (h : I.Holds s) : I.Holds (readSlot s p).1 := .foldl h (fun _ _ => readLine_holds)

theorem leaveBarriers_holds {p} (h : I.Holds s) : I.Holds (leaveBarriers s p) :=
  .foldl (setFld_holds h) (fun _ _ h => by split; exacts [.ite (event_holds h) h, h])

theorem migrationFails_holds {p} (h : I.Holds s) : I.Holds (migrationFails s p) := leaveBarriers_holds h

theorem migrate_holds {e} (h : I.Holds s) : I.Holds (migrate s e) := by
  unfold migrate
  extract_lets p
  split
  next hr =>
  have hu := (readSlot_holds (.rest h)).of_eq hr
  refine .ite (migrationFails_holds (.rest hu)) ?_
  split
  · exact migrationFails_holds (.rest hu)
  · exact setEng_holds <| setFld_holds <| setEngState_holds hu

theorem engineDrain_holds {e} (h : I.Holds s) : I.Holds (engineDrain s e) :=
  .ite h (setEngState_holds (setEng_holds (revokeClause_holds h)))

theorem engStart_holds {e} (h : I.Holds s) : I.Holds (engStart s e).1 := .iteFst h (.iteFst h (.iteFst h (setEngState_holds h)))

theorem engHalt_holds {m e} (h : I.Holds s) : I.Holds (engHalt s m e).1 :=
  .iteFst
    (.via
      (fun h1 => .via (fun h2 => .ite h2 (event_holds h2)) (.ite (revokeClause_holds h1) h1))
      (setEngState_holds (setEng_holds h)))
    h

theorem engSigraise_holds {e n} (h : I.Holds s) : I.Holds (engSigraise s e n).1 := .iteFst (setFbit_holds h) h

theorem engClrcnt_holds {e} (h : I.Holds s) : I.Holds (engClrcnt s e) := setEng_holds (setFld_holds (setFld_holds h))

theorem engUnfreeze_holds {e} (h : I.Holds s) : I.Holds (engUnfreeze s e).1 := .iteFst (setEngState_holds h) h

theorem engRestore_holds {e} (h : I.Holds s) : I.Holds (engRestore s e).1 := by
  unfold engRestore
  extract_lets p
  refine .iteFst h ?_
  split
  next hr =>
  have hu := (readSlot_holds h).of_eq hr
  exact .iteFst hu <| setEngState_holds <| setEng_holds <| .rest hu

theorem engMigrate_holds {e} (h : I.Holds s) : I.Holds (engMigrate s e).1 :=
  .iteFst h <| .iteFst h (show I.Holds (migrate s e) from migrate_holds h)

theorem andThen_holds {x b f} (h : I.Holds x.1) (hf : ∀ t, I.Holds t → I.Holds (f t).1) : I.Holds (andThen x b f).1 :=
  .iteFst (hf _ h) h

theorem writeEngCmd_holds {m e w} (h : I.Holds s) : I.Holds (writeEngCmd s m e w).1 :=
  .iteFst h <| .iteFst h <| andThen_holds
    (andThen_holds
      (andThen_holds
        (andThen_holds
          (andThen_holds
            (andThen_holds (andThen_holds h (fun _ => engStart_holds)) (fun _ => engHalt_holds))
            (fun _ => engUnfreeze_holds))
          (fun _ => engRestore_holds))
        (fun _ => engMigrate_holds))
      (fun _ => engClrcnt_holds))
    (fun _ => engSigraise_holds)

theorem railApply_holds {n f} (h : I.Holds s) (hf : ∀ t, I.Holds t → I.Holds (f t).1) : I.Holds (railApply s n f).1 :=
  .iteFst (hf _ h) h

theorem setvArrives_holds {e n v rate} (h : I.Holds s) : I.Holds (setvArrives s e n v rate).1 :=
  .iteFst (.rest (railSetTarget_holds h)) (railSetTarget_holds h)

theorem effectArrives_holds {e x} (h : I.Holds s) : I.Holds (effectArrives s e x).1 := by
  unfold effectArrives
  split
  · exact railApply_holds h (fun _ => railEnable_holds)
  · exact railApply_holds h (fun _ => railDisable_holds)
  · exact railApply_holds h (fun _ => setvArrives_holds)
  · exact railApply_holds h (fun _ => railWrite_holds)
  · exact railApply_holds h (fun _ => railUnfence_holds)
  · exact railApply_holds h (fun _ => railTrack_holds)
  · exact h
  · exact postRecord_holds h
  · exact h

theorem engWrite_holds {e off m w} (h : I.Holds s) : I.Holds (engWrite s e off m w).1 := by
  unfold engWrite
  dsimp only
  split
  · exact .iteFst h (.iteFst h (setFlag_holds (.ite (setFlag_holds (setFld_holds h)) (setFld_holds h))))
  · exact .iteFst (plainWrite_holds h) h
  · exact plainWrite_holds h
  · exact .iteFst h (.iteFst h (.iteFst h (setReg_holds h)))
  · exact .iteFst h (.iteFst h (plainWrite_holds h))
  · exact .iteFst h (plainWrite_holds h)
  iterate 4 · exact plainWrite_holds h
  · exact writeEngCmd_holds h
  · exact h

/-! ### Power domains -/

theorem resetKeys_holds {p} (h : I.Holds s) : I.Holds (s.resetKeys p) := I.keepWords (fun k => !p k) h

theorem lxLinksDrain_holds {m} (h : I.Holds s) : I.Holds (lxLinksDrain s m) := linkDrain_holds (linkDrain_holds h)

theorem domainDrain_holds {d} (h : I.Holds s) : I.Holds (domainDrain s d) := by
  unfold domainDrain
  split
  · exact otpAbort_holds h
  · exact .foldl h (fun _ _ => engineDrain_holds)
  · exact .foldl h (fun _ _ => engineDrain_holds)
  · exact .foldl (.foldl (.foldl h (fun _ _ => drainPort_holds)) (fun _ _ => railDrain_holds)) (fun _ _ => linkDrain_holds)
  · exact .foldl (.foldl h (fun _ _ => railDrain_holds)) (fun _ _ => linkDrain_holds)
  · exact .foldl h (fun _ _ => hadcDrain_holds)
  · exact h
  · exact chgDrain_holds h
  · exact .foldl h (fun _ _ h => .ite (lxDrain_holds h) (lxLinksDrain_holds (lxDrain_holds h)))
  · exact patDrain_holds (scanAbort_holds h)
  · exact thmDrain_holds h
  · exact h

theorem dropUnits_holds {d} (h : I.Holds s) : I.Holds (dropUnits s d) := by
  unfold dropUnits
  split
  case h_2 => exact I.keepEngs (fun e => decide (24 ≤ e)) h
  case h_3 => exact I.keepEngs (fun e => decide (e < 24)) h
  all_goals exact h

theorem railsNoSense_holds (h : I.Holds s) : I.Holds (railsNoSense s) := .foldl h (fun _ _ h => .ite (.rest (railLeave_holds h)) h)

theorem domainOff_holds {d} (h : I.Holds s) : I.Holds (domainOff s d) :=
  .via
    (fun h1 =>
      .via
        (fun h2 =>
          rstoUpdate_holds <|
          .rest (.ite (setFlag_holds (setFlag_holds (.ite (setFlag_holds h2) h2))) (.ite (setFlag_holds h2) h2)))
        (.ite (patReset_holds h1) h1))
    (dropUnits_holds <|
    resetKeys_holds (setFbit_holds (.ite (railsNoSense_holds h) (.ite (.foldl h (fun _ _ => throttleEnd_holds)) h))))

theorem releaseDomains_holds {l} (h : I.Holds s) : I.Holds (releaseDomains s l) :=
  .foldl h (fun _ _ h => .foldl h (fun _ _ => domainOff_holds))

/-! ### Interrupts -/

theorem holdCrossing_holds {x} (h : I.Holds s) : I.Holds (holdCrossing s x) := .ite h h

theorem emptyStack_holds {t} (h : I.Holds s) : I.Holds (emptyStack s t) := .rest (.rest (.foldl h (fun _ _ => setFlag_holds)))

theorem stackFault_holds {t kind named top} (h : I.Holds s) : I.Holds (stackFault s t kind named top) :=
  .ite (setFld_holds (setFld_holds (setFld_holds (setFld_holds h)))) h

theorem stackPair_holds {t} (h : I.Holds s) : I.Holds (stackPair s t) := stackFault_holds (emptyStack_holds h)

theorem stackRead_holds {t} (h : I.Holds s) : I.Holds (stackRead s t) := .ite (stackPair_holds h) h

theorem intcAck_holds {m t i} (h : I.Holds s) : I.Holds (intcAck s m t i).1 :=
  .via
    (fun h1 =>
      .iteFst h1 <| .iteFst h1 <|
      .iteFst (stackFault_holds h1) (.via (fun h2 => .ite (.rest h2) h2) (setFlag_holds (setFlag_holds (.rest h1)))))
    (.ite (stackRead_holds h) h)

theorem intcEoi_holds {m t i} (h : I.Holds s) : I.Holds (intcEoi s m t i).1 :=
  .via
    (fun h1 =>
      .iteFst h1 <|
      .iteFst (stackFault_holds h1) (.ite (setFlag_holds (.rest h1)) (stackFault_holds (setFlag_holds (.rest h1)))))
    (.ite (stackRead_holds h) h)

theorem swiSet_holds {w} (h : I.Holds s) : I.Holds (swiSet s w) := setReg_holds h

theorem swiClr_holds {w} (h : I.Holds s) : I.Holds (swiClr s w) := setReg_holds h

theorem stkerrClr_holds (h : I.Holds s) : I.Holds (stkerrClr s) := setReg_holds h

theorem intcWrite_holds {off m w} (h : I.Holds s) : I.Holds (intcWrite s off m w).1 :=
  .iteFst (.iteFst h (plainWrite_holds h)) <| .iteFst
    (by
      dsimp only
      split
      · exact plainWrite_holds h
      · exact .iteFst (plainWrite_holds h) h
      · exact intcAck_holds h
      · exact intcEoi_holds h
      · exact plainWrite_holds h
      · exact h)
    (by
      split
      · exact swiSet_holds h
      · exact swiClr_holds h
      · exact .foldl h (fun _ _ => setFbit_holds)
      · exact .ite (stkerrClr_holds h) h
      · exact h)

/-! ### Faults -/

theorem pairFault_holds (h : I.Holds s) : I.Holds (pairFault s) := .ite h (.rest (setFlag_holds h))

theorem faultLatch_holds {f inj react ep} (h : I.Holds s) : I.Holds (faultLatch s f inj react ep) :=
  postRecord_holds (setReg_holds (setReg_holds (setReg_holds (setReg_holds (setReg_holds h)))))

theorem injectArm_holds (h : I.Holds s) : I.Holds (injectArm s).1 := .iteFst h (.iteFst h (.iteFst h (setFld_holds h)))

theorem injectEnd_holds {st} (h : I.Holds s) : I.Holds (injectEnd s st) := by
  unfold injectEnd
  split; exacts [.rest (setFld_holds h), h]

theorem writeInjarm_holds {w} (h : I.Holds s) : I.Holds (writeInjarm s w).1 :=
  .iteFst (.iteFst (injectArm_holds (.ite (injectEnd_holds h) h)) h) (.ite (injectEnd_holds h) h)

theorem epclr_holds (h : I.Holds s) : I.Holds (epclr s).1 := .iteFst h (setFlag_holds h)

theorem ffclr_holds (h : I.Holds s) : I.Holds (ffclr s) := by
  unfold ffclr
  dsimp only
  split
  · exact faultLatch_holds (setFlag_holds (setFld_holds (setFlag_holds (setFlag_holds (setFlag_holds (resetReg_holds h))))))
  · exact setFlag_holds (setFld_holds (setFlag_holds (setFlag_holds (setFlag_holds (resetReg_holds h)))))

theorem writeFltCmd_holds {w} (h : I.Holds s) : I.Holds (writeFltCmd s w).1 :=
  .iteFst h (.iteFst h (.iteFst (epclr_holds (.ite (ffclr_holds h) h)) (.ite (ffclr_holds h) h)))

theorem writeFltCfg_holds {src w} (h : I.Holds s) : I.Holds (writeFltCfg s src w).1 :=
  .iteFst h (.iteFst h (.iteFst h (setReg_holds h)))

theorem fltWrite_holds {off w} (h : I.Holds s) : I.Holds (fltWrite s off w).1 :=
  .iteFst (writeFltCfg_holds h) <| .iteFst (plainWrite_holds h) <| by
    split
    · exact .iteFst h (plainWrite_holds h)
    · exact plainWrite_holds h
    · exact writeFltCmd_holds h
    · exact .iteFst h (plainWrite_holds h)
    · exact .ite (setFlag_holds (plainWrite_holds h)) (plainWrite_holds h)
    · exact writeInjarm_holds h
    · exact h

/-! ### Modes -/

theorem answerReq_holds {r st} (h : I.Holds s) : I.Holds (answerReq s r st) := by
  unfold answerReq
  split; exacts [h, setFld_holds h, postStatus_holds h]

theorem startupRecord_holds {point} (h : I.Holds s) : I.Holds (startupRecord s point) := postRecord_holds (setFld_holds h)

theorem setMode_holds {src old m trans} (h : I.Holds s) : I.Holds (setMode s src old m trans) :=
  .rest (setFlag_holds (setReg_holds (noteMode_holds (setFld_holds (setFlag_holds (setFld_holds (setFld_holds h)))))))

theorem leaveMode_holds {old m} (h : I.Holds s) : I.Holds (leaveMode s old m) :=
  .via
    (fun h1 =>
      .via
        (fun h2 => rstoUpdate_holds (.ite (otpAbort_holds h2) h2))
        (.ite (shadowRelAll_holds (injectEnd_holds (.ite (.rest h1) h1))) (.ite (.rest h1) h1)))
    (chgModeChange_holds (wdModeChange_holds h))

theorem drainDomains_holds {l} (h : I.Holds s) : I.Holds (drainDomains s l) :=
  .foldl h (fun _ _ h => .foldl h (fun _ _ => domainDrain_holds))

theorem applyOpt_holds (h : I.Holds s) : I.Holds (applyOpt s) := .rest (drainDomains_holds h)

theorem plinthEnter_holds (h : I.Holds s) : I.Holds (plinthEnter s) :=
  startupRecord_holds (pairFault_holds (rstoUpdate_holds (.rest (setFlag_holds (setFld_holds (setFld_holds h))))))

theorem enterMode_holds {r old m} (h : I.Holds s) : I.Holds (enterMode s r old m) :=
  .ite (.rest (.rest (setFlag_holds h))) <|
  .ite (startupRecord_holds (.rest (setFld_holds h))) (.ite (plinthEnter_holds h) (.ite h h))

theorem holdRequests_holds (h : I.Holds s) : I.Holds (holdRequests s) :=
  .rest (.foldlFst h (fun _ _ h => by dsimp only; split; exacts [answerReq_holds h, h]))

theorem completeTransition_holds {t} (h : I.Holds s) : I.Holds (completeTransition s t) :=
  .via
    (fun h1 =>
      .via
        (fun h2 => .ite (applyOpt_holds (.rest (enterMode_holds h2))) (enterMode_holds h2))
        (.ite (.rest (postRecord_holds h1)) (postRecord_holds h1)))
    (leaveMode_holds (setMode_holds (.rest (anticipationModeChange_holds (holdRequests_holds h)))))

theorem modeProgress_holds (h : I.Holds s) : I.Holds (modeProgress s) := by
  unfold modeProgress
  split
  · exact .ite (.rest (releaseDomains_holds h)) h
  · exact .ite h (.ite (completeTransition_holds (releaseDomains_holds h)) (.rest (releaseDomains_holds h)))

theorem pdoptWrite_holds {pv w} (h : I.Holds s) : I.Holds (pdoptWrite s pv w) := by
  unfold pdoptWrite
  dsimp only
  split
  · exact .ite (.rest (.ite (setFld_holds h) (setFld_holds h))) (.ite (setFld_holds h) (setFld_holds h))
  · exact .ite
        (modeProgress_holds (applyOpt_holds (.ite (setFld_holds h) (setFld_holds h))))
        (.ite (setFld_holds h) (setFld_holds h))

theorem modeReqWrite_holds {p w} (h : I.Holds s) : I.Holds (modeReqWrite s p w).1 :=
  .iteFst (setFld_holds (setFld_holds (setFld_holds h))) <|
  .iteFst (setFld_holds (setFld_holds (setFld_holds h))) <| .iteFst (setFld_holds (setFld_holds (setFld_holds h))) <| by
    dsimp only
    split
    · exact .iteFst (.rest (setFld_holds (setFld_holds (setFld_holds h)))) (setFld_holds (setFld_holds (setFld_holds h)))
    · exact .rest (setFld_holds (setFld_holds (setFld_holds h)))

theorem hourWrite_holds {m w} (h : I.Holds s) : I.Holds (hourWrite s m w).1 := .iteFst h (.iteFst h (.iteFst h (setReg_holds h)))

/-! ### Boot -/

theorem bootctlWrite_holds {m w} (h : I.Holds s) : I.Holds (bootctlWrite s m w).1 :=
  .iteFst h (.iteFst h (.iteFst h (.iteFst (.rest (setFlag_holds h)) h)))

theorem bootdataWrite_holds {m w} (h : I.Holds s) : I.Holds (bootdataWrite s m w).1 := .iteFst h (.ite h h)

theorem qspiWrite_holds {m a w} (h : I.Holds s) : I.Holds (qspiWrite s m a w).1 :=
  .iteFst h <| by
    split
    · exact h
    · exact h
    · exact .iteFst (plainWrite_holds h) (.iteFst h (.iteFst h (setFlag_holds (plainWrite_holds h))))

theorem bootcntWrite_holds {w} (h : I.Holds s) : I.Holds (bootcntWrite s w).1 := .iteFst h (.iteFst h (.iteFst h (setFld_holds h)))

/-! ### Crossings -/

theorem xrstBegin_holds {x} (h : I.Holds s) : I.Holds (xrstBegin s x) :=
  .ite h (.rest (holdCrossing_holds (.ite (railDrain_holds h) (.ite (lxDrain_holds h) h))))

theorem clkXrst_holds {w} (h : I.Holds s) : I.Holds (clkXrst s w).1 := .iteFst h (.iteFst h (.ite (xrstBegin_holds h) h))

/-! ### Register words -/

theorem lockedWrite_holds {r n w locked} (h : I.Holds s) : I.Holds (lockedWrite s r n w locked).1 := .iteFst h (plainWrite_holds h)

theorem unfreezeHost_holds {p} (h : I.Holds s) : I.Holds (unfreezeHost s p) := .ite (.rest (setFld_holds (setFlag_holds h))) h

theorem unfreezeScan_holds (h : I.Holds s) : I.Holds (unfreezeScan s) := .ite (setFld_holds (setFlag_holds h)) h

theorem unfrzWrite_holds {m w} (h : I.Holds s) : I.Holds (unfrzWrite s m w).1 :=
  .iteFst h <|
  .iteFst h (.via (fun h1 => .ite (unfreezeScan_holds h1) h1) (.foldl h (fun _ _ h => .ite (unfreezeHost_holds h) h)))

theorem hostverWrite_holds {m w} (h : I.Holds s) : I.Holds (hostverWrite s m w).1 := .iteFst h (.iteFst h (setFld_holds h))

theorem hostClrcnt_holds (h : I.Holds s) : I.Holds (hostClrcnt s) := setFld_holds (setFld_holds (setFld_holds h))

theorem sysWrite_holds {m a r w} (h : I.Holds s) : I.Holds (sysWrite s m a r w).1 := by
  unfold sysWrite
  split
  · exact hostverWrite_holds h
  · exact .iteFst h (modeReqWrite_holds h)
  · exact pdoptWrite_holds h
  · exact pdoptWrite_holds h
  · exact bootcntWrite_holds h
  · exact bootctlWrite_holds h
  · exact bootdataWrite_holds h
  iterate 3 · exact qspiWrite_holds h
  · exact lockedWrite_holds h
  · exact lockedWrite_holds h
  · exact unfrzWrite_holds h
  · exact .ite (hostClrcnt_holds h) h
  · exact .iteFst (hourWrite_holds h) (by split; exacts [plainWrite_holds h, h])

theorem budWrite_holds {m a r n w} (h : I.Holds s) : I.Holds (budWrite s m a r n w).1 := by
  unfold budWrite
  extract_lets off lock
  clear_value off
  refine .iteFst (lockedWrite_holds h) <| .iteFst (.iteFst (writeCap_holds h) h) <| .iteFst (writeAlmax_holds h) <|
    .iteFst (.iteFst (writeHwReq_holds h) h) <| .iteFst (lockedWrite_holds h) <| .iteFst (lockedWrite_holds h) ?_
  split
  · exact .iteFst h (writePreq_holds h)
  · exact .ite (.rest (plainWrite_holds h)) (plainWrite_holds h)
  · exact plainWrite_holds h

theorem iptWrite_holds {a r n w} (h : I.Holds s) : I.Holds (iptWrite s a r n w).1 :=
  .iteFst
    (by
      dsimp only
      split
      · exact writeIpCtrl_holds h
      · exact bankWrite_holds h
      · exact .ite (ipClrcnt_holds h) h
      · exact plainWrite_holds h)
    (plainWrite_holds h)

theorem regWrite_holds {m a r n w} (h : I.Holds s) : I.Holds (regWrite s m a r n w).1 :=
  .iteFst (sysWrite_holds h) <|
  .iteFst (clkXrst_holds h) <| .iteFst (plainWrite_holds h) <| .iteFst (intcWrite_holds h) <| .iteFst (fltWrite_holds h) <|
  .iteFst (wdWrite_holds h) <| .iteFst (.iteFst h (otpWrite_holds h)) <| .iteFst (chkWrite_holds h) <|
  .iteFst (patWrite_holds h) <| .iteFst (thmWrite_holds h) <| .iteFst (.iteFst (hadcWrite_holds h) h) <|
  .iteFst (supWrite_holds h) <| .iteFst (budWrite_holds h) <| .iteFst (railWrite_holds h) <| .iteFst (anyLinkWrite_holds h) <|
  .iteFst (engWrite_holds h) <| .iteFst (iptWrite_holds h) <| .iteFst (lxGlobalWrite_holds h) <|
  .iteFst (anyLinkWrite_holds h) (.iteFst (lxWrite_holds h) (.iteFst (chgWrite_holds h) (hkrWrite_holds h)))

theorem dataWrite_holds {i w} (h : I.Holds s) : I.Holds (dataWrite s i w).1 := by
  unfold dataWrite
  split; exacts [.iteFst h (markWritten_holds (writeRam_holds h)), writeRam_holds h]

theorem writeLoc_holds {m a l w} (h : I.Holds s) : I.Holds (writeLoc s m a l w).1 := by
  unfold writeLoc
  split
  · exact sysWrite_holds h
  · exact dataWrite_holds h
  · exact writeIntentTable_holds h
  · exact writeRam_holds h
  · exact .iteFst (pairWritten_holds (regWrite_holds h)) (regWrite_holds h)

theorem writeWord_holds {m a w} (h : I.Holds s) : I.Holds (writeWord s m a w).1 := by
  unfold writeWord
  split; exacts [h, .iteFst (writeLoc_holds h) h]

theorem stxDeliver_holds {e a w} (h : I.Holds s) : I.Holds (stxDeliver s e a w).1 := .iteFst h (writeWord_holds h)

end Sys2Proof.Machine
end

section
/-! SUPPORT. The armature's transfers (R16–R19): what leaves a queue, what its target does with it, and what its master is told. -/
namespace Sys2Proof.Machine

/-! ### No transfer gives an engine an effect to issue -/

theorem cellGet_keep {α : Type} (d : α) (f : Nat → Bool) (m : List (Nat × α)) (a : Nat) :
    cellGet d (cellKeep f m) a = if f a then cellGet d m a else d := by
  induction m with
  | nil => simp [cellKeep, cellGet]
  | cons kv l ih =>
    obtain ⟨k, v⟩ := kv
    unfold cellKeep at ih ⊢
    by_cases hk : k = a
    · subst hk
      cases hf : f k <;> simp [hf, cellGet, ih]
    · cases hf : f k <;> simp [hf, cellGet, hk, ih]

/-- Engine `m` has no effect of a confirmed clause still to issue. -/
def idleInvariant (m : Nat) : Invariant where
  prop _ _ g _ := (cellGet {} g m).issue = []
  setWord _ _ h := h
  eraseWord _ h := h
  keepWords _ h := h
  setByte _ _ h := h
  keepBytes _ h := h
  setEng e r hr h := by
    rw [cellGet_set]
    split
    · subst e; exact List.subset_nil.mp (h ▸ hr)
    · exact h
  keepEngs f h := by
    rw [cellGet_keep]
    split; exacts [h, rfl]

variable {s u : State} {m : Nat} {t : Transfer} {q : List Transfer}

/-! ### What reaches the target -/

theorem takeTransfer_mem {l : List Transfer} (h : takeTransfer m l = some (t, q)) : t ∈ l := by
  induction l generalizing q with
  | nil => simp [takeTransfer] at h
  | cons x l ih =>
    unfold takeTransfer at h
    split at h
    · simp_all
    · obtain ⟨⟨y, q'⟩, hy, he⟩ := Option.map_eq_some_iff.mp h
      simp only [Prod.mk.injEq] at he
      exact List.mem_cons_of_mem _ (ih (q := q') (he.1 ▸ hy))

/-- An engine that has posted a transfer takes a mismatch named for it there, and not at a read (R17). -/
theorem markBadRead_posted (ht : t ∈ s.armq) (hm : t.master = m) (hop : Nat) : markBadRead s (some (m, hop)) = s := by
  have : ownTransfer s m = true := List.any_eq_true.mpr ⟨t, ht, by simp [hm]⟩
  simp [markBadRead, this]

theorem exec_queue {e : Fin 48} {bad : Option (Nat × Nat)} (hp : s.powered 1 = true) (hb : markBadRead s bad = s)
    (ht : takeTransfer e s.armq = some (t, q)) :
    exec (.armatureTransfer [.queue e] bad) s = .next (arrive bad [t] { s with armq := q }) := by
  show (s.on 1 _) = _
  simp [State.on, hp, hb, byRank, rankInsert, gather, ht]

theorem inOrder_single (t : Transfer) : inOrder [t] = [t] := by
  unfold inOrder
  cases h : recordSrc t <;> simp [h, recordInsert]

theorem arrive_single (bad : Option (Nat × Nat)) (t : Transfer) (s : State) :
    arrive bad [t] s = reportAll s [(t, (applyTransfer s t (hopOf bad t)).2)] (applyTransfer s t (hopOf bad t)).1 := by
  unfold arrive
  rw [inOrder_single]
  rfl

/-- No injection of ARM_PAIR is armed: a matching pair passes the hops unharmed (R361). -/
theorem hopInjected_unarmed (h : s.flt.armed.map (fun x => x.1) ≠ some 354) (m a : Nat) : hopInjected s m a = (s, false) := by
  unfold hopInjected
  split
  · simp_all
  · rfl

theorem applyTransfer_matched (h : s.flt.armed.map (fun x => x.1) ≠ some 354) (t : Transfer) :
    applyTransfer s t none = targetApply s t := by
  simp [applyTransfer, hopInjected_unarmed h]

theorem hopOf_named (t : Transfer) (hm : t.master = m) (hop : Nat) : hopOf (some (m, hop)) t = some hop := by
  simp [hopOf, hm]

theorem hopOf_matched (h : t.comp = ~~~t.value) : hopOf none t = none := by simp [hopOf, h]
theorem hopOf_mismatched (h : t.comp ≠ ~~~t.value) : hopOf none t = some 0 := by simp [hopOf, h]

/-! ### What the master is told -/

theorem postStatus_engs (s : State) (e : Nat) (st : Status) (frz a : Nat) :
    postStatus s e st frz a = { s with engs := (postStatus s e st frz a).engs } := by
  unfold postStatus; split <;> rfl

theorem postStatus_issue (s : State) (e : Nat) (st : Status) (frz a : Nat) :
    ((postStatus s e st frz a).eng e).issue = (s.eng e).issue := by
  unfold postStatus; split <;> simp

theorem stxStatus_posted (s : State) (e a : Nat) {st : Status} (h : st ≠ .ok) :
    ((stxStatus s e a st).eng e).posted = (s.eng e).posted ++ [⟨st, freezeCause st, a⟩] := by
  simp [stxStatus, postStatus, h]

/-- An engine that is told its status and holds nothing to issue goes on unchanged but for its record. -/
theorem masterStatus_issueList (ht : t.master = m) (hm : m < 48) (hi : (u.eng m).issue = []) (st : Status) :
    ∃ v, issueList m ((masterStatus u t st).eng m).issue (masterStatus u t st) = v ∧ v = { u with engs := v.engs }
      ∧ (v.eng m).posted = ((stxStatus u m t.addr st).eng m).posted ∧ (v.eng m).issue = [] := by
  have hs : masterStatus u t st = stxStatus u m t.addr st := by simp [masterStatus, ht, hm]
  have hn : ((stxStatus u m t.addr st).eng m).issue = [] := (postStatus_issue u m st _ _).trans hi
  rw [hs, hn]
  refine ⟨_, rfl, ?_, by simp [issueList], by simp [issueList]⟩
  unfold issueList
  conv => lhs; unfold State.setEng stxStatus; rw [postStatus_engs]
  rfl

theorem overwritten_nil (s : State) (t : Transfer) : overwritten s t [] = false := rfl

theorem reportAll_single (s : State) (ht : t.master = m) (hm : m < 48) (hi : (u.eng m).issue = []) (st : Status) :
    ∃ v, reportAll s [(t, st)] u = v ∧ v = { u with engs := v.engs }
      ∧ (v.eng m).posted = ((stxStatus u m t.addr st).eng m).posted := by
  obtain ⟨v, hv, he, hp, -⟩ := masterStatus_issueList ht hm hi st
  exact ⟨v, by simp [reportAll, overwritten_nil, ht, hm, hv], he, hp⟩

/-! ### Mismatched and matched transfers -/

/-- A transfer found mismatched at `hop` is discarded: its master gets PAIRERR, and ARM_PAIR falls due (R17). -/
theorem exec_queue_discarded {e : Fin 48} {bad : Option (Nat × Nat)} {hop : Nat} (hp : s.powered 1 = true)
    (ht : takeTransfer e s.armq = some (t, q)) (hm : t.master = e.val) (hi : (s.eng e).issue = [])
    (hb : markBadRead s bad = s) (hh : hopOf bad t = some hop) :
    ∃ u, exec (.armatureTransfer [.queue e] bad) s = .next u
      ∧ u = { armPair { s with armq := q } hop e t.addr with engs := u.engs }
      ∧ (u.eng e).posted = (s.eng e).posted ++ [⟨.pairerr, 0, t.addr⟩] := by
  obtain ⟨v, hv, he, hpost⟩ :=
    reportAll_single (u := armPair { s with armq := q } hop e t.addr) { s with armq := q } hm e.isLt hi .pairerr
  refine ⟨v, ?_, he, hpost.trans (stxStatus_posted _ _ _ (by decide))⟩
  rw [exec_queue hp hb ht, arrive_single, hh, ← hv]
  simp [applyTransfer, hm]

theorem pairWritten_parts (s : State) (m a : Nat) : ∃ p f c, pairWritten s m a = { s with pairs := p, flt := f, chk := c } := by
  unfold pairWritten
  dsimp only
  split <;> exact ⟨_, _, _, rfl⟩

/-- The effect that a transfer carries works at its target; of a word with a pair the pair stands besides (R204, R372). -/
theorem targetApply_effect {x : Effect} (hk : t.kind = .write) (hx : t.act = some x) :
    (targetApply s t).2 = (effectArrives s t.master x).2
      ∧ ∃ p f c, (targetApply s t).1 = { (effectArrives s t.master x).1 with pairs := p, flt := f, chk := c } := by
  simp only [targetApply, hk, hx, true_and]
  split
  · exact pairWritten_parts _ t.master t.addr
  · exact ⟨_, _, _, rfl⟩

theorem targetApply_word (hk : t.kind = .write) (hx : t.act = none) (hm : t.master < 48) :
    targetApply s t = stxDeliver s t.master t.addr t.value := by
  simp [targetApply, hk, hx, hm]

theorem targetApply_holds {I : Invariant} (h : I.Holds s) (hm : t.master < 48) (hk : t.kind = .write) : I.Holds (targetApply s t).1 := by
  cases hx : t.act with
  | none => rw [targetApply_word hk hx hm]; exact stxDeliver_holds h
  | some x =>
    obtain ⟨-, p, f, c, he⟩ := targetApply_effect (s := s) hk hx
    rw [he]
    exact .rest (effectArrives_holds h)

/-- A transfer that matches is applied at its target, and its status is on its way back to the engine (R17, R184, R196). -/
theorem exec_queue_applied {e : Fin 48} (hp : s.powered 1 = true) (ht : takeTransfer e s.armq = some (t, q)) (hm : t.master = e.val)
    (hk : t.kind = .write) (hi : (s.eng e).issue = []) (hc : t.comp = ~~~t.value) (ha : s.flt.armed.map (fun x => x.1) ≠ some 354) :
    ∃ u, exec (.armatureTransfer [.queue e] none) s = .next u
      ∧ u = { (targetApply { s with armq := q } t).1 with engs := u.engs }
      ∧ (u.eng e).posted
        = ((stxStatus (targetApply { s with armq := q } t).1 e t.addr (targetApply { s with armq := q } t).2).eng e).posted := by
  have hidle : ((targetApply { s with armq := q } t).1.eng e).issue = [] :=
    targetApply_holds (I := idleInvariant e) (s := { s with armq := q }) hi (hm ▸ e.isLt) hk
  obtain ⟨v, hv, he, hpost⟩ := reportAll_single { s with armq := q } hm e.isLt hidle (targetApply { s with armq := q } t).2
  refine ⟨v, ?_, he, hpost⟩
  rw [exec_queue hp rfl ht, arrive_single, hopOf_matched hc, applyTransfer_matched (s := { s with armq := q }) ha, hv]

/-- The status of an engine depends on its record alone. -/
theorem stxStatus_posted_congr {u v : State} (h : u.eng m = v.eng m) (a : Nat) (st : Status) :
    ((stxStatus u m a st).eng m).posted = ((stxStatus v m a st).eng m).posted := by
  unfold stxStatus postStatus
  split
  · rw [h]
  · simp [h]

/-! ### The scan job's expected value as a target -/

theorem locate_sjexp (s : State) (m : Nat) : locate s m 0x0A33 = some (.reg CHK_SJEXP 0) := rfl

theorem locOpen_sjexp (s : State) : locOpen s 0x0A33 (.reg CHK_SJEXP 0) = s.powered 10 := by
  simp [locOpen, locCrossing, CHK_SJEXP]

theorem plainWrite_sjexp (s : State) (w : Word) : s.plainWrite CHK_SJEXP w = s.setReg CHK_SJEXP w := by
  have : writeFields CHK_SJEXP.fields (s.reg CHK_SJEXP) w = w := by
    apply BitVec.eq_of_getLsbD_eq
    intro i hi
    show (Word.setBits (s.reg CHK_SJEXP) 31 0 (Word.bits w 31 0)).getLsbD i = _
    rw [Word.getLsbD_setBits, Nat.sub_zero, Word.testBit_bits]
    simp [hi]
  unfold State.plainWrite
  rw [this]

theorem writeLoc_sjexp (s : State) (m : Nat) (w : Word) :
    writeLoc s m 0x0A33 (.reg CHK_SJEXP 0) w = (s.setReg CHK_SJEXP w, .ok) := by
  have hr : regWrite s m 0x0A33 CHK_SJEXP 0 w = (s.plainWrite CHK_SJEXP w, .ok) := rfl
  have hq : (Loc.reg CHK_SJEXP 0).paired = false := rfl
  simp [writeLoc, hr, hq, plainWrite_sjexp]

theorem stxDeliver_sjexp (h : s.powered 10 = true) (m : Nat) (w : Word) :
    stxDeliver s m 0x0A33 w = (s.setReg CHK_SJEXP w, .ok) := by
  have hd : delegateCloses s (progOf s m) 0x0A33 w = false := by simp [delegateCloses]
  simp [stxDeliver, hd, writeWord, locate_sjexp, locOpen_sjexp, h, writeLoc_sjexp]

theorem hostWrite_sjexp (hp : s.powered 10 = true) (ho : s.flag SYS_BOOTSTAT_OTPHOLD = false)
    (hd : plinthDenies s 0x0A33 = false) (w : Word) (pair : Bool) :
    hostWrite s 0 0x0A33 w pair = ((hostAsked s 0 0x0A33).setReg CHK_SJEXP w, .ok) := by
  have ho' : (hostAsked s 0 0x0A33).flag SYS_BOOTSTAT_OTPHOLD = false := ho
  have hp' : (hostAsked s 0 0x0A33).powered 10 = true := hp
  have hd' : plinthDenies (hostAsked s 0 0x0A33) 0x0A33 = false := hd
  have hr : hostRight (hostAsked s 0 0x0A33) 0 0x0A33 = true := rfl
  have hq : (Loc.reg CHK_SJEXP 0).paired = false := rfl
  simp [hostWrite, ho', locate_sjexp, locOpen_sjexp, hp', hr, hq, hd', writeLoc_sjexp]

/-- The transfer to CHK_SJEXP that HSPI0 sends. -/
def sjexpSent (s : State) (v : Word) : Transfer := ⟨0x30, 0x0A33, v, ~~~v, .write, cellGet 0 s.armSeq 0x30, none⟩

/-- The state once engine `e`'s oldest transfer has left its queue, which is then `q`, and HSPI0 has sent one. -/
def afterSending (s : State) (q : List Transfer) : State :=
  { s with armq := q, armSeq := cellSet 0 s.armSeq 0x30 ((cellGet 0 s.armSeq 0x30 + 1) % 16) }

/-- HSPI0 stands before every engine (R19). -/
theorem byRank_queue_sent (e : Fin 48) (v : Word) : byRank [.queue e, .sent 0x30 0x0A33 v] = [.queue e, .sent 0x30 0x0A33 v] := by
  have he : masterRank e = 50 + e := by
    have := e.isLt
    unfold masterRank masterFlt masterAntic masterBud masterLx masterChg masterRail
    split_ifs <;> omega
  have hs : sourceMaster (.sent 0x30 0x0A33 v) ≠ sourceMaster (.queue e) := fun h => absurd e.isLt (by simp [sourceMaster] at h; omega)
  have hr : masterRank (sourceMaster (.sent 0x30 0x0A33 v)) < masterRank (sourceMaster (.queue e)) := by
    show 4 < masterRank e
    omega
  simp only [byRank, List.foldr, rankInsert, if_neg hs, if_pos hr]

theorem gather_queue_sent {e : Fin 48} (ht : takeTransfer e s.armq = some (t, q)) (h7 : s.powered 7 = true)
    (hf : s.flag SYS_HSTAT_FROZEN 0 = false) (v : Word) :
    gather (byRank [.queue e, .sent 0x30 0x0A33 v]) s = (afterSending s q, [t, sjexpSent s v]) := by
  have hf' : ({ s with armq := q } : State).flag SYS_HSTAT_FROZEN 0 = false := hf
  have h7' : ({ s with armq := q } : State).powered 7 = true := h7
  rw [byRank_queue_sent]
  simp [gather, ht, hf', h7', armSend, afterSending, sjexpSent]

theorem inOrder_plain {x : Transfer} (ht : t.act = none) (hx : x.act = none) : inOrder [t, x] = [t, x] := by
  simp [inOrder, recordSrc, ht, hx]

theorem writtenBits_sjexp (hk : t.kind = .write) (ha : t.addr = 0x0A33) (hn : t.act = none) : writtenBits s t = 0xFFFFFFFF := by
  simp only [writtenBits, hk, ha, hn, locate_sjexp]
  rfl

theorem overwritten_sjexp {x : Transfer} (ht : t.kind = .write) (hx : x.kind = .write) (hta : t.addr = 0x0A33) (hxa : x.addr = 0x0A33)
    (htn : t.act = none) (hxn : x.act = none) : overwritten s t [(x, .ok)] = true := by
  have hs : sameWord s t x = true := by
    simp only [sameWord, hta, hxa, locate_sjexp]
    rfl
  simp [overwritten, hs, writtenBits_sjexp ht hta htn, writtenBits_sjexp hx hxa hxn]

theorem powered_setSjexp (s : State) (w : Word) (d : Nat) : (s.setReg CHK_SJEXP w).powered d = s.powered d := by
  have h1 : ∀ f : Fld, f.reg.addr 0 ≠ CHK_SJEXP.addr 0 → (s.setReg CHK_SJEXP w).reg f.reg 0 = s.reg f.reg 0 :=
    fun f h => reg_setReg_ne s w h.symm
  have ho : (s.setReg CHK_SJEXP w).reg PDC_STAT_ON.reg 0 = s.reg PDC_STAT_ON.reg 0 := h1 _ (by decide)
  have hc : (s.setReg CHK_SJEXP w).reg SYS_MODECUR_CUR.reg 0 = s.reg SYS_MODECUR_CUR.reg 0 := h1 _ (by decide)
  have hs : (s.setReg CHK_SJEXP w).reg PDC_STAT_SWFAULT.reg 0 = s.reg PDC_STAT_SWFAULT.reg 0 := h1 _ (by decide)
  simp only [State.powered, State.fbit, State.cur, State.fld, ho, hc, hs]

theorem cur_setSjexp (s : State) (w : Word) : (s.setReg CHK_SJEXP w).cur = s.cur := fld_setReg_ne s w (by decide)

theorem otphold_setSjexp (s : State) (w : Word) : (s.setReg CHK_SJEXP w).flag SYS_BOOTSTAT_OTPHOLD = s.flag SYS_BOOTSTAT_OTPHOLD := by
  unfold State.flag
  rw [fld_setReg_ne s w (by decide)]

theorem targetApply_sjexpSent (s u : State) (v : Word) : targetApply s (sjexpSent u v) = hostWrite s 0 0x0A33 v true := by
  simp [targetApply, sjexpSent, masterHost]

/-- What HSPI0 sends to CHK_SJEXP is applied after another write of the word. -/
theorem applyTransfer_sjexpSent {w : Word} (ha : s.flt.armed.map (fun x => x.1) ≠ some 354) (h10 : s.powered 10 = true)
    (ho : s.flag SYS_BOOTSTAT_OTPHOLD = false) (hd : plinthDenies s 0x0A33 = false) (u : State) (v : Word) :
    applyTransfer (s.setReg CHK_SJEXP w) (sjexpSent u v) none
      = ((hostAsked (s.setReg CHK_SJEXP w) 0 0x0A33).setReg CHK_SJEXP v, .ok) := by
  have hd' : plinthDenies (s.setReg CHK_SJEXP w) 0x0A33 = false := by
    rw [← hd]; simp only [plinthDenies, cur_setSjexp]
  rw [applyTransfer_matched (s := s.setReg CHK_SJEXP w) ha, targetApply_sjexpSent]
  exact hostWrite_sjexp ((powered_setSjexp s w _).trans h10) ((otphold_setSjexp s w).trans ho) hd' v true

/-- Of two transfers of one cycle the second, HSPI0's, overwrote the first, an engine's: the engine gets SUPERSEDED, and the response of
the port says OK. -/
theorem reportAll_superseded {s0 : State} {x : Transfer} (hm : t.master = m) (hm' : m < 48) (hx : x.master = 0x30)
    (hi : (u.eng m).issue = []) (ho : overwritten s0 t [(x, .ok)] = true) :
    ∃ v, reportAll s0 [(t, .ok), (x, .ok)] u = v ∧ v = { u with engs := v.engs, hosts := v.hosts }
      ∧ (v.eng m).posted = (u.eng m).posted ++ [⟨.superseded, 0, t.addr⟩] := by
  obtain ⟨v, hv, he, hpost, -⟩ := masterStatus_issueList hm hm' hi .superseded
  have hr : reportAll s0 [(t, .ok), (x, .ok)] u = masterStatus v x .ok := by
    simp [reportAll, ho, overwritten_nil, hm, hm', hx, hv]
  have hh : masterStatus v x .ok
      = v.setHost 0 { v.host 0 with
          resp := hostResp .ok x.addr (writtenData .ok x.value) (v.host 0).resp.alive (v.host 0).resp.flags } := by
    simp [masterStatus, hx, masterHost]
  refine ⟨_, hr, ?_, ?_⟩
  · rw [hh, he]; rfl
  · rw [hh]; exact hpost.trans (stxStatus_posted u m t.addr (by decide))

/-- Of two writes of CHK_SJEXP in one cycle that of HSPI0 stands, and the engine gets SUPERSEDED (R19). -/
theorem exec_superseded {e : Fin 48} (hp : s.powered 1 = true) (ht : takeTransfer e s.armq = some (t, q)) (hm : t.master = e.val)
    (hk : t.kind = .write) (hi : (s.eng e).issue = []) (hc : t.comp = ~~~t.value) (ha : s.flt.armed.map (fun x => x.1) ≠ some 354)
    (hn : t.act = none) (hadr : t.addr = 0x0A33) (h10 : s.powered 10 = true) (hw : HostWrites s 0 0x0A33) (v : Word) :
    ∃ w, exec (.armatureTransfer [.queue e, .sent 0x30 0x0A33 v] none) s = .next w
      ∧ w.regs = ((s.setReg CHK_SJEXP t.value).setReg CHK_SJEXP v).regs ∧ w.armq = q
      ∧ (w.eng e).posted = (s.eng e).posted ++ [⟨.superseded, 0, 0x0A33⟩] := by
  obtain ⟨h7, hf, ho, -, -, hd⟩ := hw
  have h1 : applyTransfer (afterSending s q) t none = ((afterSending s q).setReg CHK_SJEXP t.value, .ok) := by
    rw [applyTransfer_matched (s := afterSending s q) ha, targetApply_word hk hn (hm ▸ e.isLt), hadr]
    exact stxDeliver_sjexp (s := afterSending s q) h10 _ _
  have h2 := applyTransfer_sjexpSent (s := afterSending s q) (w := t.value) ha h10 ho hd s v
  obtain ⟨w, hrep, he, hpost⟩ := reportAll_superseded (s0 := afterSending s q) (x := sjexpSent s v)
    (u := (hostAsked ((afterSending s q).setReg CHK_SJEXP t.value) 0 0x0A33).setReg CHK_SJEXP v) hm e.isLt rfl hi
    (overwritten_sjexp hk rfl hadr rfl hn rfl)
  refine ⟨w, ?_, by rw [he]; rfl, by rw [he]; rfl, hadr ▸ hpost⟩
  show (s.on 1 _) = _
  simp only [State.on, hp, if_true, markBadRead, gather_queue_sent ht h7 hf]
  unfold arrive
  rw [inOrder_plain hn rfl, ← hrep]
  simp only [applyAll, hopOf_matched hc, hopOf_matched (t := sjexpSent s v) rfl, h1, h2]

/-! ### Sources that have nothing to send -/

theorem exec_queue_empty {e : Fin 48} (h : takeTransfer e s.armq = none) : exec (.armatureTransfer [.queue e] none) s = .next s := by
  show (s.on 1 _) = _
  simp [State.on, markBadRead, byRank, rankInsert, gather, h, arrive, inOrder, applyAll, reportAll]

theorem exec_sent_frozen (a : Fin 65536) (v : Word) (h : s.flag SYS_HSTAT_FROZEN 1 = true) :
    exec (.armatureTransfer [.sent 0x31 a v] none) s = .next s := by
  have hg : gather (byRank [.sent 0x31 a v]) s = (s, []) := by
    simp [byRank, rankInsert, gather, masterHost, h]
  show (s.on 1 _) = _
  simp [State.on, markBadRead, hg, arrive, inOrder, applyAll, reportAll]

theorem hardMaster_outside (h : m < masterAntic ∨ masterFlt < m) : hardMaster m = false := by
  simp only [hardMaster, Bool.and_eq_false_imp, decide_eq_true_eq]
  intro _
  exact decide_eq_false (by omega)

/-- An event of a rail loop writes nothing: it takes the rail's next sequence number (R16). -/
theorem exec_event (n : Fin 32) (a : Fin 65536) (v : Word) (hp : s.powered 1 = true) (h : s.flt.armed.map (fun x => x.1) ≠ some 354) :
    exec (.armatureTransfer [.event n a v] none) s
      = .next { s with armSeq := cellSet 0 s.armSeq (masterRail n) ((cellGet 0 s.armSeq (masterRail n) + 1) % 16) } := by
  have hl : ¬ masterRail n < 48 := by unfold masterRail; omega
  have hh : ¬ (masterHost 0 ≤ masterRail n ∧ masterRail n ≤ masterHost 2) := by unfold masterRail masterHost; omega
  have hx : hardMaster (masterRail n) = false := hardMaster_outside (by unfold masterFlt masterRail; omega)
  show (s.on 1 _) = _
  simp only [State.on, hp, if_true, markBadRead, byRank, rankInsert, List.foldr, gather, armSend]
  rw [arrive_single, hopOf_matched rfl, applyTransfer_matched (by exact h)]
  simp [targetApply, reportAll, masterStatus, hl, hh, hx]

/-! ### Register writes -/

/-- A plain write by the service port, when it is not frozen, is that of the port (R335). -/
theorem exec_registerWrite_host (a : Fin 65536) (v : Word) (h7 : s.powered 7 = true) (hf : s.flag SYS_HSTAT_FROZEN 0 = false) :
    exec (.registerWrite 0x30 a (.plain v)) s = .next (hostWrite s 0 a v false).1 := by
  show writeBy 0x30 a (.plain v) s = _
  simp [writeBy, masterHost, State.on, h7, hf, formWrite, answered, hardMaster, masterAntic, masterFlt, masterWrite]

theorem exec_registerWrite_frozen (a : Fin 65536) (f : WriteForm) (hf : s.flag SYS_HSTAT_FROZEN 0 = true) :
    exec (.registerWrite 0x30 a f) s = .next s := by
  show writeBy 0x30 a f s = _
  simp [writeBy, masterHost, State.on, hf]

/-- A write whose halves disagree writes nothing: ARM_PAIR falls due at the first hop (R17). -/
theorem exec_registerWrite_mismatched (a : Fin 65536) {v c : Word} (h7 : s.powered 7 = true) (hf : s.flag SYS_HSTAT_FROZEN 0 = false)
    (hc : c ≠ ~~~v) : exec (.registerWrite 0x30 a (.pair v c)) s = .next (armPair s 0 0x30 a) := by
  show writeBy 0x30 a (.pair v c) s = _
  simp [writeBy, masterHost, State.on, h7, hf, formWrite, hc, answered, hardMaster, masterAntic, masterFlt]

theorem exec_registerWrite_engine (e : Fin 48) (a : Fin 65536) (f : WriteForm) :
    exec (.registerWrite ⟨e.val, by omega⟩ a f) s = s.onEng e (if engState s e = esFenced then s else formWrite s e a f) := by
  show writeBy e a f s = _
  have : ¬ masterHost 0 ≤ e.val := by unfold masterHost; omega
  simp [writeBy, this]

theorem exec_registerWrite_fenced (e : Fin 48) (a : Fin 65536) (f : WriteForm) (h : engState s e = esFenced) :
    exec (.registerWrite ⟨e.val, by omega⟩ a f) s = .next s := by
  rw [exec_registerWrite_engine, if_pos h]
  simp [State.onEng]

/-- An engine that writes a word without the right to it freezes with the cause WRITE (R168, R184). -/
theorem exec_registerWrite_refused (e : Fin 48) (a : Fin 65536) (v : Word) (hp : s.engPresent e = true)
    (hd : s.powered (engDomain e) = true) (hr : stxAllowed s e a = false) (hs : engState s e = esRunning) :
    exec (.registerWrite ⟨e.val, by omega⟩ a (.plain v)) s = .next (freeze s e 5 a) := by
  have hn : ¬ engState s e = esFenced := by rw [hs]; decide
  have hh : hardMaster e = false := hardMaster_outside (by unfold masterAntic; omega)
  rw [exec_registerWrite_engine, if_neg hn]
  simp [State.onEng, hp, hd, formWrite, answered, hh, masterWrite, hr]

/-- The value half of a split pair waits at its word alone (R373). -/
theorem exec_registerWrite_valueHalf (a : Fin 65536) (v : Word) (hp : s.powered 1 = true) :
    exec (.registerWrite 0x35 a (.valueHalf v)) s = .next (splitValue s 0x35 a v) := by
  show writeBy 0x35 a (.valueHalf v) s = _
  simp [writeBy, masterHost, State.on, hp, formWrite, hardMaster, masterAntic, masterFlt]

end Sys2Proof.Machine
end

section
/-! SUPPORT. An engine that executes and freezes is FROZEN: what ends with its clause leaves the word of its state. -/
namespace Sys2Proof.Machine

variable {s t : State} {e : Nat} {x : Word}

/-- The word of engine `e`'s state reads `x`. -/
def StatIs (e : Nat) (x : Word) (s : State) : Prop := s.reg ENG_STAT e = x

theorem StatIs.of_regs (h : StatIs e x s) (hr : t.regs = s.regs) : StatIs e x t := (reg_congr hr _ _).trans h

theorem StatIs.setEng (h : StatIs e x s) (n : Nat) (r : EngH) : StatIs e x (s.setEng n r) := h

theorem StatIs.setProgClaim (h : StatIs e x s) (p k : Nat) (c : Claim) : StatIs e x (s.setProgClaim p k c) := h

theorem StatIs.setFld (h : StatIs e x s) {f : Fld} {v n : Nat} (hk : f.reg.addr n ≠ ENG_STAT.addr e) : StatIs e x (s.setFld f v n) :=
  (reg_setFld_ne s v hk).trans h

theorem StatIs.countTo (h : StatIs e x s) {f : Fld} {top n : Nat} (hk : f.reg.addr n ≠ ENG_STAT.addr e) :
    StatIs e x (s.countTo f top n) := by
  unfold State.countTo
  split
  exacts [h.setFld hk, h]

theorem StatIs.foldl {α : Type} {f : State → α → State} {l : List α} (h : StatIs e x s)
    (hf : ∀ t a, StatIs e x t → StatIs e x (f t a)) : StatIs e x (l.foldl f s) :=
  List.foldlRecOn l f h fun t ht a _ => hf t a ht

theorem clearOvercommit_stat (h : StatIs e x s) (k : Nat) : StatIs e x (clearOvercommit s k) := by
  have hk : BUD_PSTAT.addr k ≠ ENG_STAT.addr e := by
    apply addr_ne_of <;> simp only [BUD_PSTAT, ENG_STAT] <;> intros <;> omega
  have hl : (endOvercommit s k).regs = (s.setFld BUD_PSTAT_OVERCOMMIT false.toNat k).regs := by
    simp only [endOvercommit, State.setLevel, Bool.false_and, Bool.false_eq_true, if_false, State.setFlag]
  unfold clearOvercommit
  split
  exacts [(h.setFld hk).of_regs hl, h]

theorem refundPorts_stat (k : Nat) (l : List Nat) (hd : Nat) (h : StatIs e x s) : StatIs e x (refundPorts k l s hd).1 := by
  have ha (n : Nat) : IP_ALLOW.addr n ≠ ENG_STAT.addr e := by
    apply addr_ne_of <;> simp only [IP_ALLOW, ENG_STAT] <;> intros <;> omega
  have hs (n : Nat) : IP_STAT.addr n ≠ ENG_STAT.addr e := by
    apply addr_ne_of <;> simp only [IP_STAT, ENG_STAT] <;> intros <;> omega
  have hv (n : Nat) : IP_EVT.addr n ≠ ENG_STAT.addr e := by
    apply addr_ne_of <;> simp only [IP_EVT, ENG_STAT] <;> intros <;> omega
  have hc : IPT_REFUND.addr 0 ≠ ENG_STAT.addr e := by
    apply addr_ne_of <;> simp only [IPT_REFUND, ENG_STAT] <;> intros <;> omega
  induction l generalizing s hd with
  | nil => exact h
  | cons n l ih =>
    unfold refundPorts
    dsimp only
    split_ifs
    · exact ih _ h
    · exact ih _ (StatIs.countTo (StatIs.setFld (StatIs.setFld (h.setFld (ha n)) (hs n)) (hv n)) hc)
    · exact ih _ (StatIs.countTo (StatIs.setFld (h.setFld (ha n)) (hv n)) hc)
    · exact ih _ h

/-- What a fold does to claims changes no register. -/
theorem foldl_regs {α β : Type} {f : State × β → α → State × β} (hf : ∀ a x, (f a x).1.regs = a.1.regs) (l : List α)
    (a : State × β) : (l.foldl f a).1.regs = a.1.regs :=
  List.foldlRecOn l f (motive := fun b => b.1.regs = a.1.regs) rfl fun b hb x _ => (hf b x).trans hb

theorem refundClaims_regs (k : Nat) (s : State) (hd : Nat) : (refundClaims k s hd).1.regs = s.regs := by
  unfold refundClaims
  dsimp only
  rw [foldl_regs, foldl_regs, foldl_regs]
  all_goals intro a x; split <;> rfl

theorem returnHeadroom_stat (h : StatIs e x s) (k hd : Nat) : StatIs e x (returnHeadroom s k hd none) := by
  have hr : (returnHeadroom s k hd none).regs
      = (refundPorts k (List.range 16) (clearOvercommit s k) (min hd (poolServable (clearOvercommit s k) k))).1.regs := by
    simp only [returnHeadroom, refundClaims_regs]
  exact (refundPorts_stat k _ _ (clearOvercommit_stat h k)).of_regs hr

theorem unreserve_stat (h : StatIs e x s) (p k : Nat) : StatIs e x (unreserve s p k) := by
  unfold unreserve
  dsimp only
  split
  exacts [returnHeadroom_stat (h.setProgClaim ..) _ _, h]

theorem unwindClause_regs (s : State) (e n : Nat) : (unwindClause s e n).regs = s.regs := by
  unfold unwindClause
  dsimp only
  split
  · split_ifs <;> rfl
  · rfl

theorem engCount_stat (h : StatIs e x s) : StatIs e x (engCount s ENG_NREVK_COUNT e false) := by
  have hn : ENG_NREVK.addr e ≠ ENG_STAT.addr e := by
    apply addr_ne_of <;> simp only [ENG_NREVK, ENG_STAT] <;> intros <;> omega
  have hv : ENG_EVT.addr e ≠ ENG_STAT.addr e := by
    apply addr_ne_of <;> simp only [ENG_EVT, ENG_STAT] <;> intros <;> omega
  have hc : StatIs e x (s.setFld ENG_NREVK_COUNT (s.fld ENG_NREVK_COUNT e + 1) e) := h.setFld hn
  unfold engCount
  dsimp only
  split
  · split
    exacts [StatIs.setFld (hc.setEng ..) hv, hc]
  · exact h

/-- The revocation of an engine's clause, without a branch, leaves the word of the engine's state. -/
theorem revokeClause_stat (h : StatIs e x s) (reason : Nat) : StatIs e x (revokeClause s e reason false) := by
  have hc : ENG_CLAUSE.addr e ≠ ENG_STAT.addr e := by
    apply addr_ne_of <;> simp only [ENG_CLAUSE, ENG_STAT] <;> intros <;> omega
  have hv : ENG_EVT.addr e ≠ ENG_STAT.addr e := by
    apply addr_ne_of <;> simp only [ENG_EVT, ENG_STAT] <;> intros <;> omega
  unfold revokeClause
  split
  · exact h
  · next c _ =>
    have h1 : StatIs e x (c.rails.foldl (fun s n => unwindClause s e n) s) :=
      h.foldl fun t n ht => ht.of_regs (unwindClause_regs t e n)
    have h2 := h1.foldl (f := fun s k => unreserve s (progOf s e) k) (l := List.range 8) fun t k ht => unreserve_stat ht _ k
    exact engCount_stat (StatIs.setFld (StatIs.setFld (StatIs.setFld (StatIs.setFld (h2.setEng ..) hc) hc) hc) hv)

theorem seqFail_regs (s : State) : (seqFail s).regs = s.regs := by
  unfold seqFail failDue
  split_ifs <;> rfl

/-- An engine that executes freezes: its state is FROZEN, with the cause and the address of the access (R184). -/
theorem freeze_running (s : State) (e : Fin 48) (cause : Fin 16) (a : Fin 65536) (h : engState s e = esRunning) :
    engState (freeze s e cause a) e = esFrozen ∧ (freeze s e cause a).fld ENG_FREEZE_CAUSE e = cause
      ∧ (freeze s e cause a).fld ENG_FREEZE_ADDR e = a := by
  have hf : ENG_FREEZE.addr e ≠ ENG_STAT.addr e := by
    apply addr_ne_of <;> simp only [ENG_FREEZE, ENG_STAT] <;> intros <;> omega
  have hv : ENG_EVT.addr e ≠ ENG_STAT.addr e := by
    apply addr_ne_of <;> simp only [ENG_EVT, ENG_STAT] <;> intros <;> omega
  have hvf : ENG_EVT.addr e ≠ ENG_FREEZE.addr e := by
    apply addr_ne_of <;> simp only [ENG_EVT, ENG_FREEZE] <;> intros <;> omega
  obtain ⟨w, hw, hr⟩ : ∃ w, StatIs e ((setEngState s e esFrozen).reg ENG_STAT e) w ∧ (freeze s e cause a).regs
      = (((w.setFld ENG_FREEZE_CAUSE cause e).setFld ENG_FREEZE_ADDR (a % 65536) e).setFld ENG_EVT_FROZEN 1 e).regs := by
    have h0 : StatIs e ((setEngState s e esFrozen).reg ENG_STAT e) (setEngState s e esFrozen) := rfl
    refine ⟨_, revokeClause_stat (h0.setEng e { (setEngState s e esFrozen).eng e with wait := none }) 8, ?_⟩
    unfold freeze
    rw [if_pos (.inl h)]
    exact seqFail_regs _
  refine ⟨?_, ?_, ?_⟩
  · calc engState (freeze s e cause a) e
        = (setEngState s e esFrozen).fld ENG_STAT_STATE e := fld_of_reg (((hw.setFld hf).setFld hf |>.setFld hv).of_regs hr)
      _ = esFrozen := fld_setFld_same s _ _ _ (by decide)
  · rw [fld_congr hr, fld_setFld_reg_ne _ _ hvf,
      fld_setFld_bits_ne (f := ENG_FREEZE_ADDR) (g := ENG_FREEZE_CAUSE) _ _ _ rfl (by decide) (by decide),
      fld_setFld_same _ _ _ _ (by decide)]
    exact Nat.mod_eq_of_lt cause.isLt
  · rw [fld_congr hr, fld_setFld_reg_ne _ _ hvf, fld_setFld_same _ _ _ _ (by decide)]
    show a.val % 65536 % 65536 = a
    omega

end Sys2Proof.Machine
end

section
/-! What the commands ARMATURE_TRANSFER and REGISTER_WRITE do, as O54 states it. -/
namespace Sys2Proof.Machine

variable {s : State} {t : Transfer} {q : List Transfer} {e : Fin 48}

/-! ### R17–R19 for an engine's transfer -/

/-- A transfer that a hop finds mismatched, or whose halves disagree, leaves every register, RAM byte and rail as it was (R17). -/
theorem exec_queue_named (hp : s.powered 1 = true) (ht : takeTransfer e s.armq = some (t, q)) (hm : t.master = e.val)
    (hi : (s.eng e).issue = []) (hop : Nat) :
    ∃ u, exec (.armatureTransfer [.queue e] (some (e.val, hop))) s = .next u ∧ u.armq = q ∧ u.regs = s.regs ∧ u.mem = s.mem
      ∧ u.rails = s.rails ∧ (u.eng e).posted = (s.eng e).posted ++ [⟨.pairerr, 0, t.addr⟩]
      ∧ u.flt.due = s.flt.due ++ [⟨354, hop, e, wordOf t.addr⟩] := by
  obtain ⟨u, hx, he, hpost⟩ := exec_queue_discarded hp ht hm hi (markBadRead_posted (takeTransfer_mem ht) hm hop) (hopOf_named t hm hop)
  refine ⟨u, hx, ?_, ?_, ?_, ?_, hpost, ?_⟩ <;> rw [he] <;> rfl

theorem exec_queue_unequal (hp : s.powered 1 = true) (ht : takeTransfer e s.armq = some (t, q)) (hm : t.master = e.val)
    (hi : (s.eng e).issue = []) (hc : t.comp ≠ ~~~t.value) :
    ∃ u, exec (.armatureTransfer [.queue e] none) s = .next u ∧ u.regs = s.regs ∧ u.mem = s.mem
      ∧ u.rails = s.rails ∧ (u.eng e).posted = (s.eng e).posted ++ [⟨.pairerr, 0, t.addr⟩] := by
  obtain ⟨u, hx, he, hpost⟩ := exec_queue_discarded hp ht hm hi rfl (hopOf_mismatched hc)
  refine ⟨u, hx, ?_, ?_, ?_, hpost⟩ <;> rw [he] <;> rfl

/-- The effect of a matched transfer, and its status on the way back. -/
theorem exec_queue_effect (hp : s.powered 1 = true) (ht : takeTransfer e s.armq = some (t, q)) (hm : t.master = e.val)
    (hk : t.kind = .write) (hi : (s.eng e).issue = []) (hc : t.comp = ~~~t.value) (ha : s.flt.armed.map (fun x => x.1) ≠ some 354)
    {x : Effect} (hact : t.act = some x) :
    ∃ u, exec (.armatureTransfer [.queue e] none) s = .next u
      ∧ u.regs = (effectArrives { s with armq := q } e x).1.regs ∧ u.rails = (effectArrives { s with armq := q } e x).1.rails
      ∧ u.sigs = (effectArrives { s with armq := q } e x).1.sigs ∧ u.pat = (effectArrives { s with armq := q } e x).1.pat
      ∧ (u.eng e).posted
        = ((stxStatus (effectArrives { s with armq := q } e x).1 e t.addr (effectArrives { s with armq := q } e x).2).eng e).posted := by
  obtain ⟨hst, p, f, c, hto⟩ := targetApply_effect (s := { s with armq := q }) hk hact
  obtain ⟨u, hx, he, hpost⟩ := exec_queue_applied hp ht hm hk hi hc ha
  rw [hm] at hst hto
  have hrec : (targetApply { s with armq := q } t).1.eng e = (effectArrives { s with armq := q } e x).1.eng e := by rw [hto]; rfl
  refine ⟨u, hx, ?_, ?_, ?_, ?_, hst ▸ hpost.trans (stxStatus_posted_congr hrec _ _)⟩ <;> rw [he, hto]

/-- The write of a matched transfer. -/
theorem exec_queue_write (hp : s.powered 1 = true) (ht : takeTransfer e s.armq = some (t, q)) (hm : t.master = e.val)
    (hk : t.kind = .write) (hi : (s.eng e).issue = []) (hc : t.comp = ~~~t.value) (ha : s.flt.armed.map (fun x => x.1) ≠ some 354)
    (hact : t.act = none) :
    ∃ u, exec (.armatureTransfer [.queue e] none) s = .next u
      ∧ u.regs = (stxDeliver { s with armq := q } e t.addr t.value).1.regs
      ∧ u.mem = (stxDeliver { s with armq := q } e t.addr t.value).1.mem
      ∧ u.rails = (stxDeliver { s with armq := q } e t.addr t.value).1.rails
      ∧ (t.addr = 0x0A33 → s.powered 10 = true → u.reg CHK_SJEXP = t.value ∧ u.armq = q ∧ u.mem = s.mem
        ∧ (u.eng e).posted = (s.eng e).posted ∧ SameRegs s u [CHK_SJEXP.addr 0]) := by
  have hta : targetApply { s with armq := q } t = stxDeliver { s with armq := q } e t.addr t.value := by
    rw [targetApply_word hk hact (hm ▸ e.isLt), hm]
  obtain ⟨u, hx, he, hpost⟩ := exec_queue_applied hp ht hm hk hi hc ha
  rw [hta] at he hpost
  refine ⟨u, hx, by rw [he], by rw [he], by rw [he], fun hadr h10 => ?_⟩
  rw [hadr, stxDeliver_sjexp (s := { s with armq := q }) h10] at he hpost
  have hr : u.regs = (s.setReg CHK_SJEXP t.value).regs := by rw [he]; rfl
  refine ⟨(reg_congr hr _ _).trans (reg_setReg_same s ..), by rw [he]; rfl, by rw [he]; rfl, hpost, fun k hk => ?_⟩
  rw [hr]
  exact SameRegs.setReg s CHK_SJEXP t.value 0 k hk

/-- The later write of CHK_SJEXP stands. -/
theorem exec_superseded_word (hp : s.powered 1 = true) (ht : takeTransfer e s.armq = some (t, q)) (hm : t.master = e.val)
    (hk : t.kind = .write) (hi : (s.eng e).issue = []) (hc : t.comp = ~~~t.value) (ha : s.flt.armed.map (fun x => x.1) ≠ some 354)
    (hn : t.act = none) (hadr : t.addr = 0x0A33) (h10 : s.powered 10 = true) (hw : HostWrites s 0 0x0A33) (v : Word) :
    ∃ w, exec (.armatureTransfer [.queue e, .sent 0x30 0x0A33 v] none) s = .next w ∧ w.reg CHK_SJEXP = v ∧ w.armq = q
      ∧ (w.eng e).posted = (s.eng e).posted ++ [⟨.superseded, 0, 0x0A33⟩] ∧ SameRegs s w [CHK_SJEXP.addr 0] := by
  obtain ⟨w, hx, hr, hq, hpost⟩ := exec_superseded hp ht hm hk hi hc ha hn hadr h10 hw v
  refine ⟨w, hx, (reg_congr hr _ _).trans (reg_setReg_same _ ..), hq, hpost, fun k hk => ?_⟩
  rw [hr]
  exact ((SameRegs.setReg s CHK_SJEXP t.value 0).trans (SameRegs.setReg _ CHK_SJEXP v 0)) k hk

/-! ### The service port's writes -/

theorem exec_registerWrite_sjexp (v : Word) (h7 : s.powered 7 = true) (hf : s.flag SYS_HSTAT_FROZEN 0 = false)
    (ho : s.flag SYS_BOOTSTAT_OTPHOLD = false) (hc : s.cur ≠ modePlinth) (h10 : s.powered 10 = true) :
    ∃ t, exec (.registerWrite 0x30 0x0A33 (.plain v)) s = .next t ∧ t.reg CHK_SJEXP = v
      ∧ RegsOnly (hostAsked s 0 0x0A33) t [CHK_SJEXP.addr 0] := by
  have hd : plinthDenies s 0x0A33 = false := by simp [plinthDenies, hc]
  refine ⟨_, exec_registerWrite_host 0x0A33 v h7 hf, ?_⟩
  rw [show hostWrite s 0 (0x0A33 : Fin 65536).val v false = _ from hostWrite_sjexp h10 ho hd v false]
  exact ⟨reg_setReg_same _ .., (RegsOnly.refl _ _).setReg v (List.mem_singleton_self _)⟩

end Sys2Proof.Machine
end

section
open Sys2Proof Sys2Proof.Machine

/-- Settles O54: a transfer is taken from its queue and applied or discarded, with one status for its master, because no register write
touches an engine's effects that are still to issue; register writes follow their master and form. -/
theorem transfersAndRegisterWrites : Obligations.TransfersAndRegisterWrites := by
  unfold Obligations.TransfersAndRegisterWrites
  intro s hp
  refine ⟨fun m t q ht hm hk hi => ⟨exec_queue_named hp ht hm hi, fun hc _ => exec_queue_unequal hp ht hm hi hc, fun hc ha =>
      ⟨fun x hx => exec_queue_effect hp ht hm hk hi hc ha hx, fun hn => ?_⟩⟩,
    fun m => exec_queue_empty, exec_sent_frozen, fun n a v ha => ?_, fun v => exec_registerWrite_sjexp v,
    fun a f _ => exec_registerWrite_frozen a f, fun a v c h7 hf hc => ⟨_, exec_registerWrite_mismatched a h7 hf hc, rfl, rfl, rfl⟩,
    fun m a v hpr hd hr hs => ⟨_, exec_registerWrite_refused m a v hpr hd hr hs, freeze_running s m 5 a hs⟩,
    exec_registerWrite_fenced, fun a v => ⟨_, exec_registerWrite_valueHalf a v hp, rfl, rfl, ?_⟩⟩
  · obtain ⟨u, hx, hregs, hmem, hrails, hsj⟩ := exec_queue_write hp ht hm hk hi hc ha hn
    exact ⟨u, hx, hregs, hmem, hrails, hsj, exec_superseded_word hp ht hm hk hi hc ha hn⟩
  · exact ⟨_, exec_event n a v hp ha, rfl, rfl, rfl, by simp⟩
  · rfl
end

section
/-! SUPPORT. What the units do in a transition leaves the mode controller alone: its words in PD0, and its record but for the history of
R203. `Invariant` lets a property of any word pass where every word may be set; here no word of the mode controller is set, and no request is
posted. One lemma for each function that powering up domains, draining them and leaving a mode reach. -/
namespace Sys2Proof.Machine

/-- The words of the mode controller and of WAKE (0x20 to 0x5F) are those of `s`, and so is the controller's record, but for the times of
R203. -/
def ModePart (s : State) (regs : List (Nat × Word)) (mode : ModeH) : Prop :=
  (∀ k, 0x20 ≤ k → k < 0x60 → cellGet 0 regs k = cellGet 0 s.regs k) ∧ mode = { s.mode with hist := mode.hist }

/-- State `t` has kept the mode controller of `s`. -/
abbrev ModeKept (s t : State) : Prop := ModePart s t.regs t.mode

variable {s0 s t : State}

theorem ModeKept.refl (s : State) : ModeKept s s := ⟨fun _ _ _ => rfl, rfl⟩

theorem ModeKept.ite {c : Prop} [Decidable c] (hs : ModeKept s0 s) (ht : ModeKept s0 t) : ModeKept s0 (if c then s else t) := by
  split <;> assumption

theorem ModeKept.iteFst {α : Type} {c : Prop} [Decidable c] {x y : State × α} (hx : ModeKept s0 x.1) (hy : ModeKept s0 y.1) :
    ModeKept s0 (if c then x else y).1 := by
  split <;> assumption

theorem ModeKept.foldl {α : Type} {f : State → α → State} {l : List α} (hs : ModeKept s0 s)
    (hf : ∀ t x, ModeKept s0 t → ModeKept s0 (f t x)) : ModeKept s0 (l.foldl f s) :=
  List.foldlRecOn l f hs fun t ht x _ => hf t x ht

theorem ModeKept.foldlFst {α β : Type} {f : State × β → α → State × β} {l : List α} {x : State × β} (hx : ModeKept s0 x.1)
    (hf : ∀ y a, ModeKept s0 y.1 → ModeKept s0 (f y a).1) : ModeKept s0 (l.foldl f x).1 :=
  List.foldlRecOn l f (motive := fun y => ModeKept s0 y.1) hx fun y hy a _ => hf y a hy

theorem ModeKept.of_eq {α : Type} {x : State × α} {a : α} (hx : ModeKept s0 x.1) (he : x = (s, a)) : ModeKept s0 s := by
  rw [he] at hx; exact hx

/-- The other parts of the state do not matter. -/
theorem ModeKept.rest {part pairs mem lines tbase freeCtr armq armSeq bud groups ports rails engs progs pmap sigs pat flt sup pins links
    lx boot chg thm chk otp wds wdStart hosts intc tap pending} (h : ModeKept s0 s) :
    ModeKept s0 ⟨part, s.regs, pairs, mem, lines, tbase, freeCtr, armq, armSeq, s.mode, bud, groups, ports, rails, engs, progs, pmap, sigs,
      pat, flt, sup, pins, links, lx, boot, chg, thm, chk, otp, wds, wdStart, hosts, intc, tap, pending⟩ := h

/-- An intermediate state that has kept it, from which the state goes on. -/
theorem ModeKept.via (hf : ModeKept s0 t → ModeKept s0 s) (ht : ModeKept s0 t) : ModeKept s0 s := hf ht

theorem ModeKept.setCell {k : Nat} {w : Word} (h : ModeKept s0 s) (hk : k < 0x20 ∨ 0x60 ≤ k) :
    ModePart s0 (cellSet 0 s.regs k w) s.mode :=
  ⟨fun j h1 h2 => (cellGet_set_ne _ _ _ (by omega)).trans (h.1 j h1 h2), h.2⟩

theorem Reg.base_le_addr (r : Reg) (n : Nat) : r.base ≤ r.addr n := by
  rcases addr_cases r n with ⟨-, e⟩ | ⟨-, e⟩ <;> rw [e] <;> exact Nat.le_add_right ..

/-- The words of register `r` lie above those of the mode controller and of WAKE. -/
def Reg.outer (r : Reg) : Bool := Nat.ble 0x60 r.base

theorem Reg.outer_addr (r : Reg) (h : r.outer = true) (n : Nat) : 0x60 ≤ r.addr n :=
  (Nat.le_of_ble_eq_true h).trans (r.base_le_addr n)

/-! ### Fields, bytes, records, levels and injections -/

theorem setReg_keepsMode {r w n} (hr : r.outer = true) (h : ModeKept s0 s) : ModeKept s0 (s.setReg r w n) :=
  h.setCell (.inr (r.outer_addr hr n))

theorem resetReg_keepsMode {r n} (hr : r.outer = true) (h : ModeKept s0 s) : ModeKept s0 (s.resetReg r n) := by
  have ha := r.outer_addr hr n
  exact ⟨fun j h1 h2 => ((cellGet_erase ..).trans (if_neg (by omega))).trans (h.1 j h1 h2), h.2⟩

theorem setFld_keepsMode {f v n} (hf : f.reg.outer = true) (h : ModeKept s0 s) : ModeKept s0 (State.setFld s f v n) :=
  setReg_keepsMode hf h

theorem setFlag_keepsMode {f b n} (hf : f.reg.outer = true) (h : ModeKept s0 s) : ModeKept s0 (State.setFlag s f b n) :=
  setFld_keepsMode hf h

theorem setFbit_keepsMode {f k b n} (hf : f.reg.outer = true) (h : ModeKept s0 s) : ModeKept s0 (State.setFbit s f k b n) :=
  setFld_keepsMode hf h

theorem event_keepsMode {f n} (hf : f.reg.outer = true) (h : ModeKept s0 s) : ModeKept s0 (State.event s f n) :=
  setFld_keepsMode hf h

theorem countTo_keepsMode {f top n} (hf : f.reg.outer = true) (h : ModeKept s0 s) : ModeKept s0 (State.countTo s f top n) :=
  .ite (setFld_keepsMode hf h) h

theorem setBytes_keepsMode {a} {l : List Byte} (h : ModeKept s0 s) : ModeKept s0 (s.setBytes a l) := by
  rw [setBytes_frame]; exact h

theorem setWord_keepsMode {base i w} (h : ModeKept s0 s) : ModeKept s0 (State.setWord s base i w) := setBytes_keepsMode h

/-- The times of R203 are no part of it. -/
theorem noteHist_keepsMode {k} (h : ModeKept s0 s) : ModeKept s0 (s.noteHist k) := by
  have hh : ModePart s0 s.regs { s.mode with hist := cellSet 0 s.mode.hist k s.tbase } := ⟨h.1, by rw [h.2]⟩
  refine .foldl hh fun t e ht => ?_
  dsimp only
  split
  · exact .ite ht ht
  · exact ht

theorem setEng_keepsMode {e r} (h : ModeKept s0 s) : ModeKept s0 (s.setEng e r) := h

theorem noteIf_keepsMode {b k} (h : ModeKept s0 s) : ModeKept s0 (State.noteIf s b k) := .ite (noteHist_keepsMode h) h

theorem noteMode_keepsMode (h1 : ModeKept s0 t) : ModeKept s0 (State.noteMode s t) :=
  .ite h1 <| by
    dsimp only
    split
    · exact noteHist_keepsMode (by split; exacts [noteHist_keepsMode h1, h1])
    · split
      · exact noteHist_keepsMode h1
      · exact h1

theorem dropRecord_keepsMode (h : ModeKept s0 s) : ModeKept s0 (State.dropRecord s) :=
  .via (fun h1 => .ite (.ite (.rest (event_keepsMode rfl (countTo_keepsMode rfl h1))) (countTo_keepsMode rfl h1)) h1) (event_keepsMode rfl h)

theorem postRecord_keepsMode {r} (h : ModeKept s0 s) : ModeKept s0 (State.postRecord s r) := .ite h (.ite h (dropRecord_keepsMode h))

theorem setLevel_keepsMode {src inst detail data1 b} (h : ModeKept s0 s) : ModeKept s0 (State.setLevel s src inst detail data1 b) :=
  .ite h h

theorem injectShown_keepsMode {f} (h : ModeKept s0 s) : ModeKept s0 (State.injectShown s f) :=
  setReg_keepsMode rfl (setReg_keepsMode rfl (.rest (setFld_keepsMode rfl h)))

theorem injectRecord_keepsMode {f} (h : ModeKept s0 s) : ModeKept s0 (State.injectRecord s f) :=
  setFbit_keepsMode rfl (injectShown_keepsMode h)

theorem injectItem_keepsMode {f damage} (h : ModeKept s0 s) (hd : ∀ t, ModeKept s0 t → ModeKept s0 (damage t)) :
    ModeKept s0 (s.injectItem f damage) := by
  unfold State.injectItem
  split; exacts [injectRecord_keepsMode h, hd s h, h]

theorem injectTake_keepsMode {src inst} (h1 : ModeKept s0 t) : ModeKept s0 (State.injectTake s t src inst) :=
  .ite (by split; exacts [.rest (injectShown_keepsMode h1), h1]) h1

theorem setStopped_keepsMode {x b} (h : ModeKept s0 s) : ModeKept s0 (State.setStopped s x b) := setFbit_keepsMode rfl h

theorem setOverrun_keepsMode {x b} (h : ModeKept s0 s) : ModeKept s0 (State.setOverrun s x b) := setFbit_keepsMode rfl h

/-! ### Supervision outputs and comparators -/

theorem supCount_keepsMode {n k} (h : ModeKept s0 s) : ModeKept s0 (supCount s n k) :=
  .ite h (.ite (.ite (.rest (setFbit_keepsMode rfl h)) h) h)

theorem rstoSet_keepsMode {j b} (h : ModeKept s0 s) : ModeKept s0 (rstoSet s j b) :=
  noteIf_keepsMode (setFlag_keepsMode rfl (setFlag_keepsMode rfl h))

theorem rstoLow_keepsMode {j cause} (h : ModeKept s0 s) : ModeKept s0 (rstoLow s j cause) := setFld_keepsMode rfl (rstoSet_keepsMode h)

theorem rstoOne_keepsMode {hold j} (h : ModeKept s0 s) : ModeKept s0 (rstoOne s hold j) :=
  .ite h <| .ite (rstoLow_keepsMode h) <| .ite (.ite (rstoSet_keepsMode h) (rstoLow_keepsMode h)) <|
  .ite (rstoLow_keepsMode h) (by split; exacts [rstoLow_keepsMode h, .ite h (.rest (setFlag_keepsMode rfl h))])

theorem rstoUpdate_keepsMode (h : ModeKept s0 s) : ModeKept s0 (rstoUpdate s) := .foldl h (fun _ _ => rstoOne_keepsMode)

theorem compSet_keepsMode {n q b} (h : ModeKept s0 s) : ModeKept s0 (compSet s n q b) :=
  .ite h <| .via
    (fun h1 => .ite (rstoUpdate_keepsMode (.ite (supCount_keepsMode h1) (setFbit_keepsMode rfl (supCount_keepsMode h1)))) h1)
    (noteHist_keepsMode (.rest (setFbit_keepsMode rfl h)))

theorem compEnd_keepsMode {n q} (h : ModeKept s0 s) : ModeKept s0 (compEnd s n q) := setLevel_keepsMode (compSet_keepsMode h)

theorem supLeave_keepsMode {n} (h : ModeKept s0 s) : ModeKept s0 (supLeave s n) :=
  compSet_keepsMode (compEnd_keepsMode (compEnd_keepsMode h))

/-! ### Pools and claims -/

theorem reduceAllowance_keepsMode {n t} (h : ModeKept s0 s) : ModeKept s0 (reduceAllowance s n t) :=
  .ite (.rest (setFld_keepsMode rfl h)) (setFld_keepsMode rfl h)

theorem endOvercommit_keepsMode {k} (h : ModeKept s0 s) : ModeKept s0 (endOvercommit s k) := setLevel_keepsMode (setFlag_keepsMode rfl h)

theorem refundPorts_keepsMode {k x} {l : List Nat} (h : ModeKept s0 s) : ModeKept s0 (refundPorts k l s x).1 := by
  induction l generalizing s x with
  | nil => exact h
  | cons n l ih =>
    have hcut {f : Fld} {v} (hf : f.reg.outer = true) : ModeKept s0 (s.setFld f v n) := setFld_keepsMode hf h
    exact .iteFst
      (.iteFst (ih h) (ih (countTo_keepsMode rfl (event_keepsMode rfl (.ite (setFlag_keepsMode rfl (hcut rfl)) (hcut rfl)))))) (ih h)

theorem refundClaims_keepsMode {k k'} (h : ModeKept s0 s) : ModeKept s0 (refundClaims k s k').1 := by
  unfold refundClaims
  dsimp only
  exact .foldlFst (.foldlFst (.foldlFst h (fun _ _ h => .iteFst h h)) (fun _ _ h => .iteFst h h)) (fun _ _ h => .iteFst h h)

theorem clearOvercommit_keepsMode {k} (h : ModeKept s0 s) : ModeKept s0 (clearOvercommit s k) := .ite (endOvercommit_keepsMode h) h

theorem returnHeadroom_keepsMode {k x port} (h : ModeKept s0 s) : ModeKept s0 (returnHeadroom s k x port) := by
  unfold returnHeadroom
  extract_lets _ _
  split
  next h2 =>
  split
  next h3 =>
  have hs := (refundClaims_keepsMode <| (refundPorts_keepsMode <| clearOvercommit_keepsMode h).of_eq h2).of_eq h3
  split
  · exact hs
  · exact .ite hs (setFld_keepsMode rfl hs)

theorem pinCount_keepsMode {n q pin ns} (h : ModeKept s0 s) : ModeKept s0 (pinCount s n q pin ns) := .ite (.ite (event_keepsMode rfl h) h) h

/-! ### Link commands -/

theorem queueCmd_keepsMode {l code arg} (h : ModeKept s0 s) : ModeKept s0 (queueCmd s l code arg) := .ite h h

theorem sendCmd_keepsMode {l code arg} (h : ModeKept s0 s) : ModeKept s0 (sendCmd s l code arg) := .ite (queueCmd_keepsMode h) h

/-! ### Intents and clauses -/

theorem logIntent_keepsMode {p outcome} (h : ModeKept s0 s) : ModeKept s0 (logIntent s p outcome) := .ite (postRecord_keepsMode h) h

theorem portCount_keepsMode {f p} (hf : f.reg.outer = true) (h : ModeKept s0 s) : ModeKept s0 (portCount s f p) :=
  .ite (.ite (event_keepsMode rfl (setFld_keepsMode hf h)) (setFld_keepsMode hf h)) h

theorem revokeIntent_keepsMode {p reason} (h : ModeKept s0 s) : ModeKept s0 (revokeIntent s p reason) :=
  .ite h <| logIntent_keepsMode <| portCount_keepsMode rfl <| event_keepsMode rfl <| setFld_keepsMode rfl <|
  .foldl (returnHeadroom_keepsMode <| .rest <| setFld_keepsMode rfl h) fun _ _ h => h

theorem releaseIntent_keepsMode {p} (h : ModeKept s0 s) : ModeKept s0 (releaseIntent s p) := .ite h (.rest (setFld_keepsMode rfl h))

theorem engCount_keepsMode {f e conf} (hf : f.reg.outer = true) (h : ModeKept s0 s) :
    ModeKept s0 (engCount s f e conf) :=
  .ite (.ite (event_keepsMode rfl <| setEng_keepsMode <| setFld_keepsMode hf h) (setFld_keepsMode hf h)) h

theorem unreserve_keepsMode {p k} (h : ModeKept s0 s) : ModeKept s0 (unreserve s p k) := .ite (returnHeadroom_keepsMode h) h

theorem unwindClause_keepsMode {e n} (h : ModeKept s0 s) : ModeKept s0 (unwindClause s e n) := by
  unfold unwindClause
  dsimp only
  split; exacts [.ite (.ite h h) h, h]

theorem revokeClause_keepsMode {e reason branch} (h : ModeKept s0 s) : ModeKept s0 (revokeClause s e reason branch) := by
  unfold revokeClause
  split
  · exact h
  · exact .via
        (fun h1 => .ite
          (.via (fun h2 => .ite (setFld_keepsMode rfl h2) h2) (setFld_keepsMode rfl (setEng_keepsMode h1)))
          h1)
        (engCount_keepsMode rfl <| event_keepsMode rfl <| setFld_keepsMode rfl <| setFld_keepsMode rfl <|
        setFld_keepsMode rfl (setEng_keepsMode (.foldl (.foldl h (fun _ _ => unwindClause_keepsMode)) (fun _ _ => unreserve_keepsMode))))

theorem railTermsEnd_keepsMode {n ireason creason} (h : ModeKept s0 s) : ModeKept s0 (railTermsEnd s n ireason creason) :=
  .rest <| .foldl
    (.foldl h (fun _ _ h => .ite (revokeIntent_keepsMode h) h))
    (fun _ _ h => by split; exacts [.ite (revokeClause_keepsMode h) h, h])

/-! ### Rails -/

theorem sendSink_keepsMode {n} (h1 : ModeKept s0 t) : ModeKept s0 (sendSink s t n) := .ite h1 (.foldl h1 (fun _ _ => sendCmd_keepsMode))

theorem setRailState_keepsMode {n st} (h : ModeKept s0 s) : ModeKept s0 (setRailState s n st) :=
  .via
    (fun h1 => .via
      (fun h2 => sendSink_keepsMode (.ite h2 (noteHist_keepsMode (noteHist_keepsMode h2))))
      (.ite (supLeave_keepsMode h1) h1))
    (setFlag_keepsMode rfl (setFld_keepsMode rfl h))

theorem railDrain_keepsMode {n} (h : ModeKept s0 s) : ModeKept s0 (railDrain s n) :=
  .ite h (railTermsEnd_keepsMode (event_keepsMode rfl (setRailState_keepsMode h)))

/-! ### Links -/

theorem linkDrain_keepsMode {l} (h : ModeKept s0 s) : ModeKept s0 (linkDrain s l) := .ite h h

/-! ### Conversion modules -/

theorem lxRerank_keepsMode (h : ModeKept s0 s) : ModeKept s0 (lxRerank s) := .foldl h (fun _ _ h => setFld_keepsMode rfl (.ite h h))

theorem lxHandOver_keepsMode {a b} (h : ModeKept s0 s) : ModeKept s0 (lxHandOver s a b) := by
  unfold lxHandOver
  split; exacts [.ite h h, h]

theorem setLxState_keepsMode {m st} (h : ModeKept s0 s) : ModeKept s0 (setLxState s m st) :=
  .via (fun h1 => lxRerank_keepsMode (.ite h1 (.rest h1))) (lxHandOver_keepsMode (setFlag_keepsMode rfl (setFld_keepsMode rfl h)))

theorem lxDrain_keepsMode {m} (h : ModeKept s0 s) : ModeKept s0 (lxDrain s m) := .ite h (.rest (setLxState_keepsMode h))

theorem lxRetarget_keepsMode {m} (h1 : ModeKept s0 t) : ModeKept s0 (lxRetarget s t m) := .ite (event_keepsMode rfl h1) h1

theorem lxChgDrop_keepsMode {m} (h : ModeKept s0 s) : ModeKept s0 (lxChgDrop s m) := by
  unfold lxChgDrop
  dsimp only
  split; exacts [h, event_keepsMode rfl (lxRetarget_keepsMode (setFlag_keepsMode rfl h))]

/-! ### Supervision -/

theorem hadcDrain_keepsMode {c} (h : ModeKept s0 s) : ModeKept s0 (hadcDrain s c) := event_keepsMode rfl (setFlag_keepsMode rfl h)

/-! ### Housekeeping rails -/

theorem auxPg_keepsMode {n b} (h : ModeKept s0 s) : ModeKept s0 (auxPg s n b) :=
  rstoUpdate_keepsMode (setFbit_keepsMode rfl (setFlag_keepsMode rfl h))

theorem auxKindsEnd_keepsMode {n} (h : ModeKept s0 s) : ModeKept s0 (auxKindsEnd s n) := setLevel_keepsMode h

theorem setAuxState_keepsMode {n st} (h : ModeKept s0 s) : ModeKept s0 (setAuxState s n st) :=
  .via (fun h1 => .ite h1 (auxPg_keepsMode (auxKindsEnd_keepsMode h1))) (setFlag_keepsMode rfl (setFld_keepsMode rfl h))

/-! ### Charger -/

theorem setBdis_keepsMode {b} (h : ModeKept s0 s) : ModeKept s0 (setBdis s b) := .rest (setFlag_keepsMode rfl h)

theorem chgWithdraw_keepsMode (h : ModeKept s0 s) : ModeKept s0 (chgWithdraw s) := .foldl h (fun _ _ h => .ite (lxChgDrop_keepsMode h) h)

theorem bSuspend_keepsMode {r} (h : ModeKept s0 s) : ModeKept s0 (bSuspend s r) :=
  .ite h (.ite (setFld_keepsMode rfl (setFld_keepsMode rfl h)) (.ite (setFld_keepsMode rfl h) h))

theorem hSuspend_keepsMode {r} (h : ModeKept s0 s) : ModeKept s0 (hSuspend s r) :=
  .ite h (.ite (setFld_keepsMode rfl (setFld_keepsMode rfl h)) (.ite (setFld_keepsMode rfl h) h))

theorem chgModeChange_keepsMode (h : ModeKept s0 s) : ModeKept s0 (chgModeChange s) :=
  .ite (.ite h (bSuspend_keepsMode h)) (hSuspend_keepsMode (.ite h (bSuspend_keepsMode h)))

theorem chgDrain_keepsMode (h : ModeKept s0 s) : ModeKept s0 (chgDrain s) := by
  unfold chgDrain
  extract_lets sOff sAux sB sH sA
  have hAux : ModeKept s0 sAux :=
    have hOff : ModeKept s0 sOff := chgWithdraw_keepsMode (setBdis_keepsMode h)
    .ite (setAuxState_keepsMode (setFlag_keepsMode rfl hOff)) hOff
  have hB : ModeKept s0 sB := setFld_keepsMode rfl (.ite hAux (setFld_keepsMode rfl hAux))
  have hH : ModeKept s0 sH := setFld_keepsMode rfl (.ite hB (setFld_keepsMode rfl hB))
  have hA : ModeKept s0 sA := setFld_keepsMode rfl (.ite hH (setFld_keepsMode rfl hH))
  exact event_keepsMode rfl (setFlag_keepsMode rfl (setFlag_keepsMode rfl (.rest hA)))

/-! ### RAM lines -/

theorem chkCount_keepsMode {f n} (hf : f.reg.outer = true) (h : ModeKept s0 s) : ModeKept s0 (chkCount s f n) :=
  .ite h (.ite (.ite (event_keepsMode rfl (setFld_keepsMode hf h)) (setFld_keepsMode hf h)) h)

theorem uncorrectable_keepsMode {ram i} (h : ModeKept s0 s) : ModeKept s0 (uncorrectable s ram i) :=
  .ite (.rest (chkCount_keepsMode rfl h)) <| by
    dsimp only
    split
    · exact chkCount_keepsMode rfl h
    · split
      · exact setFld_keepsMode rfl (setFld_keepsMode rfl (setFlag_keepsMode rfl (event_keepsMode rfl (.rest (chkCount_keepsMode rfl h)))))
      · exact setFlag_keepsMode rfl (event_keepsMode rfl (.rest (chkCount_keepsMode rfl h)))

theorem decodeLine_keepsMode {ram i} (h : ModeKept s0 s) : ModeKept s0 (State.decodeLine s ram i).1 := by
  unfold State.decodeLine
  split; exacts [h, .rest (.rest (chkCount_keepsMode rfl h)), uncorrectable_keepsMode h]

theorem injectLine_keepsMode {ram i} (h : ModeKept s0 s) : ModeKept s0 (State.injectLine s ram i) :=
  injectItem_keepsMode (injectItem_keepsMode h (fun _ h => .ite h h)) (fun _ h => h)

theorem readLine_keepsMode {ram i} (h : ModeKept s0 s) : ModeKept s0 (State.readLine s ram i).1 :=
  injectTake_keepsMode (injectTake_keepsMode (decodeLine_keepsMode (injectLine_keepsMode h)))

theorem repairLine_keepsMode {ram i} (h : ModeKept s0 s) : ModeKept s0 (repairLine s ram i) := by
  unfold repairLine
  dsimp only
  split; exacts [setReg_keepsMode rfl h, h]

theorem writeRam_keepsMode {ram w v} (h : ModeKept s0 s) : ModeKept s0 (State.writeRam s ram w v).1 :=
  .iteFst (setWord_keepsMode (readLine_keepsMode h)) (setWord_keepsMode (repairLine_keepsMode (readLine_keepsMode h)))

theorem markWritten_keepsMode {w} (h : ModeKept s0 s) : ModeKept s0 (State.markWritten s w) := .ite h h

/-! ### Intent ports -/

theorem drainPort_keepsMode {p} (h : ModeKept s0 s) : ModeKept s0 (drainPort s p) :=
  .ite (releaseIntent_keepsMode h) <| reduceAllowance_keepsMode <|
  setFlag_keepsMode rfl <| setFld_keepsMode rfl <| setFld_keepsMode rfl <| event_keepsMode rfl <|
  releaseIntent_keepsMode (revokeIntent_keepsMode h)

theorem readBank_keepsMode {b p} (h : ModeKept s0 s) : ModeKept s0 (readBank s b p) := .foldl h (fun _ _ => readLine_keepsMode)

theorem checkBank_keepsMode {p} (h : ModeKept s0 s) : ModeKept s0 (checkBank s p) :=
  .ite h <| by
    dsimp only
    split
    · exact injectTake_keepsMode (setLevel_keepsMode (injectItem_keepsMode (readBank_keepsMode h) (fun _ h => h)))
    · exact setLevel_keepsMode (injectItem_keepsMode (readBank_keepsMode h) (fun _ h => h))

theorem publish_keepsMode {g} (h : ModeKept s0 s) : ModeKept s0 (publish s g) := .rest (.foldl h (fun _ _ => checkBank_keepsMode))

theorem anticipationModeChange_keepsMode {old m} (h : ModeKept s0 s) : ModeKept s0 (anticipationModeChange s old m) :=
  .ite h <| .via
    (fun h1 =>
      .ite
        (.foldl
          (.foldl (.foldl (.foldl h1 (fun _ _ => id)) (fun _ _ => revokeIntent_keepsMode)) (fun _ _ => reduceAllowance_keepsMode))
          (fun _ _ => id))
        (.ite (.foldl (.foldl h1 (fun _ _ h => .ite (revokeIntent_keepsMode h) h)) (fun _ _ => publish_keepsMode)) h1))
    (.ite (.foldl h (fun _ _ => drainPort_keepsMode)) h)

/-! ### Patina log -/

theorem readBack_keepsMode {i} (h : ModeKept s0 s) : ModeKept s0 (readBack s i) :=
  .via
    (fun h1 => .ite (readLine_keepsMode h1) (injectTake_keepsMode (.rest (event_keepsMode rfl (readLine_keepsMode h1)))))
    (injectItem_keepsMode h (fun _ h => h))

theorem markWrite_keepsMode (h : ModeKept s0 s) : ModeKept s0 (markWrite s) := by
  unfold markWrite
  split
  · exact h
  · exact readBack_keepsMode <|
      setFlag_keepsMode rfl (.rest (.ite (readLine_keepsMode h) (repairLine_keepsMode (readLine_keepsMode h))))

theorem patDrain_keepsMode (h : ModeKept s0 s) : ModeKept s0 (patDrain s) :=
  .rest (event_keepsMode rfl (.foldl (markWrite_keepsMode h) (fun _ _ => dropRecord_keepsMode)))

theorem patReset_keepsMode (h : ModeKept s0 s) : ModeKept s0 (patReset s) := by
  have hr : ∀ r ∈ [PAT_CTRL, PAT_STAT, PAT_HEAD, PAT_GEN, PAT_LOST, PAT_NEW, PAT_EVT, PAT_EVTEN], r.outer = true := by decide
  exact .rest (List.foldlRecOn _ _ h fun t ht r hm => resetReg_keepsMode (hr r hm) ht)

/-! ### Checks and scan jobs -/

theorem scanLine_keepsMode {job x i} (h : ModeKept s0 x.1) : ModeKept s0 (scanLine job x i).1 := .iteFst h (readLine_keepsMode h)

theorem fillLine_keepsMode {job x i} (h : ModeKept s0 x.1) : ModeKept s0 (fillLine job x i).1 :=
  .iteFst h (.foldl h (fun _ _ h => .ite (markWritten_keepsMode (writeRam_keepsMode h)) (writeRam_keepsMode h)))

theorem jobLine_keepsMode {job x i} (h : ModeKept s0 x.1) : ModeKept s0 (jobLine job x i).1 :=
  .iteFst (fillLine_keepsMode h) (scanLine_keepsMode h)

theorem showAcc_keepsMode {x} (h : ModeKept s0 s) : ModeKept s0 (showAcc s x) := setFld_keepsMode rfl (setFlag_keepsMode rfl h)

theorem jobAborted_keepsMode {job k x} (h : ModeKept s0 s) : ModeKept s0 (jobAborted s job k x) :=
  .rest (setFld_keepsMode rfl (setFld_keepsMode rfl (showAcc_keepsMode h)))

theorem finishLine_keepsMode {job} (h : ModeKept s0 s) : ModeKept s0 (finishLine s job).1 := by
  unfold finishLine
  split; exacts [.iteFst h (jobLine_keepsMode h), h]

theorem scanAbort_keepsMode (h : ModeKept s0 s) : ModeKept s0 (scanAbort s) := by
  unfold scanAbort
  split; exacts [h, event_keepsMode rfl (jobAborted_keepsMode (finishLine_keepsMode h))]

/-! ### OTP -/

theorem otpJudge_keepsMode (h : ModeKept s0 s) : ModeKept s0 (otpJudge s) :=
  .foldl (setFld_keepsMode rfl h) (fun _ _ h => setFld_keepsMode rfl (setFld_keepsMode rfl h))

theorem otpEnd_keepsMode {result} (h : ModeKept s0 s) : ModeKept s0 (otpEnd s result) := by
  unfold otpEnd
  extract_lets _ s1 s2 s3
  have h2 : ModeKept s0 s2 := setFld_keepsMode rfl <| setFlag_keepsMode rfl h
  have h3 : ModeKept s0 s3 := by unfold s3; split <;> exact event_keepsMode rfl h2
  exact otpJudge_keepsMode h3

theorem otpAbort_keepsMode (h : ModeKept s0 s) : ModeKept s0 (otpAbort s) := by
  unfold otpAbort
  split; exacts [.ite h (otpEnd_keepsMode h), h]

theorem shadowRelAll_keepsMode (h : ModeKept s0 s) : ModeKept s0 (shadowRelAll s) := .rest (setFld_keepsMode rfl h)

/-! ### Thermal -/

theorem throttleEnd_keepsMode {n} (h : ModeKept s0 s) : ModeKept s0 (throttleEnd s n) :=
  pinCount_keepsMode (pinCount_keepsMode (resetReg_keepsMode rfl h))

theorem nodeShutdownEnd_keepsMode {i} (h : ModeKept s0 s) : ModeKept s0 (nodeShutdownEnd s i) :=
  .ite (setLevel_keepsMode h) (.ite h (.ite (setLevel_keepsMode h) (setLevel_keepsMode h)))

theorem thmDrain_keepsMode (h : ModeKept s0 s) : ModeKept s0 (thmDrain s) :=
  .rest <| event_keepsMode rfl <| .foldl
    (.foldl (.foldl h (fun _ _ => throttleEnd_keepsMode)) (fun _ _ h => .ite (nodeShutdownEnd_keepsMode h) h))
    (fun _ _ h => resetReg_keepsMode rfl h)

/-! ### Watchdogs -/

theorem wdDiscard_keepsMode {n w} (h : ModeKept s0 s) : ModeKept s0 (wdDiscard s n w) :=
  setFld_keepsMode rfl (setFld_keepsMode rfl (setReg_keepsMode rfl h))

theorem wdModeChange_keepsMode {old m} (h : ModeKept s0 s) : ModeKept s0 (wdModeChange s old m) :=
  .foldl h (fun _ _ h => .ite h (.ite (wdDiscard_keepsMode h) (.ite h h)))

/-! ### Engines -/

theorem engineDrain_keepsMode {e} (h : ModeKept s0 s) : ModeKept s0 (engineDrain s e) :=
  .ite h (setFld_keepsMode rfl (setEng_keepsMode (revokeClause_keepsMode h)))

/-! ### Power domains -/

theorem lxLinksDrain_keepsMode {m} (h : ModeKept s0 s) : ModeKept s0 (lxLinksDrain s m) := linkDrain_keepsMode (linkDrain_keepsMode h)

theorem domainDrain_keepsMode {d} (h : ModeKept s0 s) : ModeKept s0 (domainDrain s d) := by
  unfold domainDrain
  split
  · exact otpAbort_keepsMode h
  · exact .foldl h (fun _ _ => engineDrain_keepsMode)
  · exact .foldl h (fun _ _ => engineDrain_keepsMode)
  · exact .foldl (.foldl (.foldl h (fun _ _ => drainPort_keepsMode)) (fun _ _ => railDrain_keepsMode)) (fun _ _ => linkDrain_keepsMode)
  · exact .foldl (.foldl h (fun _ _ => railDrain_keepsMode)) (fun _ _ => linkDrain_keepsMode)
  · exact .foldl h (fun _ _ => hadcDrain_keepsMode)
  · exact h
  · exact chgDrain_keepsMode h
  · exact .foldl h (fun _ _ h => .ite (lxDrain_keepsMode h) (lxLinksDrain_keepsMode (lxDrain_keepsMode h)))
  · exact patDrain_keepsMode (scanAbort_keepsMode h)
  · exact thmDrain_keepsMode h
  · exact h

/-! ### Faults -/

theorem pairFault_keepsMode (h : ModeKept s0 s) : ModeKept s0 (pairFault s) := .ite h (.rest (setFlag_keepsMode rfl h))

theorem injectEnd_keepsMode {st} (h : ModeKept s0 s) : ModeKept s0 (injectEnd s st) := by
  unfold injectEnd
  split; exacts [.rest (setFld_keepsMode rfl h), h]

/-! ### Modes -/

theorem startupRecord_keepsMode {point} (h : ModeKept s0 s) : ModeKept s0 (startupRecord s point) :=
  postRecord_keepsMode (setFld_keepsMode rfl h)

theorem leaveMode_keepsMode {old m} (h : ModeKept s0 s) : ModeKept s0 (leaveMode s old m) :=
  .via
    (fun h1 =>
      .via
        (fun h2 => rstoUpdate_keepsMode (.ite (otpAbort_keepsMode h2) h2))
        (.ite (shadowRelAll_keepsMode (injectEnd_keepsMode (.ite (.rest h1) h1))) (.ite (.rest h1) h1)))
    (chgModeChange_keepsMode (wdModeChange_keepsMode h))

theorem drainDomains_keepsMode {l} (h : ModeKept s0 s) : ModeKept s0 (drainDomains s l) :=
  .foldl h (fun _ _ h => .foldl h (fun _ _ => domainDrain_keepsMode))

/-! ### Powering up domains -/

theorem reapplyFences_keepsMode (h : ModeKept s0 s) : ModeKept s0 (reapplyFences s) :=
  .foldl
    (.foldl (.foldl h (fun _ _ h => .ite (setRailState_keepsMode h) h)) (fun _ _ h => .ite (setLxState_keepsMode h) h))
    (fun _ _ h => .ite (setFld_keepsMode rfl h) h)

/-- The copies of SYS_HOSTVER stand below the mode controller's words and above the address space. -/
theorem setHostver_keepsMode {v n} (h : ModeKept s0 s) : ModeKept s0 (s.setFld SYS_HOSTVER_ACT v n) := by
  refine h.setCell (?_ : SYS_HOSTVER.addr n < 0x20 ∨ 0x60 ≤ SYS_HOSTVER.addr n)
  rcases addr_cases SYS_HOSTVER n with ⟨-, e⟩ | ⟨-, e⟩ <;> rw [e] <;> simp only [SYS_HOSTVER] <;> omega

/-- The crossings into a domain that comes up are reset (R382). -/
theorem crossingsReset_keepsMode {c : State → Nat → ChkH} {base : Nat} {l : List Nat} (h : ModeKept s0 s) :
    ModeKept s0 (l.foldl (fun s n => { ((s.setStopped (base + n) false).setOverrun (base + n) false).setLevel 360 (base + n) 0 0 false with
      chk := c s n }) s) :=
  .foldl h fun _ _ h => .rest (setLevel_keepsMode (setOverrun_keepsMode (setStopped_keepsMode h)))

theorem domainOn_keepsMode {d} (h : ModeKept s0 s) : ModeKept s0 (domainOn s d) := by
  have hon : ModeKept s0 (s.setFbit PDC_STAT_ON d true) := setFbit_keepsMode rfl h
  unfold domainOn
  refine rstoUpdate_keepsMode ?_
  dsimp only
  split
  · exact reapplyFences_keepsMode hon
  · exact reapplyFences_keepsMode hon
  · exact reapplyFences_keepsMode (crossingsReset_keepsMode (.foldl hon fun _ _ h => setFld_keepsMode rfl h))
  · exact reapplyFences_keepsMode (crossingsReset_keepsMode hon)
  · exact reapplyFences_keepsMode (crossingsReset_keepsMode hon)
  · exact .foldl (.rest hon) fun _ _ h => setHostver_keepsMode h
  · exact setFlag_keepsMode rfl hon
  · exact reapplyFences_keepsMode (crossingsReset_keepsMode hon)
  · exact patReset_keepsMode hon
  · exact setFlag_keepsMode rfl hon
  · exact hon

end Sys2Proof.Machine
end

section
/-! SUPPORT. The end of a transition (R46): the mode registers show the mode entered, and nothing that leaving and entering it does besides
changes them. -/
namespace Sys2Proof.Machine

variable {s t : State} {x : Transition} {m : Nat}

/-- The registers show mode `m` and no transition, none runs, and no request waits. -/
structure ShowsMode (m : Nat) (s : State) : Prop where
  cur : s.cur = m
  transFlag : s.flag SYS_MODE_TRANS = false
  trans : s.mode.trans = none
  reqs : s.mode.reqs = []

theorem ModeKept.fld (h : ModeKept s t) {f : Fld} {n : Nat} (hl : 0x20 ≤ f.reg.addr n) (hr : f.reg.addr n < 0x60) :
    t.fld f n = s.fld f n := by
  unfold State.fld State.reg
  rw [h.1 _ hl hr]

theorem ModeKept.cur (h : ModeKept s t) : t.cur = s.cur := h.fld (by decide) (by decide)

theorem ModeKept.transFlag (h : ModeKept s t) : t.flag SYS_MODE_TRANS = s.flag SYS_MODE_TRANS := by
  unfold State.flag
  rw [h.fld (by decide) (by decide)]

theorem ModeKept.trans (h : ModeKept s t) : t.mode.trans = s.mode.trans := by rw [h.2]
theorem ModeKept.reqs (h : ModeKept s t) : t.mode.reqs = s.mode.reqs := by rw [h.2]

theorem ShowsMode.kept (h : ShowsMode m s) (hk : ModeKept s t) : ShowsMode m t :=
  ⟨hk.cur.trans h.cur, hk.transFlag.trans h.transFlag, hk.trans.trans h.trans, hk.reqs.trans h.reqs⟩

/-- Another word is set. -/
theorem ShowsMode.setReg (h : ShowsMode m s) {r : Reg} {w : Word} {n : Nat} (hr : 0x22 ≤ r.base := by decide) :
    ShowsMode m (s.setReg r w n) := by
  have ha := hr.trans (r.base_le_addr n)
  have hg : ∀ g : Fld, g.reg.addr 0 < 0x22 → (s.setReg r w n).fld g = s.fld g := fun g hg => fld_setReg_ne s w (by omega)
  refine ⟨(hg _ (by decide)).trans h.cur, ?_, h.trans, h.reqs⟩
  unfold State.flag
  rw [hg _ (by decide)]
  exact h.transFlag

theorem ShowsMode.setFld (h : ShowsMode m s) {f : Fld} {v n : Nat} (hf : 0x22 ≤ f.reg.base := by decide) : ShowsMode m (s.setFld f v n) :=
  h.setReg hf

/-- SYS_MODE.RESUME is apart from TRANS. -/
theorem ShowsMode.setResume (h : ShowsMode m s) (b : Bool) : ShowsMode m (s.setFlag SYS_MODE_RESUME b) := by
  refine ⟨(fld_setFld_reg_ne s _ (by decide)).trans h.cur, ?_, h.trans, h.reqs⟩
  unfold State.flag State.setFlag
  rw [fld_setFld_bits_ne (f := SYS_MODE_RESUME) (g := SYS_MODE_TRANS) _ _ _ rfl (by decide) (by decide)]
  exact h.transFlag

theorem ShowsMode.ite {c : Prop} [Decidable c] (hs : ShowsMode m s) (ht : ShowsMode m t) : ShowsMode m (if c then s else t) := by
  split <;> assumption

/-! ### Entering the mode -/

/-- The mode registers show the mode entered (R46 steps 4 and 5). -/
theorem setMode_showsMode (src : ModeSrc) (old : Nat) (hm : m < 16) (ht : s.mode.trans = none) (hr : s.mode.reqs = []) :
    ShowsMode m (setMode s src old m false) := by
  let u := ((s.setFld SYS_MODE_PREV old).setFld SYS_MODE_TARGET m).setFlag SYS_MODE_TRANS false
  have hu : ShowsMode m (u.setFld SYS_MODECUR_CUR m) := by
    refine ⟨?_, ?_, ht, hr⟩
    · exact (fld_setFld_same u SYS_MODECUR_CUR m 0 (by decide)).trans (Nat.mod_eq_of_lt hm)
    · unfold State.flag
      rw [fld_setFld_reg_ne u m (by decide), show u = State.setFld _ SYS_MODE_TRANS 0 from rfl, fld_setFld_same _ _ _ _ (by decide)]
      rfl
  have hn : ShowsMode m (s.noteMode (u.setFld SYS_MODECUR_CUR m)) := hu.kept (noteMode_keepsMode (.refl _))
  obtain ⟨h1, h2, h3, h4⟩ := (hn.setReg (r := SYS_MODESRC) (w := srcWord src old m) (n := 0)).setResume false
  exact ⟨h1, h2, h3, h4⟩

theorem plinthEnter_showsMode (h : ShowsMode m s) : ShowsMode m (plinthEnter s) := by
  have h1 : ShowsMode m (((s.setFld SYS_BOOTSTAT_STEP 0xB).setFld SYS_BOOTSTAT_PLSTEP 0).setFlag SYS_BOOTCTL_WAITHOST false) :=
    h.setFld.setFld.setFld
  exact h1.kept (startupRecord_keepsMode (pairFault_keepsMode (rstoUpdate_keepsMode (.rest (.refl _)))))

/-- What entering a mode other than SHUTDOWN does besides. -/
theorem enterMode_showsMode (h : ShowsMode m s) (r : ModeReq) (old : Nat) {m' : Nat} (hm : m' ≠ modeShutdown) :
    ShowsMode m (enterMode s r old m') := by
  have hw : ShowsMode m { s.setFld SYS_BOOTSTAT_STEP 10 with mode := { s.mode with wakeTimer := false } } := by
    obtain ⟨h1, h2, h3, h4⟩ := h.setFld (f := SYS_BOOTSTAT_STEP) (v := 10) (n := 0)
    exact ⟨h1, h2, h3, h4⟩
  unfold enterMode
  rw [if_neg hm]
  exact .ite (hw.kept (startupRecord_keepsMode (.refl _))) (.ite (plinthEnter_showsMode h) (.ite (h.kept (.rest (.refl s))) h))

theorem applyOpt_showsMode (h : ShowsMode m s) : ShowsMode m (applyOpt s) := by
  obtain ⟨h1, h2, h3, h4⟩ := h.kept (drainDomains_keepsMode (l := domainsToRemove s s.cur) (.refl s))
  exact ⟨h1, h2, h3, h4⟩

/-! ### The transition completes -/

theorem holdRequests_nil (h : s.mode.reqs = []) : holdRequests s = s := by
  unfold holdRequests
  rw [h, List.foldl_nil, ← h]

/-- A transition to a mode other than SHUTDOWN, before whose end no request arrived, ends in its mode. -/
theorem completeTransition_showsMode (hm : x.target < modeShutdown) (hr : s.mode.reqs = []) :
    ShowsMode x.target (completeTransition s x) := by
  unfold completeTransition
  rw [holdRequests_nil hr]
  extract_lets sAntic _ sNone sLeft sRecord _ sOld sEntered
  have hq : sAntic.mode.reqs = [] := (anticipationModeChange_keepsMode (.refl s)).reqs.trans hr
  have hset : ShowsMode x.target (setMode sNone x.req.src x.old x.target false) := setMode_showsMode _ _ (hm.trans (by decide)) rfl hq
  have hrecord : ShowsMode x.target sRecord := hset.kept (postRecord_keepsMode (leaveMode_keepsMode (.refl _)))
  have hold : ShowsMode x.target sOld := .ite ⟨hrecord.cur, hrecord.transFlag, hrecord.trans, hrecord.reqs⟩ hrecord
  have hent : ShowsMode x.target sEntered := enterMode_showsMode hold x.req x.old (Nat.ne_of_lt hm)
  exact .ite (applyOpt_showsMode ⟨hent.cur, hent.transFlag, hent.trans, hent.reqs⟩) hent

/-- Without a request an evaluation of the mode controller does nothing (R41). -/
theorem evaluateRequests_nil (h : s.mode.reqs = []) : evaluateRequests s = s := by
  unfold evaluateRequests
  rw [h]
  simp only [List.filter_nil, List.foldl_nil, ite_self, bestReq]
  rw [← h]

/-! ### The domain steps of a transition -/

/-- The state with transition `x` in progress. -/
def withTransition (s : State) (x : Transition) : State := { s with mode := { s.mode with trans := some x } }

/-- The tier being powered is up: the transition goes on with the tiers that remain (R22). -/
theorem tierComplete_transition {d : List Nat} {rest : List (List Nat)} (hx : s.mode.trans = some x) (ht : x.tiers = d :: rest)
    (hr : x.release = []) (hw : x.target ≠ modeWake) (ha : rest ≠ [] → safetyAborts (d.foldl domainOn s) = false) :
    tierComplete s = (let u := modeProgress (withTransition (d.foldl domainOn s) { x with tiers := rest })
      if u.mode.trans.isSome then u else evaluateRequests u) := by
  have hn : ¬ (rest ≠ [] ∧ safetyAborts (withTransition (d.foldl domainOn s) { x with tiers := rest }) = true) := fun h => by
    have : safetyAborts (d.foldl domainOn s) = true := h.2
    simp [ha h.1] at this
  simp only [tierComplete, hx, ht]
  exact (if_neg (not_not.mpr hr)).trans ((if_neg hn).trans (if_neg hw))

/-- A transition that removes no domain, and leaves no session of ASSIST, completes with its last tier, and before that waits for the
next one. -/
theorem modeProgress_transition (hr : x.release = []) (hw : x.target ≠ modeWake) (ho : x.old ≠ modeAssist) :
    modeProgress (withTransition s x)
      = if x.tiers.isEmpty then completeTransition (withTransition s x) { x with release := [] }
        else withTransition s { x with release := [] } := by
  have hn : ¬ (x.target = modeWake ∨ (x.old = modeAssist ∧ aActive (withTransition s x))
      ∨ x.release.any (domainBusy (withTransition s x))) := by simp [hr, hw, ho]
  refine (if_neg hn).trans ?_
  rw [hr]
  rfl

/-! ### The commands -/

theorem domainsOn_keepsMode (d : List Nat) : ModeKept s (d.foldl domainOn s) := .foldl (.refl s) fun _ _ h => domainOn_keepsMode h

theorem exec_domainTierComplete (hp : s.powered 0 = true) : exec .domainTierComplete s = .next (tierComplete s) := by
  show s.on 0 _ = _
  rw [State.on, if_pos hp]

theorem exec_tier_next {d y : List Nat} {rest : List (List Nat)} (hp : s.powered 0 = true) (hx : s.mode.trans = some x)
    (ht : x.tiers = d :: y :: rest) (hr : x.release = []) (hw : x.target ≠ modeWake) (ho : x.old ≠ modeAssist)
    (ha : safetyAborts (d.foldl domainOn s) = false) :
    exec .domainTierComplete s = .next (withTransition (d.foldl domainOn s) { x with tiers := y :: rest, release := [] }) := by
  rw [exec_domainTierComplete hp, tierComplete_transition hx ht hr hw fun _ => ha,
    modeProgress_transition (x := { x with tiers := y :: rest }) hr hw ho]
  rfl

theorem exec_tier_last {d : List Nat} (hp : s.powered 0 = true) (hx : s.mode.trans = some x)
    (ht : x.tiers = [d]) (hr : x.release = []) (hw : x.target ≠ modeWake) (hm : x.target < modeShutdown) (ho : x.old ≠ modeAssist)
    (hq : s.mode.reqs = []) : ∃ t, exec .domainTierComplete s = .next t ∧ ShowsMode x.target t := by
  have hu : ShowsMode x.target (modeProgress (withTransition (d.foldl domainOn s) { x with tiers := [] })) := by
    rw [modeProgress_transition (x := { x with tiers := [] }) hr hw ho]
    exact completeTransition_showsMode (x := { x with tiers := [], release := [] }) hm ((domainsOn_keepsMode d).reqs.trans hq)
  refine ⟨_, ?_, hu⟩
  rw [exec_domainTierComplete hp, tierComplete_transition hx ht hr hw fun h => absurd rfl h]
  simp only [hu.trans, Option.isSome_none, Bool.false_eq_true, if_false, evaluateRequests_nil hu.reqs]

theorem exec_tier_optional {d : List Nat} {rest : List (List Nat)} (hp : s.powered 0 = true) (hx : s.mode.trans = none)
    (ht : s.mode.optTiers = d :: rest) :
    exec .domainTierComplete s = .next { d.foldl domainOn s with mode := { s.mode with optTiers := rest } } := by
  rw [exec_domainTierComplete hp]
  simp only [tierComplete, hx, ht]

/-- The switch of an unpowered domain does not reach its state (R24). -/
theorem exec_pdSwitch_unpowered {d : Fin 12} (hp : s.powered 0 = true) (hd : d.val ≠ 0) (hoff : s.fbit PDC_STAT_ON d = false)
    (hx : s.mode.trans = none) :
    exec (.pdSwitch d) s = .next { (s.setFbit PDC_STAT_SWFAULT d true).postFault 362 d 0 0 with
      mode := { s.mode with optTiers := withoutDomain d s.mode.optTiers } } := by
  have hs : ¬ (d.val = 0 ∨ (!switching s d) = true) := by simp [hd, switching, hoff]
  have hm : ((s.setFbit PDC_STAT_SWFAULT d true).postFault 362 d 0 0).mode.trans = none := hx
  show s.on 0 (pdSwitch s d) = _
  rw [State.on, if_pos hp, pdSwitch, if_neg hs]
  simp only [hoff, Bool.false_eq_true, if_false]
  split
  next h => cases hm.symm.trans h
  next => rfl

theorem exec_pdoptWrite (pv : Bool) (w : Word) (hp : s.powered 0 = true) :
    exec (.pdoptWrite pv w) s = .next (if s.writesOpen then pdoptWrite s pv w else s) := by
  show s.on 0 _ = _
  rw [State.on, if_pos hp, State.ifWritable]

/-- Outside the mode that it governs a write of OPT sets the writable bits alone (R35). -/
theorem pdoptWrite_outside_standby (w : Word) (hx : s.mode.trans = none) (hc : s.cur ≠ modeStandby) :
    pdoptWrite s false w = s.setFld SYS_PDOPT_SB_OPT (w.toNat &&& 0x320) := by
  have hc' : (s.setFld SYS_PDOPT_SB_OPT (w.toNat &&& 0x320)).cur ≠ modeStandby := by
    rwa [State.cur, fld_setFld_reg_ne s _ (by decide)]
  simp only [pdoptWrite, Bool.false_eq_true, if_false, setFld_mode, hx, if_neg hc']

theorem pdoptWrite_outside_provision (w : Word) (hx : s.mode.trans = none) (hc : s.cur ≠ modeProvision) :
    pdoptWrite s true w = s.setFld SYS_PDOPT_PV_OPT (w.toNat &&& 0x850) := by
  have hc' : (s.setFld SYS_PDOPT_PV_OPT (w.toNat &&& 0x850)).cur ≠ modeProvision := by
    rwa [State.cur, fld_setFld_reg_ne s _ (by decide)]
  simp only [pdoptWrite, if_true, setFld_mode, hx, if_neg hc']

/-- A field set to a value that it holds reads that value, and no other word changes. -/
theorem setFld_reads_regsOnly {f : Fld} {v : Nat} (hh : f.hi < 32) (hv : v < 2 ^ (f.hi + 1 - f.lo)) :
    (s.setFld f v).fld f = v ∧ RegsOnly s (s.setFld f v) [f.reg.addr 0] :=
  ⟨(fld_setFld_same s f v 0 hh).trans (Nat.mod_eq_of_lt hv), (RegsOnly.refl s _).setFld v (List.mem_singleton_self _)⟩

end Sys2Proof.Machine
end

section
open Sys2Proof Sys2Proof.Machine

/-- Settles O15: powering up domains leaves the mode controller alone, so a tier that is not the last leaves the transition waiting for the
next one, and the last one completes it: no unit posts a request or writes the mode registers on the way. -/
theorem domainCommandsAct : Obligations.DomainCommandsAct := by
  unfold Obligations.DomainCommandsAct
  intro s hp
  refine ⟨?_, ?_, ?_, ?_, ?_⟩
  · rintro x d y rest hx ht hr hw ho u rfl ha
    exact exec_tier_next hp hx ht hr hw ho ha
  · intro x hx d ht hr hw hm ho hq _
    obtain ⟨t, he, hs⟩ := exec_tier_last hp hx ht hr hw hm ho hq
    exact ⟨t, he, hs.cur, hs.trans, hs.transFlag⟩
  · rintro hx d rest ht u rfl
    exact exec_tier_optional hp hx ht
  · intro d hd hoff hx
    refine ⟨_, exec_pdSwitch_unpowered hp hd hoff hx, ?_, rfl, rfl, rfl, fun k => SameRegs.setFld s PDC_STAT_SWFAULT _ 0 k⟩
    exact fbit_setFbit_same s _ _ _ 0 (by decide) d.isLt
  · intro w hx
    refine ⟨fun ho => ⟨fun hc => ⟨_, ?_, setFld_reads_regsOnly (by decide) ?_⟩, fun hc => ⟨_, ?_, setFld_reads_regsOnly (by decide) ?_⟩⟩,
      fun ho pv => ?_⟩
    · rw [exec_pdoptWrite _ _ hp, if_pos ho, pdoptWrite_outside_standby w hx hc]
    · exact Nat.lt_of_le_of_lt Nat.and_le_right (by decide)
    · rw [exec_pdoptWrite _ _ hp, if_pos ho, pdoptWrite_outside_provision w hx hc]
    · exact Nat.lt_of_le_of_lt Nat.and_le_right (by decide)
    · rw [exec_pdoptWrite _ _ hp, ho]
      rfl
end

section
/-! SUPPORT. A command of a powered domain, and the state with another record of the mode controller. -/
namespace Sys2Proof.Machine

variable {s : State}

/-- A command of a powered domain acts (R24). -/
theorem on_powered {d : Nat} {t : State} (hp : s.powered d = true) : s.on d t = .next t := by rw [State.on, if_pos hp]

theorem ifWritable_self : s.ifWritable s = s := ite_self s

/-- The state with another record of the mode controller. -/
def withMode (s : State) (m : ModeH) : State := { s with mode := m }

theorem withMode_regs (m : ModeH) : (withMode s m).regs = s.regs := rfl
theorem withMode_mode (m : ModeH) : (withMode s m).mode = m := rfl

end Sys2Proof.Machine
end

section
namespace Sys2Proof.Machine
/-- After a power-up no word is stored: every register reads its reset value. -/
theorem reg_reset (r : Reg) (n : Nat) : State.reset.reg r n = r.reset n := BitVec.zero_xor

theorem fld_reset (f : Fld) (n : Nat) : State.reset.fld f n = Word.bits (f.reg.reset n) f.hi f.lo := by
  rw [State.fld, reg_reset]
end Sys2Proof.Machine
end

section
open Sys2Proof Sys2Proof.Machine
/-- Settles O60: a power-up stores no register word and no byte, so each reads what an unlisted one reads as. -/
theorem resetLeavesTheStatedValues : Obligations.ResetLeavesTheStatedValues := by
  unfold Obligations.ResetLeavesTheStatedValues
  refine ⟨⟨reset_wf, rfl⟩, rfl, reg_reset, rfl, fld_reset _ _, ?_, fun m => fld_reset _ _, fld_reset _ _, rfl, fun a => rfl,
    fun e => ⟨?_, fld_reset _ _, fun i => reg_reset _ _⟩⟩
  · rw [State.flag, fld_reset]; rfl
  · rw [fld_reset]
    show Word.bits (BitVec.ofNat 32 (e * 256)) 3 0 = 0
    simp [Word.bits, Nat.mod_mod_of_dvd]
    omega
end

section
/-! SUPPORT. The hour counters (R50). -/
namespace Sys2Proof.Machine

variable {s : State}

/-- A counter field counts one and stops at its last value, and no other word changes (R13). -/
theorem countTo_counts (f : Fld) (n : Nat) {top : Nat} (hf : f.hi < 32) (ht : 2 ^ (f.hi + 1 - f.lo) = top + 1) :
    (s.countTo f top n).fld f n = min top (s.fld f n + 1) ∧ RegsOnly s (s.countTo f top n) [f.reg.addr n] := by
  have hl : s.fld f n < 2 ^ (f.hi + 1 - f.lo) := Word.bits_lt _ _ _
  unfold State.countTo
  split
  · rw [fld_setFld_same _ _ _ _ hf, Nat.mod_eq_of_lt (by omega)]
    exact ⟨by omega, (RegsOnly.refl s _).setFld _ (List.mem_singleton_self _)⟩
  · exact ⟨by omega, RegsOnly.refl s _⟩

/-- The state with a second taken from the accumulator of the present mode. -/
def secondTaken (s : State) : State :=
  withMode s { s.mode with hourAcc := cellSet 0 s.mode.hourAcc s.cur (cellGet 0 s.mode.hourAcc s.cur - 1000000) }

theorem secondTaken_regs (s : State) : (secondTaken s).regs = s.regs := withMode_regs _

theorem secondTaken_hourAcc (s : State) : cellGet 0 (secondTaken s).mode.hourAcc s.cur = cellGet 0 s.mode.hourAcc s.cur - 1000000 := by
  rw [secondTaken, withMode_mode, cellGet_set_same]

/-- A second of the present mode is taken from its accumulator and counted (R50). -/
theorem hourSecond_full (hm : s.cur ≠ modeShip) (ha : 1000000 ≤ cellGet 0 s.mode.hourAcc s.cur) :
    hourSecond s = (secondTaken s).countTo SYS_HOUR_SECONDS 0xFFFFFFFF s.cur :=
  if_neg (by omega)

theorem bits_high (w : Word) : Word.bits w 31 16 = w.toNat / 65536 := by
  rw [Word.bits, Nat.shiftRight_eq_div_pow]
  have := w.isLt
  omega

/-- A keyed clear with the wrong key, or in another mode, writes nothing (R50). -/
theorem hourWrite_refused {m : Nat} {w : Word} (h : w.toNat / 65536 ≠ 0x0C1E ∨ s.cur ≠ modeService ∧ s.cur ≠ modeProvision) :
    (hourWrite s m w).1 = s := by
  unfold hourWrite
  rw [bits_high]
  split
  · rfl
  · rw [if_pos (h.resolve_left (by omega))]

theorem hourWrite_clear {m : Nat} (h : s.cur = modeService ∨ s.cur = modeProvision) :
    (hourWrite s m 0x0C1E0000).1 = s.setReg SYS_HOUR 0 m := by
  have h' : ¬ (s.cur ≠ modeService ∧ s.cur ≠ modeProvision) := by tauto
  unfold hourWrite
  rw [if_neg (by decide), if_neg h', if_neg (by decide)]

end Sys2Proof.Machine
end

section
open Sys2Proof Sys2Proof.Machine

/-- Settles O18: a second goes from the accumulator of the present mode to its counter, which stops at its last value, and the keyed clear is
judged by its key and then by the mode. -/
theorem hourCountersCountAndClear : Obligations.HourCountersCountAndClear := by
  unfold Obligations.HourCountersCountAndClear
  intro s m w hp
  refine ⟨fun hm ha => ⟨hourSecond s, on_powered hp, ?_⟩, ?_, fun h => ?_⟩
  · rw [hourSecond_full hm ha]
    obtain ⟨hcount, honly, hsame⟩ := countTo_counts (s := secondTaken s) SYS_HOUR_SECONDS s.cur (top := 0xFFFFFFFF) (by decide) (by decide)
    rw [fld_congr (secondTaken_regs s)] at hcount
    refine ⟨hcount, ?_, fun k hk => (hsame k hk).trans (by rw [secondTaken_regs])⟩
    rw [honly, secondTaken_hourAcc]
  · rintro rfl hm ho
    refine ⟨s.setReg SYS_HOUR 0 m, ?_, reg_setReg_same .., (RegsOnly.refl s _).setReg _ (List.mem_singleton_self _)⟩
    rw [← hourWrite_clear hm, ← show s.ifWritable (hourWrite s m 0x0C1E0000).1 = _ from if_pos ho]
    exact on_powered hp
  · show s.on 0 (s.ifWritable (hourWrite s m w).1) = _
    rw [hourWrite_refused h, ifWritable_self]
    exact on_powered hp
end

section
/-! SUPPORT. The answers of the mode controller (R41, R42): where each goes, and what an evaluation is that takes no request. -/
namespace Sys2Proof.Machine

variable {s t : State} {st : Status} {r : ModeReq}

/-! ### Answers -/

/-- Each master has its own copy of SYS_MODEREQ (R30). -/
theorem modeReqAddr_ne {n m : Nat} (h : n ≠ m) : SYS_MODEREQ.addr n ≠ SYS_MODEREQ.addr m := by
  apply addr_ne_of <;> simp only [SYS_MODEREQ] <;> omega

/-- The copies of SYS_MODEREQ lie above the words of PD0 that no master has for itself. -/
theorem le_modeReqAddr (p : Nat) : 0x60 ≤ SYS_MODEREQ.addr (masterHost p) := by
  rcases addr_cases SYS_MODEREQ (masterHost p) with ⟨-, e⟩ | ⟨-, e⟩ <;> rw [e] <;> simp only [SYS_MODEREQ, masterHost] <;> omega

/-- An answer goes to an engine's record or to the host's copy of SYS_MODEREQ. -/
theorem answerReq_regs (s : State) (r : ModeReq) (st : Status) :
    (answerReq s r st).regs = s.regs
      ∨ ∃ p, r.src = .host p ∧ (answerReq s r st).regs = (s.setFld SYS_MODEREQ_STATUS (modeStatusCode st) (masterHost p)).regs := by
  unfold answerReq
  split
  next => exact .inl rfl
  next p hp => exact .inr ⟨p, hp, rfl⟩
  next =>
    unfold postStatus
    split <;> exact .inl rfl

theorem answerReq_mode (s : State) (r : ModeReq) (st : Status) : (answerReq s r st).mode = s.mode := by
  unfold answerReq
  split
  · rfl
  · rfl
  · unfold postStatus
    split <;> rfl

/-- An answer sets no word but the copy of the host that asked. -/
theorem answerReq_key {k : Nat} (hk : ∀ p, r.src = .host p → k ≠ SYS_MODEREQ.addr (masterHost p)) :
    cellGet 0 (answerReq s r st).regs k = cellGet 0 s.regs k := by
  obtain h | ⟨p, hp, h⟩ := answerReq_regs s r st <;> rw [h]
  exact key_setFld_ne _ _ _ _ (hk p hp)

/-- The host that asked reads the answer. -/
theorem answerReq_status {p : Nat} (hr : r.src = .host p) (hst : modeStatusCode st < 16) :
    (answerReq s r st).fld SYS_MODEREQ_STATUS (masterHost p) = modeStatusCode st := by
  unfold answerReq
  rw [hr]
  exact (fld_setFld_same s _ _ _ (by decide)).trans (Nat.mod_eq_of_lt hst)

/-- All requests of a list have the same answer. -/
def answerAll (s : State) (l : List ModeReq) (st : Status) : State := l.foldl (fun s r => answerReq s r st) s

theorem answerAll_mode (s : State) (l : List ModeReq) (st : Status) : (answerAll s l st).mode = s.mode := by
  induction l generalizing s with
  | nil => rfl
  | cons r l ih => exact (ih _).trans (answerReq_mode s r st)

theorem answerAll_key {l : List ModeReq} {k : Nat} (hk : ∀ r ∈ l, ∀ p, r.src = .host p → k ≠ SYS_MODEREQ.addr (masterHost p)) :
    cellGet 0 (answerAll s l st).regs k = cellGet 0 s.regs k := by
  induction l generalizing s with
  | nil => rfl
  | cons r l ih =>
    have h := List.forall_mem_cons.mp hk
    exact (ih h.2).trans (answerReq_key h.1)

theorem answerAll_fld_below {l : List ModeReq} {f : Fld} {n : Nat} (hf : f.reg.addr n < 0x60) :
    (answerAll s l st).fld f n = s.fld f n := by
  unfold State.fld State.reg
  rw [answerAll_key fun _ _ p _ => (hf.trans_le (le_modeReqAddr p)).ne]

theorem answerAll_cur (s : State) (l : List ModeReq) (st : Status) : (answerAll s l st).cur = s.cur :=
  answerAll_fld_below (by decide)

/-- A host keeps its answer while the others have theirs. -/
theorem answerAll_status_other {l : List ModeReq} {p : Nat} (hl : ∀ r ∈ l, r.src ≠ .host p) :
    (answerAll s l st).fld SYS_MODEREQ_STATUS (masterHost p) = s.fld SYS_MODEREQ_STATUS (masterHost p) := by
  unfold State.fld State.reg
  rw [show SYS_MODEREQ_STATUS.reg = SYS_MODEREQ from rfl, answerAll_key]
  intro r hr q hq
  refine modeReqAddr_ne fun h => hl r hr ?_
  rw [hq, Nat.add_left_cancel h]

theorem answerAll_status {l : List ModeReq} {p : Nat} (hst : modeStatusCode st < 16) (hl : ∃ r ∈ l, r.src = .host p) :
    (answerAll s l st).fld SYS_MODEREQ_STATUS (masterHost p) = modeStatusCode st := by
  induction l generalizing s with
  | nil => simp at hl
  | cons r l ih =>
    by_cases hrest : ∃ r ∈ l, r.src = .host p
    · exact ih hrest
    · obtain ⟨r', hr', hs⟩ := hl
      have hr : r.src = .host p := by
        obtain rfl | hm := List.mem_cons.mp hr'
        · exact hs
        · exact absurd ⟨r', hm, hs⟩ hrest
      exact (answerAll_status_other fun x hx he => hrest ⟨x, hx, he⟩).trans (answerReq_status hr hst)

/-! ### The transitions that R45 names -/

/-- The rows of R45's table that a request may ask for outside SHUTDOWN: the mode left and the mode entered. -/
def transitionRows : List (Nat × Nat) :=
  [(0, 2), (1, 2), (2, 3), (2, 4), (2, 11), (3, 2), (3, 10), (3, 11), (4, 5), (4, 6), (4, 7), (4, 8), (4, 11), (4, 9), (4, 10), (5, 4), (5, 6), (5, 7),
    (5, 8), (5, 11), (5, 9), (6, 5), (6, 4), (6, 8), (6, 11), (7, 5), (7, 4), (7, 8), (7, 11), (8, 4), (8, 11), (8, 5), (8, 9),
    (9, 4), (9, 11), (10, 11)]

theorem row_of_reqLegal (hc : s.cur ≠ modeShutdown) (h : reqLegal s r = true) : (s.cur, r.target) ∈ transitionRows := by
  have hrow : ∀ (c : Nat) (l : List Nat), s.cur = c → (∀ t ∈ l, (c, t) ∈ transitionRows) → r.target ∈ l → (s.cur, r.target) ∈ transitionRows :=
    fun c l hc hl ht => hc ▸ hl _ ht
  unfold reqLegal at h
  dsimp only at h
  split at h
  next hw => exact hrow _ [modeShutdown, modeStandby] hw (by decide) (by simp at h ⊢; tauto)
  split at h
  next hw => exact hrow _ [modeWake, modeProvision, modeShutdown] hw (by decide) (by simp at h ⊢; tauto)
  split at h
  next hw =>
    exact hrow _ [modeRun, modeCharge, modeAssist, modeDegraded, modeShutdown, modeService, modeProvision] hw (by decide)
      (by simp at h ⊢; tauto)
  split at h
  next hw =>
    exact hrow _ [modeStandby, modeCharge, modeAssist, modeDegraded, modeShutdown, modeService] hw (by decide) (by simp at h ⊢; tauto)
  split at h
  next hw =>
    have ht : r.target ∈ [modeRun, modeStandby, modeDegraded, modeShutdown] := List.contains_iff_mem.mp h
    exact hw.elim (fun hw => hrow _ _ hw (by decide) ht) fun hw => hrow _ _ hw (by decide) ht
  split at h
  next hw => exact hrow _ [modeStandby, modeShutdown, modeRun, modeService] hw (by decide) (by simp at h ⊢; tauto)
  split at h
  next hw => exact hrow _ [modeStandby, modeShutdown] hw (by decide) (by simp at h ⊢; tauto)
  split at h
  next hw => exact hrow _ [modeShutdown] hw (by decide) (by simpa using h)
  cases h

/-! ### The evaluation -/

/-- The state whose requests the evaluation has taken up. -/
def taken (s : State) : State := withMode s { s.mode with reqs := [] }

/-- With neither transition nor drain in progress, an arbitration is one evaluation of the requests. -/
theorem modeArbitration_idle (hx : s.mode.trans = none) (ho : s.mode.optRelease = []) : modeArbitration s = evaluateRequests s := by
  have hp : modeProgress s = s := by
    unfold modeProgress
    rw [hx]
    exact if_neg fun h => h.1 ho
  rw [modeArbitration, if_neg (by simp [hx]), hp]

/-- The requests that the evaluation leaves waiting although R45 does not allow them: those for SHUTDOWN held before (R41). -/
def stillHeld (r : ModeReq) : Bool := r.target == modeShutdown && r.held

/-- The requests that R45 does not allow are answered ILLEGAL but for those that stay held. -/
def refuseIllegal (s : State) : State :=
  answerAll (taken s) ((s.mode.reqs.filter fun r => !reqLegal s r).filter fun r => !stillHeld r) .illegal

theorem refuseIllegal_mode (s : State) : (refuseIllegal s).mode = { s.mode with reqs := [] } := answerAll_mode ..

/-- The request `w` is taken among those that R45 allows, `rest` being the others: these are overruled, or held where they ask for SHUTDOWN
(R41). -/
def takeBest (s : State) (w : ModeReq) (rest : List ModeReq) : State :=
  withMode (answerReq (answerAll (refuseIllegal s) (rest.filter fun r => !(r.target == modeShutdown)) .overruled) w .ok)
    { s.mode with reqs := (s.mode.reqs.filter fun r => !reqLegal s r).filter stillHeld
        ++ (rest.filter fun r => r.target == modeShutdown).map fun r => { r with held := true } }

/-- Outside SHUTDOWN, and in DORMANT for requests that ask for no SHUTDOWN, the allowed requests are ranked and the others refused. -/
theorem evaluateRequests_awake (hc : s.cur ≠ modeShutdown) (hd : s.cur = modeDormant → ∀ r ∈ s.mode.reqs, r.target ≠ modeShutdown) :
    evaluateRequests s =
      (match bestReq (s.mode.reqs.filter (reqLegal s)) with
      | none => withMode (refuseIllegal s) { s.mode with reqs := (s.mode.reqs.filter fun r => !reqLegal s r).filter stillHeld }
      | some w => beginTransition (takeBest s w ((s.mode.reqs.filter (reqLegal s)).erase w)) w) := by
  have hall : (if s.cur = modeDormant then s.mode.reqs.filter (fun r => !(r.target == modeShutdown)) else s.mode.reqs) = s.mode.reqs := by
    split
    next h => exact List.filter_eq_self.mpr fun r hm => by simp [hd h r hm]
    next => rfl
  have hcur : (taken s).cur = s.cur := rfl
  unfold evaluateRequests
  extract_lets sd all _ s0 all1 here all2 s1 good bad keep s2
  have h1 : all1 = s.mode.reqs := hall
  have h2 : all2 = s.mode.reqs := (if_neg hc).trans h1
  have hh : here = [] := if_neg hc
  have hs1 : s1 = taken s := by rw [show s1 = here.foldl takeShutdown s0 from rfl, hh]; rfl
  have hleg : reqLegal s1 = reqLegal s := by rw [hs1]; rfl
  have hgood : good = s.mode.reqs.filter (reqLegal s) := by rw [show good = all2.filter (reqLegal s1) from rfl, h2, hleg]
  have hbad : bad = s.mode.reqs.filter fun r => !reqLegal s r := by
    rw [show bad = all2.filter (fun r => !reqLegal s1 r) from rfl, h2, hleg]
  have hs2 : s2 = refuseIllegal s := by rw [refuseIllegal, ← hbad, ← hs1]; rfl
  have hk : keep = (s.mode.reqs.filter fun r => !reqLegal s r).filter stillHeld := by rw [← hbad]; rfl
  have hm : s2.mode = { s.mode with reqs := [] } := hs2 ▸ refuseIllegal_mode s
  rw [← hgood]
  unfold takeBest
  rw [← hk, ← hs2]
  cases bestReq good with
  | none =>
    show withMode s2 { s2.mode with reqs := keep } = _
    rw [hm]
  | some w =>
    let v := answerAll s2 ((good.erase w).filter fun r => !(r.target == modeShutdown)) .overruled
    show beginTransition (withMode (answerReq v w .ok) { v.mode with reqs := _ }) w = _
    rw [show v.mode = _ from answerAll_mode .., hm]

/-- An evaluation that finds no allowed request, and none for SHUTDOWN, answers all of them ILLEGAL. -/
theorem evaluateRequests_refused (hc : s.cur ≠ modeShutdown) (hr : ∀ r ∈ s.mode.reqs, reqLegal s r = false ∧ r.target ≠ modeShutdown) :
    evaluateRequests s = answerAll (taken s) s.mode.reqs .illegal := by
  have hgood : s.mode.reqs.filter (reqLegal s) = [] := List.filter_eq_nil_iff.mpr fun r hm => by simp [(hr r hm).1]
  have hbad : s.mode.reqs.filter (fun r => !reqLegal s r) = s.mode.reqs := List.filter_eq_self.mpr fun r hm => by simp [(hr r hm).1]
  have hheld : s.mode.reqs.filter stillHeld = [] := List.filter_eq_nil_iff.mpr fun r hm => by simp [stillHeld, (hr r hm).2]
  have hfree : s.mode.reqs.filter (fun r => !stillHeld r) = s.mode.reqs :=
    List.filter_eq_self.mpr fun r hm => by simp [stillHeld, (hr r hm).2]
  rw [evaluateRequests_awake hc fun _ r hm => (hr r hm).2, hgood, hbad, hheld, refuseIllegal, hbad, hfree]
  have hm : (answerAll (taken s) s.mode.reqs .illegal).mode = { s.mode with reqs := [] } := answerAll_mode ..
  show withMode _ { s.mode with reqs := [] } = _
  rw [← hm]
  rfl

end Sys2Proof.Machine
end

section
open Sys2Proof Sys2Proof.Machine

/-- Settles O13: a request outside R45's rows is not allowed, so the evaluation only answers; an answer sets a host's own copy of
SYS_MODEREQ and no other word. -/
theorem otherTransitionsAreRefused : Obligations.OtherTransitionsAreRefused := by
  unfold Obligations.OtherTransitionsAreRefused
  rintro s rows hp hx ho hc rfl hr
  have hsd : s.cur ≠ modeShutdown := hc.ne
  have href : ∀ r ∈ s.mode.reqs, reqLegal s r = false ∧ r.target ≠ modeShutdown := fun r hm =>
    ⟨Bool.eq_false_iff.mpr fun h => (hr r hm).1 (row_of_reqLegal hsd h), (hr r hm).2.1⟩
  refine ⟨answerAll (taken s) s.mode.reqs .illegal, ?_, answerAll_cur .., ?_, ?_, fun p hpr => answerAll_status (by decide) hpr, ?_⟩
  · rw [← evaluateRequests_refused hsd href, ← modeArbitration_idle hx ho]
    exact on_powered hp
  · rw [answerAll_mode]
    exact hx
  · rw [answerAll_mode]
    rfl
  · intro k hk
    refine answerAll_key fun r hm p hs => ?_
    have hp3 := (hr r hm).2.2 p hs
    rintro rfl
    interval_cases p <;> simp [masterHost] at hk
end

section
/-! SUPPORT. A mode request that is refused, at a word whose pair does not match. -/
namespace Sys2Proof.Machine

/-- PD7 is powered, and the complement half of SYS_MODEREQ differs in one bit (R372). -/
def mismatchedModeReq : State := { State.reset.setFld PDC_STAT_ON 0x83 with pairs := [(0x22, 0, 1)] }

/-- The request of port 0 for the reserved target 0xC is answered ILLEGAL, and the pair stays as it was. -/
theorem illegalRequest_leaves_mismatch :
    (match exec (.hostModeRequest 0 0 12 0) mismatchedModeReq with
      | .next t => t.fld SYS_MODEREQ_STATUS 0x30 == 4 && t.pairBad 0x22
      | _ => false) = true := by decide

end Sys2Proof.Machine
end

section
open Sys2Proof Sys2Proof.Machine

/-- Refutes O12: a mismatch ends with a pair whose write is OK only. A request for the reserved target 0xC is ILLEGAL, so that the write
leaves a mismatch of SYS_MODEREQ standing, where the statement has it ended. -/
theorem not_hostModeRequestsAreChecked : ¬ Obligations.HostModeRequestsAreChecked := by
  unfold Obligations.HostModeRequestsAreChecked
  intro h
  obtain ⟨-, hst⟩ := h 0 0 12 0 mismatchedModeReq (by decide) (by decide) (by decide)
  obtain ⟨t, he, -, -, -, -, hother, -⟩ := hst 4 (by decide) (by decide)
  obtain ⟨-, hpair, -⟩ := hother (by decide)
  have hleft := illegalRequest_leaves_mismatch
  rw [he] at hleft
  simp [hpair] at hleft
end

section
/-! SUPPORT. The entries to WAKE (R46, R47, R51–R53, R72): what the mode registers and SYS_BOOTSTAT show, and what the units beside them keep. -/
namespace Sys2Proof.Machine

variable {s t : State}

/-! ### What WAKE shows at once -/

/-- The registers show WAKE entered from mode `shown` for `src` by the wake source `bits`, at step `step`. -/
structure ShowsWake (src : ModeSrc) (shown bits step : Nat) (t : State) : Prop where
  cur : t.cur = 2
  transFlag : t.flag SYS_MODE_TRANS = true
  target : t.fld SYS_MODE_TARGET = 2
  source : t.reg SYS_MODESRC = srcWord src shown modeWake
  wakesrc : t.reg SYS_WAKESRC = wordOf bits
  step : t.fld SYS_BOOTSTAT_STEP = step

theorem ModeKept.reg (h : ModeKept s t) {r : Reg} {n : Nat} (hl : 0x20 ≤ r.addr n) (hr : r.addr n < 0x60) : t.reg r n = s.reg r n := by
  unfold State.reg
  rw [h.1 _ hl hr]

theorem ShowsWake.kept {src : ModeSrc} {shown bits step : Nat} (h : ShowsWake src shown bits step s) (hk : ModeKept s t) :
    ShowsWake src shown bits step t where
  cur := hk.cur.trans h.cur
  transFlag := hk.transFlag.trans h.transFlag
  target := (hk.fld (by decide) (by decide)).trans h.target
  source := (hk.reg (by decide) (by decide)).trans h.source
  wakesrc := (hk.reg (by decide) (by decide)).trans h.wakesrc
  step := (hk.fld (by decide) (by decide)).trans h.step

/-- Only the register words matter. -/
theorem ShowsWake.of_regs {src : ModeSrc} {shown bits step : Nat} (h : ShowsWake src shown bits step s) (hr : t.regs = s.regs) :
    ShowsWake src shown bits step t where
  cur := (fld_congr hr _ _).trans h.cur
  transFlag := (flag_congr hr _ _).trans h.transFlag
  target := (fld_congr hr _ _).trans h.target
  source := (reg_congr hr _ _).trans h.source
  wakesrc := (reg_congr hr _ _).trans h.wakesrc
  step := (fld_congr hr _ _).trans h.step

/-- The mode registers show WAKE with its transition in progress (R46). -/
theorem setMode_wake (s : State) (src : ModeSrc) (old : Nat) :
    (setMode s src old modeWake true).cur = 2 ∧ (setMode s src old modeWake true).flag SYS_MODE_TRANS = true
      ∧ (setMode s src old modeWake true).fld SYS_MODE_TARGET = 2
      ∧ (setMode s src old modeWake true).reg SYS_MODESRC = srcWord src old modeWake := by
  let u := ((s.setFld SYS_MODE_PREV old).setFld SYS_MODE_TARGET modeWake).setFlag SYS_MODE_TRANS true
  let n := s.noteMode (u.setFld SYS_MODECUR_CUR modeWake)
  have hn : ModeKept (u.setFld SYS_MODECUR_CUR modeWake) n := noteMode_keepsMode (.refl _)
  let v := n.setReg SYS_MODESRC (srcWord src old modeWake)
  have hv : ∀ f : Fld, f.reg = SYS_MODE → v.fld f = u.fld f := by
    intro f hf
    rw [fld_setReg_ne n _ (by rw [hf]; decide), hn.fld (by rw [hf]; decide) (by rw [hf]; decide),
      fld_setFld_reg_ne u _ (by rw [hf]; decide)]
  have hresume : ∀ f : Fld, f.reg = SYS_MODE → f.hi < 12 → (v.setFlag SYS_MODE_RESUME false).fld f = u.fld f := by
    intro f hf hlt
    rw [State.setFlag, fld_setFld_bits_ne v _ _ hf.symm (hlt.trans (by decide)) (.inr hlt), hv f hf]
  refine ⟨?_, ?_, ?_, ?_⟩
  · show (v.setFlag SYS_MODE_RESUME false).fld SYS_MODECUR_CUR = 2
    rw [State.setFlag, fld_setFld_reg_ne v _ (by decide), fld_setReg_ne n _ (by decide), hn.fld (by decide) (by decide),
      fld_setFld_same _ _ _ _ (by decide)]
    rfl
  · show ((v.setFlag SYS_MODE_RESUME false).fld SYS_MODE_TRANS != 0) = true
    rw [hresume _ rfl (by decide), show u = State.setFld _ SYS_MODE_TRANS 1 from rfl, fld_setFld_same _ _ _ _ (by decide)]
    rfl
  · show (v.setFlag SYS_MODE_RESUME false).fld SYS_MODE_TARGET = 2
    rw [hresume _ rfl (by decide), show u = State.setFld _ SYS_MODE_TRANS 1 from rfl,
      fld_setFld_bits_ne (f := SYS_MODE_TRANS) (g := SYS_MODE_TARGET) _ _ _ rfl (by decide) (by decide),
      fld_setFld_same _ _ _ _ (by decide)]
    rfl
  · show (v.setFlag SYS_MODE_RESUME false).reg SYS_MODESRC = _
    rw [State.setFlag, reg_setFld_ne v _ (by decide), reg_setReg_same]

/-- The step that BOOTSTAT starts from reads back (R54). -/
theorem bootstatFresh_step (s : State) {step : Nat} (h : step < 16) : (bootstatFresh s step).fld SYS_BOOTSTAT_STEP = step := by
  unfold bootstatFresh State.fld
  rw [show SYS_BOOTSTAT_STEP.reg = SYS_BOOTSTAT from rfl, reg_setReg_same]
  have hr : s.fld SYS_BOOTSTAT_REASON < 256 := Word.bits_lt ..
  simp only [Word.bits, wordOf, BitVec.toNat_ofNat, Nat.shiftRight_eq_div_pow, SYS_BOOTSTAT_STEP]
  omega

theorem enterWake_shows (s : State) (src : ModeSrc) (shown old bits : Nat) {step : Nat} (h : step < 16) :
    ShowsWake src shown bits step (enterWake s src shown old bits step) := by
  let m := setMode s src shown modeWake true
  let w := m.setReg SYS_WAKESRC (wordOf bits)
  let b := (bootstatFresh w step).setFlag SYS_BOOTCTL_WAITHOST false
  obtain ⟨hcur, htrans, htarget, hsource⟩ : m.cur = 2 ∧ m.flag SYS_MODE_TRANS = true ∧ m.fld SYS_MODE_TARGET = 2
    ∧ m.reg SYS_MODESRC = srcWord src shown modeWake := setMode_wake s src shown
  have hb : ∀ r : Reg, SYS_BOOTSTAT.addr 0 ≠ r.addr 0 → SYS_BOOTCTL.addr 0 ≠ r.addr 0 → b.reg r = w.reg r := fun r h1 h2 => by
    rw [show b = (bootstatFresh w step).setFld SYS_BOOTCTL_WAITHOST 0 from rfl, reg_setFld_ne _ _ h2, bootstatFresh, reg_setReg_ne _ _ h1]
  have hm : ∀ r : Reg, SYS_BOOTSTAT.addr 0 ≠ r.addr 0 → SYS_BOOTCTL.addr 0 ≠ r.addr 0 → SYS_WAKESRC.addr 0 ≠ r.addr 0 →
      b.reg r = m.reg r := fun r h1 h2 h3 => (hb r h1 h2).trans (reg_setReg_ne _ _ h3)
  have hf : ∀ f : Fld, SYS_BOOTSTAT.addr 0 ≠ f.reg.addr 0 → SYS_BOOTCTL.addr 0 ≠ f.reg.addr 0 → SYS_WAKESRC.addr 0 ≠ f.reg.addr 0 →
      b.fld f = m.fld f := fun f h1 h2 h3 => fld_of_reg (s := m) (t := b) (f := f) (n := 0) (hm f.reg h1 h2 h3)
  have hs : ShowsWake src shown bits step b :=
    { cur := (hf SYS_MODECUR_CUR (by decide) (by decide) (by decide)).trans hcur
      transFlag := (congrArg (· != 0) (hf SYS_MODE_TRANS (by decide) (by decide) (by decide))).trans htrans
      target := (hf SYS_MODE_TARGET (by decide) (by decide) (by decide)).trans htarget
      source := (hm SYS_MODESRC (by decide) (by decide) (by decide)).trans hsource
      wakesrc := (hb SYS_WAKESRC (by decide) (by decide)).trans (reg_setReg_same ..)
      step := (fld_setFld_reg_ne (bootstatFresh w step) _ (by decide)).trans (bootstatFresh_step w h) }
  unfold enterWake
  extract_lets _ _ _ _ u
  exact (hs.of_regs (t := u) rfl).kept (rstoUpdate_keepsMode (wdModeChange_keepsMode (.refl _)))

/-- No restart waits in WAKE. -/
theorem enterWake_rearm (s : State) (src : ModeSrc) (shown old bits step : Nat) : (enterWake s src shown old bits step).mode.rearm = false := by
  unfold enterWake
  extract_lets _ _ _ _ _ u
  have hk : ModeKept u (rstoUpdate (wdModeChange u s.cur modeWake)) := rstoUpdate_keepsMode (wdModeChange_keepsMode (.refl _))
  exact congrArg ModeH.rearm hk.2

end Sys2Proof.Machine
end

section
/-! SUPPORT. What an entry to WAKE leaves of the records beside the registers, and a chip reset (R72). -/
namespace Sys2Proof.Machine

variable {s t u : State}

/-! ### The records that the mode registers do not reach -/

/-- The RAMs, the rails' records and the armature's queue are those of `s`, and no engine has a record where none had one. -/
structure RecordsKept (s t : State) : Prop where
  mem : t.mem = s.mem
  rails : t.rails = s.rails
  armq : t.armq = s.armq
  engs : s.engs = [] → t.engs = []

theorem RecordsKept.refl (s : State) : RecordsKept s s := ⟨rfl, rfl, rfl, id⟩

theorem RecordsKept.trans (h1 : RecordsKept s t) (h2 : RecordsKept t u) : RecordsKept s u :=
  ⟨h2.mem.trans h1.mem, h2.rails.trans h1.rails, h2.armq.trans h1.armq, h2.engs ∘ h1.engs⟩

theorem RecordsKept.ite {c : Prop} [Decidable c] (ht : RecordsKept s t) (hu : RecordsKept s u) : RecordsKept s (if c then t else u) := by
  split <;> assumption

theorem RecordsKept.foldl {α : Type} {f : State → α → State} {l : List α} (hf : ∀ t x, RecordsKept t (f t x)) : RecordsKept s (l.foldl f s) :=
  List.foldlRecOn l f (.refl s) fun t ht x _ => ht.trans (hf t x)

theorem setReg_records (s : State) (r : Reg) (w : Word) (n : Nat) : RecordsKept s (s.setReg r w n) := ⟨rfl, rfl, rfl, id⟩

/-- Only an engine that waits in a CHECK takes note of a change (R203). -/
theorem noteHist_records (s : State) (k : Nat) : RecordsKept s (s.noteHist k) := by
  refine RecordsKept.trans (t := withMode s { s.mode with hist := cellSet 0 s.mode.hist k s.tbase }) ⟨rfl, rfl, rfl, id⟩
    (.foldl fun t e => ?_)
  dsimp only
  split
  next hw =>
    refine .ite ⟨rfl, rfl, rfl, fun h => ?_⟩ (.refl t)
    rw [h] at hw
    cases hw
  next => exact .refl t

theorem noteIf_records (s : State) (b : Bool) (k : Nat) : RecordsKept s (s.noteIf b k) := .ite (noteHist_records s k) (.refl s)

theorem noteMode_records (s t : State) : RecordsKept t (s.noteMode t) := by
  refine .ite (.refl t) ?_
  dsimp only
  have h1 : RecordsKept t (match s.modeShown with | some m => t.noteHist (histMode m) | none => t) := by
    split
    · exact noteHist_records ..
    · exact .refl t
  split
  · exact h1.trans (noteHist_records ..)
  · exact h1

theorem rstoSet_records (s : State) (j : Nat) (b : Bool) : RecordsKept s (rstoSet s j b) :=
  ((setReg_records ..).trans (setReg_records ..)).trans (noteIf_records ..)

theorem rstoLow_records (s : State) (j cause : Nat) : RecordsKept s (rstoLow s j cause) := (rstoSet_records ..).trans (setReg_records ..)

theorem rstoOne_records (s : State) (hold : Bool) (j : Nat) : RecordsKept s (rstoOne s hold j) := by
  refine .ite (.refl s) (.ite (rstoLow_records ..) (.ite (.ite (rstoSet_records ..) (rstoLow_records ..)) (.ite (rstoLow_records ..) ?_)))
  split
  · exact rstoLow_records ..
  · exact .ite (.refl s) ⟨rfl, rfl, rfl, id⟩

theorem rstoUpdate_records (s : State) : RecordsKept s (rstoUpdate s) := .foldl fun _ _ => rstoOne_records ..

theorem wdDiscard_records (s : State) (n w : Nat) : RecordsKept s (wdDiscard s n w) := ⟨rfl, rfl, rfl, id⟩

theorem wdModeChange_records (s : State) (old m : Nat) : RecordsKept s (wdModeChange s old m) :=
  .foldl fun _ _ => .ite (.refl _) (.ite (wdDiscard_records ..) (.ite ⟨rfl, rfl, rfl, id⟩ (.refl _)))

theorem setMode_records (s : State) (src : ModeSrc) (old m : Nat) (trans : Bool) : RecordsKept s (setMode s src old m trans) := by
  let shown := (((s.setFld SYS_MODE_PREV old).setFld SYS_MODE_TARGET m).setFlag SYS_MODE_TRANS trans).setFld SYS_MODECUR_CUR m
  have hshown : RecordsKept s shown := ⟨rfl, rfl, rfl, id⟩
  exact (hshown.trans (noteMode_records s shown)).trans (u := setMode s src old m trans) ⟨rfl, rfl, rfl, id⟩

theorem enterWake_records (s : State) (src : ModeSrc) (shown old bits step : Nat) : RecordsKept s (enterWake s src shown old bits step) := by
  unfold enterWake
  extract_lets _ m _ _ _ u
  have hu : RecordsKept s u := (setMode_records s src shown modeWake true).trans ⟨rfl, rfl, rfl, id⟩
  exact (hu.trans (wdModeChange_records ..)).trans (rstoUpdate_records _)

end Sys2Proof.Machine
end

section
/-! SUPPORT. A chip reset keeps the count of failed starts, the RAMs and nothing of the units (R72). -/
namespace Sys2Proof.Machine

variable {s t : State}

/-! ### The OTP controller and the watchdogs -/

theorem setOtpBit_regs (s : State) (r w b : Nat) : (setOtpBit s r w b).regs = s.regs := by
  rw [setOtpBit, setWord_frame]

/-- A chip reset changes no register word of the OTP controller; a pulse that it cuts short may burn its bit (R416). -/
theorem otpReset_regs (s : State) : (otpReset s).regs = s.regs := by
  unfold otpReset
  extract_lets t
  split
  · split
    · split
      · dsimp only [State.free, setOtpCut]
        split
        · exact setOtpBit_regs ..
        · rfl
      · rfl
    · rfl
  · rfl

theorem otpReset_mem (h : s.otp.cmd = none) : (otpReset s).mem = s.mem := by
  unfold otpReset
  rw [h]

theorem wdBegin_keepsMode {s0 : State} {n} (h : ModeKept s0 s) : ModeKept s0 (wdBegin s n) := .ite (wdDiscard_keepsMode h) h

theorem wdDeliver_keepsMode {s0 : State} {mask} (h : ModeKept s0 s) : ModeKept s0 (wdDeliver s mask) :=
  .foldl (.rest h) fun _ _ h => .ite h <| .via (fun h1 => .ite (wdBegin_keepsMode h1) (wdDiscard_keepsMode h1))
    (setFlag_keepsMode rfl (setFlag_keepsMode rfl h))

/-- The registers of a watchdog that a chip reset clears. -/
theorem wdResetRegs_outer : ∀ r ∈ [WD_CTRL, WD_CFG, WD_SLOTEN, WD_OWNER0, WD_OWNER1, WD_OWNER2, WD_OWNER3, WD_STAT, WD_CHECKED, WD_EVT, WD_EVTEN,
    WD_SLSEL], r.outer = true := by decide

theorem wdReset_keepsMode (s : State) : ModeKept s (wdReset s) :=
  .foldl
    (wdDeliver_keepsMode (.foldl (.refl s) fun _ _ h =>
      .rest (List.foldlRecOn _ _ h fun _ ht r hr => resetReg_keepsMode (wdResetRegs_outer r hr) ht)))
    fun _ _ h => .ite (setFld_keepsMode rfl h) h

theorem resetReg_records (s : State) (r : Reg) (n : Nat) : RecordsKept s (s.resetReg r n) := ⟨rfl, rfl, rfl, id⟩
theorem setWd_records (s : State) (n : Nat) (h : WdH) : RecordsKept s (s.setWd n h) := ⟨rfl, rfl, rfl, id⟩

theorem wdBegin_records (s : State) (n : Nat) : RecordsKept s (wdBegin s n) := .ite (wdDiscard_records ..) ⟨rfl, rfl, rfl, id⟩

theorem wdDeliver_records (s : State) (mask : Nat) : RecordsKept s (wdDeliver s mask) := by
  refine RecordsKept.trans (t := { s with wdStart := mask }) ⟨rfl, rfl, rfl, id⟩ (.foldl fun t n => .ite (.refl t) ?_)
  have ht : RecordsKept t ((t.setFlag WD_CTRL_HWSTART (mask.testBit n) n).setFlag WD_CTRL_EN (mask.testBit n) n) := ⟨rfl, rfl, rfl, id⟩
  exact .ite (ht.trans (wdBegin_records ..)) (ht.trans (wdDiscard_records ..))

theorem wdReset_records (s : State) : RecordsKept s (wdReset s) := by
  unfold wdReset
  extract_lets a b
  have ha : RecordsKept s a := .foldl fun t n => by
    dsimp only
    exact (RecordsKept.foldl fun t r => resetReg_records t r n).trans (setWd_records ..)
  exact (ha.trans (wdDeliver_records ..)).trans (.foldl fun t n => .ite (setReg_records ..) (.refl t))

/-! ### The device as a chip reset leaves it -/

theorem resetState_records (s : State) : (resetState s).rails = [] ∧ (resetState s).engs = [] ∧ (resetState s).armq = []
    ∧ (s.otp.cmd = none → (resetState s).mem = s.mem) := by
  unfold resetState
  extract_lets _ _ _ _ _ _ u v
  have hv : RecordsKept u (wdReset ((v.setFlag SYS_DIELIM_TRIP false).setFlag SYS_DIELIM_SINGLE false)) :=
    RecordsKept.trans (t := (v.setFlag SYS_DIELIM_TRIP false).setFlag SYS_DIELIM_SINGLE false) ⟨rfl, rfl, rfl, id⟩ (wdReset_records _)
  exact ⟨hv.rails, hv.engs rfl, hv.armq, fun h => hv.mem.trans (otpReset_mem h)⟩

/-- The count of failed starts is a Kept row of R72. -/
theorem resetState_bootcnt (s : State) : (resetState s).reg SYS_BOOTCNT = s.reg SYS_BOOTCNT := by
  unfold resetState
  extract_lets _ _ _ _ _ _ u v
  have hu : u.reg SYS_BOOTCNT = s.reg SYS_BOOTCNT := by
    have hk : cellGet 0 u.regs (SYS_BOOTCNT.addr 0) = cellGet 0 (otpReset s).regs (SYS_BOOTCNT.addr 0) :=
      (cellGet_keep 0 (fun k => !!keptByReset k) _ _).trans (if_pos (by decide))
    unfold State.reg
    rw [hk, otpReset_regs]
  have hw : ModeKept ((v.setFlag SYS_DIELIM_TRIP false).setFlag SYS_DIELIM_SINGLE false)
    (wdReset ((v.setFlag SYS_DIELIM_TRIP false).setFlag SYS_DIELIM_SINGLE false)) := wdReset_keepsMode _
  rw [hw.reg (by decide) (by decide), State.setFlag, reg_setFld_ne _ _ (by decide), State.setFlag,
    reg_setFld_ne _ _ (by decide), show v = (u.setFld HKR_STAT_AUXPG 0).setFld SYS_SURIDX_IDX 0 from rfl, reg_setFld_ne _ _ (by decide),
    reg_setFld_ne _ _ (by decide), hu]

/-! ### The words that an entry to WAKE leaves -/

/-- The mode registers of a transition are SYS_MODE, SYS_MODECUR and SYS_MODESRC (R46). -/
theorem setMode_reg_other {src : ModeSrc} {old m : Nat} {trans : Bool} {r : Reg} (hr : r.addr 0 ∉ [0x20, 0x21, 0x28])
    (hl : 0x20 ≤ r.addr 0) (hh : r.addr 0 < 0x60) : (setMode s src old m trans).reg r = s.reg r := by
  simp only [List.mem_cons, List.not_mem_nil, or_false, not_or] at hr
  obtain ⟨hmode, hcur, hsrc⟩ := hr
  let u := (((s.setFld SYS_MODE_PREV old).setFld SYS_MODE_TARGET m).setFlag SYS_MODE_TRANS trans).setFld SYS_MODECUR_CUR m
  let n := s.noteMode u
  show ((n.setReg SYS_MODESRC (srcWord src old m)).setFlag SYS_MODE_RESUME false).reg r = _
  rw [State.setFlag, reg_setFld_ne _ _ (Ne.symm hmode), reg_setReg_ne _ _ (Ne.symm hsrc),
    (noteMode_keepsMode (.refl u) : ModeKept u n).reg hl hh, reg_setFld_ne _ _ (Ne.symm hcur), State.setFlag,
    reg_setFld_ne _ _ (Ne.symm hmode), reg_setFld_ne _ _ (Ne.symm hmode), reg_setFld_ne _ _ (Ne.symm hmode)]

theorem enterWake_bootcnt (s : State) (src : ModeSrc) (shown old bits step : Nat) :
    (enterWake s src shown old bits step).reg SYS_BOOTCNT = s.reg SYS_BOOTCNT := by
  unfold enterWake
  extract_lets _ m b _ _ u
  have hk : ModeKept u (rstoUpdate (wdModeChange u s.cur modeWake)) := rstoUpdate_keepsMode (wdModeChange_keepsMode (.refl u))
  rw [hk.reg (by decide) (by decide)]
  show b.reg SYS_BOOTCNT = _
  rw [show b = (bootstatFresh (m.setReg SYS_WAKESRC (wordOf bits)) step).setFld SYS_BOOTCTL_WAITHOST 0 from rfl,
    reg_setFld_ne _ _ (by decide), bootstatFresh, reg_setReg_ne _ _ (by decide), reg_setReg_ne _ _ (by decide)]
  exact setMode_reg_other (by decide) (by decide) (by decide)

/-- SYS_MODE.PREV is apart from TRANS and TARGET. -/
theorem ShowsWake.setPrev {src : ModeSrc} {shown bits step : Nat} (h : ShowsWake src shown bits step s) (v : Nat) :
    ShowsWake src shown bits step (s.setFld SYS_MODE_PREV v) where
  cur := (fld_setFld_reg_ne s _ (by decide)).trans h.cur
  transFlag := (congrArg (· != 0) (fld_setFld_bits_ne (f := SYS_MODE_PREV) (g := SYS_MODE_TRANS) s v 0 rfl (by decide) (by decide))).trans
    h.transFlag
  target := (fld_setFld_bits_ne (f := SYS_MODE_PREV) (g := SYS_MODE_TARGET) s v 0 rfl (by decide) (by decide)).trans h.target
  source := (reg_setFld_ne s _ (by decide)).trans h.source
  wakesrc := (reg_setFld_ne s _ (by decide)).trans h.wakesrc
  step := (fld_setFld_reg_ne s _ (by decide)).trans h.step

end Sys2Proof.Machine
end

section
/-! SUPPORT. The wake events (R53): ERRIN is recorded before the wake (R358), and no record of it reaches the mode controller. -/
namespace Sys2Proof.Machine

variable {s0 s t : State} {f : FaultPost}

/-! ### The assertion of source 370 -/

theorem targetSignal_keepsMode {t n} (h : ModeKept s0 s) : ModeKept s0 (targetSignal s t n) := .ite (setFbit_keepsMode rfl h) h

theorem raiseNmi_keepsMode (h : ModeKept s0 s) : ModeKept s0 (raiseNmi s) := by
  unfold raiseNmi
  refine .ite h (.foldl (.ite (countTo_keepsMode rfl h) h) fun u t hu => ?_)
  have hpend : ModeKept s0 (u.setFbit INTC_NMI_PEND t true) := setFbit_keepsMode rfl hu
  exact .ite hpend (targetSignal_keepsMode hpend)

theorem failDue_keepsMode {reason} (h : ModeKept s0 s) : ModeKept s0 (failDue s reason) := .ite h h

theorem chipResetDue_keepsMode {src} (h : ModeKept s0 s) : ModeKept s0 (chipResetDue s src) := .ite (failDue_keepsMode h) h

/-- Source 370 has no block to reset (R350). -/
theorem blockReset_errin (hf : f.src = 370) : blockReset s f = s := by simp [blockReset, hf]

theorem applyReactions_errin_keepsMode {lo hi} (hf : f.src = 370) (h : ModeKept s0 s) : ModeKept s0 (applyReactions s f lo hi) := by
  unfold applyReactions
  extract_lets sIrq sNmi sBlock
  have hIrq : ModeKept s0 sIrq := .ite (event_keepsMode rfl h) h
  have hNmi : ModeKept s0 sNmi := .ite (raiseNmi_keepsMode hIrq) hIrq
  have hBlock : ModeKept s0 sBlock := .ite (by rwa [blockReset_errin hf]) hNmi
  exact .ite (chipResetDue_keepsMode hBlock) hBlock

theorem faultLatch_keepsMode {inj react ep} (h : ModeKept s0 s) : ModeKept s0 (faultLatch s f inj react ep) := by
  unfold faultLatch
  extract_lets _ a b c
  have ha : ModeKept s0 a := setReg_keepsMode rfl (setReg_keepsMode rfl h)
  have hb : ModeKept s0 b := setReg_keepsMode rfl ha
  have hc : ModeKept s0 c := setReg_keepsMode rfl (setReg_keepsMode rfl hb)
  exact postRecord_keepsMode hc

theorem faultMerge_errin_keepsMode {inj react ep} (hf : f.src = 370) (h : ModeKept s0 s) : ModeKept s0 (faultMerge s f inj react ep) := by
  unfold faultMerge
  extract_lets _ a b c
  have ha : ModeKept s0 a := countTo_keepsMode rfl (setFlag_keepsMode rfl h)
  have hb : ModeKept s0 b := setReg_keepsMode rfl ha
  have hc : ModeKept s0 c := .ite (setFlag_keepsMode rfl (setFld_keepsMode rfl (applyReactions_errin_keepsMode hf hb))) hb
  exact .ite (setFlag_keepsMode rfl (setFlag_keepsMode rfl (pairFault_keepsMode hc))) hc

/-- Source 370 fences no unit (R350). -/
theorem faultFences_errin (hf : f.src = 370) : faultFences s f = s := by simp [faultFences, fenceTarget, hf]

theorem faultEval_errin_keepsMode {inj} (hf : f.src = 370) (h : ModeKept s0 s) : ModeKept s0 (faultEval s f inj) := by
  unfold faultEval
  extract_lets a b react ep c d e
  have ha : ModeKept s0 a := setFbit_keepsMode rfl h
  have hb : ModeKept s0 b := by rwa [show b = a from faultFences_errin hf]
  have hc : ModeKept s0 c := .ite (setFlag_keepsMode rfl hb) hb
  have hd : ModeKept s0 d := faultLatch_keepsMode hc
  have he : ModeKept s0 e := .ite (pairFault_keepsMode hd) hd
  exact .ite hc (.ite (faultMerge_errin_keepsMode hf hc) (applyReactions_errin_keepsMode hf he))

theorem evalDue_errin_keepsMode (h : ModeKept s0 s) : ModeKept s0 (evalDue s 370 0) := by
  unfold evalDue
  split
  next f hf =>
    have hsrc := List.find?_some hf
    simp only [Bool.and_eq_true, beq_iff_eq] at hsrc
    exact faultEval_errin_keepsMode hsrc.1 h
  next => exact h

theorem setWakePins_keepsMode {btn src} (h : ModeKept s0 s) : ModeKept s0 (s.setWakePins btn src) := noteIf_keepsMode (noteIf_keepsMode h)

theorem errinAsserts_keepsMode (h : ModeKept s0 s) : ModeKept s0 (errinAsserts s) := by
  have ht : ModeKept s0 ((s.setLevel 370 0 0 0 true).setErrin true) :=
    noteIf_keepsMode (.rest (setLevel_keepsMode (src := 370) (inst := 0) (detail := 0) (data1 := 0) (b := true) h))
  exact .ite (evalDue_errin_keepsMode ht) ht

/-! ### The wake -/

/-- A wake source in DORMANT that SYS_WAKECFG enables wakes the device while the die limit does not hold it (R53, R322). -/
theorem wakeEvent_shows {bits on : Nat} (hc : s.cur = 1) (hd : s.flag SYS_DIELIM_ASSERT = false)
    (hon : on = bits &&& (s.reg SYS_WAKECFG).toNat % 16) (h0 : on ≠ 0) : ShowsWake (.hw 6) modeDormant on 1 (wakeEvent s bits) := by
  have hw : wakeEvent s bits = dormantWake s on := by
    subst hon
    exact (if_pos hc).trans (if_neg h0)
  rw [hw, dormantWake, if_neg (by simp [hd])]
  exact (enterWake_shows s (.hw 6) modeDormant modeDormant on (by decide)).of_regs (withMode_regs _)

/-- The cause that SYS_MODESRC shows for a hardware request. -/
theorem ShowsWake.hwcause {c shown bits step : Nat} (h : ShowsWake (.hw c) shown bits step s) (hc : c < 256) (hs : shown < 16) :
    s.fld SYS_MODESRC_HWCAUSE = c := by
  unfold State.fld
  rw [show SYS_MODESRC_HWCAUSE.reg = SYS_MODESRC from rfl, h.source]
  simp only [Word.bits, srcWord, wordOf, BitVec.toNat_ofNat, Nat.shiftRight_eq_div_pow, SYS_MODESRC_HWCAUSE, modeWake]
  omega

theorem noteHist_pins (s : State) (k : Nat) : (s.noteHist k).pins = s.pins :=
  List.foldlRecOn (motive := fun t : State => t.pins = s.pins) _ _ rfl fun t ht e _ => by
    dsimp only
    split
    · split <;> exact ht
    · exact ht

theorem noteIf_pins (s : State) (b : Bool) (k : Nat) : (s.noteIf b k).pins = s.pins := by
  unfold State.noteIf
  split
  · exact noteHist_pins s k
  · rfl

theorem setWakePins_pins (s : State) (btn src : Bool) : (s.setWakePins btn src).pins = { s.pins with wakeBtn := btn, srcdet := src } :=
  (noteIf_pins ..).trans (noteIf_pins ..)

theorem setWakePins_records (s : State) (btn src : Bool) : RecordsKept s (s.setWakePins btn src) :=
  RecordsKept.trans (RecordsKept.trans (t := { s with pins := { s.pins with wakeBtn := btn, srcdet := src } }) ⟨rfl, rfl, rfl, id⟩
    (noteIf_records ..)) (noteIf_records ..)

/-! ### The commands -/

/-- A latch wake names its inputs (R51, R52). -/
theorem powerUp_wakesrc (s : State) (bits : Nat) : (powerUp s true bits).reg SYS_WAKESRC = wordOf (0xC0 + bits) := by
  unfold powerUp
  exact reg_setReg_same ..

/-- ERRIN is recorded before the wake that it causes (R53, R358). -/
theorem dormantWake_shows (btn src errin : Bool) {on : Nat} (hc : s.cur = 1) (hd : s.flag SYS_DIELIM_ASSERT = false)
    (hon : on = wakeBits btn src errin &&& (s.reg SYS_WAKECFG).toNat % 16) (h0 : on ≠ 0) :
    ShowsWake (.hw 6) modeDormant on 1 (wakeEvent (if errin then errinAsserts (s.setWakePins btn src) else s.setWakePins btn src)
      (wakeBits btn src errin)) := by
  have hk : ModeKept s (if errin then errinAsserts (s.setWakePins btn src) else s.setWakePins btn src) :=
    .ite (errinAsserts_keepsMode (setWakePins_keepsMode (.refl s))) (setWakePins_keepsMode (.refl s))
  refine wakeEvent_shows (hk.cur.trans hc) ?_ ?_ h0
  · unfold State.flag at hd ⊢
    rwa [hk.fld (by decide) (by decide)]
  · rwa [hk.reg (by decide) (by decide)]

/-- The alarm is the fourth of the sources that SYS_WAKECFG enables (R53). -/
theorem alarmBit (w : Word) (h : w.getLsbD 3 = true) : 8 = 8 &&& w.toNat % 16 := by
  have h3 : w.toNat.testBit 3 = true := h
  have hdiv : w.toNat / 8 % 2 = 1 := by simpa [Nat.testBit_eq_decide_div_mod_eq] using h3
  have hlt : w.toNat % 16 < 16 := Nat.mod_lt _ (by decide)
  have hge : 8 ≤ w.toNat % 16 := by omega
  interval_cases w.toNat % 16 <;> rfl

/-- With its time passed a restart goes on to WAKE (R47). -/
theorem rearmExpired_shows (hc : s.cur = 11) (hr : s.mode.rearm = true) (ho : s.mode.optRelease = []) :
    ShowsWake (.hw 9) modeShutdown 0x10 1 (rearmExpired s) ∧ (rearmExpired s).mode.rearm = false := by
  rw [show rearmExpired s = enterWake s (.hw 9) modeShutdown modeShutdown 0x10 1 from if_pos ⟨hc, hr, ho⟩]
  exact ⟨enterWake_shows _ _ _ _ _ (by decide), enterWake_rearm ..⟩

/-- A chip reset enters WAKE with nothing left of the units (R72). -/
theorem chipReset_shows (s : State) : ShowsWake (.hw 8) modeWake 0x20 (if s.fbit PDC_STAT_ON 1 then 2 else 1) (chipReset s)
    ∧ ((s.otp.cmd = none → (chipReset s).mem = s.mem) ∧ (chipReset s).fld SYS_BOOTCNT_FAILS = s.fld SYS_BOOTCNT_FAILS
      ∧ (chipReset s).rails = [] ∧ (chipReset s).engs = [] ∧ (chipReset s).armq = []) := by
  unfold chipReset
  extract_lets old carry step r p _ u
  have hu : RecordsKept r u := ⟨rfl, rfl, rfl, id⟩
  have hk : RecordsKept r ((enterWake u (.hw 8) modeWake old 0x20 step).setFld SYS_MODE_PREV 0) :=
    (hu.trans (enterWake_records ..)).trans (setReg_records ..)
  obtain ⟨hrails, hengs, harmq, hmem⟩ := resetState_records s
  have hstep : step < 16 := by unfold step; split <;> decide
  refine ⟨(enterWake_shows u _ _ _ _ hstep).setPrev 0, fun h => hk.mem.trans (hmem h), ?_, hk.rails.trans hrails, hk.engs hengs,
    hk.armq.trans harmq⟩
  refine fld_of_reg (f := SYS_BOOTCNT_FAILS) ?_
  rw [show SYS_BOOTCNT_FAILS.reg = SYS_BOOTCNT from rfl, reg_setFld_ne _ _ (by decide), enterWake_bootcnt,
    show u.reg SYS_BOOTCNT = (r.setFld PDC_STAT_ON (if step = 2 then 3 else 1)).reg SYS_BOOTCNT from rfl, reg_setFld_ne _ _ (by decide)]
  exact resetState_bootcnt s

/-- A host's request for WAKE in PLINTH is carried out as a chip reset without one (R476). -/
theorem plinthWake_shows {x : Transition} (hc : s.cur = 3) (hx : s.mode.trans = some x) (ht : x.target = 2) :
    ShowsWake x.req.src modePlinth 0x100 2 (plinthWake s) ∧ (s.otp.cmd = none → (plinthWake s).mem = s.mem) ∧ (plinthWake s).rails = [] := by
  have hp : plinthWake s
      = enterWake ((resetState s).setFld SYS_MODECUR_CUR modePlinth) x.req.src modePlinth modePlinth 0x100 2 := by
    unfold plinthWake
    rw [hx]
    exact if_pos ⟨ht, hc⟩
  obtain ⟨hrails, -, -, hmem⟩ := resetState_records s
  have hk := (setReg_records (resetState s) _ _ _).trans
    (enterWake_records ((resetState s).setFld SYS_MODECUR_CUR modePlinth) x.req.src modePlinth modePlinth 0x100 2)
  rw [hp]
  exact ⟨enterWake_shows _ _ _ _ _ (by decide), fun h => hk.mem.trans (hmem h), hk.rails.trans hrails⟩

end Sys2Proof.Machine
end

section
open Sys2Proof Sys2Proof.Machine

/-- Settles O16: every way into WAKE goes through one entry, which sets the mode registers, SYS_WAKESRC and the step; what the units do
besides touches none of these words. -/
theorem wakeEntriesShowWake : Obligations.WakeEntriesShowWake := by
  unfold Obligations.WakeEntriesShowWake
  intro s btn src errin
  refine ⟨fun hp hr => ⟨chipReset s, ?_, ?_⟩, fun x hp hc hx ht => ⟨plinthWake s, on_powered hp, ?_⟩,
    fun ho => ⟨powerUp s false 0, congrArg _ (if_neg (by simp [ho])), rfl, rfl, rfl, rfl, rfl⟩,
    fun hc hw => ⟨(powerUp s true (wakeBits btn src false)).setWakePins btn src, congrArg _ (if_pos ⟨hc, hw⟩), ?_⟩,
    fun on hp hc hd hon h0 => ⟨_, on_powered hp, ?_⟩, fun hp hc hd hs hcfg => ⟨_, on_powered hp, ?_⟩,
    fun hp hc hr ho => ⟨rearmExpired s, on_powered hp, ?_⟩⟩
  · exact (congrArg _ (if_pos hr)).trans (on_powered hp)
  · obtain ⟨hshow, hmem, hfails, hrails, hengs, harmq⟩ := chipReset_shows s
    exact ⟨hshow.cur, hshow.transFlag, hshow.target, hshow.wakesrc, hshow.step, hmem, hfails, hrails, hengs, harmq⟩
  · obtain ⟨hshow, hmem, hrails⟩ := plinthWake_shows hc hx ht
    exact ⟨hshow.cur, hshow.transFlag, hshow.target, hshow.wakesrc, hshow.step, hmem, hrails⟩
  · have hreg := (setWakePins_keepsMode (btn := btn) (src := src) (.refl (powerUp s true (wakeBits btn src false)))).reg
      (r := SYS_WAKESRC) (n := 0) (by decide) (by decide)
    refine ⟨hreg.trans ?_, (setWakePins_records ..).rails, ?_, ?_⟩
    · rw [powerUp_wakesrc, wakeBits, Bool.toNat_false, Nat.mul_zero, Nat.add_zero, ← Nat.add_assoc]
    · rw [setWakePins_pins]
    · rw [setWakePins_pins]
  · have hshow := dormantWake_shows btn src errin hc hd hon h0
    exact ⟨hshow.cur, hshow.transFlag, hshow.wakesrc, hshow.step, hshow.hwcause (by decide) (by decide)⟩
  · have hshow := wakeEvent_shows (bits := 8) hc hd (alarmBit _ hcfg) (by decide)
    rw [if_neg hs]
    exact ⟨hshow.cur, hshow.transFlag, hshow.wakesrc, hshow.step, hshow.hwcause (by decide) (by decide)⟩
  · obtain ⟨hshow, hrearm⟩ := rearmExpired_shows hc hr ho
    exact ⟨hshow.cur, hshow.transFlag, hshow.wakesrc, hshow.step, hshow.hwcause (by decide) (by decide), hrearm⟩
end

section
/-! SUPPORT. Requests held while a transition waits, from a port that the device does not have. -/
namespace Sys2Proof.Machine

/-- A transition from RUN to STANDBY waits for rail 3 of PD4 to drain, and two requests of a port 7 wait. -/
def waitingRequests : State :=
  let s := (State.reset.setFld SYS_MODECUR_CUR 5).setFld RL_STAT_STATE 6 3
  let r : ModeReq := { src := .host 7, target := 4, sdend := 0 }
  { s with mode := { s.mode with reqs := [r, r], trans := some { req := r, old := 5, target := 4, release := [4], tiers := [] } } }

/-- The older of the two is answered SUPERSEDED, in a word beside those of the three ports. -/
theorem heldRequest_supersedes_outside_ports :
    (match exec .modeArbitration waitingRequests with
      | .next t => cellGet 0 t.regs (SYS_MODEREQ.addr 0x37) == cellGet 0 waitingRequests.regs (SYS_MODEREQ.addr 0x37)
      | _ => true) = false := by decide

end Sys2Proof.Machine
end

section
open Sys2Proof Sys2Proof.Machine

/-- Refutes O14: while a transition waits, holding the requests answers SUPERSEDED to those that newer ones replace, and the statement lets
only the words of ports 0 to 2 change although, unlike O13, it does not ask that the requests come from these ports. Two requests of a port
7, which no device has, are the counterexample. -/
theorem not_arbitrationBeginsTheTransition : ¬ Obligations.ArbitrationBeginsTheTransition := by
  unfold Obligations.ArbitrationBeginsTheTransition
  intro h
  obtain ⟨-, -, hwait⟩ := h waitingRequests (by decide)
  obtain ⟨t, he, -, -, -, hsame⟩ := hwait _ rfl (by decide) (by decide)
  have hkey := hsame (SYS_MODEREQ.addr 0x37) (by decide)
  have hold := heldRequest_supersedes_outside_ports
  rw [he] at hold
  exact Bool.noConfusion (hold.symm.trans (beq_of_eq hkey))
end

section
/-! SUPPORT. The fault of the shutdown deadline (R47) stays due, and the inputs that the end of SHUTDOWN looks at keep their levels, in
whatever the units do as the device goes down: an assertion due goes only by the evaluation of its source, or into an injection of its own
source. `ModeKept` says nothing of the two. One lemma for each function that draining the domains and leaving a mode reach, in the order of
those for `ModeKept`. -/
namespace Sys2Proof.Machine

/-- The assertions of source 363 that are due in `s` are among `due`, and WAKE_BTN, SRCDET and the input supply are as in `s`. -/
def DuePart (s : State) (pins : PinsH) (due : List FaultPost) : Prop :=
  (∀ f ∈ s.flt.due, f.src = 363 → f ∈ due)
    ∧ pins.wakeBtn = s.pins.wakeBtn ∧ pins.srcdet = s.pins.srcdet ∧ pins.inputLow = s.pins.inputLow

/-- State `t` has kept both. -/
abbrev DueKept (s t : State) : Prop := DuePart s t.pins t.flt.due

variable {s0 s t : State}

/-- A further assertion. -/
theorem DuePart.append {pins : PinsH} {due : List FaultPost} (h : DuePart s0 pins due) (l : List FaultPost) : DuePart s0 pins (due ++ l) :=
  ⟨fun f hf hs => List.mem_append_left l (h.1 f hf hs), h.2⟩

theorem DueKept.refl (s : State) : DueKept s s := ⟨fun _ hf _ => hf, rfl, rfl, rfl⟩

theorem DueKept.ite {c : Prop} [Decidable c] (hs : DueKept s0 s) (ht : DueKept s0 t) : DueKept s0 (if c then s else t) := by
  split <;> assumption

theorem DueKept.iteFst {α : Type} {c : Prop} [Decidable c] {x y : State × α} (hx : DueKept s0 x.1) (hy : DueKept s0 y.1) :
    DueKept s0 (if c then x else y).1 := by
  split <;> assumption

theorem DueKept.foldl {α : Type} {f : State → α → State} {l : List α} (hs : DueKept s0 s)
    (hf : ∀ t x, DueKept s0 t → DueKept s0 (f t x)) : DueKept s0 (l.foldl f s) :=
  List.foldlRecOn l f hs fun t ht x _ => hf t x ht

theorem DueKept.foldlFst {α β : Type} {f : State × β → α → State × β} {l : List α} {x : State × β} (hx : DueKept s0 x.1)
    (hf : ∀ y a, DueKept s0 y.1 → DueKept s0 (f y a).1) : DueKept s0 (l.foldl f x).1 :=
  List.foldlRecOn l f (motive := fun y => DueKept s0 y.1) hx fun y hy a _ => hf y a hy

theorem DueKept.of_eq {α : Type} {x : State × α} {a : α} (hx : DueKept s0 x.1) (he : x = (s, a)) : DueKept s0 s := by
  rw [he] at hx; exact hx

/-- The other parts of the state do not matter. -/
theorem DueKept.rest {part regs pairs mem lines tbase freeCtr armq armSeq mode bud groups ports rails engs progs pmap sigs pat sup
    links lx boot chg thm chk otp wds wdStart hosts intc tap pending} (h : DueKept s0 s) :
    DueKept s0 ⟨part, regs, pairs, mem, lines, tbase, freeCtr, armq, armSeq, mode, bud, groups, ports, rails, engs, progs, pmap, sigs, pat,
      s.flt, sup, s.pins, links, lx, boot, chg, thm, chk, otp, wds, wdStart, hosts, intc, tap, pending⟩ := h

/-- An intermediate state that has kept them, from which the state goes on. -/
theorem DueKept.via (hf : DueKept s0 t → DueKept s0 s) (ht : DueKept s0 t) : DueKept s0 s := hf ht

/-! ### Fields, bytes, records, levels and injections -/

theorem setFld_keepsDue {f v n} (h : DueKept s0 s) : DueKept s0 (State.setFld s f v n) := h

theorem setReg_keepsDue {r w n} (h : DueKept s0 s) : DueKept s0 (s.setReg r w n) := h

theorem resetReg_keepsDue {r n} (h : DueKept s0 s) : DueKept s0 (s.resetReg r n) := h

theorem setFlag_keepsDue {f b n} (h : DueKept s0 s) : DueKept s0 (State.setFlag s f b n) := h

theorem setFbit_keepsDue {f k b n} (h : DueKept s0 s) : DueKept s0 (State.setFbit s f k b n) := h

theorem event_keepsDue {f n} (h : DueKept s0 s) : DueKept s0 (State.event s f n) := h

theorem countTo_keepsDue {f top n} (h : DueKept s0 s) : DueKept s0 (State.countTo s f top n) := .ite h h

theorem setBytes_keepsDue {a} {l : List Byte} (h : DueKept s0 s) : DueKept s0 (s.setBytes a l) := by
  rw [setBytes_frame]; exact h

theorem setWord_keepsDue {base i w} (h : DueKept s0 s) : DueKept s0 (State.setWord s base i w) := setBytes_keepsDue h

theorem postFault_keepsDue {src inst detail data1} (h : DueKept s0 s) : DueKept s0 (s.postFault src inst detail data1) :=
  h.append _

theorem noteHist_keepsDue {k} (h : DueKept s0 s) : DueKept s0 (s.noteHist k) := by
  unfold State.noteHist
  extract_lets _ u
  have hu : DueKept s0 u := h
  refine .foldl hu fun t e ht => ?_
  dsimp only
  split
  · exact .ite ht ht
  · exact ht

theorem setEng_keepsDue {e r} (h : DueKept s0 s) : DueKept s0 (s.setEng e r) := h

theorem noteIf_keepsDue {b k} (h : DueKept s0 s) : DueKept s0 (State.noteIf s b k) := .ite (noteHist_keepsDue h) h

theorem noteMode_keepsDue (h1 : DueKept s0 t) : DueKept s0 (State.noteMode s t) :=
  .ite h1 <| by
    dsimp only
    split
    · exact noteHist_keepsDue (by split; exacts [noteHist_keepsDue h1, h1])
    · split
      · exact noteHist_keepsDue h1
      · exact h1

theorem dropRecord_keepsDue (h : DueKept s0 s) : DueKept s0 (State.dropRecord s) :=
  .via (fun h1 => .ite (.ite (.rest (event_keepsDue (countTo_keepsDue h1))) (countTo_keepsDue h1)) h1) (event_keepsDue h)

theorem postRecord_keepsDue {r} (h : DueKept s0 s) : DueKept s0 (State.postRecord s r) := .ite h (.ite h (dropRecord_keepsDue h))

theorem setLevel_keepsDue {src inst detail data1 b} (h : DueKept s0 s) : DueKept s0 (State.setLevel s src inst detail data1 b) :=
  .ite (h.append _) h

theorem injectShown_keepsDue {f} (h : DueKept s0 s) : DueKept s0 (State.injectShown s f) :=
  setReg_keepsDue (setReg_keepsDue (.rest (setFld_keepsDue h)))

theorem injectRecord_keepsDue {f} (h : DueKept s0 s) : DueKept s0 (State.injectRecord s f) :=
  setFbit_keepsDue (injectShown_keepsDue h)

theorem injectItem_keepsDue {f damage} (h : DueKept s0 s) (hd : ∀ t, DueKept s0 t → DueKept s0 (damage t)) :
    DueKept s0 (s.injectItem f damage) := by
  unfold State.injectItem
  split; exacts [injectRecord_keepsDue h, hd s h, h]

/-- An injection takes an assertion of its own source only. -/
theorem injectTake_keepsDue {src inst} (hsrc : src ≠ 363) (h : DueKept s0 t) : DueKept s0 (State.injectTake s t src inst) := by
  refine .ite ?_ h
  split
  next f hf =>
    have hfound := List.find?_some hf
    simp only [Bool.and_eq_true, beq_iff_eq] at hfound
    refine ⟨fun g hg hs => ?_, h.2⟩
    have hne : g ≠ f := fun e => hsrc (hfound.1.symm.trans (e ▸ hs))
    have hmem := h.1 g hg hs
    rw [← List.take_append_drop s.flt.due.length t.flt.due, List.mem_append] at hmem
    exact List.mem_append.mpr (hmem.imp_right (List.mem_erase_of_ne hne).mpr)
  next => exact h

/-! ### Supervision outputs and comparators -/

theorem supCount_keepsDue {n k} (h : DueKept s0 s) : DueKept s0 (supCount s n k) :=
  .ite h (.ite (.ite (.rest (setFbit_keepsDue h)) h) h)

theorem rstoSet_keepsDue {j b} (h : DueKept s0 s) : DueKept s0 (rstoSet s j b) :=
  noteIf_keepsDue (setFlag_keepsDue (setFlag_keepsDue h))

theorem rstoLow_keepsDue {j cause} (h : DueKept s0 s) : DueKept s0 (rstoLow s j cause) := setFld_keepsDue (rstoSet_keepsDue h)

theorem rstoOne_keepsDue {hold j} (h : DueKept s0 s) : DueKept s0 (rstoOne s hold j) :=
  .ite h <| .ite (rstoLow_keepsDue h) <| .ite (.ite (rstoSet_keepsDue h) (rstoLow_keepsDue h)) <|
  .ite (rstoLow_keepsDue h) (by split; exacts [rstoLow_keepsDue h, .ite h (.rest (setFlag_keepsDue h))])

theorem rstoUpdate_keepsDue (h : DueKept s0 s) : DueKept s0 (rstoUpdate s) := .foldl h (fun _ _ => rstoOne_keepsDue)

theorem compSet_keepsDue {n q b} (h : DueKept s0 s) : DueKept s0 (compSet s n q b) :=
  .ite h <| .via
    (fun h1 => .ite (rstoUpdate_keepsDue (.ite (supCount_keepsDue h1) (setFbit_keepsDue (supCount_keepsDue h1)))) h1)
    (noteHist_keepsDue (.rest (setFbit_keepsDue h)))

theorem compEnd_keepsDue {n q} (h : DueKept s0 s) : DueKept s0 (compEnd s n q) := setLevel_keepsDue (compSet_keepsDue h)

theorem supLeave_keepsDue {n} (h : DueKept s0 s) : DueKept s0 (supLeave s n) :=
  compSet_keepsDue (compEnd_keepsDue (compEnd_keepsDue h))

/-! ### Pools and claims -/

theorem reduceAllowance_keepsDue {n t} (h : DueKept s0 s) : DueKept s0 (reduceAllowance s n t) :=
  .ite (.rest (setFld_keepsDue h)) (setFld_keepsDue h)

theorem endOvercommit_keepsDue {k} (h : DueKept s0 s) : DueKept s0 (endOvercommit s k) := setLevel_keepsDue (setFlag_keepsDue h)

theorem refundPorts_keepsDue {k x} {l : List Nat} (h : DueKept s0 s) : DueKept s0 (refundPorts k l s x).1 := by
  induction l generalizing s x with
  | nil => exact h
  | cons n l ih =>
    have hcut {f : Fld} {v} : DueKept s0 (s.setFld f v n) := setFld_keepsDue h
    exact .iteFst
      (.iteFst (ih h) (ih (countTo_keepsDue (event_keepsDue (.ite (setFlag_keepsDue hcut) hcut))))) (ih h)

theorem refundClaims_keepsDue {k k'} (h : DueKept s0 s) : DueKept s0 (refundClaims k s k').1 := by
  unfold refundClaims
  dsimp only
  exact .foldlFst (.foldlFst (.foldlFst h (fun _ _ h => .iteFst h h)) (fun _ _ h => .iteFst h h)) (fun _ _ h => .iteFst h h)

theorem clearOvercommit_keepsDue {k} (h : DueKept s0 s) : DueKept s0 (clearOvercommit s k) := .ite (endOvercommit_keepsDue h) h

theorem returnHeadroom_keepsDue {k x port} (h : DueKept s0 s) : DueKept s0 (returnHeadroom s k x port) := by
  unfold returnHeadroom
  extract_lets _ _
  split
  next h2 =>
  split
  next h3 =>
  have hs := (refundClaims_keepsDue <| (refundPorts_keepsDue <| clearOvercommit_keepsDue h).of_eq h2).of_eq h3
  split
  · exact hs
  · exact .ite hs (setFld_keepsDue hs)

theorem pinCount_keepsDue {n q pin ns} (h : DueKept s0 s) : DueKept s0 (pinCount s n q pin ns) := .ite (.ite (event_keepsDue h) h) h

/-! ### Link commands -/

theorem queueCmd_keepsDue {l code arg} (h : DueKept s0 s) : DueKept s0 (queueCmd s l code arg) := .ite h h

theorem sendCmd_keepsDue {l code arg} (h : DueKept s0 s) : DueKept s0 (sendCmd s l code arg) := .ite (queueCmd_keepsDue h) h

/-! ### Intents and clauses -/

theorem logIntent_keepsDue {p outcome} (h : DueKept s0 s) : DueKept s0 (logIntent s p outcome) := .ite (postRecord_keepsDue h) h

theorem portCount_keepsDue {f p} (h : DueKept s0 s) : DueKept s0 (portCount s f p) :=
  .ite (.ite (event_keepsDue (setFld_keepsDue h)) (setFld_keepsDue h)) h

theorem revokeIntent_keepsDue {p reason} (h : DueKept s0 s) : DueKept s0 (revokeIntent s p reason) :=
  .ite h <| logIntent_keepsDue <| portCount_keepsDue <| event_keepsDue <| setFld_keepsDue <|
  .foldl (returnHeadroom_keepsDue <| .rest <| setFld_keepsDue h) fun _ _ h => h

theorem releaseIntent_keepsDue {p} (h : DueKept s0 s) : DueKept s0 (releaseIntent s p) := .ite h (.rest (setFld_keepsDue h))

theorem engCount_keepsDue {f e conf} (h : DueKept s0 s) :
    DueKept s0 (engCount s f e conf) :=
  .ite (.ite (event_keepsDue <| setEng_keepsDue <| setFld_keepsDue h) (setFld_keepsDue h)) h

theorem unreserve_keepsDue {p k} (h : DueKept s0 s) : DueKept s0 (unreserve s p k) := .ite (returnHeadroom_keepsDue h) h

theorem unwindClause_keepsDue {e n} (h : DueKept s0 s) : DueKept s0 (unwindClause s e n) := by
  unfold unwindClause
  dsimp only
  split; exacts [.ite (.ite h h) h, h]

theorem revokeClause_keepsDue {e reason branch} (h : DueKept s0 s) : DueKept s0 (revokeClause s e reason branch) := by
  unfold revokeClause
  split
  · exact h
  · exact .via
        (fun h1 => .ite
          (.via (fun h2 => .ite (setFld_keepsDue h2) h2) (setFld_keepsDue (setEng_keepsDue h1)))
          h1)
        (engCount_keepsDue <| event_keepsDue <| setFld_keepsDue <| setFld_keepsDue <|
        setFld_keepsDue (setEng_keepsDue (.foldl (.foldl h (fun _ _ => unwindClause_keepsDue)) (fun _ _ => unreserve_keepsDue))))

theorem railTermsEnd_keepsDue {n ireason creason} (h : DueKept s0 s) : DueKept s0 (railTermsEnd s n ireason creason) :=
  .rest <| .foldl
    (.foldl h (fun _ _ h => .ite (revokeIntent_keepsDue h) h))
    (fun _ _ h => by split; exacts [.ite (revokeClause_keepsDue h) h, h])

/-! ### Rails -/

theorem sendSink_keepsDue {n} (h1 : DueKept s0 t) : DueKept s0 (sendSink s t n) := .ite h1 (.foldl h1 (fun _ _ => sendCmd_keepsDue))

theorem setRailState_keepsDue {n st} (h : DueKept s0 s) : DueKept s0 (setRailState s n st) :=
  .via
    (fun h1 => .via
      (fun h2 => sendSink_keepsDue (.ite h2 (noteHist_keepsDue (noteHist_keepsDue h2))))
      (.ite (supLeave_keepsDue h1) h1))
    (setFlag_keepsDue (setFld_keepsDue h))

theorem railDrain_keepsDue {n} (h : DueKept s0 s) : DueKept s0 (railDrain s n) :=
  .ite h (railTermsEnd_keepsDue (event_keepsDue (setRailState_keepsDue h)))

/-! ### Links -/

theorem linkDrain_keepsDue {l} (h : DueKept s0 s) : DueKept s0 (linkDrain s l) := .ite h h

/-! ### Conversion modules -/

theorem lxRerank_keepsDue (h : DueKept s0 s) : DueKept s0 (lxRerank s) := .foldl h (fun _ _ h => setFld_keepsDue (.ite h h))

theorem lxHandOver_keepsDue {a b} (h : DueKept s0 s) : DueKept s0 (lxHandOver s a b) := by
  unfold lxHandOver
  split; exacts [.ite h h, h]

theorem setLxState_keepsDue {m st} (h : DueKept s0 s) : DueKept s0 (setLxState s m st) :=
  .via (fun h1 => lxRerank_keepsDue (.ite h1 (.rest h1))) (lxHandOver_keepsDue (setFlag_keepsDue (setFld_keepsDue h)))

theorem lxDrain_keepsDue {m} (h : DueKept s0 s) : DueKept s0 (lxDrain s m) := .ite h (.rest (setLxState_keepsDue h))

theorem lxRetarget_keepsDue {m} (h1 : DueKept s0 t) : DueKept s0 (lxRetarget s t m) := .ite (event_keepsDue h1) h1

theorem lxChgDrop_keepsDue {m} (h : DueKept s0 s) : DueKept s0 (lxChgDrop s m) := by
  unfold lxChgDrop
  dsimp only
  split; exacts [h, event_keepsDue (lxRetarget_keepsDue (setFlag_keepsDue h))]

/-! ### Supervision -/

theorem hadcDrain_keepsDue {c} (h : DueKept s0 s) : DueKept s0 (hadcDrain s c) := event_keepsDue (setFlag_keepsDue h)

/-! ### Housekeeping rails -/

theorem auxPg_keepsDue {n b} (h : DueKept s0 s) : DueKept s0 (auxPg s n b) :=
  rstoUpdate_keepsDue (setFbit_keepsDue (setFlag_keepsDue h))

theorem auxKindsEnd_keepsDue {n} (h : DueKept s0 s) : DueKept s0 (auxKindsEnd s n) := setLevel_keepsDue h

theorem setAuxState_keepsDue {n st} (h : DueKept s0 s) : DueKept s0 (setAuxState s n st) :=
  .via (fun h1 => .ite h1 (auxPg_keepsDue (auxKindsEnd_keepsDue h1))) (setFlag_keepsDue (setFld_keepsDue h))

/-! ### Charger -/

theorem setBdis_keepsDue {b} (h : DueKept s0 s) : DueKept s0 (setBdis s b) := h

theorem setAssistEn_keepsDue {b} (h : DueKept s0 s) : DueKept s0 (setAssistEn s b) := h

theorem chgWithdraw_keepsDue (h : DueKept s0 s) : DueKept s0 (chgWithdraw s) := .foldl h (fun _ _ h => .ite (lxChgDrop_keepsDue h) h)

theorem bSuspend_keepsDue {r} (h : DueKept s0 s) : DueKept s0 (bSuspend s r) :=
  .ite h (.ite (setFld_keepsDue (setFld_keepsDue h)) (.ite (setFld_keepsDue h) h))

theorem hSuspend_keepsDue {r} (h : DueKept s0 s) : DueKept s0 (hSuspend s r) :=
  .ite h (.ite (setFld_keepsDue (setFld_keepsDue h)) (.ite (setFld_keepsDue h) h))

theorem chgModeChange_keepsDue (h : DueKept s0 s) : DueKept s0 (chgModeChange s) :=
  .ite (.ite h (bSuspend_keepsDue h)) (hSuspend_keepsDue (.ite h (bSuspend_keepsDue h)))

theorem chgDrain_keepsDue (h : DueKept s0 s) : DueKept s0 (chgDrain s) := by
  unfold chgDrain
  extract_lets sOff sAux sB sH sA
  have hAux : DueKept s0 sAux :=
    have hOff : DueKept s0 sOff := chgWithdraw_keepsDue (setBdis_keepsDue (setAssistEn_keepsDue h))
    .ite (setAuxState_keepsDue (setFlag_keepsDue hOff)) hOff
  have hB : DueKept s0 sB := setFld_keepsDue (.ite hAux (setFld_keepsDue hAux))
  have hH : DueKept s0 sH := setFld_keepsDue (.ite hB (setFld_keepsDue hB))
  have hA : DueKept s0 sA := setFld_keepsDue (.ite hH (setFld_keepsDue hH))
  exact event_keepsDue (setFlag_keepsDue (setFlag_keepsDue (.rest hA)))

/-! ### RAM lines -/

theorem chkCount_keepsDue {f n} (h : DueKept s0 s) : DueKept s0 (chkCount s f n) :=
  .ite h (.ite (.ite (event_keepsDue (setFld_keepsDue h)) (setFld_keepsDue h)) h)

theorem uncorrectable_keepsDue {ram i} (h : DueKept s0 s) : DueKept s0 (uncorrectable s ram i) :=
  .ite (postFault_keepsDue (chkCount_keepsDue h)) <| by
    dsimp only
    split
    · exact chkCount_keepsDue h
    · split
      · exact setFld_keepsDue (setFld_keepsDue (setFlag_keepsDue (event_keepsDue (postFault_keepsDue (chkCount_keepsDue h)))))
      · exact setFlag_keepsDue (event_keepsDue (postFault_keepsDue (chkCount_keepsDue h)))

theorem decodeLine_keepsDue {ram i} (h : DueKept s0 s) : DueKept s0 (State.decodeLine s ram i).1 := by
  unfold State.decodeLine
  split; exacts [h, .rest (postFault_keepsDue (chkCount_keepsDue h)), uncorrectable_keepsDue h]

theorem injectLine_keepsDue {ram i} (h : DueKept s0 s) : DueKept s0 (State.injectLine s ram i) :=
  injectItem_keepsDue (injectItem_keepsDue h (fun _ h => .ite h h)) (fun _ h => h)

theorem readLine_keepsDue {ram i} (h : DueKept s0 s) : DueKept s0 (State.readLine s ram i).1 :=
  injectTake_keepsDue (by decide) (injectTake_keepsDue (by decide) (decodeLine_keepsDue (injectLine_keepsDue h)))

theorem repairLine_keepsDue {ram i} (h : DueKept s0 s) : DueKept s0 (repairLine s ram i) := by
  unfold repairLine
  dsimp only
  split; exacts [setReg_keepsDue h, h]

theorem writeRam_keepsDue {ram w v} (h : DueKept s0 s) : DueKept s0 (State.writeRam s ram w v).1 :=
  .iteFst (setWord_keepsDue (readLine_keepsDue h)) (setWord_keepsDue (repairLine_keepsDue (readLine_keepsDue h)))

theorem markWritten_keepsDue {w} (h : DueKept s0 s) : DueKept s0 (State.markWritten s w) := .ite h h

/-! ### Intent ports -/

theorem drainPort_keepsDue {p} (h : DueKept s0 s) : DueKept s0 (drainPort s p) :=
  .ite (releaseIntent_keepsDue h) <| reduceAllowance_keepsDue <|
  setFlag_keepsDue <| setFld_keepsDue <| setFld_keepsDue <| event_keepsDue <|
  releaseIntent_keepsDue (revokeIntent_keepsDue h)

theorem readBank_keepsDue {b p} (h : DueKept s0 s) : DueKept s0 (readBank s b p) := .foldl h (fun _ _ => readLine_keepsDue)

theorem checkBank_keepsDue {p} (h : DueKept s0 s) : DueKept s0 (checkBank s p) :=
  .ite h <| by
    dsimp only
    split
    · exact injectTake_keepsDue (by decide) (setLevel_keepsDue (injectItem_keepsDue (readBank_keepsDue h) (fun _ h => h)))
    · exact setLevel_keepsDue (injectItem_keepsDue (readBank_keepsDue h) (fun _ h => h))

theorem publish_keepsDue {g} (h : DueKept s0 s) : DueKept s0 (publish s g) := .rest (.foldl h (fun _ _ => checkBank_keepsDue))

theorem anticipationModeChange_keepsDue {old m} (h : DueKept s0 s) : DueKept s0 (anticipationModeChange s old m) :=
  .ite h <| .via
    (fun h1 =>
      .ite
        (.foldl
          (.foldl (.foldl (.foldl h1 (fun _ _ => id)) (fun _ _ => revokeIntent_keepsDue)) (fun _ _ => reduceAllowance_keepsDue))
          (fun _ _ => id))
        (.ite (.foldl (.foldl h1 (fun _ _ h => .ite (revokeIntent_keepsDue h) h)) (fun _ _ => publish_keepsDue)) h1))
    (.ite (.foldl h (fun _ _ => drainPort_keepsDue)) h)

/-! ### Patina log -/

theorem readBack_keepsDue {i} (h : DueKept s0 s) : DueKept s0 (readBack s i) :=
  .via
    (fun h1 => .ite (readLine_keepsDue h1) (injectTake_keepsDue (by decide) (postFault_keepsDue (event_keepsDue (readLine_keepsDue h1)))))
    (injectItem_keepsDue h (fun _ h => h))

theorem markWrite_keepsDue (h : DueKept s0 s) : DueKept s0 (markWrite s) := by
  unfold markWrite
  split
  · exact h
  · exact readBack_keepsDue <|
      setFlag_keepsDue (.rest (.ite (readLine_keepsDue h) (repairLine_keepsDue (readLine_keepsDue h))))

theorem patDrain_keepsDue (h : DueKept s0 s) : DueKept s0 (patDrain s) :=
  .rest (event_keepsDue (.foldl (markWrite_keepsDue h) (fun _ _ => dropRecord_keepsDue)))

theorem patReset_keepsDue (h : DueKept s0 s) : DueKept s0 (patReset s) := .rest (.foldl h fun _ _ h => h)

/-! ### Checks and scan jobs -/

theorem scanLine_keepsDue {job x i} (h : DueKept s0 x.1) : DueKept s0 (scanLine job x i).1 := .iteFst h (readLine_keepsDue h)

theorem fillLine_keepsDue {job x i} (h : DueKept s0 x.1) : DueKept s0 (fillLine job x i).1 :=
  .iteFst h (.foldl h (fun _ _ h => .ite (markWritten_keepsDue (writeRam_keepsDue h)) (writeRam_keepsDue h)))

theorem jobLine_keepsDue {job x i} (h : DueKept s0 x.1) : DueKept s0 (jobLine job x i).1 :=
  .iteFst (fillLine_keepsDue h) (scanLine_keepsDue h)

theorem showAcc_keepsDue {x} (h : DueKept s0 s) : DueKept s0 (showAcc s x) := setFld_keepsDue (setFlag_keepsDue h)

theorem jobAborted_keepsDue {job k x} (h : DueKept s0 s) : DueKept s0 (jobAborted s job k x) :=
  .rest (setFld_keepsDue (setFld_keepsDue (showAcc_keepsDue h)))

theorem finishLine_keepsDue {job} (h : DueKept s0 s) : DueKept s0 (finishLine s job).1 := by
  unfold finishLine
  split; exacts [.iteFst h (jobLine_keepsDue h), h]

theorem scanAbort_keepsDue (h : DueKept s0 s) : DueKept s0 (scanAbort s) := by
  unfold scanAbort
  split; exacts [h, event_keepsDue (jobAborted_keepsDue (finishLine_keepsDue h))]

/-! ### OTP -/

theorem otpJudge_keepsDue (h : DueKept s0 s) : DueKept s0 (otpJudge s) :=
  .foldl (setFld_keepsDue h) (fun _ _ h => setFld_keepsDue (setFld_keepsDue h))

theorem otpEnd_keepsDue {result} (h : DueKept s0 s) : DueKept s0 (otpEnd s result) := by
  unfold otpEnd
  extract_lets _ s1 s2 s3
  have h2 : DueKept s0 s2 := setFld_keepsDue <| setFlag_keepsDue h
  have h3 : DueKept s0 s3 := by unfold s3; split <;> exact event_keepsDue h2
  exact otpJudge_keepsDue h3

theorem otpAbort_keepsDue (h : DueKept s0 s) : DueKept s0 (otpAbort s) := by
  unfold otpAbort
  split; exacts [.ite h (otpEnd_keepsDue h), h]

theorem shadowRelAll_keepsDue (h : DueKept s0 s) : DueKept s0 (shadowRelAll s) := .rest (setFld_keepsDue h)

/-! ### Thermal -/

theorem throttleEnd_keepsDue {n} (h : DueKept s0 s) : DueKept s0 (throttleEnd s n) :=
  pinCount_keepsDue (pinCount_keepsDue (resetReg_keepsDue h))

theorem nodeShutdownEnd_keepsDue {i} (h : DueKept s0 s) : DueKept s0 (nodeShutdownEnd s i) :=
  .ite (setLevel_keepsDue h) (.ite h (.ite (setLevel_keepsDue h) (setLevel_keepsDue h)))

theorem thmDrain_keepsDue (h : DueKept s0 s) : DueKept s0 (thmDrain s) :=
  .rest <| event_keepsDue <| .foldl
    (.foldl (.foldl h (fun _ _ => throttleEnd_keepsDue)) (fun _ _ h => .ite (nodeShutdownEnd_keepsDue h) h))
    (fun _ _ h => resetReg_keepsDue h)

/-! ### Watchdogs -/

theorem wdDiscard_keepsDue {n w} (h : DueKept s0 s) : DueKept s0 (wdDiscard s n w) :=
  setFld_keepsDue (setFld_keepsDue (setReg_keepsDue h))

theorem wdModeChange_keepsDue {old m} (h : DueKept s0 s) : DueKept s0 (wdModeChange s old m) :=
  .foldl h (fun _ _ h => .ite h (.ite (wdDiscard_keepsDue h) (.ite h h)))

/-! ### Engines -/

theorem engineDrain_keepsDue {e} (h : DueKept s0 s) : DueKept s0 (engineDrain s e) :=
  .ite h (setFld_keepsDue (setEng_keepsDue (revokeClause_keepsDue h)))

/-! ### Power domains -/

theorem lxLinksDrain_keepsDue {m} (h : DueKept s0 s) : DueKept s0 (lxLinksDrain s m) := linkDrain_keepsDue (linkDrain_keepsDue h)

theorem domainDrain_keepsDue {d} (h : DueKept s0 s) : DueKept s0 (domainDrain s d) := by
  unfold domainDrain
  split
  · exact otpAbort_keepsDue h
  · exact .foldl h (fun _ _ => engineDrain_keepsDue)
  · exact .foldl h (fun _ _ => engineDrain_keepsDue)
  · exact .foldl (.foldl (.foldl h (fun _ _ => drainPort_keepsDue)) (fun _ _ => railDrain_keepsDue)) (fun _ _ => linkDrain_keepsDue)
  · exact .foldl (.foldl h (fun _ _ => railDrain_keepsDue)) (fun _ _ => linkDrain_keepsDue)
  · exact .foldl h (fun _ _ => hadcDrain_keepsDue)
  · exact h
  · exact chgDrain_keepsDue h
  · exact .foldl h (fun _ _ h => .ite (lxDrain_keepsDue h) (lxLinksDrain_keepsDue (lxDrain_keepsDue h)))
  · exact patDrain_keepsDue (scanAbort_keepsDue h)
  · exact thmDrain_keepsDue h
  · exact h

/-! ### Faults -/

theorem pairFault_keepsDue (h : DueKept s0 s) : DueKept s0 (pairFault s) := .ite h (.rest (setFlag_keepsDue h))

theorem injectEnd_keepsDue {st} (h : DueKept s0 s) : DueKept s0 (injectEnd s st) := by
  unfold injectEnd
  split; exacts [.rest (setFld_keepsDue h), h]

/-! ### Modes -/

theorem startupRecord_keepsDue {point} (h : DueKept s0 s) : DueKept s0 (startupRecord s point) :=
  postRecord_keepsDue (setFld_keepsDue h)

theorem leaveMode_keepsDue {old m} (h : DueKept s0 s) : DueKept s0 (leaveMode s old m) :=
  .via
    (fun h1 =>
      .via
        (fun h2 => rstoUpdate_keepsDue (.ite (otpAbort_keepsDue h2) h2))
        (.ite (shadowRelAll_keepsDue (injectEnd_keepsDue (.ite (.rest h1) h1))) (.ite (.rest h1) h1)))
    (chgModeChange_keepsDue (wdModeChange_keepsDue h))

theorem drainDomains_keepsDue {l} (h : DueKept s0 s) : DueKept s0 (drainDomains s l) :=
  .foldl h (fun _ _ h => .foldl h (fun _ _ => domainDrain_keepsDue))

end Sys2Proof.Machine
end

section
/-! SUPPORT. What stops as the device goes down (R47, R302), what is written out (R433), and domains that are released (R22), beside the mode
controller and the shutdown deadline's fault. -/
namespace Sys2Proof.Machine

variable {s0 s t u : State}

/-! ### Rails and regulators stop -/

theorem pinCounts_keepsMode {n} {l : List Nat} (h : ModeKept s0 s) : ModeKept s0 (l.foldl (fun s q => pinCount s n q false 0) s) :=
  .foldl h fun _ _ => pinCount_keepsMode

theorem pinCounts_keepsDue {n} {l : List Nat} (h : DueKept s0 s) : DueKept s0 (l.foldl (fun s q => pinCount s n q false 0) s) :=
  .foldl h fun _ _ => pinCount_keepsDue

theorem railStop_keepsMode {n st} (h : ModeKept s0 s) : ModeKept s0 (railStop s n st) := by
  unfold railStop
  extract_lets a _ b c d
  have ha : ModeKept s0 a := setRailState_keepsMode h
  have hb : ModeKept s0 b := ha
  have hc : ModeKept s0 c := pinCounts_keepsMode hb
  have hd : ModeKept s0 d := setFld_keepsMode rfl (setFlag_keepsMode rfl hc)
  exact setFld_keepsMode rfl (setFld_keepsMode rfl (setFld_keepsMode rfl (setFld_keepsMode rfl (setFld_keepsMode rfl hd))))

theorem railStop_keepsDue {n st} (h : DueKept s0 s) : DueKept s0 (railStop s n st) := by
  unfold railStop
  extract_lets a _ b c d
  have ha : DueKept s0 a := setRailState_keepsDue h
  have hb : DueKept s0 b := ha
  have hc : DueKept s0 c := pinCounts_keepsDue hb
  have hd : DueKept s0 d := setFld_keepsDue (setFlag_keepsDue hc)
  exact setFld_keepsDue (setFld_keepsDue (setFld_keepsDue (setFld_keepsDue (setFld_keepsDue hd))))

theorem railLeave_keepsMode {n st ireason creason} (h : ModeKept s0 s) : ModeKept s0 (railLeave s n st ireason creason) :=
  .ite (railTermsEnd_keepsMode (railStop_keepsMode h)) (railStop_keepsMode h)

theorem railLeave_keepsDue {n st ireason creason} (h : DueKept s0 s) : DueKept s0 (railLeave s n st ireason creason) :=
  .ite (railTermsEnd_keepsDue (railStop_keepsDue h)) (railStop_keepsDue h)

theorem auxTurnOff_keepsMode {n why} (h : ModeKept s0 s) : ModeKept s0 (auxTurnOff s n why) :=
  .ite (setAuxState_keepsMode (setFld_keepsMode rfl h)) h

theorem auxTurnOff_keepsDue {n why} (h : DueKept s0 s) : DueKept s0 (auxTurnOff s n why) := .ite (setAuxState_keepsDue (setFld_keepsDue h)) h

/-! ### The queue of records is written out -/

theorem putRecord_keepsMode {r} (h : ModeKept s0 s) : ModeKept s0 (putRecord s r) := by
  unfold putRecord
  extract_lets _ _ _ _ _ w l _ p g q c
  have hw : ModeKept s0 w := setBytes_keepsMode (repairLine_keepsMode h)
  have hl : ModeKept s0 l := .ite (.rest hw) hw
  have hp : ModeKept s0 p := hl
  have hg : ModeKept s0 g := setFld_keepsMode rfl (setFld_keepsMode rfl hp)
  have hq : ModeKept s0 q := setFld_keepsMode rfl hg
  have hn : ModeKept s0 (q.countTo PAT_NEW_COUNT 4096) := countTo_keepsMode rfl hq
  have hc : ModeKept s0 c := .ite (.rest (event_keepsMode rfl hn)) hn
  exact .ite (.rest (setFlag_keepsMode rfl hc)) (readBack_keepsMode hc)

theorem putRecord_keepsDue {r} (h : DueKept s0 s) : DueKept s0 (putRecord s r) := by
  unfold putRecord
  extract_lets _ _ _ _ _ w l _ p g q c
  have hw : DueKept s0 w := setBytes_keepsDue (repairLine_keepsDue h)
  have hl : DueKept s0 l := .ite (.rest hw) hw
  have hq : DueKept s0 q := hl
  have hn : DueKept s0 (q.countTo PAT_NEW_COUNT 4096) := countTo_keepsDue hq
  have hc : DueKept s0 c := .ite (.rest (event_keepsDue hn)) hn
  exact .ite (.rest (setFlag_keepsDue hc)) (readBack_keepsDue hc)

theorem queueLost_keepsMode (h : ModeKept s0 s) : ModeKept s0 (queueLost s) := .ite h h

theorem queueLost_keepsDue (h : DueKept s0 s) : DueKept s0 (queueLost s) := .ite h h

theorem clearComplete_keepsMode (h : ModeKept s0 s) : ModeKept s0 (clearComplete s) := by
  unfold clearComplete
  extract_lets _ _ z y g c
  have hy : ModeKept s0 y := h
  have hg : ModeKept s0 g := setFld_keepsMode rfl hy
  have hc : ModeKept s0 c := event_keepsMode rfl (setFlag_keepsMode rfl (setFld_keepsMode rfl hg))
  exact .ite h (.ite (queueLost_keepsMode (putRecord_keepsMode hc)) hc)

theorem clearComplete_keepsDue (h : DueKept s0 s) : DueKept s0 (clearComplete s) := by
  unfold clearComplete
  extract_lets _ _ z y g c
  have hc : DueKept s0 c := h
  exact .ite h (.ite (queueLost_keepsDue (putRecord_keepsDue hc)) hc)

theorem rebuildComplete_keepsMode (h : ModeKept s0 s) : ModeKept s0 (rebuildComplete s) := by
  unfold rebuildComplete
  extract_lets r newest g
  have hr : ModeKept s0 r := .foldl h fun _ _ => readLine_keepsMode
  have hg : ModeKept s0 g := setFld_keepsMode rfl (setFlag_keepsMode rfl hr)
  refine .ite h ?_
  clear_value newest
  cases newest <;> exact setFld_keepsMode rfl (setFld_keepsMode rfl hg)

theorem rebuildComplete_keepsDue (h : DueKept s0 s) : DueKept s0 (rebuildComplete s) := by
  unfold rebuildComplete
  extract_lets r newest g
  have hr : DueKept s0 r := .foldl h fun _ _ => readLine_keepsDue
  have hg : DueKept s0 g := hr
  refine .ite h ?_
  clear_value newest
  cases newest <;> exact setFld_keepsDue (setFld_keepsDue hg)

theorem nextRecord_regs {r : PatRecord} (h : nextRecord s = some (r, t)) : t.regs = s.regs := by
  unfold nextRecord at h
  split at h
  · obtain ⟨-, rfl⟩ := Prod.ext_iff.mp (Option.some.inj h); rfl
  · obtain ⟨-, rfl⟩ := Prod.ext_iff.mp (Option.some.inj h); rfl
  · cases h

theorem nextRecord_keepsDue {r : PatRecord} (hn : nextRecord s = some (r, t)) (h : DueKept s0 s) : DueKept s0 t := by
  unfold nextRecord at hn
  split at hn
  · obtain ⟨-, rfl⟩ := Prod.ext_iff.mp (Option.some.inj hn); exact h
  · obtain ⟨-, rfl⟩ := Prod.ext_iff.mp (Option.some.inj hn); exact h
  · cases hn

theorem recordWrite_keepsDue (h : DueKept s0 s) : DueKept s0 (recordWrite s) := by
  unfold recordWrite
  refine .ite h ?_
  split
  next => exact h
  next r u hu =>
    have hk := nextRecord_keepsDue hu h
    exact .ite (dropRecord_keepsDue hk) (queueLost_keepsDue (putRecord_keepsDue hk))

theorem flushRecords_keepsDue (h : DueKept s0 s) : DueKept s0 (flushRecords s) :=
  .foldl (rebuildComplete_keepsDue (clearComplete_keepsDue (markWrite_keepsDue h))) fun _ _ h => markWrite_keepsDue (recordWrite_keepsDue h)

/-- The words of the mode controller and of WAKE are those of `s`. Writing the record that PD0 holds (R46) changes the controller's record,
so `ModeKept` does not hold of it. -/
def WordsKept (s t : State) : Prop := ∀ k, 0x20 ≤ k → k < 0x60 → cellGet 0 t.regs k = cellGet 0 s.regs k

theorem WordsKept.refl (s : State) : WordsKept s s := fun _ _ _ => rfl

theorem WordsKept.trans (h1 : WordsKept s t) (h2 : WordsKept t u) : WordsKept s u := fun k hl hh => (h2 k hl hh).trans (h1 k hl hh)

theorem WordsKept.ite {c : Prop} [Decidable c] (ht : WordsKept s t) (hu : WordsKept s u) : WordsKept s (if c then t else u) := by
  split <;> assumption

theorem ModeKept.words (h : ModeKept s t) : WordsKept s t := h.1

theorem recordWrite_words (s : State) : WordsKept s (recordWrite s) := by
  unfold recordWrite
  refine .ite (.refl s) ?_
  split
  next => exact .refl s
  next r u hu =>
    have hw : WordsKept s u := fun k _ _ => by rw [nextRecord_regs hu]
    exact .ite (hw.trans (dropRecord_keepsMode (.refl u)).words)
      (hw.trans (queueLost_keepsMode (putRecord_keepsMode (.refl u))).words)

theorem flushRecords_words (s : State) : WordsKept s (flushRecords s) :=
  List.foldlRecOn (motive := WordsKept s) _ _
    (rebuildComplete_keepsMode (clearComplete_keepsMode (markWrite_keepsMode (.refl s)))).words
    fun t ht _ _ => (ht.trans (recordWrite_words t)).trans (markWrite_keepsMode (.refl _)).words

/-! ### Domains are released -/

theorem keyDomain_low {k : Nat} (h : k < 0x60) : keyDomain k = 0 := by
  have hb : keyBase k = k := Nat.mod_eq_of_lt (by omega)
  exact if_pos (by omega)

theorem resetKeys_keepsMode {d} (h : ModeKept s0 s) : ModeKept s0 (s.resetKeys fun k => keyDomain k == d && d != 0 && !brkKey k) := by
  refine ⟨fun k hl hh => ?_, h.2⟩
  have hkeep : (!(keyDomain k == d && d != 0 && !brkKey k)) = true := by
    rw [keyDomain_low hh]
    cases d <;> rfl
  exact (cellGet_keep 0 (fun k => !(keyDomain k == d && d != 0 && !brkKey k)) s.regs k).trans ((if_pos hkeep).trans (h.1 k hl hh))

theorem dropUnits_keepsMode {d} (h : ModeKept s0 s) : ModeKept s0 (dropUnits s d) := by
  unfold dropUnits
  split <;> exact h

theorem dropUnits_keepsDue {d} (h : DueKept s0 s) : DueKept s0 (dropUnits s d) := by
  unfold dropUnits
  split <;> exact h

theorem railsNoSense_keepsMode (h : ModeKept s0 s) : ModeKept s0 (railsNoSense s) :=
  .foldl h fun _ _ h => .ite (.rest (railLeave_keepsMode h)) h

theorem railsNoSense_keepsDue (h : DueKept s0 s) : DueKept s0 (railsNoSense s) :=
  .foldl h fun _ _ h => .ite (postFault_keepsDue (railLeave_keepsDue h)) h

theorem domainOff_keepsMode {d} (h : ModeKept s0 s) : ModeKept s0 (domainOff s d) := by
  unfold domainOff
  extract_lets a b c p q r l
  have ha : ModeKept s0 a := .ite (railsNoSense_keepsMode h) (.ite (.foldl h fun _ _ => throttleEnd_keepsMode) h)
  have hc : ModeKept s0 c := dropUnits_keepsMode (resetKeys_keepsMode (setFbit_keepsMode rfl ha))
  have hp : ModeKept s0 p := .ite (patReset_keepsMode hc) hc
  have hq : ModeKept s0 q := .ite (setFlag_keepsMode rfl hp) hp
  have hr : ModeKept s0 r := .ite (setFlag_keepsMode rfl (setFlag_keepsMode rfl hq)) hq
  exact rstoUpdate_keepsMode (.rest hr)

theorem domainOff_keepsDue {d} (h : DueKept s0 s) : DueKept s0 (domainOff s d) := by
  unfold domainOff
  extract_lets a b c p q r l
  have ha : DueKept s0 a := .ite (railsNoSense_keepsDue h) (.ite (.foldl h fun _ _ => throttleEnd_keepsDue) h)
  have hb : DueKept s0 (b.resetKeys fun k => keyDomain k == d && d != 0 && !brkKey k) := ha
  have hc : DueKept s0 c := dropUnits_keepsDue hb
  have hp : DueKept s0 p := .ite (patReset_keepsDue hc) hc
  have hq : DueKept s0 q := .ite hp hp
  have hr : DueKept s0 r := .ite hq hq
  exact rstoUpdate_keepsDue hr

theorem releaseDomains_keepsMode {l} (h : ModeKept s0 s) : ModeKept s0 (releaseDomains s l) :=
  .foldl h fun _ _ h => .foldl h fun _ _ => domainOff_keepsMode

theorem releaseDomains_keepsDue {l} (h : DueKept s0 s) : DueKept s0 (releaseDomains s l) :=
  .foldl h fun _ _ h => .foldl h fun _ _ => domainOff_keepsDue

end Sys2Proof.Machine
end

section
/-! SUPPORT. The end of SHUTDOWN (R47, R48): the restart waits for its re-arm in SHUTDOWN, and otherwise TARGET reads the end state, whether the
transition to it has completed or waits for its drains. -/
namespace Sys2Proof.Machine

variable {s0 s t : State} {m : Nat}

/-! ### Transitions keep the deadline's fault due -/

theorem answerReq_keepsDue {r st} (h : DueKept s0 s) : DueKept s0 (answerReq s r st) := by
  unfold answerReq
  split
  · exact h
  · exact setFld_keepsDue h
  · exact .ite h (setEng_keepsDue h)

theorem holdRequests_keepsDue (h : DueKept s0 s) : DueKept s0 (holdRequests s) := by
  unfold holdRequests
  extract_lets x
  have hx : DueKept s0 x.1 := .foldlFst h fun y r hy => by
    dsimp only
    split
    · exact answerReq_keepsDue hy
    · exact hy
  exact hx

theorem setMode_keepsDue {src old trans} (h : DueKept s0 s) : DueKept s0 (setMode s src old m trans) := by
  unfold setMode
  extract_lets n w
  have hn : DueKept s0 n := noteMode_keepsDue h
  exact hn

theorem plinthEnter_keepsDue (h : DueKept s0 s) : DueKept s0 (plinthEnter s) := by
  unfold plinthEnter
  extract_lets a _ _ b
  have hb : DueKept s0 b := h
  exact startupRecord_keepsDue (pairFault_keepsDue (rstoUpdate_keepsDue hb))

theorem enterMode_keepsDue {r old} (h : DueKept s0 s) : DueKept s0 (enterMode s r old m) :=
  .ite h (.ite (startupRecord_keepsDue h) (.ite (plinthEnter_keepsDue h) (.ite h h)))

theorem applyOpt_keepsDue (h : DueKept s0 s) : DueKept s0 (applyOpt s) := .rest (drainDomains_keepsDue h)

theorem completeTransition_keepsDue {x} (h : DueKept s0 s) : DueKept s0 (completeTransition s x) := by
  unfold completeTransition
  extract_lets sAntic _ sNone sLeft sRecord _ sOld sEntered
  have hNone : DueKept s0 sNone := .rest (anticipationModeChange_keepsDue (holdRequests_keepsDue h))
  have hRecord : DueKept s0 sRecord := postRecord_keepsDue (leaveMode_keepsDue (setMode_keepsDue hNone))
  have hOld : DueKept s0 sOld := .ite (.rest hRecord) hRecord
  have hEntered : DueKept s0 sEntered := enterMode_keepsDue hOld
  exact .ite (applyOpt_keepsDue (.rest hEntered)) hEntered

theorem modeProgress_keepsDue (h : DueKept s0 s) : DueKept s0 (modeProgress s) := by
  unfold modeProgress
  split
  · exact .ite (.rest (releaseDomains_keepsDue h)) h
  · have hr := releaseDomains_keepsDue (l := Transition.release ‹_›) h
    exact .ite h (.ite (completeTransition_keepsDue hr) (.rest hr))

theorem goDown_keepsDue (h : DueKept s0 s) : DueKept s0 (goDown s m) := by
  unfold goDown
  extract_lets src n f p q rem d req
  have hn : DueKept s0 n := noteMode_keepsDue h
  have hp : DueKept s0 p := postRecord_keepsDue (flushRecords_keepsDue hn)
  have hq : DueKept s0 q := .ite (postRecord_keepsDue hp) hp
  have hd : DueKept s0 d := drainDomains_keepsDue (flushRecords_keepsDue hq)
  exact modeProgress_keepsDue (.rest hd)

/-! ### The end state shows in TARGET -/

theorem WordsKept.target (h : WordsKept s t) : t.fld SYS_MODE_TARGET = s.fld SYS_MODE_TARGET := by
  unfold State.fld State.reg
  rw [h _ (by decide) (by decide)]

theorem setMode_target (s : State) (src : ModeSrc) (old : Nat) (trans : Bool) (hm : m ≤ 1) :
    (setMode s src old m trans).fld SYS_MODE_TARGET = m := by
  let g := (s.setFld SYS_MODE_PREV old).setFld SYS_MODE_TARGET m
  let u := (g.setFlag SYS_MODE_TRANS trans).setFld SYS_MODECUR_CUR m
  let v := (s.noteMode u).setReg SYS_MODESRC (srcWord src old m)
  have hn : ModeKept u (s.noteMode u) := noteMode_keepsMode (.refl u)
  calc (v.setFlag SYS_MODE_RESUME false).fld SYS_MODE_TARGET
      = v.fld SYS_MODE_TARGET := fld_setFld_bits_ne (f := SYS_MODE_RESUME) v _ 0 rfl (by decide) (by decide)
    _ = (s.noteMode u).fld SYS_MODE_TARGET := fld_setReg_ne _ _ (by decide)
    _ = u.fld SYS_MODE_TARGET := hn.words.target
    _ = (g.setFlag SYS_MODE_TRANS trans).fld SYS_MODE_TARGET := fld_setFld_reg_ne _ _ (by decide)
    _ = g.fld SYS_MODE_TARGET := fld_setFld_bits_ne (f := SYS_MODE_TRANS) g _ 0 rfl (by decide) (by decide)
    _ = m := (fld_setFld_same _ SYS_MODE_TARGET m 0 (by decide)).trans (Nat.mod_eq_of_lt (Nat.lt_of_le_of_lt hm (by decide)))

/-- Entering DORMANT or SHIP does nothing in the mode controller besides. -/
theorem enterMode_down_keepsMode {r old} (hm : m ≤ 1) (h : ModeKept s0 s) : ModeKept s0 (enterMode s r old m) := by
  unfold enterMode
  rw [if_neg (ne_of_lt (Nat.lt_of_le_of_lt hm (by decide))), if_neg fun h => absurd h.1 (ne_of_lt (Nat.lt_of_le_of_lt hm (by decide))),
    if_neg (ne_of_lt (Nat.lt_of_le_of_lt hm (by decide)))]
  exact .ite h h

theorem completeTransition_target {x : Transition} (hx : x.target ≤ 1) : (completeTransition s x).fld SYS_MODE_TARGET = x.target := by
  unfold completeTransition
  extract_lets sAntic _ sNone sLeft sRecord _ sOld sEntered
  have hset : (setMode sNone x.req.src x.old x.target false).fld SYS_MODE_TARGET = x.target := setMode_target _ _ _ _ hx
  have hrecord : sRecord.fld SYS_MODE_TARGET = x.target :=
    (postRecord_keepsMode (leaveMode_keepsMode (.refl _))).words.target.trans hset
  have hold : sOld.fld SYS_MODE_TARGET = x.target := by
    have hw : WordsKept sRecord sOld := .ite (fun _ _ _ => rfl) (.refl _)
    exact hw.target.trans hrecord
  have hent : sEntered.fld SYS_MODE_TARGET = x.target := (enterMode_down_keepsMode hx (.refl sOld)).words.target.trans hold
  have hopt : (applyOpt { sEntered with mode := { sEntered.mode with optDue := false } }).fld SYS_MODE_TARGET = x.target := by
    have hk := drainDomains_keepsMode (l := domainsToRemove sEntered sEntered.cur)
      (.refl { sEntered with mode := { sEntered.mode with optDue := false } })
    exact hk.words.target.trans hent
  split
  · exact hopt
  · exact hent

theorem modeProgress_target {x : Transition} (hx : s.mode.trans = some x) (hm : x.target ≤ 1) (ht : s.fld SYS_MODE_TARGET = x.target) :
    (modeProgress s).fld SYS_MODE_TARGET = x.target := by
  unfold modeProgress
  simp only [hx]
  split
  · exact ht
  · split
    · exact completeTransition_target (x := { x with release := [] }) hm
    · exact (releaseDomains_keepsMode (.refl s)).words.target.trans ht

theorem goDown_target (s : State) (hm : m ≤ 1) : (goDown s m).fld SYS_MODE_TARGET = m := by
  unfold goDown
  extract_lets src n f p q rem d req
  let g := (s.setFld SYS_MODE_TARGET m).setFlag SYS_MODE_TRANS true
  have hg : g.fld SYS_MODE_TARGET = m :=
    (fld_setFld_bits_ne (f := SYS_MODE_TRANS) (g := SYS_MODE_TARGET) (s.setFld SYS_MODE_TARGET m) _ 0 rfl (by decide) (by decide)).trans
      ((fld_setFld_same _ SYS_MODE_TARGET m 0 (by decide)).trans (Nat.mod_eq_of_lt (Nat.lt_of_le_of_lt hm (by decide))))
  have hn : WordsKept g n := (noteMode_keepsMode (.refl g)).words
  have hp : WordsKept g p := (hn.trans (flushRecords_words n)).trans (postRecord_keepsMode (.refl f)).words
  have hq : WordsKept g q := .ite (hp.trans (postRecord_keepsMode (.refl p)).words) hp
  have hd : WordsKept g d := (hq.trans (flushRecords_words q)).trans (drainDomains_keepsMode (.refl _)).words
  exact modeProgress_target (x := { req := req, old := modeShutdown, target := m, release := rem, tiers := [] }) rfl hm
    (hd.target.trans hg)

/-! ### The end of the down-sequence -/

/-- With no transition in progress, only optional domains are released. -/
theorem modeProgress_none (hx : s.mode.trans = none) :
    (modeProgress s).mode.rearm = s.mode.rearm ∧ (modeProgress s).cur = s.cur := by
  unfold modeProgress
  simp only [hx]
  have hk := releaseDomains_keepsMode (l := s.mode.optRelease) (.refl s)
  split
  · exact ⟨rfl, hk.cur⟩
  · exact ⟨rfl, rfl⟩

/-- The end of the down-sequence restarts the device: as asked, or because the supply whose loss was the cause has returned (R47, R48). -/
def restarts (s : State) : Bool :=
  decide (shutdownEnd s = 2) || decide (shutdownEnd s = 0) && decide (s.fld SYS_MODESRC_HWCAUSE = 1) && !s.pins.inputLow

/-- The down-sequence of SHUTDOWN ends now. -/
structure DownEnds (s : State) : Prop where
  cur : s.cur = modeShutdown
  trans : s.mode.trans = none
  rearm : s.mode.rearm = false
  done : downRunning s = false ∨ s.mode.deadline = true

theorem shutdownEnd_congr (h : t.mode.shutdown = s.mode.shutdown) : shutdownEnd t = shutdownEnd s := by
  unfold shutdownEnd
  rw [h]

/-- The AUX regulators are turned off. -/
def auxDown (s : State) : State := (List.range 4).foldl (fun s n => auxTurnOff s n 4) s

theorem auxDown_keepsMode (s : State) : ModeKept s (auxDown s) := .foldl (.refl s) fun _ _ => auxTurnOff_keepsMode

theorem auxDown_keepsDue (s : State) : DueKept s (auxDown s) := .foldl (.refl s) fun _ _ => auxTurnOff_keepsDue

/-- The restart: the domains drain, and the re-arm runs. -/
def restart (s : State) : State :=
  let rem := (List.range 12).filter (fun d => d != 0 && s.fbit PDC_STAT_ON d)
  let u := drainDomains s rem
  modeProgress (withMode u { u.mode with rearm := true, optRelease := rem })

/-- The end state SHIP, or DORMANT where something blocks it (R276). -/
def shipOrDormant (s : State) : State :=
  if shipBlock s = 0 then goDown s modeShip
  else goDown (s.postRecord { kind := 7, src := 0x40, time := s.tbase, bytes := [shipBlock s] }) modeDormant

theorem downEnd_eq (h : DownEnds s) : downEnd s =
    if restarts s = true then restart (auxDown s)
    else if shutdownEnd s = 1 then shipOrDormant (if (auxDown s).powered 8 then chgDrain (auxDown s) else auxDown s)
    else goDown (auxDown s) modeDormant := by
  have hg : ¬ (s.cur ≠ modeShutdown ∨ s.mode.trans.isSome ∨ s.mode.rearm ∨ (downRunning s ∧ !s.mode.deadline)) := by
    rcases h.done with hd | hd <;> simp [h.cur, h.trans, h.rearm, hd]
  have hlow : (auxDown s).pins.inputLow = s.pins.inputLow := (auxDown_keepsDue s).2.2.2
  have hiff : (shutdownEnd s = 2 ∨ (shutdownEnd s = 0 ∧ (s.fld SYS_MODESRC_HWCAUSE == 1) = true ∧ (!(auxDown s).pins.inputLow) = true))
      ↔ restarts s = true := by
    rw [hlow]
    simp [restarts, and_assoc]
  refine (if_neg hg).trans ?_
  exact if_congr hiff rfl rfl

theorem restart_rearms (hx : s.mode.trans = none) : (restart s).mode.rearm = true ∧ (restart s).cur = s.cur := by
  unfold restart
  extract_lets rem u
  have hu : ModeKept s u := drainDomains_keepsMode (.refl s)
  obtain ⟨hr, hc⟩ := modeProgress_none (s := withMode u { u.mode with rearm := true, optRelease := rem }) (hu.trans.trans hx)
  exact ⟨hr, hc.trans hu.cur⟩

theorem shipOrDormant_target (s : State) : (shipOrDormant s).fld SYS_MODE_TARGET ≤ 1
    ∧ (s.pins.wakeBtn = true ∨ s.pins.srcdet = true → (shipOrDormant s).fld SYS_MODE_TARGET = 1) := by
  unfold shipOrDormant
  split
  next hb =>
    rw [goDown_target _ (by decide)]
    refine ⟨by decide, fun hpin => ?_⟩
    unfold shipBlock at hb
    rcases hpin with h | h <;> rw [h] at hb <;> simp at hb
  next =>
    rw [goDown_target _ (by decide)]
    exact ⟨by decide, fun _ => rfl⟩

/-- A restart stays in SHUTDOWN for its re-arm; otherwise TARGET reads the end state, DORMANT where SHIP is not asked for or a wake input is
high (R47, R48, R276). -/
theorem downEnd_acts (h : DownEnds s) :
    (restarts s = true → (downEnd s).mode.rearm = true ∧ (downEnd s).cur = 11)
      ∧ (restarts s = false → (downEnd s).fld SYS_MODE_TARGET ≤ 1)
      ∧ (restarts s = false → shutdownEnd s = 0 ∨ s.pins.wakeBtn = true ∨ s.pins.srcdet = true → (downEnd s).fld SYS_MODE_TARGET = 1) := by
  rw [downEnd_eq h]
  have hmode := auxDown_keepsMode s
  have hdue := auxDown_keepsDue s
  have hship : DueKept s (if (auxDown s).powered 8 then chgDrain (auxDown s) else auxDown s) := .ite (chgDrain_keepsDue hdue) hdue
  by_cases hr : restarts s = true
  · obtain ⟨hre, hc⟩ := restart_rearms (hmode.trans.trans h.trans)
    simp only [hr, if_true]
    exact ⟨fun _ => ⟨hre, hc.trans (hmode.cur.trans h.cur)⟩, nofun, nofun⟩
  · rw [if_neg hr]
    refine ⟨fun hy => absurd hy hr, fun _ => ?_, fun _ hpin => ?_⟩
    · split
      · exact (shipOrDormant_target _).1
      · exact (goDown_target _ (by decide)).le
    · split
      next hlast =>
        obtain ⟨-, hbtn, hsrc, -⟩ := hship
        refine (shipOrDormant_target _).2 ?_
        rw [hbtn, hsrc]
        exact hpin.resolve_left (by rw [hlast]; decide)
      next => exact goDown_target _ (by decide)

theorem downEnd_keepsDue (h : DownEnds s) : DueKept s (downEnd s) := by
  rw [downEnd_eq h]
  have hdue := auxDown_keepsDue s
  have hship : DueKept s (if (auxDown s).powered 8 then chgDrain (auxDown s) else auxDown s) := .ite (chgDrain_keepsDue hdue) hdue
  refine .ite ?_ (.ite ?_ (goDown_keepsDue hdue))
  · unfold restart
    exact modeProgress_keepsDue (drainDomains_keepsDue hdue)
  · exact .ite (goDown_keepsDue hship) (goDown_keepsDue (postRecord_keepsDue hship))

end Sys2Proof.Machine
end

section
/-! SUPPORT. The commands of SHUTDOWN, and the release of the die limit (R322). -/
namespace Sys2Proof.Machine

variable {s0 s t : State}

theorem ModeKept.shutdown (h : ModeKept s t) : t.mode.shutdown = s.mode.shutdown := by rw [h.2]
theorem ModeKept.rearm (h : ModeKept s t) : t.mode.rearm = s.mode.rearm := by rw [h.2]
theorem ModeKept.deadline (h : ModeKept s t) : t.mode.deadline = s.mode.deadline := by rw [h.2]

/-! ### The shutdown deadline -/

/-- What the deadline stops at once (R47): every enabled rail, LX and CHG. -/
def stopAll (s : State) : State :=
  let s := (List.range 32).foldl (fun s n =>
    let st := railState s n
    if s.powered (railDomain n) ∧ (st = rsSoftstart ∨ st = rsRegulate ∨ st = rsStopping ∨ st = rsHiccupOff ∨ st = rsLatched)
    then railLeave s n rsOff 4 4 else s) s
  let s := if s.powered 9 then (List.range 4).foldl lxDrain s else s
  if s.powered 8 then chgDrain s else s

theorem stopAll_keepsMode (h : ModeKept s0 s) : ModeKept s0 (stopAll s) := by
  unfold stopAll
  extract_lets r x
  have hr : ModeKept s0 r := .foldl h fun _ _ h => .ite (railLeave_keepsMode h) h
  have hx : ModeKept s0 x := .ite (.foldl hr fun _ _ => lxDrain_keepsMode) hr
  exact .ite (chgDrain_keepsMode hx) hx

theorem stopAll_keepsDue (h : DueKept s0 s) : DueKept s0 (stopAll s) := by
  unfold stopAll
  extract_lets r x
  have hr : DueKept s0 r := .foldl h fun _ _ h => .ite (railLeave_keepsDue h) h
  have hx : DueKept s0 x := .ite (.foldl hr fun _ _ => lxDrain_keepsDue) hr
  exact .ite (chgDrain_keepsDue hx) hx

/-- The state in which the deadline has passed and the end state applies. -/
def deadlinePassed (s : State) : State :=
  let u := stopAll (s.postFault 363 0 0 0)
  withMode u { u.mode with deadline := true }

theorem shutdownDeadline_eq (hc : s.cur = modeShutdown) (hx : s.mode.trans = none) (hr : s.mode.rearm = false)
    (hd : s.mode.deadline = false) : shutdownDeadline s = downEnd (deadlinePassed s) := by
  have hg : ¬ (s.cur ≠ modeShutdown ∨ s.mode.trans.isSome ∨ s.mode.rearm ∨ s.mode.deadline) := by simp [hc, hx, hr, hd]
  exact if_neg hg

theorem deadlinePassed_keepsMode (s : State) : ModeKept s (stopAll (s.postFault 363 0 0 0)) := stopAll_keepsMode (.rest (.refl s))

theorem deadlinePassed_keepsDue (s : State) : DueKept (s.postFault 363 0 0 0) (deadlinePassed s) := by
  have h := stopAll_keepsDue (.refl (s.postFault 363 0 0 0))
  exact h

theorem restarts_congr (hm : t.mode.shutdown = s.mode.shutdown) (hw : t.fld SYS_MODESRC_HWCAUSE = s.fld SYS_MODESRC_HWCAUSE)
    (hl : t.pins.inputLow = s.pins.inputLow) : restarts t = restarts s := by
  unfold restarts
  rw [shutdownEnd_congr hm, hw, hl]

theorem shutdownDeadline_acts (hc : s.cur = modeShutdown) (hx : s.mode.trans = none) (hr : s.mode.rearm = false)
    (hd : s.mode.deadline = false) :
    (⟨363, 0, 0, 0⟩ : FaultPost) ∈ (shutdownDeadline s).flt.due
      ∧ (restarts s = true → (shutdownDeadline s).mode.rearm = true ∧ (shutdownDeadline s).cur = 11)
      ∧ (restarts s = false → (shutdownDeadline s).fld SYS_MODE_TARGET ≤ 1)
      ∧ (restarts s = false → shutdownEnd s = 0 → (shutdownDeadline s).fld SYS_MODE_TARGET = 1) := by
  rw [shutdownDeadline_eq hc hx hr hd]
  have hk := deadlinePassed_keepsMode s
  have hdue := deadlinePassed_keepsDue s
  have hshut : (deadlinePassed s).mode.shutdown = s.mode.shutdown := hk.shutdown
  have hsrc : (deadlinePassed s).fld SYS_MODESRC_HWCAUSE = s.fld SYS_MODESRC_HWCAUSE := hk.fld (by decide) (by decide)
  have hends : DownEnds (deadlinePassed s) :=
    ⟨hk.cur.trans hc, hk.trans.trans hx, hk.rearm.trans hr, .inr rfl⟩
  have hposted : (⟨363, 0, 0, 0⟩ : FaultPost) ∈ (deadlinePassed s).flt.due :=
    hdue.1 _ (List.mem_append_right _ (List.mem_singleton_self _)) rfl
  obtain ⟨hre, hle, hdorm⟩ := downEnd_acts hends
  rw [restarts_congr hshut hsrc hdue.2.2.2] at hre hle hdorm
  rw [shutdownEnd_congr hshut] at hdorm
  exact ⟨(downEnd_keepsDue hends).1 _ hposted rfl, hre, hle, fun ha h0 => hdorm ha (.inl h0)⟩

/-! ### The end of the down-sequence -/

theorem noteHist_regs (s : State) (k : Nat) : (s.noteHist k).regs = s.regs :=
  List.foldlRecOn (motive := fun t : State => t.regs = s.regs) _ _ rfl fun t ht e _ => by
    dsimp only
    split
    · split <;> exact ht
    · exact ht

theorem noteIf_regs (s : State) (b : Bool) (k : Nat) : (s.noteIf b k).regs = s.regs := by
  unfold State.noteIf
  split
  · exact noteHist_regs s k
  · rfl

theorem setWakePins_regs (s : State) (btn src : Bool) : (s.setWakePins btn src).regs = s.regs :=
  (noteIf_regs ..).trans (noteIf_regs ..)

/-- Whether an engine still runs its program shows in the registers. -/
theorem downRunning_congr (h : t.regs = s.regs) : downRunning t = downRunning s := by
  simp only [downRunning, holdsProgram, progOf, engState, State.powered, State.fbit, State.cur, fld_congr h]

theorem downSequenceEnd_waits (btn src : Bool) (hr : downRunning s = true) (hd : s.mode.deadline = false) :
    downEnd (s.setWakePins btn src) = s.setWakePins btn src := by
  have hrun : downRunning (s.setWakePins btn src) = true := (downRunning_congr (setWakePins_regs s btn src)).trans hr
  have hdead : (s.setWakePins btn src).mode.deadline = false :=
    (setWakePins_keepsMode (.refl s)).deadline.trans hd
  exact if_pos (.inr (.inr (.inr ⟨hrun, by rw [hdead]; rfl⟩)))

theorem downSequenceEnd_acts (btn src : Bool) (hc : s.cur = modeShutdown) (hx : s.mode.trans = none) (hr : s.mode.rearm = false)
    (hrun : downRunning s = false) :
    (restarts s = true → (downEnd (s.setWakePins btn src)).mode.rearm = true ∧ (downEnd (s.setWakePins btn src)).cur = 11)
      ∧ (restarts s = false → (downEnd (s.setWakePins btn src)).fld SYS_MODE_TARGET ≤ 1)
      ∧ (restarts s = false → shutdownEnd s = 0 ∨ (btn || src) = true → (downEnd (s.setWakePins btn src)).fld SYS_MODE_TARGET = 1) := by
  have hk : ModeKept s (s.setWakePins btn src) := setWakePins_keepsMode (.refl s)
  have hp := setWakePins_pins s btn src
  have hshut : (s.setWakePins btn src).mode.shutdown = s.mode.shutdown := hk.shutdown
  have hends : DownEnds (s.setWakePins btn src) :=
    ⟨hk.cur.trans hc, hk.trans.trans hx, hk.rearm.trans hr, .inl ((downRunning_congr (setWakePins_regs ..)).trans hrun)⟩
  obtain ⟨hre, hle, hdorm⟩ := downEnd_acts hends
  rw [restarts_congr hshut (fld_congr (setWakePins_regs ..) _ _) (by rw [hp])] at hre hle hdorm
  rw [shutdownEnd_congr hshut, hp] at hdorm
  exact ⟨hre, hle, fun ha h => hdorm ha (h.imp_right (Bool.or_eq_true _ _).mp)⟩

/-! ### The die limit -/

/-- At most one comparator that stood asserted stays so (R322). -/
theorem dieLeft_asserted (h : s.flag SYS_DIELIM_ASSERT = true) :
    (dieLeft s).1 = s.free.2
      ∧ ((dieLeft s).2 = 0 ∨ ∃ k : Fin 9, (dieLeft s).2 = 2 ^ k.val ∧ (s.fld SYS_DIELIM_SENS).testBit k = true) := by
  unfold dieLeft
  rw [if_pos h]
  refine ⟨rfl, ?_⟩
  dsimp only
  split
  next hk => exact .inr ⟨⟨_, hk.1⟩, rfl, hk.2⟩
  next => exact .inl rfl

/-- The release without a wake event held. -/
def dieReleased (s : State) (left : Nat) : State :=
  let t := ((s.setFld SYS_DIELIM_SENS left).setFlag SYS_DIELIM_ASSERT false).setLevel 334 0 0 0 false
  withMode t { t.mode with heldWakes := 0 }

theorem dieRelease_asserted (h : s.flag SYS_DIELIM_ASSERT = true) (hw : s.mode.heldWakes = 0) :
    dieRelease s = dieReleased s.free.2 (dieLeft s).2 := by
  have hstays : ((s.free.2).setFld SYS_DIELIM_SENS (dieLeft s).2).flag SYS_DIELIM_ASSERT = true :=
    (congrArg (· != 0) (fld_setFld_bits_ne (f := SYS_DIELIM_SENS) (g := SYS_DIELIM_ASSERT) _ _ 0 rfl (by decide) (by decide))).trans h
  have hpair : dieLeft s = (s.free.2, (dieLeft s).2) := Prod.ext (dieLeft_asserted h).1 rfl
  unfold dieRelease
  rw [hpair]
  exact (if_pos hstays).trans (if_neg fun hn => hn.1 hw)

theorem dieReleased_regs (s : State) (left : Nat) :
    (dieReleased s left).regs = ((s.setFld SYS_DIELIM_SENS left).setFlag SYS_DIELIM_ASSERT false).regs := rfl

theorem dieReleased_assert (s : State) (left : Nat) : (dieReleased s left).flag SYS_DIELIM_ASSERT = false := by
  rw [flag_congr (dieReleased_regs s left), State.flag, State.setFlag, fld_setFld_same _ _ _ _ (by decide)]
  rfl

theorem dieReleased_sens (s : State) {left : Nat} (h : left < 2 ^ 9) : (dieReleased s left).fld SYS_DIELIM_SENS = left := by
  rw [fld_congr (dieReleased_regs s left), State.setFlag,
    fld_setFld_bits_ne (f := SYS_DIELIM_ASSERT) (g := SYS_DIELIM_SENS) _ _ _ rfl (by decide) (by decide), fld_setFld_same _ _ _ _ (by decide)]
  exact Nat.mod_eq_of_lt h

theorem dieReleased_sameRegs (s : State) (left : Nat) : SameRegs s (dieReleased s left) [SYS_DIELIM.addr 0] :=
  fun k hk => (SameRegs.trans (SameRegs.setFld s SYS_DIELIM_SENS left 0) (SameRegs.setFld _ SYS_DIELIM_ASSERT 0 0)) k hk

theorem dieRelease_free (h : s.flag SYS_DIELIM_ASSERT = false) : dieRelease s = s.setFld SYS_DIELIM_SENS 0 := by
  have hpair : dieLeft s = (s, 0) := if_neg (by rw [h]; decide)
  have hstays : ¬ (s.setFld SYS_DIELIM_SENS 0).flag SYS_DIELIM_ASSERT = true := by
    rw [State.flag, fld_setFld_bits_ne (f := SYS_DIELIM_SENS) (g := SYS_DIELIM_ASSERT) _ _ 0 rfl (by decide) (by decide)]
    exact ne_true_of_eq_false h
  unfold dieRelease
  rw [hpair]
  exact if_neg hstays

/-! ### The input supply -/

/-- PREIN stands below, or above, the input-loss threshold. -/
def supplyLow (s : State) (b : Bool) : State := { s with pins := { s.pins with inputLow := b } }

theorem exec_inputSupplyLost (hp : s.powered 0 = true) (mv : Nat) : exec (.inputSupplyLost mv) s = .next
    (if decide (mv < inlossThreshold s) && !s.pins.inputLow
      then (supplyLow s (decide (mv < inlossThreshold s))).postCause 1 modeShutdown
      else supplyLow s (decide (mv < inlossThreshold s))) := on_powered hp

end Sys2Proof.Machine
end

section
open Sys2Proof Sys2Proof.Machine

/-- Settles O17: whatever the units do as the device goes down, they leave the mode controller's words, the deadline's fault and the inputs
alone, so that the end of SHUTDOWN is decided by the state that the command meets. -/
theorem supplyAndDeadlineEventsAct : Obligations.SupplyAndDeadlineEventsAct := by
  unfold Obligations.SupplyAndDeadlineEventsAct
  intro s again mv hp ha
  have hr : again = restarts s := ha
  subst hr
  refine ⟨fun hl hlow => ⟨_, exec_inputSupplyLost hp mv, ?_⟩, fun hl hlow => ?_, fun hl => ⟨_, exec_inputSupplyLost hp mv, ?_⟩,
    fun hc hx hre hd => ⟨⟨_, on_powered hp, shutdownDeadline_acts hc hx hre hd⟩, fun btn src =>
      ⟨fun hrun => ?_, fun hrun => ⟨_, on_powered hp, downSequenceEnd_acts btn src hc hx hre hrun⟩⟩⟩,
    fun hc hw hdue hfail => ⟨_, on_powered hp, ?_⟩, fun hassert hw => ⟨_, on_powered hp, ?_⟩, fun hassert => ⟨_, on_powered hp, ?_⟩⟩
  · rw [if_pos (by simp [hl, hlow])]
    exact ⟨decide_eq_true hl, rfl, rfl, rfl⟩
  · rw [exec_inputSupplyLost hp, if_neg (by simp [hlow]), decide_eq_true hl, ← hlow]
    rfl
  · rw [if_neg (by simp [hl]), decide_eq_false (Nat.not_lt.mpr hl)]
    rfl
  · exact (on_powered hp).trans (congrArg _ (downSequenceEnd_waits btn src hrun hd))
  · rw [if_pos ⟨hc, hw⟩, failDue, if_neg (by simp [hdue, hfail])]
    exact ⟨rfl, rfl, rfl, rfl⟩
  · rw [dieRelease_asserted hassert hw]
    obtain ⟨-, hleft⟩ := dieLeft_asserted hassert
    have hlt : (dieLeft s).2 < 2 ^ 9 := by
      rcases hleft with h | ⟨k, h, -⟩
      · rw [h]; decide
      · rw [h]; exact Nat.pow_lt_pow_right (by decide) k.isLt
    refine ⟨dieReleased_assert _ _, ?_, dieReleased_sameRegs s.free.2 _, rfl⟩
    rw [dieReleased_sens _ hlt]
    exact hleft
  · rw [dieRelease_free hassert]
    exact setFld_reads_regsOnly (by decide) (by decide)
end

section
/-! SUPPORT. What the units do in a transition or as a start fails leaves the words of the mode controller and of WAKE, CLK_STAT or
PDC_STAT, and start-up's record alone; `ModeKept` says nothing of the last three. -/
namespace Sys2Proof.Machine

/-- The word of the power and clock registers that is kept besides the start-up words: none, PDC_STAT, or CLK_STAT. -/
inductive PowerWord where
  | none | power | clock

/-- Its key; without one, that of SYS_MODE, which is kept in any case. -/
def PowerWord.key : PowerWord → Nat
  | .none => 0x20
  | .power => 0x100
  | .clock => 0x110

/-- The words of the mode controller and of WAKE (0x20 to 0x5F), and the power word chosen, are those of `s`, and so is the start-up's record
but for the ring of R71. -/
def StartPart (pw : PowerWord) (s : State) (regs : List (Nat × Word)) (boot : BootH) : Prop :=
  (∀ k, (0x20 ≤ k ∧ k < 0x60) ∨ k = pw.key → cellGet 0 regs k = cellGet 0 s.regs k)
    ∧ boot = { s.boot with ring := boot.ring, ringSeq := boot.ringSeq }

/-- State `t` has kept them. -/
abbrev StartKept (pw : PowerWord) (s t : State) : Prop := StartPart pw s t.regs t.boot

variable {pw : PowerWord} {s0 s t u : State}

theorem StartKept.refl (s : State) : StartKept pw s s := ⟨fun _ _ => rfl, rfl⟩

theorem StartKept.trans (h1 : StartKept pw s t) (h2 : StartKept pw t u) : StartKept pw s u :=
  ⟨fun k hk => (h2.1 k hk).trans (h1.1 k hk), by rw [h2.2, h1.2]⟩

theorem StartKept.ite {c : Prop} [Decidable c] (hs : StartKept pw s0 s) (ht : StartKept pw s0 t) : StartKept pw s0 (if c then s else t) := by
  split <;> assumption

theorem StartKept.iteFst {α : Type} {c : Prop} [Decidable c] {x y : State × α} (hx : StartKept pw s0 x.1) (hy : StartKept pw s0 y.1) :
    StartKept pw s0 (if c then x else y).1 := by
  split <;> assumption

theorem StartKept.foldl {α : Type} {f : State → α → State} {l : List α} (hs : StartKept pw s0 s)
    (hf : ∀ t x, StartKept pw s0 t → StartKept pw s0 (f t x)) : StartKept pw s0 (l.foldl f s) :=
  List.foldlRecOn l f hs fun t ht x _ => hf t x ht

theorem StartKept.foldlFst {α β : Type} {f : State × β → α → State × β} {l : List α} {x : State × β} (hx : StartKept pw s0 x.1)
    (hf : ∀ y a, StartKept pw s0 y.1 → StartKept pw s0 (f y a).1) : StartKept pw s0 (l.foldl f x).1 :=
  List.foldlRecOn l f (motive := fun y => StartKept pw s0 y.1) hx fun y hy a _ => hf y a hy

theorem StartKept.of_eq {α : Type} {x : State × α} {a : α} (hx : StartKept pw s0 x.1) (he : x = (s, a)) : StartKept pw s0 s := by
  rw [he] at hx; exact hx

/-- The other parts of the state do not matter. -/
theorem StartKept.rest {part pairs mem lines tbase freeCtr armq armSeq mode bud groups ports rails engs progs pmap sigs pat flt sup pins
    links lx chg thm chk otp wds wdStart hosts intc tap pending} (h : StartKept pw s0 s) :
    StartKept pw s0 ⟨part, s.regs, pairs, mem, lines, tbase, freeCtr, armq, armSeq, mode, bud, groups, ports, rails, engs, progs, pmap, sigs,
      pat, flt, sup, pins, links, lx, s.boot, chg, thm, chk, otp, wds, wdStart, hosts, intc, tap, pending⟩ := h

/-- An intermediate state that has kept them, from which the state goes on. -/
theorem StartKept.via (hf : StartKept pw s0 t → StartKept pw s0 s) (ht : StartKept pw s0 t) : StartKept pw s0 s := hf ht

theorem StartKept.setCell {k : Nat} {w : Word} (h : StartKept pw s0 s) (hk : k < 0x20 ∨ 0x60 ≤ k ∧ k < 0x100 ∨ 0x110 < k) :
    StartPart pw s0 (cellSet 0 s.regs k w) s.boot := by
  have hne : pw.key ≠ k := by cases pw <;> simp only [PowerWord.key] <;> omega
  exact ⟨fun j hj => (cellGet_set_ne _ _ _ (by rintro rfl; rcases hj with hj | hj; exacts [by omega, hne hj.symm])).trans (h.1 j hj), h.2⟩

/-- The ring of R71 is no part of it. -/
theorem StartKept.setRing (h : StartKept pw s0 s) (ring : List (List Nat)) (seq : Nat) :
    StartPart pw s0 s.regs { s.boot with ring := ring, ringSeq := seq } := ⟨h.1, by rw [h.2]⟩

/-- The words of register `r` lie apart from the start-up words and from the power words. -/
def Reg.beside (r : Reg) : Bool := Nat.ble 0x111 r.base || (Nat.ble 0x60 r.base && Nat.ble (r.base + r.stride * r.count) 0xFF)

theorem Reg.beside_addr (r : Reg) (h : r.beside = true) (n : Nat) : 0x60 ≤ r.addr n ∧ r.addr n < 0x100 ∨ 0x110 < r.addr n := by
  simp only [Reg.beside, Bool.or_eq_true, Bool.and_eq_true, Nat.ble_eq] at h
  rcases addr_cases r n with ⟨hn, e⟩ | ⟨-, e⟩ <;> rw [e]
  · have hle : r.stride * n ≤ r.stride * r.count := Nat.mul_le_mul_left _ hn.le
    omega
  · omega

/-! ### Fields, bytes, records, levels and injections -/

theorem setReg_keepsStart {r w n} (hr : r.beside = true) (h : StartKept pw s0 s) : StartKept pw s0 (s.setReg r w n) :=
  h.setCell (.inr (r.beside_addr hr n))

theorem resetReg_keepsStart {r n} (hr : r.beside = true) (h : StartKept pw s0 s) : StartKept pw s0 (s.resetReg r n) := by
  have ha := r.beside_addr hr n
  have hne : pw.key ≠ r.addr n := by cases pw <;> simp only [PowerWord.key] <;> omega
  refine ⟨fun j hj => ((cellGet_erase ..).trans (if_neg ?_)).trans (h.1 j hj), h.2⟩
  rintro rfl
  rcases hj with hj | hj
  exacts [by omega, hne hj.symm]

theorem setFld_keepsStart {f v n} (hf : f.reg.beside = true) (h : StartKept pw s0 s) : StartKept pw s0 (State.setFld s f v n) :=
  setReg_keepsStart hf h

theorem setFlag_keepsStart {f b n} (hf : f.reg.beside = true) (h : StartKept pw s0 s) : StartKept pw s0 (State.setFlag s f b n) :=
  setFld_keepsStart hf h

theorem setFbit_keepsStart {f k b n} (hf : f.reg.beside = true) (h : StartKept pw s0 s) : StartKept pw s0 (State.setFbit s f k b n) :=
  setFld_keepsStart hf h

theorem event_keepsStart {f n} (hf : f.reg.beside = true) (h : StartKept pw s0 s) : StartKept pw s0 (State.event s f n) :=
  setFld_keepsStart hf h

theorem countTo_keepsStart {f top n} (hf : f.reg.beside = true) (h : StartKept pw s0 s) : StartKept pw s0 (State.countTo s f top n) :=
  .ite (setFld_keepsStart hf h) h

theorem setBytes_keepsStart {a} {l : List Byte} (h : StartKept pw s0 s) : StartKept pw s0 (s.setBytes a l) := by
  rw [setBytes_frame]; exact h

theorem setWord_keepsStart {base i w} (h : StartKept pw s0 s) : StartKept pw s0 (State.setWord s base i w) := setBytes_keepsStart h

theorem noteHist_keepsStart {k} (h : StartKept pw s0 s) : StartKept pw s0 (s.noteHist k) := by
  unfold State.noteHist
  extract_lets _ a
  have ha : StartKept pw s0 a := h
  refine .foldl ha fun t e ht => ?_
  dsimp only
  split
  · exact .ite ht ht
  · exact ht

theorem setEng_keepsStart {e r} (h : StartKept pw s0 s) : StartKept pw s0 (s.setEng e r) := h

theorem noteIf_keepsStart {b k} (h : StartKept pw s0 s) : StartKept pw s0 (State.noteIf s b k) := .ite (noteHist_keepsStart h) h

theorem noteMode_keepsStart (h1 : StartKept pw s0 t) : StartKept pw s0 (State.noteMode s t) :=
  .ite h1 <| by
    dsimp only
    split
    · exact noteHist_keepsStart (by split; exacts [noteHist_keepsStart h1, h1])
    · split
      · exact noteHist_keepsStart h1
      · exact h1

theorem dropRecord_keepsStart (h : StartKept pw s0 s) : StartKept pw s0 (State.dropRecord s) :=
  .via (fun h1 => .ite (.ite (.rest (event_keepsStart rfl (countTo_keepsStart rfl h1))) (countTo_keepsStart rfl h1)) h1) (event_keepsStart rfl h)

theorem postRecord_keepsStart {r} (h : StartKept pw s0 s) : StartKept pw s0 (State.postRecord s r) := .ite h (.ite h (dropRecord_keepsStart h))

theorem setLevel_keepsStart {src inst detail data1 b} (h : StartKept pw s0 s) : StartKept pw s0 (State.setLevel s src inst detail data1 b) :=
  .ite h h

theorem injectShown_keepsStart {f} (h : StartKept pw s0 s) : StartKept pw s0 (State.injectShown s f) :=
  setReg_keepsStart rfl (setReg_keepsStart rfl (.rest (setFld_keepsStart rfl h)))

theorem injectRecord_keepsStart {f} (h : StartKept pw s0 s) : StartKept pw s0 (State.injectRecord s f) :=
  setFbit_keepsStart rfl (injectShown_keepsStart h)

theorem injectItem_keepsStart {f damage} (h : StartKept pw s0 s) (hd : ∀ t, StartKept pw s0 t → StartKept pw s0 (damage t)) :
    StartKept pw s0 (s.injectItem f damage) := by
  unfold State.injectItem
  split; exacts [injectRecord_keepsStart h, hd s h, h]

theorem injectTake_keepsStart {src inst} (h1 : StartKept pw s0 t) : StartKept pw s0 (State.injectTake s t src inst) :=
  .ite (by split; exacts [.rest (injectShown_keepsStart h1), h1]) h1

/-! ### Supervision outputs and comparators -/

theorem supCount_keepsStart {n k} (h : StartKept pw s0 s) : StartKept pw s0 (supCount s n k) :=
  .ite h (.ite (.ite (.rest (setFbit_keepsStart rfl h)) h) h)

theorem rstoSet_keepsStart {j b} (h : StartKept pw s0 s) : StartKept pw s0 (rstoSet s j b) :=
  noteIf_keepsStart (setFlag_keepsStart rfl (setFlag_keepsStart rfl h))

theorem rstoLow_keepsStart {j cause} (h : StartKept pw s0 s) : StartKept pw s0 (rstoLow s j cause) := setFld_keepsStart rfl (rstoSet_keepsStart h)

theorem rstoOne_keepsStart {hold j} (h : StartKept pw s0 s) : StartKept pw s0 (rstoOne s hold j) :=
  .ite h <| .ite (rstoLow_keepsStart h) <| .ite (.ite (rstoSet_keepsStart h) (rstoLow_keepsStart h)) <|
  .ite (rstoLow_keepsStart h) (by split; exacts [rstoLow_keepsStart h, .ite h (.rest (setFlag_keepsStart rfl h))])

theorem rstoUpdate_keepsStart (h : StartKept pw s0 s) : StartKept pw s0 (rstoUpdate s) := .foldl h (fun _ _ => rstoOne_keepsStart)

theorem compSet_keepsStart {n q b} (h : StartKept pw s0 s) : StartKept pw s0 (compSet s n q b) :=
  .ite h <| .via
    (fun h1 => .ite (rstoUpdate_keepsStart (.ite (supCount_keepsStart h1) (setFbit_keepsStart rfl (supCount_keepsStart h1)))) h1)
    (noteHist_keepsStart (.rest (setFbit_keepsStart rfl h)))

theorem compEnd_keepsStart {n q} (h : StartKept pw s0 s) : StartKept pw s0 (compEnd s n q) := setLevel_keepsStart (compSet_keepsStart h)

theorem supLeave_keepsStart {n} (h : StartKept pw s0 s) : StartKept pw s0 (supLeave s n) :=
  compSet_keepsStart (compEnd_keepsStart (compEnd_keepsStart h))

/-! ### Pools and claims -/

theorem reduceAllowance_keepsStart {n t} (h : StartKept pw s0 s) : StartKept pw s0 (reduceAllowance s n t) :=
  .ite (.rest (setFld_keepsStart rfl h)) (setFld_keepsStart rfl h)

theorem endOvercommit_keepsStart {k} (h : StartKept pw s0 s) : StartKept pw s0 (endOvercommit s k) := setLevel_keepsStart (setFlag_keepsStart rfl h)

theorem refundPorts_keepsStart {k x} {l : List Nat} (h : StartKept pw s0 s) : StartKept pw s0 (refundPorts k l s x).1 := by
  induction l generalizing s x with
  | nil => exact h
  | cons n l ih =>
    have hcut {f : Fld} {v} (hf : f.reg.beside = true) : StartKept pw s0 (s.setFld f v n) := setFld_keepsStart hf h
    exact .iteFst
      (.iteFst (ih h) (ih (countTo_keepsStart rfl (event_keepsStart rfl (.ite (setFlag_keepsStart rfl (hcut rfl)) (hcut rfl)))))) (ih h)

theorem refundClaims_keepsStart {k k'} (h : StartKept pw s0 s) : StartKept pw s0 (refundClaims k s k').1 := by
  unfold refundClaims
  dsimp only
  exact .foldlFst (.foldlFst (.foldlFst h (fun _ _ h => .iteFst h h)) (fun _ _ h => .iteFst h h)) (fun _ _ h => .iteFst h h)

theorem clearOvercommit_keepsStart {k} (h : StartKept pw s0 s) : StartKept pw s0 (clearOvercommit s k) := .ite (endOvercommit_keepsStart h) h

theorem returnHeadroom_keepsStart {k x port} (h : StartKept pw s0 s) : StartKept pw s0 (returnHeadroom s k x port) := by
  unfold returnHeadroom
  extract_lets _ _
  split
  next h2 =>
  split
  next h3 =>
  have hs := (refundClaims_keepsStart <| (refundPorts_keepsStart <| clearOvercommit_keepsStart h).of_eq h2).of_eq h3
  split
  · exact hs
  · exact .ite hs (setFld_keepsStart rfl hs)

theorem pinCount_keepsStart {n q pin ns} (h : StartKept pw s0 s) : StartKept pw s0 (pinCount s n q pin ns) := .ite (.ite (event_keepsStart rfl h) h) h

/-! ### Link commands -/

theorem queueCmd_keepsStart {l code arg} (h : StartKept pw s0 s) : StartKept pw s0 (queueCmd s l code arg) := .ite h h

theorem sendCmd_keepsStart {l code arg} (h : StartKept pw s0 s) : StartKept pw s0 (sendCmd s l code arg) := .ite (queueCmd_keepsStart h) h

/-! ### Intents and clauses -/

theorem logIntent_keepsStart {p outcome} (h : StartKept pw s0 s) : StartKept pw s0 (logIntent s p outcome) := .ite (postRecord_keepsStart h) h

theorem portCount_keepsStart {f p} (hf : f.reg.beside = true) (h : StartKept pw s0 s) : StartKept pw s0 (portCount s f p) :=
  .ite (.ite (event_keepsStart rfl (setFld_keepsStart hf h)) (setFld_keepsStart hf h)) h

theorem revokeIntent_keepsStart {p reason} (h : StartKept pw s0 s) : StartKept pw s0 (revokeIntent s p reason) :=
  .ite h <| logIntent_keepsStart <| portCount_keepsStart rfl <| event_keepsStart rfl <| setFld_keepsStart rfl <|
  .foldl (returnHeadroom_keepsStart <| .rest <| setFld_keepsStart rfl h) fun _ _ h => h

theorem releaseIntent_keepsStart {p} (h : StartKept pw s0 s) : StartKept pw s0 (releaseIntent s p) := .ite h (.rest (setFld_keepsStart rfl h))

theorem engCount_keepsStart {f e conf} (hf : f.reg.beside = true) (h : StartKept pw s0 s) :
    StartKept pw s0 (engCount s f e conf) :=
  .ite (.ite (event_keepsStart rfl <| setEng_keepsStart <| setFld_keepsStart hf h) (setFld_keepsStart hf h)) h

theorem unreserve_keepsStart {p k} (h : StartKept pw s0 s) : StartKept pw s0 (unreserve s p k) := .ite (returnHeadroom_keepsStart h) h

theorem unwindClause_keepsStart {e n} (h : StartKept pw s0 s) : StartKept pw s0 (unwindClause s e n) := by
  unfold unwindClause
  dsimp only
  split; exacts [.ite (.ite h h) h, h]

theorem revokeClause_keepsStart {e reason branch} (h : StartKept pw s0 s) : StartKept pw s0 (revokeClause s e reason branch) := by
  unfold revokeClause
  split
  · exact h
  · exact .via
        (fun h1 => .ite
          (.via (fun h2 => .ite (setFld_keepsStart rfl h2) h2) (setFld_keepsStart rfl (setEng_keepsStart h1)))
          h1)
        (engCount_keepsStart rfl <| event_keepsStart rfl <| setFld_keepsStart rfl <| setFld_keepsStart rfl <|
        setFld_keepsStart rfl (setEng_keepsStart (.foldl (.foldl h (fun _ _ => unwindClause_keepsStart)) (fun _ _ => unreserve_keepsStart))))

theorem railTermsEnd_keepsStart {n ireason creason} (h : StartKept pw s0 s) : StartKept pw s0 (railTermsEnd s n ireason creason) :=
  .rest <| .foldl
    (.foldl h (fun _ _ h => .ite (revokeIntent_keepsStart h) h))
    (fun _ _ h => by split; exacts [.ite (revokeClause_keepsStart h) h, h])

/-! ### Rails -/

theorem sendSink_keepsStart {n} (h1 : StartKept pw s0 t) : StartKept pw s0 (sendSink s t n) := .ite h1 (.foldl h1 (fun _ _ => sendCmd_keepsStart))

theorem setRailState_keepsStart {n st} (h : StartKept pw s0 s) : StartKept pw s0 (setRailState s n st) :=
  .via
    (fun h1 => .via
      (fun h2 => sendSink_keepsStart (.ite h2 (noteHist_keepsStart (noteHist_keepsStart h2))))
      (.ite (supLeave_keepsStart h1) h1))
    (setFlag_keepsStart rfl (setFld_keepsStart rfl h))

theorem railDrain_keepsStart {n} (h : StartKept pw s0 s) : StartKept pw s0 (railDrain s n) :=
  .ite h (railTermsEnd_keepsStart (event_keepsStart rfl (setRailState_keepsStart h)))

/-! ### Links -/

theorem linkDrain_keepsStart {l} (h : StartKept pw s0 s) : StartKept pw s0 (linkDrain s l) := .ite h h

/-! ### Conversion modules -/

theorem lxRerank_keepsStart (h : StartKept pw s0 s) : StartKept pw s0 (lxRerank s) := .foldl h (fun _ _ h => setFld_keepsStart rfl (.ite h h))

theorem lxHandOver_keepsStart {a b} (h : StartKept pw s0 s) : StartKept pw s0 (lxHandOver s a b) := by
  unfold lxHandOver
  split; exacts [.ite h h, h]

theorem setLxState_keepsStart {m st} (h : StartKept pw s0 s) : StartKept pw s0 (setLxState s m st) :=
  .via (fun h1 => lxRerank_keepsStart (.ite h1 (.rest h1))) (lxHandOver_keepsStart (setFlag_keepsStart rfl (setFld_keepsStart rfl h)))

theorem lxDrain_keepsStart {m} (h : StartKept pw s0 s) : StartKept pw s0 (lxDrain s m) := .ite h (.rest (setLxState_keepsStart h))

theorem lxRetarget_keepsStart {m} (h1 : StartKept pw s0 t) : StartKept pw s0 (lxRetarget s t m) := .ite (event_keepsStart rfl h1) h1

theorem lxChgDrop_keepsStart {m} (h : StartKept pw s0 s) : StartKept pw s0 (lxChgDrop s m) := by
  unfold lxChgDrop
  dsimp only
  split; exacts [h, event_keepsStart rfl (lxRetarget_keepsStart (setFlag_keepsStart rfl h))]

/-! ### Supervision -/

theorem hadcDrain_keepsStart {c} (h : StartKept pw s0 s) : StartKept pw s0 (hadcDrain s c) := event_keepsStart rfl (setFlag_keepsStart rfl h)

/-! ### Housekeeping rails -/

theorem auxPg_keepsStart {n b} (h : StartKept pw s0 s) : StartKept pw s0 (auxPg s n b) :=
  rstoUpdate_keepsStart (setFbit_keepsStart rfl (setFlag_keepsStart rfl h))

theorem auxKindsEnd_keepsStart {n} (h : StartKept pw s0 s) : StartKept pw s0 (auxKindsEnd s n) := setLevel_keepsStart h

theorem setAuxState_keepsStart {n st} (h : StartKept pw s0 s) : StartKept pw s0 (setAuxState s n st) :=
  .via (fun h1 => .ite h1 (auxPg_keepsStart (auxKindsEnd_keepsStart h1))) (setFlag_keepsStart rfl (setFld_keepsStart rfl h))

/-! ### Charger -/

theorem setBdis_keepsStart {b} (h : StartKept pw s0 s) : StartKept pw s0 (setBdis s b) := .rest (setFlag_keepsStart rfl h)

theorem chgWithdraw_keepsStart (h : StartKept pw s0 s) : StartKept pw s0 (chgWithdraw s) := .foldl h (fun _ _ h => .ite (lxChgDrop_keepsStart h) h)

theorem bSuspend_keepsStart {r} (h : StartKept pw s0 s) : StartKept pw s0 (bSuspend s r) :=
  .ite h (.ite (setFld_keepsStart rfl (setFld_keepsStart rfl h)) (.ite (setFld_keepsStart rfl h) h))

theorem hSuspend_keepsStart {r} (h : StartKept pw s0 s) : StartKept pw s0 (hSuspend s r) :=
  .ite h (.ite (setFld_keepsStart rfl (setFld_keepsStart rfl h)) (.ite (setFld_keepsStart rfl h) h))

theorem chgModeChange_keepsStart (h : StartKept pw s0 s) : StartKept pw s0 (chgModeChange s) :=
  .ite (.ite h (bSuspend_keepsStart h)) (hSuspend_keepsStart (.ite h (bSuspend_keepsStart h)))

theorem chgDrain_keepsStart (h : StartKept pw s0 s) : StartKept pw s0 (chgDrain s) := by
  unfold chgDrain
  extract_lets sOff sAux sB sH sA
  have hAux : StartKept pw s0 sAux :=
    have hOff : StartKept pw s0 sOff := chgWithdraw_keepsStart (setBdis_keepsStart h)
    .ite (setAuxState_keepsStart (setFlag_keepsStart rfl hOff)) hOff
  have hB : StartKept pw s0 sB := setFld_keepsStart rfl (.ite hAux (setFld_keepsStart rfl hAux))
  have hH : StartKept pw s0 sH := setFld_keepsStart rfl (.ite hB (setFld_keepsStart rfl hB))
  have hA : StartKept pw s0 sA := setFld_keepsStart rfl (.ite hH (setFld_keepsStart rfl hH))
  exact event_keepsStart rfl (setFlag_keepsStart rfl (setFlag_keepsStart rfl (.rest hA)))

/-! ### RAM lines -/

theorem chkCount_keepsStart {f n} (hf : f.reg.beside = true) (h : StartKept pw s0 s) : StartKept pw s0 (chkCount s f n) :=
  .ite h (.ite (.ite (event_keepsStart rfl (setFld_keepsStart hf h)) (setFld_keepsStart hf h)) h)

theorem uncorrectable_keepsStart {ram i} (h : StartKept pw s0 s) : StartKept pw s0 (uncorrectable s ram i) :=
  .ite (.rest (chkCount_keepsStart rfl h)) <| by
    dsimp only
    split
    · exact chkCount_keepsStart rfl h
    · split
      · exact setFld_keepsStart rfl (setFld_keepsStart rfl (setFlag_keepsStart rfl (event_keepsStart rfl (.rest (chkCount_keepsStart rfl h)))))
      · exact setFlag_keepsStart rfl (event_keepsStart rfl (.rest (chkCount_keepsStart rfl h)))

theorem decodeLine_keepsStart {ram i} (h : StartKept pw s0 s) : StartKept pw s0 (State.decodeLine s ram i).1 := by
  unfold State.decodeLine
  split; exacts [h, .rest (.rest (chkCount_keepsStart rfl h)), uncorrectable_keepsStart h]

theorem injectLine_keepsStart {ram i} (h : StartKept pw s0 s) : StartKept pw s0 (State.injectLine s ram i) :=
  injectItem_keepsStart (injectItem_keepsStart h (fun _ h => .ite h h)) (fun _ h => h)

theorem readLine_keepsStart {ram i} (h : StartKept pw s0 s) : StartKept pw s0 (State.readLine s ram i).1 :=
  injectTake_keepsStart (injectTake_keepsStart (decodeLine_keepsStart (injectLine_keepsStart h)))

theorem repairLine_keepsStart {ram i} (h : StartKept pw s0 s) : StartKept pw s0 (repairLine s ram i) := by
  unfold repairLine
  dsimp only
  split; exacts [setReg_keepsStart rfl h, h]

theorem writeRam_keepsStart {ram w v} (h : StartKept pw s0 s) : StartKept pw s0 (State.writeRam s ram w v).1 :=
  .iteFst (setWord_keepsStart (readLine_keepsStart h)) (setWord_keepsStart (repairLine_keepsStart (readLine_keepsStart h)))

theorem markWritten_keepsStart {w} (h : StartKept pw s0 s) : StartKept pw s0 (State.markWritten s w) := .ite h h

/-! ### Intent ports -/

theorem drainPort_keepsStart {p} (h : StartKept pw s0 s) : StartKept pw s0 (drainPort s p) :=
  .ite (releaseIntent_keepsStart h) <| reduceAllowance_keepsStart <|
  setFlag_keepsStart rfl <| setFld_keepsStart rfl <| setFld_keepsStart rfl <| event_keepsStart rfl <|
  releaseIntent_keepsStart (revokeIntent_keepsStart h)

theorem readBank_keepsStart {b p} (h : StartKept pw s0 s) : StartKept pw s0 (readBank s b p) := .foldl h (fun _ _ => readLine_keepsStart)

theorem checkBank_keepsStart {p} (h : StartKept pw s0 s) : StartKept pw s0 (checkBank s p) :=
  .ite h <| by
    dsimp only
    split
    · exact injectTake_keepsStart (setLevel_keepsStart (injectItem_keepsStart (readBank_keepsStart h) (fun _ h => h)))
    · exact setLevel_keepsStart (injectItem_keepsStart (readBank_keepsStart h) (fun _ h => h))

theorem publish_keepsStart {g} (h : StartKept pw s0 s) : StartKept pw s0 (publish s g) := .rest (.foldl h (fun _ _ => checkBank_keepsStart))

theorem anticipationModeChange_keepsStart {old m} (h : StartKept pw s0 s) : StartKept pw s0 (anticipationModeChange s old m) :=
  .ite h <| .via
    (fun h1 =>
      .ite
        (.foldl
          (.foldl (.foldl (.foldl h1 (fun _ _ => id)) (fun _ _ => revokeIntent_keepsStart)) (fun _ _ => reduceAllowance_keepsStart))
          (fun _ _ => id))
        (.ite (.foldl (.foldl h1 (fun _ _ h => .ite (revokeIntent_keepsStart h) h)) (fun _ _ => publish_keepsStart)) h1))
    (.ite (.foldl h (fun _ _ => drainPort_keepsStart)) h)

/-! ### Patina log -/

theorem readBack_keepsStart {i} (h : StartKept pw s0 s) : StartKept pw s0 (readBack s i) :=
  .via
    (fun h1 => .ite (readLine_keepsStart h1) (injectTake_keepsStart (.rest (event_keepsStart rfl (readLine_keepsStart h1)))))
    (injectItem_keepsStart h (fun _ h => h))

theorem markWrite_keepsStart (h : StartKept pw s0 s) : StartKept pw s0 (markWrite s) := by
  unfold markWrite
  split
  · exact h
  · exact readBack_keepsStart <|
      setFlag_keepsStart rfl (.rest (.ite (readLine_keepsStart h) (repairLine_keepsStart (readLine_keepsStart h))))

theorem patDrain_keepsStart (h : StartKept pw s0 s) : StartKept pw s0 (patDrain s) :=
  .rest (event_keepsStart rfl (.foldl (markWrite_keepsStart h) (fun _ _ => dropRecord_keepsStart)))

theorem patReset_keepsStart (h : StartKept pw s0 s) : StartKept pw s0 (patReset s) := by
  have hr : ∀ r ∈ [PAT_CTRL, PAT_STAT, PAT_HEAD, PAT_GEN, PAT_LOST, PAT_NEW, PAT_EVT, PAT_EVTEN], r.beside = true := by decide
  exact .rest (List.foldlRecOn _ _ h fun t ht r hm => resetReg_keepsStart (hr r hm) ht)

/-! ### Checks and scan jobs -/

theorem scanLine_keepsStart {job x i} (h : StartKept pw s0 x.1) : StartKept pw s0 (scanLine job x i).1 := .iteFst h (readLine_keepsStart h)

theorem fillLine_keepsStart {job x i} (h : StartKept pw s0 x.1) : StartKept pw s0 (fillLine job x i).1 :=
  .iteFst h (.foldl h (fun _ _ h => .ite (markWritten_keepsStart (writeRam_keepsStart h)) (writeRam_keepsStart h)))

theorem jobLine_keepsStart {job x i} (h : StartKept pw s0 x.1) : StartKept pw s0 (jobLine job x i).1 :=
  .iteFst (fillLine_keepsStart h) (scanLine_keepsStart h)

theorem showAcc_keepsStart {x} (h : StartKept pw s0 s) : StartKept pw s0 (showAcc s x) := setFld_keepsStart rfl (setFlag_keepsStart rfl h)

theorem jobAborted_keepsStart {job k x} (h : StartKept pw s0 s) : StartKept pw s0 (jobAborted s job k x) :=
  .rest (setFld_keepsStart rfl (setFld_keepsStart rfl (showAcc_keepsStart h)))

theorem finishLine_keepsStart {job} (h : StartKept pw s0 s) : StartKept pw s0 (finishLine s job).1 := by
  unfold finishLine
  split; exacts [.iteFst h (jobLine_keepsStart h), h]

theorem scanAbort_keepsStart (h : StartKept pw s0 s) : StartKept pw s0 (scanAbort s) := by
  unfold scanAbort
  split; exacts [h, event_keepsStart rfl (jobAborted_keepsStart (finishLine_keepsStart h))]

/-! ### OTP -/

theorem otpJudge_keepsStart (h : StartKept pw s0 s) : StartKept pw s0 (otpJudge s) :=
  .foldl (setFld_keepsStart rfl h) (fun _ _ h => setFld_keepsStart rfl (setFld_keepsStart rfl h))

theorem otpEnd_keepsStart {result} (h : StartKept pw s0 s) : StartKept pw s0 (otpEnd s result) := by
  unfold otpEnd
  extract_lets _ s1 s2 s3
  have h2 : StartKept pw s0 s2 := setFld_keepsStart rfl <| setFlag_keepsStart rfl h
  have h3 : StartKept pw s0 s3 := by unfold s3; split <;> exact event_keepsStart rfl h2
  exact otpJudge_keepsStart h3

theorem otpAbort_keepsStart (h : StartKept pw s0 s) : StartKept pw s0 (otpAbort s) := by
  unfold otpAbort
  split; exacts [.ite h (otpEnd_keepsStart h), h]

theorem shadowRelAll_keepsStart (h : StartKept pw s0 s) : StartKept pw s0 (shadowRelAll s) := .rest (setFld_keepsStart rfl h)

/-! ### Thermal -/

theorem throttleEnd_keepsStart {n} (h : StartKept pw s0 s) : StartKept pw s0 (throttleEnd s n) :=
  pinCount_keepsStart (pinCount_keepsStart (resetReg_keepsStart rfl h))

theorem nodeShutdownEnd_keepsStart {i} (h : StartKept pw s0 s) : StartKept pw s0 (nodeShutdownEnd s i) :=
  .ite (setLevel_keepsStart h) (.ite h (.ite (setLevel_keepsStart h) (setLevel_keepsStart h)))

theorem thmDrain_keepsStart (h : StartKept pw s0 s) : StartKept pw s0 (thmDrain s) :=
  .rest <| event_keepsStart rfl <| .foldl
    (.foldl (.foldl h (fun _ _ => throttleEnd_keepsStart)) (fun _ _ h => .ite (nodeShutdownEnd_keepsStart h) h))
    (fun _ _ h => resetReg_keepsStart rfl h)

/-! ### Watchdogs -/

theorem wdDiscard_keepsStart {n w} (h : StartKept pw s0 s) : StartKept pw s0 (wdDiscard s n w) :=
  setFld_keepsStart rfl (setFld_keepsStart rfl (setReg_keepsStart rfl h))

theorem wdModeChange_keepsStart {old m} (h : StartKept pw s0 s) : StartKept pw s0 (wdModeChange s old m) :=
  .foldl h (fun _ _ h => .ite h (.ite (wdDiscard_keepsStart h) (.ite h h)))

/-! ### Engines -/

theorem engineDrain_keepsStart {e} (h : StartKept pw s0 s) : StartKept pw s0 (engineDrain s e) :=
  .ite h (setFld_keepsStart rfl (setEng_keepsStart (revokeClause_keepsStart h)))

/-! ### Power domains -/

theorem lxLinksDrain_keepsStart {m} (h : StartKept pw s0 s) : StartKept pw s0 (lxLinksDrain s m) := linkDrain_keepsStart (linkDrain_keepsStart h)

theorem domainDrain_keepsStart {d} (h : StartKept pw s0 s) : StartKept pw s0 (domainDrain s d) := by
  unfold domainDrain
  split
  · exact otpAbort_keepsStart h
  · exact .foldl h (fun _ _ => engineDrain_keepsStart)
  · exact .foldl h (fun _ _ => engineDrain_keepsStart)
  · exact .foldl (.foldl (.foldl h (fun _ _ => drainPort_keepsStart)) (fun _ _ => railDrain_keepsStart)) (fun _ _ => linkDrain_keepsStart)
  · exact .foldl (.foldl h (fun _ _ => railDrain_keepsStart)) (fun _ _ => linkDrain_keepsStart)
  · exact .foldl h (fun _ _ => hadcDrain_keepsStart)
  · exact h
  · exact chgDrain_keepsStart h
  · exact .foldl h (fun _ _ h => .ite (lxDrain_keepsStart h) (lxLinksDrain_keepsStart (lxDrain_keepsStart h)))
  · exact patDrain_keepsStart (scanAbort_keepsStart h)
  · exact thmDrain_keepsStart h
  · exact h

/-! ### Faults -/

theorem pairFault_keepsStart (h : StartKept pw s0 s) : StartKept pw s0 (pairFault s) := .ite h (.rest (setFlag_keepsStart rfl h))

theorem injectEnd_keepsStart {st} (h : StartKept pw s0 s) : StartKept pw s0 (injectEnd s st) := by
  unfold injectEnd
  split; exacts [.rest (setFld_keepsStart rfl h), h]

/-! ### Modes -/

/-- A start-up record joins the ring (R71). -/
theorem startupRecord_keepsStart {point} (h : StartKept pw s0 s) : StartKept pw s0 (startupRecord s point) := by
  unfold startupRecord
  extract_lets _ _ _ _ a b
  have hb : StartKept pw s0 b := h.setRing _ _
  exact postRecord_keepsStart (setFld_keepsStart rfl hb)

/-- Leaving PLINTH ends the plinth sequence (R69); leaving another mode leaves the start-up's record alone. -/
theorem leaveMode_keepsStart {old m} (ho : old ≠ modePlinth) (h : StartKept pw s0 s) : StartKept pw s0 (leaveMode s old m) := by
  have ha : StartKept pw s0 (chgModeChange (wdModeChange s old m)) := chgModeChange_keepsStart (wdModeChange_keepsStart h)
  unfold leaveMode
  extract_lets a _ b c
  have hb : StartKept pw s0 b := by unfold b; rw [if_neg ho]; exact ha
  have hc : StartKept pw s0 c := .ite (shadowRelAll_keepsStart (injectEnd_keepsStart hb)) hb
  exact rstoUpdate_keepsStart (.ite (otpAbort_keepsStart hc) hc)

theorem drainDomains_keepsStart {l} (h : StartKept pw s0 s) : StartKept pw s0 (drainDomains s l) :=
  .foldl h (fun _ _ h => .foldl h (fun _ _ => domainDrain_keepsStart))

end Sys2Proof.Machine
end

section
/-! SUPPORT. What stops with a failed start (R67), and domains that are released (R22), beside the start-up words. -/
namespace Sys2Proof.Machine

variable {pw : PowerWord} {s0 s t : State}

/-! ### Rails, regulators and modules stop -/

theorem railStop_keepsStart {n st} (h : StartKept pw s0 s) : StartKept pw s0 (railStop s n st) := by
  unfold railStop
  extract_lets a _ b c d
  have hb : StartKept pw s0 b := .rest (setRailState_keepsStart h)
  have hc : StartKept pw s0 c := .foldl hb fun _ _ => pinCount_keepsStart
  have hd : StartKept pw s0 d := setFld_keepsStart rfl (setFlag_keepsStart rfl hc)
  exact setFld_keepsStart rfl (setFld_keepsStart rfl (setFld_keepsStart rfl (setFld_keepsStart rfl (setFld_keepsStart rfl hd))))

theorem railLeave_keepsStart {n st ireason creason} (h : StartKept pw s0 s) : StartKept pw s0 (railLeave s n st ireason creason) :=
  .ite (railTermsEnd_keepsStart (railStop_keepsStart h)) (railStop_keepsStart h)

theorem auxTurnOff_keepsStart {n why} (h : StartKept pw s0 s) : StartKept pw s0 (auxTurnOff s n why) :=
  .ite (setAuxState_keepsStart (setFld_keepsStart rfl h)) h

theorem lxStop_keepsStart {m st} (h : StartKept pw s0 s) : StartKept pw s0 (lxStop s m st) := by
  unfold lxStop
  extract_lets a _ b _ c _ d e
  have hb : StartKept pw s0 b := .rest (setLxState_keepsStart h)
  have hd : StartKept pw s0 d := .rest (.rest hb)
  have he : StartKept pw s0 e := setFld_keepsStart rfl (setFld_keepsStart rfl (setFld_keepsStart rfl hd))
  exact setFlag_keepsStart rfl (setFlag_keepsStart rfl (setFlag_keepsStart rfl (setFlag_keepsStart rfl he)))

/-! ### Domains are released -/

theorem keyDomain_zero {k : Nat} (h : k < 0x200) : keyDomain k = 0 := by
  have hb : keyBase k = k := Nat.mod_eq_of_lt (by omega)
  exact if_pos (by omega)

theorem resetKeys_keepsStart {d} (h : StartKept pw s0 s) :
    StartKept pw s0 (s.resetKeys fun k => keyDomain k == d && d != 0 && !brkKey k) := by
  refine ⟨fun k hk => ?_, h.2⟩
  have hlow : k < 0x200 := by
    rcases hk with hk | rfl
    · omega
    · cases pw <;> decide
  have hkeep : (!(keyDomain k == d && d != 0 && !brkKey k)) = true := by
    rw [keyDomain_zero hlow]
    cases d <;> rfl
  exact (cellGet_keep 0 (fun k => !(keyDomain k == d && d != 0 && !brkKey k)) s.regs k).trans ((if_pos hkeep).trans (h.1 k hk))

theorem dropUnits_keepsStart {d} (h : StartKept pw s0 s) : StartKept pw s0 (dropUnits s d) := by
  unfold dropUnits
  split <;> exact h

theorem railsNoSense_keepsStart (h : StartKept pw s0 s) : StartKept pw s0 (railsNoSense s) :=
  .foldl h fun _ _ h => .ite (.rest (railLeave_keepsStart h)) h

/-- A power word other than that of register `r` stays. -/
theorem setPowerWord_keepsStart {f : Fld} {v n : Nat} (hf : 0x100 ≤ f.reg.addr n) (hw : pw.key ≠ f.reg.addr n) (h : StartKept pw s0 s) :
    StartKept pw s0 (s.setFld f v n) := by
  refine ⟨fun k hk => (cellGet_set_ne _ _ _ ?_).trans (h.1 k hk), h.2⟩
  rintro rfl
  rcases hk with hk | hk
  · omega
  · exact hw hk.symm

theorem domainOff_keepsStart {d} (hw : pw = .none ∨ pw = .clock ∧ d ≠ 1 ∧ d ≠ 4) (h : StartKept pw s0 s) :
    StartKept pw s0 (domainOff s d) := by
  unfold domainOff
  extract_lets a b c p q r l
  have hpower : pw.key ≠ PDC_STAT.addr 0 := by rcases hw with rfl | ⟨rfl, -⟩ <;> decide
  have ha : StartKept pw s0 a := .ite (railsNoSense_keepsStart h) (.ite (.foldl h fun _ _ => throttleEnd_keepsStart) h)
  have hb : StartKept pw s0 b := setPowerWord_keepsStart (by decide) hpower ha
  have hc : StartKept pw s0 c := dropUnits_keepsStart (resetKeys_keepsStart hb)
  have hp : StartKept pw s0 p := .ite (patReset_keepsStart hc) hc
  have hr : StartKept pw s0 r := by
    rcases hw with rfl | ⟨rfl, h1, h4⟩
    · have hclk {u : State} {f : Fld} {v : Nat} (hf : f.reg = CLK_STAT) (hu : StartKept .none s0 u) : StartKept .none s0 (u.setFld f v) :=
        setPowerWord_keepsStart (by rw [hf]; decide) (by rw [hf]; decide) hu
      have hq : StartKept .none s0 q := .ite (hclk rfl hp) hp
      exact .ite (hclk rfl (hclk rfl hq)) hq
    · rwa [show r = p from (if_neg h4).trans (if_neg h1)]
  exact rstoUpdate_keepsStart (.rest hr)

/-- Domains are released; CLK_STAT stays where PD1 and PD4 are not among them. -/
theorem releaseDomains_keepsStart {l : List Nat} (hw : pw = .none ∨ pw = .clock ∧ 1 ∉ l ∧ 4 ∉ l) (h : StartKept pw s0 s) :
    StartKept pw s0 (releaseDomains s l) :=
  .foldl h fun t k ht => List.foldlRecOn _ _ ht fun u hu d hd => by
    have hmem : d ∈ l := (List.mem_filter.mp hd).1
    exact domainOff_keepsStart (hw.imp_right fun ⟨hc, h1, h4⟩ => ⟨hc, ne_of_mem_of_not_mem hmem h1, ne_of_mem_of_not_mem hmem h4⟩) hu

end Sys2Proof.Machine
end

section
/-! SUPPORT. Transitions that begin in WAKE (R45, R67): CLK_STAT stays, since no mode that WAKE leads to by a request releases PD1 or PD4,
and one to PLINTH leaves nothing of the choice of R67. -/
namespace Sys2Proof.Machine

variable {s t : State}

/-! ### CLK_STAT -/

/-- A flag reads back what was set. -/
theorem flag_setFlag_same (s : State) (f : Fld) (b : Bool) (n : Nat) (h : f.hi < 32) (hlo : f.lo ≤ f.hi) : (s.setFlag f b n).flag f n = b := by
  rw [State.flag, State.setFlag, fld_setFld_same _ _ _ _ h]
  have hw : 1 < 2 ^ (f.hi + 1 - f.lo) := Nat.one_lt_two_pow (by omega)
  cases b
  · rw [Bool.toNat_false, Nat.zero_mod]
    rfl
  · rw [Bool.toNat_true, Nat.mod_eq_of_lt hw]
    rfl

theorem StartKept.clock (h : StartKept .clock s t) : t.reg CLK_STAT = s.reg CLK_STAT := by
  unfold State.reg
  rw [show CLK_STAT.addr 0 = PowerWord.clock.key from rfl, h.1 _ (.inr rfl)]

theorem StartKept.failing {pw : PowerWord} (h : StartKept pw s t) : t.boot.failing = s.boot.failing := by rw [h.2]

theorem clockAddr_ne_modeReq (p : Nat) : CLK_STAT.addr 0 ≠ SYS_MODEREQ.addr (masterHost p) := by
  apply addr_ne_of <;> simp only [CLK_STAT, SYS_MODEREQ, masterHost] <;> omega

theorem answerAll_clock (s : State) (l : List ModeReq) (st : Status) : (answerAll s l st).reg CLK_STAT = s.reg CLK_STAT := by
  unfold State.reg
  rw [answerAll_key fun _ _ p _ => clockAddr_ne_modeReq p]

theorem answerReq_clock (s : State) (r : ModeReq) (st : Status) : (answerReq s r st).reg CLK_STAT = s.reg CLK_STAT :=
  answerAll_clock s [r] st

theorem answerReq_boot (s : State) (r : ModeReq) (st : Status) : (answerReq s r st).boot = s.boot := by
  unfold answerReq
  split
  · rfl
  · rfl
  · unfold postStatus
    split <;> rfl

/-- Requests held meanwhile are answered only (R42). -/
theorem holdRequests_keeps (s : State) :
    (holdRequests s).reg CLK_STAT = s.reg CLK_STAT ∧ (holdRequests s).boot = s.boot ∧ (holdRequests s).cur = s.cur := by
  unfold holdRequests
  extract_lets x
  exact List.foldlRecOn
    (motive := fun y : State × List ModeReq => y.1.reg CLK_STAT = s.reg CLK_STAT ∧ y.1.boot = s.boot ∧ y.1.cur = s.cur) _ _ ⟨rfl, rfl, rfl⟩
    fun y ⟨hclk, hboot, hcur⟩ r _ => by
      dsimp only
      split
      next o _ => exact ⟨(answerReq_clock ..).trans hclk, (answerReq_boot ..).trans hboot, (answerAll_cur y.1 [o] _).trans hcur⟩
      next => exact ⟨hclk, hboot, hcur⟩

/-- The mode registers of a transition are not those of the clocks, nor the start-up's record (R46). -/
theorem setMode_keeps (s : State) (src : ModeSrc) (old m : Nat) (trans : Bool) :
    (setMode s src old m trans).reg CLK_STAT = s.reg CLK_STAT ∧ (setMode s src old m trans).boot.failing = s.boot.failing := by
  let u := (((s.setFld SYS_MODE_PREV old).setFld SYS_MODE_TARGET m).setFlag SYS_MODE_TRANS trans).setFld SYS_MODECUR_CUR m
  have hn : StartKept .clock u (s.noteMode u) := noteMode_keepsStart (.refl u)
  refine ⟨?_, hn.failing⟩
  show (((s.noteMode u).setReg SYS_MODESRC (srcWord src old m)).setFlag SYS_MODE_RESUME false).reg CLK_STAT = _
  rw [State.setFlag, reg_setFld_ne _ _ (by decide), reg_setReg_ne _ _ (by decide), hn.clock, reg_setFld_ne _ _ (by decide), State.setFlag,
    reg_setFld_ne _ _ (by decide), reg_setFld_ne _ _ (by decide), reg_setFld_ne _ _ (by decide)]

theorem plinthEnter_keeps (s : State) : (plinthEnter s).reg CLK_STAT = s.reg CLK_STAT ∧ (plinthEnter s).boot.failing = s.boot.failing := by
  unfold plinthEnter
  extract_lets a _ _ b
  have hk : StartKept .clock b (startupRecord (pairFault (rstoUpdate b)) 4) :=
    startupRecord_keepsStart (pairFault_keepsStart (rstoUpdate_keepsStart (.refl b)))
  refine ⟨hk.clock.trans ?_, hk.failing⟩
  show a.reg CLK_STAT = _
  rw [show a = (((s.setFld SYS_BOOTSTAT_STEP 0xB).setFld SYS_BOOTSTAT_PLSTEP 0).setFld SYS_BOOTCTL_WAITHOST 0) from rfl,
    reg_setFld_ne _ _ (by decide), reg_setFld_ne _ _ (by decide), reg_setFld_ne _ _ (by decide)]

theorem enterMode_clock (s : State) (r : ModeReq) (old m : Nat) : (enterMode s r old m).reg CLK_STAT = s.reg CLK_STAT := by
  unfold enterMode
  split
  · exact reg_setFld_ne s _ (by decide)
  split
  · exact ((startupRecord_keepsStart (pw := .clock) (.refl _)).clock).trans (reg_setFld_ne s _ (by decide))
  split
  · exact (plinthEnter_keeps s).1
  split <;> rfl

theorem applyOpt_keepsStart {pw : PowerWord} {s0 : State} (h : StartKept pw s0 s) : StartKept pw s0 (applyOpt s) :=
  .rest (drainDomains_keepsStart h)

/-- Completing a transition from another mode than PLINTH leaves CLK_STAT as it was. -/
theorem completeTransition_clock {x : Transition} (ho : x.old ≠ modePlinth) : (completeTransition s x).reg CLK_STAT = s.reg CLK_STAT := by
  unfold completeTransition
  extract_lets sAntic _ sNone sLeft sRecord _ sOld sEntered
  have hAntic : sAntic.reg CLK_STAT = s.reg CLK_STAT :=
    (anticipationModeChange_keepsStart (pw := .clock) (.refl _)).clock.trans (holdRequests_keeps s).1
  have hRecord : sRecord.reg CLK_STAT = sNone.reg CLK_STAT :=
    (postRecord_keepsStart (leaveMode_keepsStart (pw := .clock) ho (.refl _))).clock.trans (setMode_keeps ..).1
  have hOld : sOld.reg CLK_STAT = sRecord.reg CLK_STAT := by unfold sOld; split <;> rfl
  have hEntered : sEntered.reg CLK_STAT = s.reg CLK_STAT :=
    (enterMode_clock ..).trans (hOld.trans (hRecord.trans hAntic))
  split
  · exact (applyOpt_keepsStart (pw := .clock) (.rest (.refl sEntered))).clock.trans hEntered
  · exact hEntered

theorem modeProgress_clock {x : Transition} (hx : s.mode.trans = some x) (ho : x.old ≠ modePlinth) (h1 : 1 ∉ x.release) (h4 : 4 ∉ x.release) :
    (modeProgress s).reg CLK_STAT = s.reg CLK_STAT := by
  have hr : (releaseDomains s x.release).reg CLK_STAT = s.reg CLK_STAT :=
    (releaseDomains_keepsStart (.inr ⟨rfl, h1, h4⟩) (.refl s)).clock
  unfold modeProgress
  simp only [hx]
  split
  · rfl
  · split
    · exact (completeTransition_clock (x := { x with release := [] }) ho).trans hr
    · exact hr

/-! ### Requests that WAKE allows -/

theorem bestReq_mem {l : List ModeReq} {w : ModeReq} (h : bestReq l = some w) : w ∈ l := by
  refine List.foldlRecOn (motive := fun b : Option ModeReq => b = some w → w ∈ l) l _ (b := none) nofun ?_ h
  intro b hb r hr
  cases b with
  | none => rintro ⟨⟩; exact hr
  | some x =>
    dsimp only
    split
    · rintro ⟨⟩; exact hr
    · exact hb

/-- From WAKE a request leads to SHUTDOWN or to STANDBY (R45). -/
theorem target_of_reqLegal_wake {r : ModeReq} (hc : s.cur = modeWake) (h : reqLegal s r = true) :
    r.target = modeShutdown ∨ r.target = modeStandby := by
  unfold reqLegal at h
  simp only [hc, if_true, Bool.or_eq_true, Bool.and_eq_true, beq_iff_eq] at h
  tauto

/-- PD1 and PD4 stay powered in STANDBY (R34). -/
theorem standby_keeps_clocks (s : State) {d : Nat} (hd : d = 1 ∨ d = 4) : d ∉ domainsToRemove s modeStandby := by
  have hm : d ∈ modeDomains s modeStandby := by
    refine List.mem_filter.mpr ⟨by rcases hd with rfl | rfl <;> decide, ?_⟩
    refine List.any_eq_true.mpr ⟨d, List.mem_append_left _ ?_, by simp⟩
    rcases hd with rfl | rfl <;> decide
  simp [domainsToRemove, hm]

/-- The domains that a transition from WAKE to SHUTDOWN drains: those powered that WAKE does not power, none (R34). -/
theorem shutdown_removes_none (s : State) :
    (List.range 12).filter (fun d => d != 0 && s.fbit PDC_STAT_ON d && !(modeDomains s modeWake).contains d) = [] := by
  refine List.filter_eq_nil_iff.mpr fun d hd => ?_
  have hm : d ∈ modeDomains s modeWake := hd
  simp [hm]

/-! ### Transitions begin -/

/-- The mode registers show a transition to mode `m` (R46 step 1). -/
def transitionShown (s : State) (m : Nat) : State :=
  let u := withMode s { s.mode with optRelease := [], optTiers := [] }
  u.noteMode ((u.setFld SYS_MODE_TARGET m).setFlag SYS_MODE_TRANS true)

/-- The transition of request `r` is in progress, and anticipation has had its part of it (R39). -/
def transitionBegun (s : State) (r : ModeReq) : State :=
  anticipationModeChange (withTransition (transitionShown s r.target)
    { req := r, old := s.cur, target := r.target, release := [], tiers := [] }) s.cur r.target

/-- The domains that a transition from mode `old` to `m` releases (R46). -/
def releasesFor (s : State) (old m : Nat) : List Nat :=
  if m = modeShutdown then
    (List.range 12).filter (fun d => d != 0 && s.fbit PDC_STAT_ON d && !(modeDomains s old).contains d)
  else domainsToRemove s m

/-- The tiers that a transition to mode `m` powers up (R46). -/
def tiersFor (s : State) (m : Nat) : List (List Nat) := if m = modeShutdown then [] else domainTiers (domainsToAdd s m)

/-- A transition to another mode than WAKE begins: the domains that it releases drain, and it goes on as far as it can. -/
theorem beginTransition_eq {r : ModeReq} (hw : r.target ≠ modeWake) (ha : s.cur ≠ modeAssist) :
    beginTransition s r =
      modeProgress (withTransition (drainDomains (transitionBegun s r) (releasesFor (transitionBegun s r) s.cur r.target))
        { req := r, old := s.cur, target := r.target, release := releasesFor (transitionBegun s r) s.cur r.target
          tiers := tiersFor (transitionBegun s r) r.target }) := by
  unfold beginTransition
  exact (if_neg hw).trans (by simp only [if_neg ha]; rfl)

theorem transitionBegun_clock (s : State) (r : ModeReq) : (transitionBegun s r).reg CLK_STAT = s.reg CLK_STAT := by
  have hk : StartKept .clock (transitionShown s r.target) (transitionBegun s r) := anticipationModeChange_keepsStart (.rest (.refl _))
  unfold transitionShown at hk
  extract_lets _ u at hk
  have hn : StartKept .clock ((u.setFld SYS_MODE_TARGET r.target).setFlag SYS_MODE_TRANS true) _ := noteMode_keepsStart (s := u) (.refl _)
  rw [(hn.trans hk).clock, State.setFlag, reg_setFld_ne _ _ (by decide), reg_setFld_ne _ _ (by decide)]
  rfl

/-- A transition that a request begins in WAKE leaves CLK_STAT as it was. -/
theorem beginTransition_clock {r : ModeReq} (hc : s.cur = modeWake) (ht : r.target = modeShutdown ∨ r.target = modeStandby) :
    (beginTransition s r).reg CLK_STAT = s.reg CLK_STAT := by
  have hw : r.target ≠ modeWake := by rcases ht with ht | ht <;> rw [ht] <;> decide
  have hrel : ∀ u d, d = 1 ∨ d = 4 → d ∉ releasesFor u s.cur r.target := by
    intro u d hd
    rcases ht with ht | ht <;> rw [releasesFor, ht, hc]
    · rw [if_pos rfl, shutdown_removes_none]
      exact List.not_mem_nil
    · exact standby_keeps_clocks u hd
  rw [beginTransition_eq hw (by rw [hc]; decide)]
  refine (modeProgress_clock rfl (fun h => absurd (hc.symm.trans h) (by decide)) (hrel _ 1 (.inl rfl)) (hrel _ 4 (.inr rfl))).trans ?_
  exact (drainDomains_keepsStart (.refl (transitionBegun s r))).clock.trans (transitionBegun_clock s r)

/-- Taking a request answers it and the others. -/
theorem takeBest_keeps (s : State) (w : ModeReq) (rest : List ModeReq) :
    (takeBest s w rest).reg CLK_STAT = s.reg CLK_STAT ∧ (takeBest s w rest).cur = s.cur := by
  let u := answerAll (refuseIllegal s) (rest.filter fun r => !(r.target == modeShutdown)) .overruled
  have hclk : u.reg CLK_STAT = s.reg CLK_STAT := (answerAll_clock ..).trans (answerAll_clock (taken s) ..)
  have hcur : u.cur = s.cur := (answerAll_cur ..).trans (answerAll_cur (taken s) ..)
  exact ⟨(answerReq_clock u w .ok).trans hclk, (answerAll_cur u [w] .ok).trans hcur⟩

/-- An evaluation of the requests in WAKE leaves CLK_STAT as it was. -/
theorem evaluateRequests_clock (hc : s.cur = modeWake) : (evaluateRequests s).reg CLK_STAT = s.reg CLK_STAT := by
  rw [evaluateRequests_awake (by rw [hc]; decide) (fun h => absurd (hc.symm.trans h) (by decide))]
  split
  next => exact answerAll_clock (taken s) _ _
  next w hbest =>
    have hleg := (List.mem_filter.mp (bestReq_mem hbest)).2
    obtain ⟨hclk, hcur⟩ := takeBest_keeps s w ((s.mode.reqs.filter (reqLegal s)).erase w)
    exact (beginTransition_clock (hcur.trans hc) (target_of_reqLegal_wake hc hleg)).trans hclk

/-! ### The end of step 4 -/

theorem stepReached_step (s : State) {step : Nat} (h : step < 16) : (stepReached s step).fld SYS_BOOTSTAT_STEP = step :=
  (fld_setFld_same s SYS_BOOTSTAT_STEP step 0 (by decide)).trans (Nat.mod_eq_of_lt h)

/-- A step reached shows in SYS_BOOTSTAT alone. -/
theorem stepReached_reg (s : State) (step : Nat) {r : Reg} {n : Nat} (h : SYS_BOOTSTAT.addr 0 ≠ r.addr n) :
    (stepReached s step).reg r n = s.reg r n := reg_setFld_ne s step h

/-- Step 4 has ended: the transition to WAKE is done, and step 5 begins (R54). -/
def step4Ended (s : State) : State :=
  let u := withMode (holdRequests s) { (holdRequests s).mode with trans := none }
  stepReached (u.noteMode (u.setFlag SYS_MODE_TRANS false)) 5

theorem step4Ended_shows (s : State) : (step4Ended s).fld SYS_BOOTSTAT_STEP = 5 ∧ (step4Ended s).flag SYS_MODE_TRANS = false
    ∧ (step4Ended s).mode.trans = none ∧ (step4Ended s).mode.reqs = (holdRequests s).mode.reqs
    ∧ (step4Ended s).cur = s.cur ∧ (step4Ended s).reg CLK_STAT = s.reg CLK_STAT := by
  obtain ⟨hclk, -, hcur⟩ := holdRequests_keeps s
  unfold step4Ended
  extract_lets _ u
  have hm : ModeKept (u.setFlag SYS_MODE_TRANS false) (u.noteMode (u.setFlag SYS_MODE_TRANS false)) := noteMode_keepsMode (.refl _)
  have hs : StartKept .clock (u.setFlag SYS_MODE_TRANS false) (u.noteMode (u.setFlag SYS_MODE_TRANS false)) := noteMode_keepsStart (.refl _)
  refine ⟨stepReached_step _ (by decide), ?_, hm.trans, hm.reqs, ?_, ?_⟩
  · rw [State.flag, fld_of_reg (stepReached_reg _ _ (by decide)), hm.fld (by decide) (by decide)]
    exact flag_setFlag_same u _ _ 0 (by decide) (by decide)
  · rw [State.cur, fld_of_reg (stepReached_reg _ _ (by decide)), hm.fld (by decide) (by decide), State.setFlag,
      fld_setFld_reg_ne _ _ (by decide)]
    exact hcur
  · rw [stepReached_reg _ _ (by decide), hs.clock, State.setFlag, reg_setFld_ne _ _ (by decide)]
    exact hclk

/-- WAKE's domains are up and the timing PLL is locked: step 4 ends, and the requests that have arrived are judged (R42, R54). -/
theorem wakeStep4End_ends {x : Transition} (hx : s.mode.trans = some x)
    (h : x.target = modeWake ∧ s.cur = modeWake ∧ s.fld SYS_BOOTSTAT_STEP = 4 ∧ x.tiers.isEmpty ∧ s.flag CLK_STAT_TIMELOCK) :
    wakeStep4End s = evaluateRequests (step4Ended s) := by
  simp only [wakeStep4End, hx]
  exact if_pos h

/-- The end of step 4 leaves CLK_STAT as it was. -/
theorem wakeStep4End_clock (s : State) : (wakeStep4End s).reg CLK_STAT = s.reg CLK_STAT := by
  cases hx : s.mode.trans with
  | none => simp only [wakeStep4End, hx]
  | some x =>
    by_cases h : x.target = modeWake ∧ s.cur = modeWake ∧ s.fld SYS_BOOTSTAT_STEP = 4 ∧ x.tiers.isEmpty ∧ s.flag CLK_STAT_TIMELOCK
    · obtain ⟨-, -, -, -, hcur, hclk⟩ := step4Ended_shows s
      rw [wakeStep4End_ends hx h]
      exact (evaluateRequests_clock (hcur.trans h.2.1)).trans hclk
    · simp only [wakeStep4End, hx, if_neg h]

end Sys2Proof.Machine
end

section
/-! SUPPORT. Failed starts (R66–R68): what their count and their choice read, and the transition to PLINTH. -/
namespace Sys2Proof.Machine

variable {s t : State}

theorem StartKept.reg {pw : PowerWord} (h : StartKept pw s t) {r : Reg} {n : Nat} (hl : 0x20 ≤ r.addr n) (hr : r.addr n < 0x60) :
    t.reg r n = s.reg r n := by
  unfold State.reg
  rw [h.1 _ (.inl ⟨hl, hr⟩)]

theorem StartKept.fld {pw : PowerWord} (h : StartKept pw s t) {f : Fld} {n : Nat} (hl : 0x20 ≤ f.reg.addr n) (hr : f.reg.addr n < 0x60) :
    t.fld f n = s.fld f n := fld_of_reg (h.reg hl hr)

/-! ### The start fails -/

/-- The rails, AUX regulators and modules are turned off (R67 step 1). -/
def startStopped (s : State) : State :=
  let s := (List.range 32).foldl (fun s n =>
    let st := railState s n
    if s.powered (railDomain n) ∧ (st = rsSoftstart ∨ st = rsRegulate ∨ st = rsStopping ∨ st = rsHiccupOff ∨ st = rsLatched)
    then railLeave s n rsOff 4 4 else s) s
  let s := (List.range 4).foldl (fun s n => auxTurnOff s n 4) s
  if s.powered 9 then (List.range 4).foldl (fun s m => if lxEnabled (lxState s m) then lxStop s m lxOff else s) s else s

theorem startStopped_keepsStart (s : State) : StartKept .none s (startStopped s) := by
  unfold startStopped
  extract_lets r a
  have hr : StartKept .none s r := .foldl (.refl s) fun _ _ h => .ite (railLeave_keepsStart h) h
  have ha : StartKept .none s a := .foldl hr fun _ _ => auxTurnOff_keepsStart
  exact .ite (.foldl ha fun _ _ h => .ite (lxStop_keepsStart h) h) ha

/-- The failed start is counted, and its reason shows (R66, R67). -/
def failureShown (s : State) (reason : Nat) : State :=
  ((s.countTo SYS_BOOTCNT_FAILS 15).setFld SYS_BOOTSTAT_REASON reason).setFlag SYS_BOOTCTL_WAITHOST false

theorem failureShown_reads (s : State) (reason : Nat) (h : reason < 256) :
    (failureShown s reason).fld SYS_BOOTCNT_FAILS = min 15 (s.fld SYS_BOOTCNT_FAILS + 1)
      ∧ (failureShown s reason).fld SYS_BOOTCNT_LIMIT = s.fld SYS_BOOTCNT_LIMIT
      ∧ (failureShown s reason).fld SYS_BOOTSTAT_REASON = reason := by
  let u := s.countTo SYS_BOOTCNT_FAILS 15
  have hcnt : (failureShown s reason).reg SYS_BOOTCNT = u.reg SYS_BOOTCNT :=
    (reg_setFld_ne _ _ (by decide)).trans (reg_setFld_ne _ _ (by decide))
  have hlimit : u.fld SYS_BOOTCNT_LIMIT = s.fld SYS_BOOTCNT_LIMIT := by
    unfold u State.countTo
    split
    · exact fld_setFld_bits_ne s _ 0 rfl (by decide) (by decide)
    · rfl
  refine ⟨(fld_of_reg (f := SYS_BOOTCNT_FAILS) hcnt).trans (countTo_counts (s := s) SYS_BOOTCNT_FAILS 0 (by decide) (by decide)).1,
    (fld_of_reg (f := SYS_BOOTCNT_LIMIT) hcnt).trans hlimit, ?_⟩
  exact (fld_setFld_reg_ne _ _ (by decide)).trans ((fld_setFld_same _ _ _ _ (by decide)).trans (Nat.mod_eq_of_lt h))

/-- The failed start waits with its choice: PLINTH or a restart (R67 step 2). -/
def failureWaits (s : State) (plinth : Bool) : State :=
  { s with boot := { s.boot with failDue := none, failing := some plinth }, mode := { s.mode with wakeTimer := false } }

theorem failedStart_eq {reason : Nat} (hc : s.cur = modeWake) (hd : s.boot.failDue = some reason) (hf : s.boot.failing = none) :
    failedStart s =
      (let v := failureShown (startStopped s) reason
      startupRecord (rstoUpdate (stopStandby (failureWaits v (decide (v.fld SYS_BOOTCNT_LIMIT ≤ v.fld SYS_BOOTCNT_FAILS))))) 2) := by
  have hg : ¬ (s.cur ≠ modeWake ∨ s.boot.failing.isSome) := by simp [hc, hf]
  simp only [failedStart, hd]
  exact if_neg hg

/-- A transition to STANDBY that ends with the failed start has no part in the start-up's words and record. -/
theorem stopStandby_keeps (s : State) : (stopStandby s).reg SYS_BOOTCNT = s.reg SYS_BOOTCNT
    ∧ (stopStandby s).reg SYS_BOOTSTAT = s.reg SYS_BOOTSTAT ∧ (stopStandby s).boot.failing = s.boot.failing
    ∧ (stopStandby s).boot.failDue = s.boot.failDue := by
  unfold stopStandby
  split
  next x _ =>
    split
    · extract_lets _ u
      have hk : StartKept .none ((u.setFld SYS_MODE_TARGET modeWake).setFlag SYS_MODE_TRANS false)
        (u.noteMode ((u.setFld SYS_MODE_TARGET modeWake).setFlag SYS_MODE_TRANS false)) := noteMode_keepsStart (.refl _)
      refine ⟨(hk.reg (by decide) (by decide)).trans ?_, (hk.reg (by decide) (by decide)).trans ?_, hk.failing, by rw [hk.2]; rfl⟩
        <;> exact (reg_setFld_ne _ _ (by decide)).trans (reg_setFld_ne _ _ (by decide))
    · exact ⟨rfl, rfl, rfl, rfl⟩
  next => exact ⟨rfl, rfl, rfl, rfl⟩

/-- A failed start counts, keeps its reason, and waits for PLINTH where FAILS has reached LIMIT (R66, R67). -/
theorem failedStart_acts {reason : Nat} (hr : reason < 256) (hc : s.cur = modeWake) (hd : s.boot.failDue = some reason)
    (hf : s.boot.failing = none) :
    (failedStart s).boot.failDue = none ∧ (failedStart s).fld SYS_BOOTCNT_FAILS = min 15 (s.fld SYS_BOOTCNT_FAILS + 1)
      ∧ (failedStart s).fld SYS_BOOTSTAT_REASON = reason
      ∧ (failedStart s).boot.failing = some (decide (s.fld SYS_BOOTCNT_LIMIT ≤ min 15 (s.fld SYS_BOOTCNT_FAILS + 1))) := by
  have hstop := startStopped_keepsStart s
  obtain ⟨hfails, hlimit, hreason⟩ := failureShown_reads (startStopped s) reason hr
  rw [hstop.fld (by decide) (by decide)] at hfails hlimit
  rw [failedStart_eq hc hd hf]
  extract_lets v
  rw [show v.fld SYS_BOOTCNT_FAILS = _ from hfails, show v.fld SYS_BOOTCNT_LIMIT = _ from hlimit]
  let w := failureWaits v (decide (s.fld SYS_BOOTCNT_LIMIT ≤ min 15 (s.fld SYS_BOOTCNT_FAILS + 1)))
  obtain ⟨hcnt, hstat, hfailing, hdue⟩ := stopStandby_keeps w
  have hk : StartKept .none (stopStandby w) (startupRecord (rstoUpdate (stopStandby w)) 2) :=
    startupRecord_keepsStart (rstoUpdate_keepsStart (.refl _))
  refine ⟨?_, ?_, ?_, hk.failing.trans hfailing⟩
  · rw [hk.2]
    exact hdue
  · exact ((hk.fld (by decide) (by decide)).trans (fld_of_reg (f := SYS_BOOTCNT_FAILS) hcnt)).trans hfails
  · exact ((hk.fld (by decide) (by decide)).trans (fld_of_reg (f := SYS_BOOTSTAT_REASON) hstat)).trans hreason

/-! ### The transition to PLINTH -/

/-- TARGET and TRANS of a transition that has begun (R46). -/
theorem transitionBegun_shows (s : State) {r : ModeReq} (hr : r.target < 16) :
    (transitionBegun s r).fld SYS_MODE_TARGET = r.target ∧ (transitionBegun s r).flag SYS_MODE_TRANS = true
      ∧ (transitionBegun s r).boot.failing = s.boot.failing := by
  have hk : StartKept .none (transitionShown s r.target) (transitionBegun s r) := anticipationModeChange_keepsStart (.rest (.refl _))
  unfold transitionShown at hk
  extract_lets _ u at hk
  have h := (noteMode_keepsStart (s := u) (.refl ((u.setFld SYS_MODE_TARGET r.target).setFlag SYS_MODE_TRANS true))).trans hk
  refine ⟨?_, ?_, h.failing⟩
  · rw [h.fld (by decide) (by decide), State.setFlag,
      fld_setFld_bits_ne (f := SYS_MODE_TRANS) (g := SYS_MODE_TARGET) _ _ 0 rfl (by decide) (by decide),
      fld_setFld_same _ _ _ _ (by decide)]
    exact Nat.mod_eq_of_lt hr
  · rw [State.flag, h.fld (by decide) (by decide), State.setFlag, fld_setFld_same _ _ _ _ (by decide)]
    rfl

/-- TARGET and CUR read the mode entered (R46). -/
theorem setMode_shows (s : State) (src : ModeSrc) (old : Nat) (trans : Bool) {m : Nat} (hm : m < 16) :
    (setMode s src old m trans).fld SYS_MODE_TARGET = m ∧ (setMode s src old m trans).cur = m := by
  let g := (s.setFld SYS_MODE_PREV old).setFld SYS_MODE_TARGET m
  let u := (g.setFlag SYS_MODE_TRANS trans).setFld SYS_MODECUR_CUR m
  let v := (s.noteMode u).setReg SYS_MODESRC (srcWord src old m)
  have hn : ModeKept u (s.noteMode u) := noteMode_keepsMode (.refl u)
  constructor
  · calc (v.setFlag SYS_MODE_RESUME false).fld SYS_MODE_TARGET
        = v.fld SYS_MODE_TARGET := fld_setFld_bits_ne (f := SYS_MODE_RESUME) v _ 0 rfl (by decide) (by decide)
      _ = (s.noteMode u).fld SYS_MODE_TARGET := fld_setReg_ne _ _ (by decide)
      _ = u.fld SYS_MODE_TARGET := hn.words.target
      _ = (g.setFlag SYS_MODE_TRANS trans).fld SYS_MODE_TARGET := fld_setFld_reg_ne _ _ (by decide)
      _ = g.fld SYS_MODE_TARGET := fld_setFld_bits_ne (f := SYS_MODE_TRANS) g _ 0 rfl (by decide) (by decide)
      _ = m := (fld_setFld_same _ SYS_MODE_TARGET m 0 (by decide)).trans (Nat.mod_eq_of_lt hm)
  · calc (v.setFlag SYS_MODE_RESUME false).fld SYS_MODECUR_CUR
        = v.fld SYS_MODECUR_CUR := fld_setFld_reg_ne v _ (by decide)
      _ = (s.noteMode u).fld SYS_MODECUR_CUR := fld_setReg_ne _ _ (by decide)
      _ = u.fld SYS_MODECUR_CUR := hn.fld (by decide) (by decide)
      _ = m := (fld_setFld_same _ SYS_MODECUR_CUR m 0 (by decide)).trans (Nat.mod_eq_of_lt hm)

/-- The plinth sequence begins with the mode registers as they are (R69). -/
theorem plinthEnter_fld (s : State) {f : Fld} (hl : 0x20 ≤ f.reg.addr 0) (hh : f.reg.addr 0 < 0x54) : (plinthEnter s).fld f = s.fld f := by
  unfold plinthEnter
  extract_lets a _ _ b
  have hk : StartKept .none b (startupRecord (pairFault (rstoUpdate b)) 4) :=
    startupRecord_keepsStart (pairFault_keepsStart (rstoUpdate_keepsStart (.refl b)))
  have hne : ∀ r : Reg, 0x54 ≤ r.addr 0 → r.addr 0 ≠ f.reg.addr 0 := fun r h => by omega
  refine (hk.fld hl (by omega)).trans (?_ : a.fld f = _)
  rw [show a = ((s.setFld SYS_BOOTSTAT_STEP 0xB).setFld SYS_BOOTSTAT_PLSTEP 0).setFld SYS_BOOTCTL_WAITHOST 0 from rfl,
    fld_setFld_reg_ne _ _ (hne SYS_BOOTCTL (by decide)), fld_setFld_reg_ne _ _ (hne SYS_BOOTSTAT (by decide)),
    fld_setFld_reg_ne _ _ (hne SYS_BOOTSTAT (by decide))]

/-- The device is in PLINTH, or on its way there, with no failed start waiting. -/
structure GoesToPlinth (t : State) : Prop where
  failing : t.boot.failing = none
  target : t.fld SYS_MODE_TARGET = modePlinth
  shown : t.flag SYS_MODE_TRANS = true ∨ t.cur = modePlinth

theorem GoesToPlinth.kept {pw : PowerWord} (h : GoesToPlinth s) (hk : StartKept pw s t) : GoesToPlinth t where
  failing := hk.failing.trans h.failing
  target := (hk.fld (by decide) (by decide)).trans h.target
  shown := h.shown.imp (by unfold State.flag; rw [hk.fld (by decide) (by decide)]; exact id) (hk.fld (by decide) (by decide)).trans

theorem completeTransition_plinth {x : Transition} (hx : x.target = modePlinth) (ho : x.old = modeWake) (hf : s.boot.failing = none) :
    GoesToPlinth (completeTransition s x) := by
  unfold completeTransition
  rw [hx, ho]
  extract_lets sAntic _ sNone sLeft sRecord _ sOld sEntered
  have hNone : sNone.boot.failing = none :=
    (anticipationModeChange_keepsStart (pw := .none) (.refl _)).failing.trans ((congrArg _ (holdRequests_keeps s).2.1).trans hf)
  obtain ⟨htarget, hcur⟩ := setMode_shows sNone x.req.src modeWake false (m := modePlinth) (by decide)
  have hset : GoesToPlinth (setMode sNone x.req.src modeWake modePlinth false) :=
    ⟨(setMode_keeps ..).2.trans hNone, htarget, .inr hcur⟩
  have hleft : StartKept .none (setMode sNone x.req.src modeWake modePlinth false) sLeft :=
    leaveMode_keepsStart (old := modeWake) (by decide) (.refl _)
  have hrecord : GoesToPlinth sRecord := (hset.kept hleft).kept (pw := .none) (postRecord_keepsStart (.refl sLeft))
  have hold : sOld = sRecord := if_neg (by decide)
  have henter : sEntered = plinthEnter sRecord := by
    rw [show sEntered = enterMode sOld x.req modeWake modePlinth from rfl, hold, enterMode, if_neg (by decide), if_neg (by decide), if_pos rfl]
  have hentered : GoesToPlinth sEntered := by
    rw [henter]
    exact
      { failing := (plinthEnter_keeps sRecord).2.trans hrecord.failing
        target := (plinthEnter_fld sRecord (by decide) (by decide)).trans hrecord.target
        shown := hrecord.shown.imp (by unfold State.flag; rw [plinthEnter_fld sRecord (by decide) (by decide)]; exact id)
          (plinthEnter_fld sRecord (by decide) (by decide)).trans }
  split
  · exact hentered.kept (pw := .none) (applyOpt_keepsStart (.rest (.refl sEntered)))
  · exact hentered

theorem modeProgress_plinth {x : Transition} (hx : s.mode.trans = some x) (ht : x.target = modePlinth) (ho : x.old = modeWake)
    (h : GoesToPlinth s) : GoesToPlinth (modeProgress s) := by
  have hr : StartKept .none s (releaseDomains s x.release) := releaseDomains_keepsStart (.inl rfl) (.refl s)
  unfold modeProgress
  simp only [hx]
  split
  · exact h
  · split
    · exact completeTransition_plinth ht ho (hr.failing.trans h.failing)
    · exact h.kept (pw := .none) hr

/-- The choice of PLINTH leads there (R67). -/
theorem beginTransition_plinth {r : ModeReq} (hc : s.cur = modeWake) (hr : r.target = modePlinth) (hf : s.boot.failing = none) :
    GoesToPlinth (beginTransition s r) := by
  rw [beginTransition_eq (by rw [hr]; decide) (by rw [hc]; decide)]
  obtain ⟨htarget, htrans, hfailing⟩ := transitionBegun_shows s (r := r) (by rw [hr]; decide)
  have hbegun : GoesToPlinth (transitionBegun s r) := ⟨hfailing.trans hf, htarget.trans hr, .inl htrans⟩
  exact modeProgress_plinth rfl hr hc (hbegun.kept (pw := .none) (.rest (drainDomains_keepsStart (.refl _))))

/-! ### The end of the wait -/

/-- The state in which nothing of the choice is left. -/
def choiceTaken (s : State) : State := { s with boot := { s.boot with failing := none }, mode := { s.mode with trans := none } }

theorem rearmEnd_plinth (hc : s.cur = modeWake) (hf : s.boot.failing = some true) :
    rearmEnd s = beginTransition (choiceTaken s) { src := .hw 5, target := modePlinth, sdend := 0 } := by
  unfold rearmEnd
  rw [if_neg (not_not.mpr hc), hf]
  rfl

theorem rearmEnd_restart (hc : s.cur = modeWake) (hf : s.boot.failing = some false) : rearmEnd s = chipReset s := by
  unfold rearmEnd
  rw [if_neg (not_not.mpr hc), hf]

/-! ### The counter of failed starts is cleared -/

theorem bootcntWrite_refused {w : Word} (h : w.toNat / 65536 ≠ 0xB007 ∨ s.cur ≠ modePlinth ∧ s.cur ≠ modeService) :
    (bootcntWrite s w).1 = s := by
  unfold bootcntWrite
  rw [bits_high]
  split
  · rfl
  · rw [if_pos (h.resolve_left (by omega))]

theorem bootcntWrite_clear (h : s.cur = modePlinth ∨ s.cur = modeService) : (bootcntWrite s 0xB0070000).1 = s.setFld SYS_BOOTCNT_FAILS 0 := by
  have h' : ¬ (s.cur ≠ modePlinth ∧ s.cur ≠ modeService) := by tauto
  unfold bootcntWrite
  rw [if_neg (by decide), if_neg h', if_neg (by decide)]

end Sys2Proof.Machine
end

section
open Sys2Proof Sys2Proof.Machine

/-- Settles O23: neither what a failed start turns off nor the transition to PLINTH touches SYS_BOOTCNT, SYS_BOOTSTAT or the choice. -/
theorem failedStartsAreCounted : Obligations.FailedStartsAreCounted := by
  unfold Obligations.FailedStartsAreCounted
  intro s w hp
  refine ⟨fun r hc hd hf => ⟨_, on_powered hp, failedStart_acts r.isLt hc hd hf⟩, fun hc => ?_, fun hc hf => ?_, fun hc hf => ?_,
    fun hc => ⟨_, on_powered hp, ?_⟩, ?_, fun h => ?_⟩
  · exact (on_powered hp).trans (congrArg _ (if_pos hc))
  · obtain ⟨hshow, -⟩ := chipReset_shows s
    exact ⟨_, (on_powered hp).trans (congrArg _ (rearmEnd_restart hc hf)), hshow.cur, hshow.transFlag, hshow.wakesrc⟩
  · have he : exec .failedStartRearmEnd s = .next (beginTransition (choiceTaken s) { src := .hw 5, target := modePlinth, sdend := 0 }) :=
      (on_powered hp).trans (congrArg _ (rearmEnd_plinth hc hf))
    have hplinth := beginTransition_plinth (s := choiceTaken s) (r := { src := .hw 5, target := modePlinth, sdend := 0 }) hc rfl rfl
    exact ⟨he, _, he, hplinth.failing, hplinth.target, hplinth.shown⟩
  · rw [if_pos (show s.cur = modeStandby ∨ s.cur = modeRun from hc)]
    exact setFld_reads_regsOnly (by decide) (by decide)
  · rintro rfl hc
    refine ⟨s.setFld SYS_BOOTCNT_FAILS 0, ?_, setFld_reads_regsOnly (by decide) (by decide)⟩
    rw [← bootcntWrite_clear hc]
    exact on_powered hp
  · exact (on_powered hp).trans (congrArg _ (bootcntWrite_refused h))
end

section
/-! SUPPORT. The steps of the plinth sequencer (R69): what turns a rail or a regulator on leaves the start-up words and start-up's record
alone, and a step stops the sequence at most. -/
namespace Sys2Proof.Machine

variable {pw : PowerWord} {s0 s t : State}

/-! ### Rails and regulators start -/

theorem plainWrite_keepsStart {r w n} (hr : r.beside = true) (h : StartKept pw s0 s) : StartKept pw s0 (s.plainWrite r w n) :=
  setReg_keepsStart hr h

theorem railNoPhase_keepsStart {n} (h : StartKept pw s0 s) : StartKept pw s0 (railNoPhase s n) :=
  .rest (event_keepsStart rfl (.rest (railLeave_keepsStart h)))

theorem recordPhaseFence_keepsStart {n ph cause} (h : StartKept pw s0 s) : StartKept pw s0 (recordPhaseFence s n ph cause) :=
  .via (fun h1 => .ite (.rest (.rest (event_keepsStart rfl (countTo_keepsStart rfl h1)))) (event_keepsStart rfl (countTo_keepsStart rfl h1)))
    (.rest (supCount_keepsStart (event_keepsStart rfl (countTo_keepsStart rfl (setFld_keepsStart rfl (setFld_keepsStart rfl
      (sendCmd_keepsStart (.rest h))))))))

theorem fenceUntrained_keepsStart {n} (h : StartKept pw s0 s) : StartKept pw s0 (fenceUntrained s n) :=
  .foldl h (fun _ _ h => .ite (recordPhaseFence_keepsStart h) h)

theorem compPend_keepsStart {n} (h : StartKept pw s0 s) : StartKept pw s0 (compPend s n) := setFlag_keepsStart rfl h

theorem railStart_keepsStart {n restart} (h : StartKept pw s0 s) : StartKept pw s0 (railStart s n restart) :=
  .via
    (fun h1 =>
      .ite (railNoPhase_keepsStart h1) <| .via
        (fun h2 => .via (fun h3 => .ite h3 (setFld_keepsStart rfl h3)) (setFlag_keepsStart rfl (.ite (setFlag_keepsStart rfl h2) h2)))
        (.rest (.ite h1 (compPend_keepsStart (.rest h1)))))
    (supCount_keepsStart (setRailState_keepsStart (fenceUntrained_keepsStart h)))

theorem railEnableIf_keepsStart {n permitted} (h : StartKept pw s0 s) : StartKept pw s0 (railEnableIf s n permitted).1 :=
  .iteFst h <| .iteFst h <| .iteFst h <| .iteFst h <| .iteFst h <| .iteFst h <|
  .iteFst (.rest (setRailState_keepsStart h)) (railStart_keepsStart h)

theorem supersede_keepsStart {n} (h : StartKept pw s0 s) : StartKept pw s0 (supersede s n) :=
  .ite (event_keepsStart rfl (setFld_keepsStart rfl h)) h

theorem railDisable_keepsStart {n} (h : StartKept pw s0 s) : StartKept pw s0 (railDisable s n).1 :=
  .iteFst (railLeave_keepsStart h) <| .iteFst
    (.iteFst
      (.iteFst h (railTermsEnd_keepsStart (setFlag_keepsStart rfl (.rest (setRailState_keepsStart (supersede_keepsStart h))))))
      (railLeave_keepsStart h))
    h

theorem railSetTarget_keepsStart {n v rate m} (h : StartKept pw s0 s) : StartKept pw s0 (railSetTarget s n v rate m).1 :=
  .iteFst h <| .iteFst h <| .iteFst
    (.iteFst (setFld_keepsStart rfl h) <| .via
      (fun h1 => .iteFst (event_keepsStart rfl (setFlag_keepsStart rfl (.rest h1))) (setFlag_keepsStart rfl (.rest h1)))
      (setFld_keepsStart rfl (supersede_keepsStart h)))
    (.rest (setFld_keepsStart rfl h))

theorem railUnfence_keepsStart {n mask} (h : StartKept pw s0 s) : StartKept pw s0 (railUnfence s n mask).1 :=
  .iteFst h (.foldl h (fun _ _ h => .ite h (sendCmd_keepsStart h)))

theorem railTrack_keepsStart {n leader mode ratio} (h : StartKept pw s0 s) : StartKept pw s0 (railTrack s n leader mode ratio).1 :=
  .iteFst h <| .iteFst h <| .iteFst h <| .via
    (fun h1 => .iteFst (.ite (setFlag_keepsStart rfl (.rest h1)) (.rest h1)) h1)
    (setFlag_keepsStart rfl (setFld_keepsStart rfl (setFld_keepsStart rfl (setFld_keepsStart rfl h))))

theorem railCtrlIf_keepsStart {n w permitted} (h : StartKept pw s0 s) : StartKept pw s0 (railCtrlIf s n w permitted).1 :=
  .iteFst h <| .iteFst h <| .via
    (fun h1 => .ite (.iteFst (railEnableIf_keepsStart h1) (railDisable_keepsStart h1)) h)
    (sendSink_keepsStart (setFld_keepsStart rfl (setFld_keepsStart rfl (setFld_keepsStart rfl h))))

theorem railBound_keepsStart {n kind w} (h : StartKept pw s0 s) : StartKept pw s0 (railBound s n kind w).1 :=
  .iteFst h (plainWrite_keepsStart (by split <;> rfl) h)

/-- RLn's registers stand beside the start-up words, and so does all that a write of one brings about. -/
theorem railWrite_keepsStart {n off m w} (h : StartKept pw s0 s) : StartKept pw s0 (railWrite s n off m w).1 := by
  unfold railWrite
  split
  · exact railCtrlIf_keepsStart h
  · exact railSetTarget_keepsStart h
  · exact railTrack_keepsStart h
  iterate 3 · exact compPend_keepsStart (setReg_keepsStart rfl h)
  · exact .via (fun h1 => .iteFst (.rest h1) h1) (compPend_keepsStart (setFld_keepsStart rfl h))
  · exact .iteFst h (setFld_keepsStart rfl h)
  · exact .iteFst h (.iteFst h (.iteFst h (setReg_keepsStart rfl h)))
  · exact railUnfence_keepsStart h
  · exact .iteFst h (setReg_keepsStart rfl h)
  iterate 6 · exact railBound_keepsStart h
  iterate 9 · exact plainWrite_keepsStart rfl h
  · exact h

theorem auxEnable_keepsStart {n plinth} (h : StartKept pw s0 s) : StartKept pw s0 (auxEnable s n plinth).1 :=
  .iteFst h <| .iteFst h <| .iteFst h <| .iteFst h <| .iteFst h <| .iteFst (setAuxState_keepsStart h) h

/-! ### What a step shows -/

/-- Step `k` is the one last taken. -/
def PlinthAt (k : Nat) (s : State) : Prop := s.fld SYS_BOOTSTAT_PLSTEP = k ∧ s.boot.plNext = k + 1

variable {k : Nat}

theorem PlinthAt.kept (h : PlinthAt k s) (hk : StartKept pw s t) : PlinthAt k t :=
  ⟨(hk.fld (by decide) (by decide)).trans h.1, by rw [hk.2]; exact h.2⟩

/-- The flags of a sequence that stopped. -/
def plFlagged (s : State) (deflt : Bool) : State := (s.setFlag SYS_BOOTSTAT_PLFAIL true).setFlag SYS_BOOTSTAT_PLDEF deflt

theorem plFlagged_step (s : State) (deflt : Bool) : (plFlagged s deflt).fld SYS_BOOTSTAT_PLSTEP = s.fld SYS_BOOTSTAT_PLSTEP := by
  unfold plFlagged State.setFlag
  rw [fld_setFld_bits_ne (f := SYS_BOOTSTAT_PLDEF) (g := SYS_BOOTSTAT_PLSTEP) _ _ 0 rfl (by decide) (by decide),
    fld_setFld_bits_ne (f := SYS_BOOTSTAT_PLFAIL) (g := SYS_BOOTSTAT_PLSTEP) _ _ 0 rfl (by decide) (by decide)]

theorem plFlagged_fails (s : State) (deflt : Bool) : (plFlagged s deflt).flag SYS_BOOTSTAT_PLFAIL = true := by
  rw [plFlagged, State.flag, State.setFlag,
    fld_setFld_bits_ne (f := SYS_BOOTSTAT_PLDEF) (g := SYS_BOOTSTAT_PLFAIL) _ _ 0 rfl (by decide) (by decide)]
  exact flag_setFlag_same s _ _ 0 (by decide) (by decide)

theorem plStop_regs (s : State) (deflt : Bool) : (plStop s deflt).regs = (plFlagged s deflt).regs := rfl

theorem PlinthAt.stop (h : PlinthAt k s) (deflt : Bool) : PlinthAt k (plStop s deflt) :=
  ⟨(fld_congr (plStop_regs s deflt) _ _).trans ((plFlagged_step s deflt).trans h.1), h.2⟩

theorem plStop_fails (s : State) (deflt : Bool) : (plStop s deflt).flag SYS_BOOTSTAT_PLFAIL = true :=
  (flag_congr (plStop_regs s deflt) _ _).trans (plFlagged_fails s deflt)

theorem plStop_sameRegs (s : State) (deflt : Bool) : SameRegs s (plStop s deflt) [SYS_BOOTSTAT.addr 0] :=
  (SameRegs.setFld s SYS_BOOTSTAT_PLFAIL _ 0).trans (SameRegs.setFld _ SYS_BOOTSTAT_PLDEF _ 0)

theorem plEnableAux_at (h : PlinthAt k s) (n : Nat) : PlinthAt k (plEnableAux s n) := by
  unfold plEnableAux
  split
  · exact h.stop true
  next v _ =>
    have hx : StartKept .none s (auxEnable (s.setReg AUX_CFG (wordOf (v.toNat % 2 ^ 27)) n) n true).1 :=
      auxEnable_keepsStart (setReg_keepsStart rfl (.refl s))
    split
    next he => exact h.kept (hx.of_eq he)
    next he => exact (h.kept (hx.of_eq he)).stop false

theorem plEnableRail_at (h : PlinthAt k s) (n : Nat) : PlinthAt k (plEnableRail s n) := by
  unfold plEnableRail
  split
  · exact h.stop true
  next ws _ =>
    split
    · exact h.stop false
    · extract_lets write x
      have hx : StartKept .none s x.1 := .foldlFst (.refl s) fun y w hy =>
        .iteFst (.iteFst (railCtrlIf_keepsStart hy) (railWrite_keepsStart hy)) hy
      have hen : StartKept .none s (if x.2 = .ok then railEnableIf x.1 n true else x).1 := .iteFst (railEnableIf_keepsStart hx) hx
      split
      next he => exact h.kept (hen.of_eq he)
      next he => exact (h.kept (hen.of_eq he)).stop false

/-! ### The step itself -/

/-- The step is taken over from the list: it shows in PLSTEP, and the next one follows. -/
def plinthTaken (s : State) (k : Nat) : State :=
  let s := s.setFld SYS_BOOTSTAT_PLSTEP k
  { s with boot := { s.boot with plNext := k + 1 } }

/-- What the operation `op` with target `t` does. -/
def plinthAct (s : State) (op t : Nat) : State :=
  if op = 3 then { s with boot := { s.boot with plWait := 1 } }
  else if op = 1 ∨ op = 2 ∨ op = 4 then
    if 6 ≤ t then plStop s false
    else if op = 1 then (if t < 4 then plEnableAux s t else plEnableRail s (t - 4))
    else if op = 2 then (if t < 4 then auxDisable s t else if s.railOpen (t - 4) then (railDisable s (t - 4)).1 else s)
    else { s with boot := { s.boot with plWait := 2 } }
  else if op = 5 then
    if 8 ≤ t then plStop s false
    else rstoUpdate { s with sup := { s.sup with plRel := s.sup.plRel ||| (1 <<< t) } }
  else { s with boot := { s.boot with plRun := false } }

theorem plinthStep_eq (hc : s.cur = modePlinth) (hr : s.boot.plRun = true) (hw : s.boot.plWait = 0) (hn : s.boot.plNext = k) (hk : k < 8) :
    plinthStep s = plinthAct (plinthTaken s k) (Word.bits (plStep s k) 31 28) (Word.bits (plStep s k) 27 24) := by
  subst hn
  have hg : ¬ (s.cur ≠ modePlinth ∨ !s.boot.plRun ∨ s.boot.plWait ≠ 0) := by simp [hc, hr, hw]
  exact (if_neg hg).trans (if_neg (Nat.not_le.2 hk))

theorem plinthTaken_at (s : State) (hk : k < 8) : PlinthAt k (plinthTaken s k) :=
  ⟨(fld_setFld_same s _ _ 0 (by decide)).trans (Nat.mod_eq_of_lt hk), rfl⟩

/-- Whatever the operation, PLSTEP and the next step are those of the step taken. -/
theorem plinthAct_at (h : PlinthAt k s) (op tgt : Nat) : PlinthAt k (plinthAct s op tgt) := by
  unfold plinthAct
  split
  · exact h
  split
  · split
    · exact h.stop false
    split
    · split
      · exact plEnableAux_at h tgt
      · exact plEnableRail_at h (tgt - 4)
    split
    · split
      · exact h.kept (pw := .none) (auxTurnOff_keepsStart (.refl s))
      · exact h.kept (pw := .none) (.ite (railDisable_keepsStart (.refl s)) (.refl s))
    · exact h
  split
  · split
    · exact h.stop false
    · exact h.kept (pw := .none) (rstoUpdate_keepsStart (.rest (.refl s)))
  · exact h

/-- CHECKPG of a regulator or rail the chip has holds the sequence. -/
theorem plinthAct_check {tgt : Nat} (h : tgt < 6) : plinthAct s 4 tgt = { s with boot := { s.boot with plWait := 2 } } := by
  simp [plinthAct, Nat.not_le.2 h]

/-- RELEASE of a reset output the chip has. -/
theorem plinthAct_release {tgt : Nat} (h : tgt < 8) :
    plinthAct s 5 tgt = rstoUpdate { s with sup := { s.sup with plRel := s.sup.plRel ||| (1 <<< tgt) } } := by
  simp [plinthAct, Nat.not_le.2 h]

/-- END, and the operations that do not exist. -/
theorem plinthAct_end {op : Nat} (h : op = 0 ∨ 6 ≤ op) (tgt : Nat) : plinthAct s op tgt = { s with boot := { s.boot with plRun := false } } := by
  unfold plinthAct
  rw [if_neg (by omega), if_neg (by omega), if_neg (by omega)]

/-- A target the chip does not have stops the sequence. -/
theorem plinthAct_noTarget {op tgt : Nat} (h : op = 1 ∨ op = 2 ∨ op = 4) (ht : 6 ≤ tgt) : plinthAct s op tgt = plStop s false := by
  unfold plinthAct
  rw [if_neg (by omega), if_pos h, if_pos ht]

/-! ### Reset outputs -/

theorem noteHist_sup (s : State) (k : Nat) : (s.noteHist k).sup = s.sup :=
  List.foldlRecOn (motive := fun t : State => t.sup = s.sup) _ _ rfl fun t ht e _ => by
    dsimp only
    split
    · split <;> exact ht
    · exact ht

theorem rstoSet_sup (s : State) (j : Nat) (b : Bool) : (rstoSet s j b).sup = s.sup := by
  unfold rstoSet State.noteIf
  split
  · exact noteHist_sup _ _
  · rfl

/-- The reset outputs follow the sequencer's releases and do not change them. -/
theorem rstoOne_plRel (s : State) (hold : Bool) (j : Nat) : (rstoOne s hold j).sup.plRel = s.sup.plRel := by
  have hset (b : Bool) : (rstoSet s j b).sup.plRel = s.sup.plRel := by rw [rstoSet_sup]
  have hlow (c : Nat) : (rstoLow s j c).sup.plRel = s.sup.plRel := hset false
  unfold rstoOne
  split
  · rfl
  split
  · exact hlow _
  split
  · split
    · exact hset true
    · exact hlow _
  split
  · exact hlow _
  split
  · exact hlow _
  · split <;> rfl

theorem rstoUpdate_plRel (s : State) : (rstoUpdate s).sup.plRel = s.sup.plRel :=
  List.foldlRecOn (motive := fun t : State => t.sup.plRel = s.sup.plRel) _ _ rfl fun t ht _ _ => (rstoOne_plRel t _ _).trans ht

theorem released_testBit (m j : Nat) : (m ||| (1 <<< j)).testBit j = true := by
  rw [Nat.testBit_or, Nat.one_shiftLeft, Nat.testBit_two_pow_self, Bool.or_true]

theorem plinthAct_release_shows {tgt : Nat} (h : tgt < 8) :
    (plinthAct s 5 tgt).sup.plRel.testBit tgt = true ∧ (plinthAct s 5 tgt).boot.plRun = s.boot.plRun := by
  rw [plinthAct_release h]
  refine ⟨(congrArg (·.testBit tgt) (rstoUpdate_plRel _)).trans (released_testBit _ _), ?_⟩
  have hk : StartKept .none s (rstoUpdate { s with sup := { s.sup with plRel := s.sup.plRel ||| (1 <<< tgt) } }) :=
    rstoUpdate_keepsStart (.rest (.refl s))
  rw [hk.2]

end Sys2Proof.Machine
end

section
open Sys2Proof Sys2Proof.Machine

/-- Settles O24: no operation touches PLSTEP or the next step; each case is what the operation does. -/
theorem plinthSequenceSteps : Obligations.PlinthSequenceSteps := by
  unfold Obligations.PlinthSequenceSteps
  intro s k op tgt hp
  refine ⟨fun hc hr hw hn hk hop htgt => ?_, fun hr hw => ?_, fun hr hw => ⟨fun hg => ?_, ?_⟩⟩
  · have he : exec .plinthStep s = .next (plinthAct (plinthTaken s k) op tgt) := by
      rw [hop, htgt, ← plinthStep_eq hc hr hw hn hk]
      exact on_powered hp
    obtain ⟨hstep, hnext⟩ := plinthAct_at (plinthTaken_at s hk) op tgt
    refine ⟨_, he, hstep, hnext, ?_, ?_, ?_, fun h => ?_, fun ⟨h, ht⟩ => ?_⟩
    · rintro rfl
      exact ⟨rfl, hr⟩
    · rintro ⟨rfl, ht⟩
      rw [plinthAct_check ht]
      exact ⟨rfl, hr⟩
    · rintro ⟨rfl, ht⟩
      obtain ⟨hrel, hrun⟩ := plinthAct_release_shows (s := plinthTaken s k) ht
      exact ⟨hrel, hrun.trans hr⟩
    · rw [plinthAct_end h]
    · rw [plinthAct_noTarget h ht]
      exact ⟨rfl, plStop_fails _ _⟩
  · exact (on_powered hp).trans (congrArg _ (if_pos ⟨hr, hw⟩))
  · exact (on_powered hp).trans (congrArg _ (if_pos ⟨hr, hw, hg⟩))
  · have he : exec .plinthCheckpgTimeout s = .next (plStop s false) := (on_powered hp).trans (congrArg _ (if_pos ⟨hr, hw⟩))
    exact ⟨_, he, plStop_fails _ _, rfl, rfl, plStop_sameRegs _ _⟩
end

section
/-! SUPPORT. Steps 1 to 5 of WAKE (R54–R57): what each shows as it ends. -/
namespace Sys2Proof.Machine

variable {s t : State}

/-! ### Steps 1 and 2 -/

/-- What `wakeAt` asks for: WAKE stands at the step, and the start has neither failed nor is held. -/
theorem wakeAt_elim {step : Nat} (h : wakeAt s step = true) : s.cur = modeWake ∧ s.fld SYS_BOOTSTAT_STEP = step
    ∧ s.boot.failDue = none ∧ s.boot.failing = none ∧ s.flag SYS_BOOTSTAT_OTPHOLD = false := by
  unfold wakeAt at h
  simp only [Bool.and_eq_true, beq_iff_eq, Option.isNone_iff_eq_none, Bool.not_eq_true'] at h
  tauto

theorem StartKept.power (h : StartKept .power s t) : t.reg PDC_STAT = s.reg PDC_STAT := by
  unfold State.reg
  rw [show PDC_STAT.addr 0 = PowerWord.power.key from rfl, h.1 _ (.inr rfl)]

/-- PD1 comes up, and no more with it than the reset outputs. -/
theorem domainOn_core_power (s : State) : (domainOn s 1).fbit PDC_STAT_ON 1 = true := by
  have hk : StartKept .power (s.setFbit PDC_STAT_ON 1 true) (domainOn s 1) := rstoUpdate_keepsStart (.refl _)
  rw [State.fbit, fld_of_reg (f := PDC_STAT_ON) hk.power]
  exact fbit_setFbit_same s _ _ _ _ (by decide) (by decide)

theorem stepReached_regs (s : State) (step : Nat) : (stepReached s step).regs = (s.setFld SYS_BOOTSTAT_STEP step).regs := rfl

theorem softStartDone_eq (hw : wakeAt s 1 = true) (hf : s.fbit PDC_STAT_SWFAULT 1 = false) (ha : safetyAborts s = false) :
    softStartDone s = stepReached (domainOn s 1) 2 := by
  have hk : ModeKept s (domainOn s 1) := domainOn_keepsMode (.refl s)
  have ha1 : safetyAborts (domainOn s 1) = false := by
    rw [safetyAborts, hk.reqs]
    exact ha
  have hg : ¬ (!wakeAt s 1 ∨ s.fbit PDC_STAT_SWFAULT 1) := by simp [hw, hf]
  refine (if_neg hg).trans (if_neg ?_)
  rw [ha1]
  decide

/-! ### Step 3 -/

/-- A PARTEN that does not check fails the integrity check (R56). -/
theorem otpIntegrity_parten {damage : List (Fin 128 × Word)} {wires : Nat} (h : partenOk s damage wires = false) :
    otpIntegrity s damage wires = false := by
  rw [otpIntegrity, h, Bool.false_and, Bool.false_and]

/-- A copy of PARTEN whose wires disagree. -/
theorem partenOk_wires (damage : List (Fin 128 × Word)) {wires : Nat} (h : wires % 2 = 1) : partenOk s damage wires = false := by
  have hbit : wires.testBit 0 = true := by rw [Nat.testBit_zero]; exact decide_eq_true h
  rw [partenOk, trimState, if_pos hbit]
  rfl

/-- One damaged bit of PARTEN, which its complement then contradicts. -/
theorem partenOk_damaged (s : State) (wires : Nat) : partenOk s [(0, 1)] wires = false := by
  have h0 : trimRead s [(0, 1)] 0 = wordOf (partCode s) ^^^ 1 := rfl
  have h1 : trimRead s [(0, 1)] 1 = wordOf (partCode s) ^^^ trimMask 0 := rfl
  unfold partenOk trimState
  rw [h0, h1]
  cases hp : s.part <;> simp only [partCode, hp] <;> split <;> decide

theorem wdHold_keepsMode {s0 : State} (h : ModeKept s0 s) : ModeKept s0 (wdHold s) :=
  .foldl h fun _ _ h => wdDiscard_keepsMode (setFlag_keepsMode rfl (setFlag_keepsMode rfl h))

/-- The start is held: the watchdogs stop, and PD7 comes up for the hosts (R56). -/
def otpHeld (s : State) : State :=
  startupRecord (rstoUpdate (pairFault (wdHold (domainOn (s.setFlag SYS_BOOTSTAT_OTPHOLD true) 7)))) 5

theorem otpLoad_held {damage : List (Fin 128 × Word)} {wires : Nat} (hw : wakeAt s 3 = true) (hi : otpIntegrity s damage wires = false) :
    otpLoad s damage wires = otpHeld s := by
  rw [otpLoad, hw, hi]
  rfl

theorem otpHeld_shows (s : State) :
    (otpHeld s).flag SYS_BOOTSTAT_OTPHOLD = true ∧ (otpHeld s).fld SYS_BOOTSTAT_STEP = s.fld SYS_BOOTSTAT_STEP := by
  have hk : ModeKept (s.setFlag SYS_BOOTSTAT_OTPHOLD true) (otpHeld s) :=
    startupRecord_keepsMode (rstoUpdate_keepsMode (pairFault_keepsMode (wdHold_keepsMode (domainOn_keepsMode (.refl _)))))
  constructor
  · rw [State.flag, hk.fld (by decide) (by decide)]
    exact flag_setFlag_same s _ _ 0 (by decide) (by decide)
  · rw [hk.fld (by decide) (by decide), State.setFlag,
      fld_setFld_bits_ne (f := SYS_BOOTSTAT_OTPHOLD) (g := SYS_BOOTSTAT_STEP) _ _ 0 rfl (by decide) (by decide)]

/-! ### What the OTP delivers -/

variable {pw : PowerWord} {s0 : State}

theorem otpCrit_keepsStart {field : Nat} (h : StartKept pw s0 s) : StartKept pw s0 (otpCrit s field) := .rest (event_keepsStart rfl h)

theorem otpDeliver_keepsStart {damage : List (Fin 128 × Word)} {wires : Nat} (h : StartKept pw s0 s) :
    StartKept pw s0 (otpDeliver s damage wires) := by
  unfold otpDeliver
  extract_lets _ _ _ o a b d0 c d e
  have ha : StartKept pw s0 a := h
  have hb : StartKept pw s0 b := otpJudge_keepsStart (setFlag_keepsStart rfl ha)
  have hd : StartKept pw s0 d := setFld_keepsStart rfl (setFld_keepsStart rfl (setFld_keepsStart rfl hb))
  have he : StartKept pw s0 e := .foldl hd fun _ _ h => .foldl h fun _ _ h => .ite (otpCrit_keepsStart h) h
  exact .foldl he fun _ _ => otpCrit_keepsStart

theorem wdBegin_keepsStart {n : Nat} (h : StartKept pw s0 s) : StartKept pw s0 (wdBegin s n) := .ite (wdDiscard_keepsStart h) h

theorem wdDeliver_keepsStart {mask : Nat} (h : StartKept pw s0 s) : StartKept pw s0 (wdDeliver s mask) :=
  .foldl (.rest h) fun _ _ h => .ite h <| .via (fun h1 => .ite (wdBegin_keepsStart h1) (wdDiscard_keepsStart h1))
    (setFlag_keepsStart rfl (setFlag_keepsStart rfl h))

/-- OTP_STAT is that of `s`. -/
def StatKept (s t : State) : Prop := t.reg OTP_STAT = s.reg OTP_STAT

theorem StatKept.foldl {α : Type} {f : State → α → State} {l : List α} (hs : StatKept s0 s)
    (hf : ∀ t x, StatKept s0 t → StatKept s0 (f t x)) : StatKept s0 (l.foldl f s) := List.foldlRecOn l f hs fun t ht x _ => hf t x ht

/-- The registers of the watchdogs. -/
theorem setWdReg_stat {r : Reg} {w : Word} {n : Nat} (hr : r.stride = 0x20 ∧ r.count = 8 ∧ r.base < 0x820) (h : StatKept s0 s) :
    StatKept s0 (s.setReg r w n) := by
  obtain ⟨hs, hc, hb⟩ := hr
  refine (reg_setReg_ne s w (addr_ne_of ?_ ?_ ?_ ?_)).trans h <;> simp only [hs, hc, OTP_STAT] <;> omega

/-- The OTP's registers above OTP_STAT. -/
theorem setOtpReg_stat {r : Reg} {w : Word} {n : Nat} (hr : 0x900 < r.base) (h : StatKept s0 s) : StatKept s0 (s.setReg r w n) :=
  (reg_setReg_ne (r' := OTP_STAT) (n' := 0) s w (Nat.ne_of_gt (hr.trans_le (r.base_le_addr n)))).trans h

theorem wdDiscard_stat {n w : Nat} (h : StatKept s0 s) : StatKept s0 (wdDiscard s n w) :=
  setWdReg_stat (by decide) (setWdReg_stat (by decide) (setWdReg_stat (by decide) h))

theorem wdDeliver_stat {mask : Nat} (h : StatKept s0 s) : StatKept s0 (wdDeliver s mask) := by
  refine .foldl h fun t n ht => ?_
  have hset : StatKept s0 ((t.setFlag WD_CTRL_HWSTART (mask.testBit n) n).setFlag WD_CTRL_EN (mask.testBit n) n) :=
    setWdReg_stat (by decide) (setWdReg_stat (by decide) ht)
  dsimp only
  split
  · exact ht
  split
  · unfold wdBegin
    split
    · exact wdDiscard_stat hset
    · exact hset
  · exact wdDiscard_stat hset

theorem otpJudge_stat (h : StatKept s0 s) : StatKept s0 (otpJudge s) :=
  .foldl (setOtpReg_stat (by decide) h) fun _ _ h => setOtpReg_stat (by decide) (setOtpReg_stat (by decide) h)

theorem otpCrit_stat {field : Nat} (h : StatKept s0 s) : StatKept s0 (otpCrit s field) := setOtpReg_stat (by decide) h

theorem otpDeliver_loaded (s : State) (damage : List (Fin 128 × Word)) (wires : Nat) :
    (otpDeliver s damage wires).flag OTP_STAT_LOADED = true := by
  unfold otpDeliver
  extract_lets _ _ bad o a b d0 c d e
  have hb : StatKept (a.setFlag OTP_STAT_LOADED true) b := otpJudge_stat rfl
  have hd : StatKept (a.setFlag OTP_STAT_LOADED true) d :=
    setOtpReg_stat (by decide) (setOtpReg_stat (by decide) (setOtpReg_stat (by decide) hb))
  have he : StatKept (a.setFlag OTP_STAT_LOADED true) e := .foldl hd fun t r h => .foldl h fun u f h => by
    split
    · exact otpCrit_stat h
    · exact h
  have hall : StatKept (a.setFlag OTP_STAT_LOADED true) (bad.foldl (fun s f => otpCrit s (trimField f)) e) := .foldl he fun _ _ => otpCrit_stat
  rw [State.flag, fld_of_reg (f := OTP_STAT_LOADED) hall]
  exact flag_setFlag_same a _ _ 0 (by decide) (by decide)

/-- Step 3 has delivered the arrays (R56). -/
def otpLoaded (s : State) (damage : List (Fin 128 × Word)) (wires : Nat) : State :=
  let s := otpDeliver s damage wires
  let s := wdDeliver s (match otpField s 0 1 with | some v => v.toNat % 256 | none => 0)
  let s := (s.setFld SYS_BOOTCNT_LIMIT (bootK s)).setReg SYS_MODECFG (modeCfgWord s)
  s.setFlag SYS_BOOTSTAT_UNPROV (bootUnprov s)

theorem otpLoaded_shows (s : State) (damage : List (Fin 128 × Word)) (wires : Nat) :
    (otpLoaded s damage wires).flag OTP_STAT_LOADED = true
      ∧ (otpLoaded s damage wires).flag SYS_BOOTSTAT_OTPHOLD = s.flag SYS_BOOTSTAT_OTPHOLD
      ∧ (otpLoaded s damage wires).boot.carry = s.boot.carry := by
  unfold otpLoaded
  extract_lets a b c
  have hk : StartKept .none s b := wdDeliver_keepsStart (otpDeliver_keepsStart (.refl s))
  have hb : StatKept a b := wdDeliver_stat rfl
  have hbcarry : b.boot.carry = s.boot.carry := by rw [hk.2]
  have hcreg : ∀ r : Reg, SYS_BOOTCNT.addr 0 ≠ r.addr 0 → SYS_MODECFG.addr 0 ≠ r.addr 0 → c.reg r = b.reg r := fun r h1 h2 =>
    (reg_setReg_ne _ _ h2).trans (reg_setFld_ne _ _ h1)
  refine ⟨?_, ?_, hbcarry⟩
  · rw [State.flag, State.setFlag, fld_setFld_reg_ne _ _ (by decide), fld_of_reg (f := OTP_STAT_LOADED) (hcreg _ (by decide) (by decide)),
      fld_of_reg (f := OTP_STAT_LOADED) hb]
    exact otpDeliver_loaded s damage wires
  · rw [State.flag, State.setFlag,
      fld_setFld_bits_ne (f := SYS_BOOTSTAT_UNPROV) (g := SYS_BOOTSTAT_OTPHOLD) _ _ 0 rfl (by decide) (by decide),
      fld_of_reg (f := SYS_BOOTSTAT_OTPHOLD) (hcreg _ (by decide) (by decide)), hk.fld (by decide) (by decide)]
    rfl

/-- The domains of WAKE begin to come up with step 4 (R55). -/
def wakeDomains (s : State) : State :=
  match s.mode.trans with
  | some t => { s with mode := { s.mode with trans := some { t with tiers := domainTiers (domainsToAdd s modeWake) } } }
  | none => s

theorem wakeDomains_regs (s : State) : (wakeDomains s).regs = s.regs := by
  unfold wakeDomains
  split <;> rfl

theorem otpLoad_delivers {damage : List (Fin 128 × Word)} {wires : Nat} (hw : wakeAt s 3 = true) (hi : otpIntegrity s damage wires = true)
    (hc : s.boot.carry = false) : otpLoad s damage wires = wakeDomains (stepReached (otpLoaded s damage wires) 4) := by
  have hcarry : (otpLoaded s damage wires).boot.carry = false := (otpLoaded_shows s damage wires).2.2.trans hc
  have hg : ¬ ((otpLoaded s damage wires).boot.carry = true) := by rw [hcarry]; decide
  rw [otpLoad, hw, hi]
  exact if_neg hg

theorem otpLoad_shows {damage : List (Fin 128 × Word)} {wires : Nat} (hw : wakeAt s 3 = true) (hi : otpIntegrity s damage wires = true)
    (hc : s.boot.carry = false) : (otpLoad s damage wires).fld SYS_BOOTSTAT_STEP = 4
      ∧ (otpLoad s damage wires).flag OTP_STAT_LOADED = true ∧ (otpLoad s damage wires).flag SYS_BOOTSTAT_OTPHOLD = false := by
  obtain ⟨-, -, -, -, hhold⟩ := wakeAt_elim hw
  obtain ⟨hl, ho, -⟩ := otpLoaded_shows s damage wires
  have hregs := wakeDomains_regs (stepReached (otpLoaded s damage wires) 4)
  rw [otpLoad_delivers hw hi hc, fld_congr hregs, flag_congr hregs, flag_congr hregs]
  refine ⟨stepReached_step _ (by decide), ?_, ?_⟩
  · rw [State.flag, fld_of_reg (stepReached_reg _ _ (by decide))]
    exact hl
  · rw [State.flag, fld_congr (stepReached_regs _ _),
      fld_setFld_bits_ne (f := SYS_BOOTSTAT_STEP) (g := SYS_BOOTSTAT_OTPHOLD) _ _ 0 rfl (by decide) (by decide)]
    exact ho.trans hhold

/-! ### Step 4 -/

/-- The timing PLL has locked, on TREF or beside it (R27). -/
def timingLocked (s : State) (onTref : Bool) : State := (s.setFlag CLK_STAT_TIMELOCK true).setFlag CLK_STAT_TREFSEL onTref

theorem timingLocked_shows (s : State) (onTref : Bool) :
    (timingLocked s onTref).flag CLK_STAT_TIMELOCK = true ∧ (timingLocked s onTref).flag CLK_STAT_TREFSEL = onTref := by
  refine ⟨?_, flag_setFlag_same _ _ _ 0 (by decide) (by decide)⟩
  rw [timingLocked, State.flag, State.setFlag,
    fld_setFld_bits_ne (f := CLK_STAT_TREFSEL) (g := CLK_STAT_TIMELOCK) _ _ 0 rfl (by decide) (by decide)]
  exact flag_setFlag_same s _ _ 0 (by decide) (by decide)

theorem timingLocked_fld (s : State) (onTref : Bool) {f : Fld} (h : CLK_STAT.addr 0 ≠ f.reg.addr 0) :
    (timingLocked s onTref).fld f = s.fld f := (fld_setFld_reg_ne _ _ h).trans (fld_setFld_reg_ne s _ h)

/-! ### Step 5 -/

theorem loadRam_keepsStart {r : Nat} {l : List Byte} (h : StartKept pw s0 s) : StartKept pw s0 (loadRam s r l) :=
  .rest (.foldl h fun _ _ => repairLine_keepsStart)

/-- The self-test has cleared and read the RAMs (R57). -/
def selfTested (s : State) (fails : Nat) : State :=
  [3, 5].foldl (fun s r => (damagedLines s r).foldl (fun s i => (s.readLine r i).1) s) (loadRam (s.setReg SYS_STRES (wordOf fails)) 4 [])

theorem selfTested_keepsStart (s : State) (fails : Nat) : StartKept .none (s.setReg SYS_STRES (wordOf fails)) (selfTested s fails) :=
  .foldl (loadRam_keepsStart (.refl _)) fun _ _ h => .foldl h fun _ _ => readLine_keepsStart

theorem selfTested_result (s : State) (fails : Nat) : (selfTested s fails).reg SYS_STRES = wordOf fails :=
  ((selfTested_keepsStart s fails).reg (by decide) (by decide)).trans (reg_setReg_same ..)

theorem selfTest_passes (hw : wakeAt s 5 = true) : selfTest s 0 = stepReached (selfTested s 0) 6 := by
  rw [selfTest, hw]
  rfl

theorem selfTest_fails {fails : Nat} (hw : wakeAt s 5 = true) (hf : fails ≠ 0) : selfTest s fails = failDue (selfTested s fails) 0x20 := by
  rw [selfTest, hw]
  exact if_pos hf

/-- A failure that comes first is kept as the start's (R67). -/
theorem failDue_first {reason : Nat} (hd : s.boot.failDue = none) (hf : s.boot.failing = none) :
    (failDue s reason).boot.failDue = some reason ∧ (failDue s reason).regs = s.regs := by
  have hg : ¬ (s.boot.failDue.isSome || s.boot.failing.isSome) := by simp [hd, hf]
  rw [failDue, if_neg hg]
  exact ⟨rfl, rfl⟩

end Sys2Proof.Machine
end

section
open Sys2Proof Sys2Proof.Machine

/-- Settles O20: each step's end is computed, and what follows it leaves the words that show it alone. -/
theorem wakeStepsFollowInOrder : Obligations.WakeStepsFollowInOrder := by
  unfold Obligations.WakeStepsFollowInOrder
  intro s damage wires fails onTref
  refine ⟨fun hp hw hf ha => ?_, fun hp hw => ?_, fun hp hw => ⟨fun hi => ?_, ?_, fun hi hc => ?_⟩,
    fun hp => ⟨?_, fun x hx ht hl hc hs hr => ?_⟩, fun hp hw => ⟨fun hf => ?_, fun hf => ?_⟩⟩
  · have he : exec .coreSoftStartDone s = .next (stepReached (domainOn s 1) 2) :=
      (on_powered hp).trans (congrArg _ (softStartDone_eq hw hf ha))
    refine ⟨_, he, stepReached_step _ (by decide), ?_⟩
    rw [State.fbit, fld_of_reg (stepReached_reg _ _ (by decide))]
    exact domainOn_core_power s
  · have he : exec .corePllLock s = .next (stepReached s.coreLocked 3) := (on_powered hp).trans (congrArg _ (if_pos hw))
    refine ⟨_, he, stepReached_step _ (by decide), ?_⟩
    rw [State.flag, fld_of_reg (stepReached_reg _ _ (by decide))]
    exact flag_setFlag_same s CLK_STAT_CORELOCK true 0 (by decide) (by decide)
  · obtain ⟨hhold, hstep⟩ := otpHeld_shows s
    obtain ⟨-, hat, -⟩ := wakeAt_elim hw
    exact ⟨_, (on_powered hp).trans (congrArg _ (otpLoad_held hw hi)), hhold, hstep.trans hat⟩
  · rintro (h | rfl)
    · exact otpIntegrity_parten (partenOk_wires damage h)
    · exact otpIntegrity_parten (partenOk_damaged s wires)
  · exact ⟨_, on_powered hp, otpLoad_shows hw hi hc⟩
  · obtain ⟨hlock, hsel⟩ := timingLocked_shows s onTref
    have hclk := wakeStep4End_clock (timingLocked s onTref)
    have he : exec (.timingPllLock onTref) s = .next (wakeStep4End (timingLocked s onTref)) := on_powered hp
    refine ⟨_, he, ?_, ?_⟩
    · rw [State.flag, fld_of_reg (f := CLK_STAT_TIMELOCK) hclk]
      exact hlock
    · rw [State.flag, fld_of_reg (f := CLK_STAT_TREFSEL) hclk]
      exact hsel
  · have hends : wakeStep4End (timingLocked s onTref) = evaluateRequests (step4Ended (timingLocked s onTref)) :=
      wakeStep4End_ends hx ⟨ht, (timingLocked_fld s onTref (by decide)).trans hc, (timingLocked_fld s onTref (by decide)).trans hs,
        by rw [hl]; rfl, (timingLocked_shows s onTref).1⟩
    obtain ⟨hstep, hflag, htrans, hreqs, -⟩ := step4Ended_shows (timingLocked s onTref)
    rw [holdRequests_nil (s := timingLocked s onTref) hr] at hreqs
    have he : exec (.timingPllLock onTref) s = .next (step4Ended (timingLocked s onTref)) :=
      (on_powered hp).trans (congrArg _ (hends.trans (evaluateRequests_nil (hreqs.trans hr))))
    exact ⟨_, he, hstep, hflag, htrans⟩
  · have he : exec (.selfTest fails) s = .next (stepReached (selfTested s 0) 6) := by
      rw [← selfTest_passes hw, ← hf]
      exact on_powered hp
    exact ⟨_, he, stepReached_step _ (by decide), (stepReached_reg _ _ (by decide)).trans (selfTested_result s 0)⟩
  · have he : exec (.selfTest fails) s = .next (failDue (selfTested s fails) 0x20) := (on_powered hp).trans (congrArg _ (selfTest_fails hw hf))
    obtain ⟨-, -, hdue, hfailing, -⟩ := wakeAt_elim hw
    have hk := selfTested_keepsStart s fails
    obtain ⟨hreason, hregs⟩ := failDue_first (s := selfTested s fails) (reason := 0x20) (by rw [hk.2]; exact hdue) (by rw [hk.2]; exact hfailing)
    exact ⟨_, he, hreason, (reg_congr hregs _ _).trans (selfTested_result s fails)⟩
end

section
/-! SUPPORT. The images (R60–R64): which slot comes first, what a slot that loads or fails leaves, and what the installation sets. -/
namespace Sys2Proof.Machine

variable {pw : PowerWord} {s0 s t : State} {a b l : List Byte}

/-! ### A slot that loads -/

theorem loadBody_keepsStart (h : StartKept pw s0 s) : StartKept pw s0 (loadBody s l) :=
  loadRam_keepsStart (loadRam_keepsStart (loadRam_keepsStart h))

/-- The fields of SYS_BOOTSTAT that tell which slot loaded. -/
def slotShown (s : State) (k : Nat) : State :=
  let s := s.setFlag SYS_BOOTSTAT_ALTSLOT (decide (k < 2) && !s.boot.tried.isEmpty)
  (s.setFld SYS_BOOTSTAT_SLOT (k % 2)).setFlag SYS_BOOTSTAT_HOSTIMG (k == 2)

theorem slotShown_slot (s : State) (k : Nat) : (slotShown s k).fld SYS_BOOTSTAT_SLOT = k % 2 := by
  unfold slotShown State.setFlag
  rw [fld_setFld_bits_ne (f := SYS_BOOTSTAT_HOSTIMG) (g := SYS_BOOTSTAT_SLOT) _ _ 0 rfl (by decide) (by decide),
    fld_setFld_same _ _ _ _ (by decide)]
  exact Nat.mod_mod k 2

theorem slotShown_alt (s : State) (k : Nat) :
    (slotShown s k).flag SYS_BOOTSTAT_ALTSLOT = (decide (k < 2) && !s.boot.tried.isEmpty) := by
  rw [slotShown, State.flag, State.setFlag,
    fld_setFld_bits_ne (f := SYS_BOOTSTAT_HOSTIMG) (g := SYS_BOOTSTAT_ALTSLOT) _ _ 0 rfl (by decide) (by decide),
    fld_setFld_bits_ne (f := SYS_BOOTSTAT_SLOT) (g := SYS_BOOTSTAT_ALTSLOT) _ _ 0 rfl (by decide) (by decide)]
  exact flag_setFlag_same s _ _ 0 (by decide) (by decide)

theorem slotShown_host (s : State) (k : Nat) : (slotShown s k).flag SYS_BOOTSTAT_HOSTIMG = (k == 2) :=
  flag_setFlag_same _ _ _ 0 (by decide) (by decide)

/-- A field of SYS_BOOTSTAT beside STEP stays as a step is reached. -/
theorem stepReached_flag (s : State) (step : Nat) {g : Fld} (hr : g.reg = SYS_BOOTSTAT) (h : g.hi < 20) :
    (stepReached s step).fld g = s.fld g :=
  (fld_congr (stepReached_regs s step) g 0).trans (fld_setFld_bits_ne (f := SYS_BOOTSTAT_STEP) s step 0 hr.symm (h.trans (by decide)) (.inr h))

/-- The image is in its RAMs, and its header is kept (R59, R61). -/
def bodyLoaded (s : State) (k : Nat) (l : List Byte) : State := loadBody { s with boot := { s.boot with image := some (k, l.take 512) } } l

theorem bodyLoaded_boot (s : State) (k : Nat) (l : List Byte) :
    (bodyLoaded s k l).boot.image = some (k, l.take 512) ∧ (bodyLoaded s k l).boot.tried = s.boot.tried := by
  have hk : StartKept .none { s with boot := { s.boot with image := some (k, l.take 512) } } (bodyLoaded s k l) := loadBody_keepsStart (.refl _)
  rw [hk.2]
  exact ⟨rfl, rfl⟩

theorem imgLoaded_eq (s : State) (k : Nat) (l : List Byte) :
    imgLoaded s k l = stepReached (slotShown (bodyLoaded s k l) k) (if imgNum l 6 2 % 2 = 1 then 7 else 8) := rfl

theorem imgLoaded_image (s : State) (k : Nat) (l : List Byte) : (imgLoaded s k l).boot.image = some (k, l.take 512) :=
  (bodyLoaded_boot s k l).1

theorem imgLoaded_shows (s : State) (k : Nat) (l : List Byte) :
    (imgLoaded s k l).fld SYS_BOOTSTAT_STEP = (if imgNum l 6 2 % 2 = 1 then 7 else 8)
      ∧ (imgLoaded s k l).fld SYS_BOOTSTAT_SLOT = k % 2 ∧ (imgLoaded s k l).flag SYS_BOOTSTAT_HOSTIMG = (k == 2)
      ∧ (imgLoaded s k l).flag SYS_BOOTSTAT_ALTSLOT = (decide (k < 2) && !s.boot.tried.isEmpty) := by
  rw [imgLoaded_eq]
  refine ⟨stepReached_step _ (by split <;> decide), ?_, ?_, ?_⟩
  · rw [stepReached_flag _ _ rfl (by decide)]
    exact slotShown_slot _ k
  · rw [State.flag, stepReached_flag _ _ rfl (by decide)]
    exact slotShown_host _ k
  · rw [State.flag, stepReached_flag _ _ rfl (by decide)]
    exact (slotShown_alt _ k).trans (by rw [(bodyLoaded_boot s k l).2])

/-! ### The candidates -/

/-- A candidate that no other one precedes: slot A, unless B's version is higher (R60). -/
theorem flashCandidates_first_a (ht : s.boot.tried = []) (ha : imgCandidate s a = true)
    (hb : imgCandidate s b = true → imgNum b 8 4 ≤ imgNum a 8 4) :
    flashCandidates s a b = (0, a) :: if imgCandidate s b then [(1, b)] else [] := by
  unfold flashCandidates
  cases h : imgCandidate s b with
  | false => simp [ht, ha, h]
  | true => simp [ht, ha, h, Nat.not_lt.2 (hb h)]

/-- Slot B, where its version is higher or A is no candidate. -/
theorem flashCandidates_first_b (ht : s.boot.tried = []) (hb : imgCandidate s b = true)
    (ha : imgCandidate s a = true → imgNum a 8 4 < imgNum b 8 4) :
    flashCandidates s a b = (1, b) :: if imgCandidate s a then [(0, a)] else [] := by
  unfold flashCandidates
  cases h : imgCandidate s a with
  | false => simp [ht, hb, h]
  | true => simp [ht, hb, h, ha h]

theorem flashCandidates_none (ha : imgCandidate s a = false) (hb : imgCandidate s b = false) : flashCandidates s a b = [] := by
  unfold flashCandidates
  rw [List.filter_eq_nil_iff.mpr (by simp [ha, hb])]

/-- The candidates are tried in turn until one has loaded (R61). -/
def tryNext (s : State) (x : Nat × List Byte) : State := if s.boot.image.isSome then s else trySlot s x

/-- What follows the candidates of flash: the image, the wait for the host, or the failed start (R62, R63). -/
def flashTried (s : State) : State :=
  if s.boot.image.isSome then s
  else if s.boot.tried.isEmpty ∧ hostLoadOn s then s.setFlag SYS_BOOTCTL_WAITHOST true
  else loadFails s

/-- Step 6 has begun, and neither waits for the host nor has an image. -/
structure LoadBegins (s : State) : Prop where
  at6 : wakeAt s 6 = true
  waits : s.flag SYS_BOOTCTL_WAITHOST = false
  tried : s.boot.tried = []
  image : s.boot.image = none

theorem imageLoad_flash (h : LoadBegins s) (hr : s.boot.hostReq = false) (a b : List Byte) :
    imageLoad s a b = flashTried ((flashCandidates s a b).foldl tryNext s) := by
  have hg : ¬ (!wakeAt s 6 ∨ s.flag SYS_BOOTCTL_WAITHOST) := by simp [h.at6, h.waits]
  exact (if_neg hg).trans (if_neg (by rw [hr]; decide))

/-- A slot that failed is kept with its reason. -/
def slotFailed (s : State) (k r : Nat) : State := { s with boot := { s.boot with tried := s.boot.tried ++ [(k, r)] } }

theorem tryNext_fails {k r : Nat} (hi : s.boot.image = none) (hf : imgFailure s l = some r) : tryNext s (k, l) = slotFailed s k r := by
  rw [tryNext, hi, if_neg (by decide), trySlot, hf]
  rfl

theorem tryNext_loads {k : Nat} (hi : s.boot.image = none) (hf : imgFailure s l = none) : tryNext s (k, l) = imgLoaded s k l := by
  rw [tryNext, hi, if_neg (by decide), trySlot, hf]

theorem tryNext_done {x : Nat × List Byte} (hi : s.boot.image = some x) (l : List (Nat × List Byte)) : l.foldl tryNext s = s := by
  induction l with
  | nil => rfl
  | cons y l ih => rw [List.foldl_cons, tryNext, hi, Option.isSome_some, if_pos rfl, ih]

/-- The image of the first candidate that loads is the one taken. -/
theorem tried_loads {k : Nat} (hi : s.boot.image = none) (hf : imgFailure s a = none) (l : List (Nat × List Byte)) :
    flashTried (((k, a) :: l).foldl tryNext s) = imgLoaded s k a := by
  have himg := imgLoaded_image s k a
  rw [List.foldl_cons, tryNext_loads hi hf, tryNext_done himg, flashTried, himg]
  rfl

theorem imageLoad_first {k : Nat} {x : List Byte} {r : List (Nat × List Byte)} (h : LoadBegins s) (hr : s.boot.hostReq = false)
    (hc : flashCandidates s a b = (k, x) :: r) (hf : imgFailure s x = none) : imageLoad s a b = imgLoaded s k x := by
  rw [imageLoad_flash h hr, hc, tried_loads h.image hf]

/-- The only candidate fails: so does the start, with its reason. -/
theorem imageLoad_fails {k r : Nat} {x : List Byte} (h : LoadBegins s) (hr : s.boot.hostReq = false) (hc : flashCandidates s a b = [(k, x)])
    (hf : imgFailure s x = some r) : imageLoad s a b = failDue (slotFailed s k r) r := by
  have hempty : (slotFailed s k r).boot.tried = [(k, r)] := by rw [slotFailed, h.tried]; rfl
  have hnone : (slotFailed s k r).boot.image = none := h.image
  rw [imageLoad_flash h hr, hc, List.foldl_cons, List.foldl_nil, tryNext_fails h.image hf, flashTried, hnone, if_neg (by decide), hempty,
    if_neg (by simp), loadFails, hempty]
  rfl

/-- Where the first candidate fails, the second is tried and loads. -/
theorem imageLoad_second {k j r : Nat} {x y : List Byte} (h : LoadBegins s) (hr : s.boot.hostReq = false)
    (hc : flashCandidates s a b = [(k, x), (j, y)]) (hx : imgFailure s x = some r) (hy : imgFailure s y = none) :
    imageLoad s a b = imgLoaded (slotFailed s k r) j y := by
  have hnone : (slotFailed s k r).boot.image = none := h.image
  have hy' : imgFailure (slotFailed s k r) y = none := hy
  rw [imageLoad_flash h hr, hc, List.foldl_cons, tryNext_fails h.image hx]
  exact tried_loads hnone hy' []

/-- Without a candidate the start waits for the host, or fails. -/
theorem imageLoad_none (h : LoadBegins s) (hr : s.boot.hostReq = false) (hc : flashCandidates s a b = []) :
    imageLoad s a b = if hostLoadOn s then s.setFlag SYS_BOOTCTL_WAITHOST true else failDue s 0x10 := by
  rw [imageLoad_flash h hr, hc, List.foldl_nil, flashTried, h.image, if_neg (by decide), loadFails, h.tried]
  simp only [List.isEmpty_nil, true_and, List.getLast?_nil]

/-! ### The host's stream -/

/-- What follows the host's stream (R63). -/
def hostTried (s : State) : State := if s.boot.image.isSome then s else loadFails s

theorem imageLoad_host (h : LoadBegins s) (hr : s.boot.hostReq = true) (hd : hostStreamDone s = true) (a b : List Byte) :
    imageLoad s a b = hostTried (if imgCandidate s (hostStream s) then trySlot s (2, hostStream s) else s) := by
  have hg : ¬ (!wakeAt s 6 ∨ s.flag SYS_BOOTCTL_WAITHOST) := by simp [h.at6, h.waits]
  exact (if_neg hg).trans ((if_pos hr).trans (if_neg (by rw [hd]; decide)))

theorem imageLoad_host_waits (h : LoadBegins s) (hr : s.boot.hostReq = true) (hd : hostStreamDone s = false) (a b : List Byte) :
    imageLoad s a b = s := by
  have hg : ¬ (!wakeAt s 6 ∨ s.flag SYS_BOOTCTL_WAITHOST) := by simp [h.at6, h.waits]
  exact (if_neg hg).trans ((if_pos hr).trans (if_pos (by rw [hd]; decide)))

theorem imageLoad_host_loads (h : LoadBegins s) (hr : s.boot.hostReq = true) (hd : hostStreamDone s = true)
    (hc : imgCandidate s (hostStream s) = true) (hf : imgFailure s (hostStream s) = none) (a b : List Byte) :
    imageLoad s a b = imgLoaded s 2 (hostStream s) := by
  have hload : trySlot s (2, hostStream s) = imgLoaded s 2 (hostStream s) := by rw [trySlot, hf]
  rw [imageLoad_host h hr hd, hc, if_pos rfl, hload, hostTried, imgLoaded_image]
  rfl

theorem imageLoad_host_fails (h : LoadBegins s) (hr : s.boot.hostReq = true) (hd : hostStreamDone s = true)
    (hc : imgCandidate s (hostStream s) = false) (a b : List Byte) : imageLoad s a b = failDue s 0x10 := by
  have hs : imageLoad s a b = hostTried s := by rw [imageLoad_host h hr hd, hc]; rfl
  rw [hs, hostTried, h.image, if_neg (by decide), loadFails, h.tried]
  rfl

/-! ### The signature -/

/-- What a slot with a bad signature wrote is discarded, and step 6 goes on without it (R61). -/
def signatureFailed (s : State) (x : Nat × List Byte) : State :=
  let s := loadRam (loadRam (loadRam s 0 []) 1 []) 2 []
  let s := { s with boot := { s.boot with image := none, tried := s.boot.tried ++ [(x.1, 0x12)] } }
  let s := (s.setFlag SYS_BOOTSTAT_ALTSLOT false).setFlag SYS_BOOTSTAT_HOSTIMG false
  s.setFld SYS_BOOTSTAT_STEP 6

theorem verifySignature_good {x : Nat × List Byte} (hw : wakeAt s 7 = true) (hi : s.boot.image = some x) (hg : signatureGood s x.2 = true) :
    verifySignature s = stepReached s 8 := by
  simp only [verifySignature, hi, hw, hg]
  rfl

theorem verifySignature_bad {x : Nat × List Byte} (hw : wakeAt s 7 = true) (hi : s.boot.image = some x) (hg : signatureGood s x.2 = false) :
    verifySignature s = if x.1 = 2 then failDue (signatureFailed s x) 0x12 else signatureFailed s x := by
  simp only [verifySignature, hi, hw, hg]
  rfl

theorem signatureFailed_shows (s : State) (x : Nat × List Byte) :
    (signatureFailed s x).fld SYS_BOOTSTAT_STEP = 6 ∧ (signatureFailed s x).boot.image = none
      ∧ (signatureFailed s x).boot.tried = s.boot.tried ++ [(x.1, 0x12)]
      ∧ (signatureFailed s x).boot.failDue = s.boot.failDue ∧ (signatureFailed s x).boot.failing = s.boot.failing := by
  let u := loadRam (loadRam (loadRam s 0 []) 1 []) 2 []
  have hk : StartKept .none s u := loadRam_keepsStart (loadRam_keepsStart (loadRam_keepsStart (.refl s)))
  refine ⟨fld_setFld_same _ _ _ _ (by decide), rfl, ?_, ?_, ?_⟩
  · show u.boot.tried ++ _ = _
    rw [hk.2]
  · show u.boot.failDue = _
    rw [hk.2]
  · show u.boot.failing = _
    rw [hk.2]

/-- A failure changes nothing but the failure that is due. -/
theorem failDue_rest (s : State) (reason : Nat) :
    (failDue s reason).regs = s.regs ∧ (failDue s reason).mem = s.mem
      ∧ (failDue s reason).boot = { s.boot with failDue := (failDue s reason).boot.failDue } := by
  unfold failDue
  split <;> exact ⟨rfl, rfl, rfl⟩

theorem verifySignature_bad_shows {x : Nat × List Byte} (hw : wakeAt s 7 = true) (hi : s.boot.image = some x)
    (hg : signatureGood s x.2 = false) :
    (verifySignature s).fld SYS_BOOTSTAT_STEP = 6 ∧ (verifySignature s).boot.image = none
      ∧ (verifySignature s).boot.tried = s.boot.tried ++ [(x.1, 0x12)] ∧ (x.1 = 2 → (verifySignature s).boot.failDue = some 0x12) := by
  obtain ⟨-, -, hdue, hfailing, -⟩ := wakeAt_elim hw
  obtain ⟨hstep, himage, htried, hdue1, hfailing1⟩ := signatureFailed_shows s x
  rw [verifySignature_bad hw hi hg]
  split
  next hx =>
    obtain ⟨hregs, -, hboot⟩ := failDue_rest (signatureFailed s x) 0x12
    refine ⟨(fld_congr hregs _ _).trans hstep, ?_, ?_, fun _ => (failDue_first (hdue1.trans hdue) (hfailing1.trans hfailing)).1⟩
    · rw [hboot]
      exact himage
    · rw [hboot]
      exact htried
  next hx => exact ⟨hstep, himage, htried, fun h => absurd h hx⟩

/-! ### The installation -/

theorem chkCount_pmap (s : State) (f : Fld) (n : Nat) : (chkCount s f n).pmap = s.pmap := by
  unfold chkCount
  split
  · rfl
  split
  · dsimp only
    split <;> rfl
  · rfl

theorem uncorrectable_pmap (s : State) (ram i : Nat) : (uncorrectable s ram i).pmap = s.pmap := by
  have hc := chkCount_pmap s CHK_UECNT_COUNT ram
  unfold uncorrectable
  dsimp only
  split
  · exact hc
  split
  · exact hc
  split <;> exact hc

theorem decodeLine_pmap (s : State) (ram i : Nat) : (s.decodeLine ram i).1.pmap = s.pmap := by
  unfold State.decodeLine
  split
  · rfl
  · exact chkCount_pmap s _ _
  · exact uncorrectable_pmap s _ _

theorem injectItem_pmap {damage : State → State} (f : FaultPost) (hd : ∀ t, (damage t).pmap = t.pmap) (s : State) :
    (s.injectItem f damage).pmap = s.pmap := by
  unfold State.injectItem
  split
  · rfl
  · exact hd s
  · rfl

theorem injectLine_pmap (s : State) (ram i : Nat) : (s.injectLine ram i).pmap = s.pmap := by
  unfold State.injectLine
  refine (injectItem_pmap (damage := fun t => t.setDamage ram i .many) _ (fun _ => rfl) _).trans
    (injectItem_pmap (damage := fun t => if t.damage ram i = .none then t.setDamage ram i .one else t) _ (fun t => ?_) s)
  split <;> rfl

theorem injectTake_pmap (s t : State) (src inst : Nat) : (s.injectTake t src inst).pmap = t.pmap := by
  unfold State.injectTake
  split
  · split <;> rfl
  · rfl

theorem readLine_pmap (s : State) (ram i : Nat) : (s.readLine ram i).1.pmap = s.pmap :=
  (injectTake_pmap ..).trans ((injectTake_pmap ..).trans ((decodeLine_pmap ..).trans (injectLine_pmap s ram i)))

theorem repairLine_pmap (s : State) (ram i : Nat) : (repairLine s ram i).pmap = s.pmap := by
  unfold repairLine
  dsimp only
  split <;> rfl

theorem writeRam_pmap (s : State) (ram w : Nat) (v : Word) : (s.writeRam ram w v).1.pmap = s.pmap := by
  have hr := readLine_pmap s ram (w / 8)
  unfold State.writeRam
  dsimp only
  split
  · rw [setWord_frame]
    exact hr
  · rw [setWord_frame]
    exact (repairLine_pmap ..).trans hr

/-- The lowest `k` bytes make a number below 256 ^ k. -/
theorem byteNum_lt (l : List Nat) (h : ∀ x ∈ l, x < 256) : l.reverse.foldl (fun a b => a * 256 + b) 0 < 256 ^ l.length := by
  induction l with
  | nil => decide
  | cons x l ih =>
    have hx := h x List.mem_cons_self
    have hl := ih fun y hy => h y (List.mem_cons_of_mem _ hy)
    rw [List.reverse_cons, List.foldl_append, List.length_cons, pow_succ]
    simp only [List.foldl_cons, List.foldl_nil]
    omega

theorem imgNum_lt (l : List Byte) (off k : Nat) : imgNum l off k < 256 ^ k := by
  have hb : ∀ x ∈ imgNats l off k, x < 256 := by
    intro x hx
    obtain ⟨y, -, rfl⟩ := List.mem_map.mp hx
    exact y.isLt
  have hlen : (imgNats l off k).length ≤ k := by
    rw [imgNats, List.length_map, imgBytes]
    exact List.length_take_le ..
  exact (byteNum_lt _ hb).trans_le (Nat.pow_le_pow_right (by decide) hlen)

/-- What the step for `e` sets and no step undoes holds after the fold. -/
theorem foldl_reaches {α : Type} {f : State → α → State} {P : State → Prop} {e : α} {l : List α} (he : e ∈ l) (hset : ∀ t, P (f t e))
    (hkeep : ∀ t x, P t → P (f t x)) (s : State) : P (l.foldl f s) := by
  induction l generalizing s with
  | nil => exact absurd he List.not_mem_nil
  | cons x l ih =>
    rcases List.mem_cons.mp he with rfl | hl
    · exact List.foldlRecOn l f (hset s) fun t ht x _ => hkeep t x ht
    · exact ih hl (f s x)

/-- The program of engine `e` that the header `h` names (R163, R164). -/
def headerProg (h : List Byte) (e : Nat) : Nat := if (imgNum h 0x28 8).testBit e then 0x3F else e

/-- Engine `e` stands at its program's entry. -/
def ProgramAt (h : List Byte) (e : Nat) (s : State) : Prop :=
  s.fld ENG_PC_PC e = imgNum h (0x70 + 2 * e) 2 ∧ s.fld ENG_STAT_PROG e = headerProg h e

/-- The entry and the program of engine `e` are set. -/
def programPlaced (h : List Byte) (s : State) (e : Nat) : State :=
  (s.setFld ENG_PC_PC (imgNum h (0x70 + 2 * e) 2) e).setFld ENG_STAT_PROG (headerProg h e) e

/-- Engine `e` runs if the header says so, and no fence holds it. -/
def programStarted (h : List Byte) (s : State) (e : Nat) : State :=
  if (imgNum h 0x20 8).testBit e && !(imgNum h 0x28 8).testBit e && engState s e != esFenced then setEngState s e esRunning else s

variable {h : List Byte} {e : Nat}

theorem programPlaced_at (s : State) (he : e < 48) : ProgramAt h e (programPlaced h s e) := by
  have hprog : headerProg h e < 64 := by
    unfold headerProg
    split <;> omega
  constructor
  · exact (fld_setFld_reg_ne _ _ engAddr_stat.symm).trans
      ((fld_setFld_same s _ _ e (by decide)).trans (Nat.mod_eq_of_lt (imgNum_lt h _ 2)))
  · exact (fld_setFld_same _ _ _ e (by decide)).trans (Nat.mod_eq_of_lt hprog)

theorem engPc_ne {n m : Nat} (h : n ≠ m) : ENG_PC.addr n ≠ ENG_PC.addr m := by
  apply addr_ne_of <;> simp only [ENG_PC] <;> intros <;> omega

theorem engStat_ne {n m : Nat} (h : n ≠ m) : ENG_STAT.addr n ≠ ENG_STAT.addr m := by
  apply addr_ne_of <;> simp only [ENG_STAT] <;> intros <;> omega

theorem ProgramAt.placed (hp : ProgramAt h e s) {x : Nat} (hx : x ≠ e) : ProgramAt h e (programPlaced h s x) :=
  ⟨((fld_setFld_reg_ne _ _ engAddr_stat.symm).trans (fld_setFld_reg_ne s _ (engPc_ne hx))).trans hp.1,
    ((fld_setFld_reg_ne _ _ (engStat_ne hx)).trans (fld_setFld_reg_ne s _ engAddr_stat)).trans hp.2⟩

theorem ProgramAt.started (hp : ProgramAt h e s) (x : Nat) : ProgramAt h e (programStarted h s x) := by
  unfold programStarted
  split
  · refine ⟨(fld_setFld_reg_ne s _ engAddr_stat.symm).trans hp.1, Eq.trans ?_ hp.2⟩
    by_cases hx : x = e
    · rw [hx]
      exact fld_setFld_bits_ne (f := ENG_STAT_STATE) (g := ENG_STAT_PROG) s _ e rfl (by decide) (by decide)
    · exact fld_setFld_reg_ne s _ (engStat_ne hx)
  · exact hp

theorem ProgramAt.of_regs (hp : ProgramAt h e s) (hr : t.regs = s.regs) : ProgramAt h e t :=
  ⟨(fld_congr hr _ _).trans hp.1, (fld_congr hr _ _).trans hp.2⟩

/-- The words from 0x3000 on, the engines' among them, and the program map are those of `s`. -/
def ProgramPart (s : State) (regs : List (Nat × Word)) (pmap : ProgMap) : Prop :=
  (∀ k, 0x3000 ≤ k → cellGet 0 regs k = cellGet 0 s.regs k) ∧ pmap = s.pmap

/-- State `t` has kept them. -/
abbrev ProgramKept (s t : State) : Prop := ProgramPart s t.regs t.pmap

theorem ProgramKept.ite {c : Prop} [Decidable c] (hs : ProgramKept s0 s) (ht : ProgramKept s0 t) : ProgramKept s0 (if c then s else t) := by
  split <;> assumption

theorem setReg_keepsProgram {r : Reg} {w : Word} (hr : Nat.blt (r.addr 0) 0x3000 = true) (h : ProgramKept s0 s) :
    ProgramKept s0 (s.setReg r w) :=
  ⟨fun k hk => (key_setReg_ne s r w 0 (Nat.ne_of_gt ((Nat.le_of_ble_eq_true hr).trans hk))).trans (h.1 k hk), h.2⟩

theorem setFld_keepsProgram {f : Fld} {v : Nat} (hf : Nat.blt (f.reg.addr 0) 0x3000 = true) (h : ProgramKept s0 s) :
    ProgramKept s0 (s.setFld f v) := setReg_keepsProgram hf h

theorem countTo_keepsProgram {f : Fld} {top : Nat} (hf : Nat.blt (f.reg.addr 0) 0x3000 = true) (h : ProgramKept s0 s) :
    ProgramKept s0 (s.countTo f top) := .ite (setFld_keepsProgram hf h) h

theorem dropRecord_keepsProgram (h : ProgramKept s0 s) : ProgramKept s0 s.dropRecord := by
  unfold State.dropRecord
  extract_lets p u v w
  have hu : ProgramKept s0 u := h
  have hv : ProgramKept s0 v := setFld_keepsProgram rfl hu
  have hw : ProgramKept s0 w := countTo_keepsProgram rfl hv
  have hsat : ProgramKept s0 (w.event PAT_EVT_SATURATED) := setFld_keepsProgram rfl hw
  exact .ite (.ite hsat hw) hv

/-- The start-up record shows in SYS_SURIDX and in the patrol's registers (R71). -/
theorem startupRecord_keepsProgram {point : Nat} (h : ProgramKept s0 s) : ProgramKept s0 (startupRecord s point) := by
  unfold startupRecord State.postRecord
  extract_lets _ _ _ _ _ u
  have hu : ProgramKept s0 u := h
  have hset : ∀ n, ProgramKept s0 (u.setFld SYS_SURIDX_COUNT n) := fun _ => setFld_keepsProgram rfl hu
  exact .ite (hset _) (.ite (hset _) (dropRecord_keepsProgram (hset _)))

theorem ProgramAt.kept (hp : ProgramAt h e s) (hk : ProgramKept s t) : ProgramAt h e t := by
  have hreg : ∀ r : Reg, 0x3000 ≤ r.base → t.reg r e = s.reg r e := fun r hr => by
    unfold State.reg
    rw [hk.1 _ (hr.trans (r.base_le_addr e))]
  exact ⟨(fld_of_reg (f := ENG_PC_PC) (hreg ENG_PC (by decide))).trans hp.1,
    (fld_of_reg (f := ENG_STAT_PROG) (hreg ENG_STAT (by decide))).trans hp.2⟩

/-- The programs and the map of their owners that the header names (R164). -/
def programMap (h : List Byte) (s : State) : State :=
  let who (k : Nat) : List (Nat × Nat) := (List.range 32).foldl (fun a n => cellSet 0xFF a n (imgNum h (0x30 + 2 * n + k) 1)) []
  { s with pmap := { owner := who 0, delegate := who 1, spareMask := imgNum h 0x28 8, runMask := imgNum h 0x20 8 } }

/-- The programs' checkpoints are void. -/
def checkpointsVoid (s : State) : State := (List.range 48).foldl (fun s p => (s.writeRam 4 (ckWord p 0x12F) 0).1) s

/-- The programs stand in their engines and run. -/
def programsStarted (h : List Byte) (s : State) : State :=
  (List.range 48).foldl (programStarted h) ((List.range 48).foldl (programPlaced h) s)

/-- WAKE's last timer begins with the programs (R64). -/
def programsCounted (s : State) : State := { s with boot := { s.boot with started := true }, mode := { s.mode with wakeTimer := true } }

theorem install_eq {x : Nat × List Byte} (hw : wakeAt s 8 = true) (hi : s.boot.image = some x) : install s =
    startupRecord (stepReached (programsCounted (programsStarted x.2 (checkpointsVoid (programMap x.2 s)))) 9) 1 := by
  simp only [install, hi, hw]
  rfl

theorem programsStarted_at (s : State) (he : e < 48) : ProgramAt h e (programsStarted h s) := by
  refine List.foldlRecOn _ _ ?_ fun t ht x _ => ht.started x
  refine foldl_reaches (List.mem_range.mpr he) (fun t => programPlaced_at t he) (fun t x ht => ?_) s
  by_cases hx : x = e
  · rw [hx]
    exact programPlaced_at t he
  · exact ht.placed hx

theorem programsStarted_pmap (s : State) : (programsStarted h s).pmap = s.pmap := by
  have hplaced : ((List.range 48).foldl (programPlaced h) s).pmap = s.pmap :=
    List.foldlRecOn (motive := fun t : State => t.pmap = s.pmap) _ _ rfl fun _ ht _ _ => ht
  refine List.foldlRecOn (motive := fun t : State => t.pmap = s.pmap) _ _ hplaced fun t ht x _ => ?_
  unfold programStarted
  split <;> exact ht

theorem checkpointsVoid_pmap (s : State) : (checkpointsVoid s).pmap = s.pmap :=
  List.foldlRecOn (motive := fun t : State => t.pmap = s.pmap) _ _ rfl fun t ht _ _ => (writeRam_pmap t _ _ _).trans ht

theorem install_shows {x : Nat × List Byte} (hw : wakeAt s 8 = true) (hi : s.boot.image = some x) :
    (install s).fld SYS_BOOTSTAT_STEP = 9 ∧ (install s).boot.started = true ∧ (install s).mode.wakeTimer = true
      ∧ (install s).pmap.runMask = imgNum x.2 0x20 8 ∧ (install s).pmap.spareMask = imgNum x.2 0x28 8
      ∧ ∀ e < 48, ProgramAt x.2 e (install s) := by
  rw [install_eq hw hi]
  let u := programsStarted x.2 (checkpointsVoid (programMap x.2 s))
  have hs : StartKept .none (stepReached (programsCounted u) 9) (startupRecord (stepReached (programsCounted u) 9) 1) :=
    startupRecord_keepsStart (.refl _)
  have hm : ModeKept (stepReached (programsCounted u) 9) (startupRecord (stepReached (programsCounted u) 9) 1) :=
    startupRecord_keepsMode (.refl _)
  have hk : ProgramKept (programsCounted u) (startupRecord (stepReached (programsCounted u) 9) 1) :=
    startupRecord_keepsProgram (setFld_keepsProgram (f := SYS_BOOTSTAT_STEP) rfl ⟨fun _ _ => rfl, rfl⟩)
  have hp : (startupRecord (stepReached (programsCounted u) 9) 1).pmap = (programMap x.2 s).pmap :=
    hk.2.trans ((programsStarted_pmap _).trans (checkpointsVoid_pmap _))
  refine ⟨(hs.fld (by decide) (by decide)).trans (stepReached_step _ (by decide)), ?_, ?_, ?_, ?_, fun e he => ?_⟩
  · rw [hs.2]
    rfl
  · rw [hm.2]
    rfl
  · rw [hp]
    rfl
  · rw [hp]
    rfl
  · have hat : ProgramAt x.2 e (programsCounted u) := (programsStarted_at _ he).of_regs rfl
    exact hat.kept hk

end Sys2Proof.Machine
end

section
open Sys2Proof Sys2Proof.Machine

/-- Settles O21: the order of the slots decides which image loads, and each outcome of a slot is computed. -/
theorem imagesLoadVerifyAndInstall : Obligations.ImagesLoadVerifyAndInstall := by
  unfold Obligations.ImagesLoadVerifyAndInstall
  intro a flash s hp
  refine ⟨fun b hb hw hwait hreq htried himg => ?_, fun l hl hw hwait hreq htried himg => ?_, fun x hw hi => ⟨fun hg => ?_, fun hg => ?_⟩,
    fun x hw hi => ?_, fun hc hst hf => ?_⟩
  · have hbeg : LoadBegins s := ⟨hw, hwait, htried, himg⟩
    have he : exec (.imageLoad a flash) s = .next (imageLoad s a b) := by
      rw [hb]
      exact on_powered hp
    rw [he]
    refine ⟨fun hca hab hf => ?_, fun hcb hba hf => ?_, fun r hr hca => ⟨fun hcb => ?_, fun hcb hab hf => ?_⟩,
      fun hca hcb => ⟨fun hh => ?_, fun hh => ?_⟩⟩
    · obtain ⟨hstep, hslot, hhost, halt⟩ := imgLoaded_shows s 0 a
      rw [imageLoad_first hbeg hreq (flashCandidates_first_a htried hca hab) hf]
      exact ⟨_, rfl, imgLoaded_image s 0 a, hstep, hslot, halt.trans (by rw [htried]; rfl), hhost⟩
    · obtain ⟨hstep, hslot, hhost, halt⟩ := imgLoaded_shows s 1 b
      rw [imageLoad_first hbeg hreq (flashCandidates_first_b htried hcb hba) hf]
      exact ⟨_, rfl, imgLoaded_image s 1 b, hstep, hslot, halt.trans (by rw [htried]; rfl), hhost⟩
    · have hcand : flashCandidates s a b = [(0, a)] := by
        rw [flashCandidates_first_a htried hca (by simp [hcb]), hcb]
        rfl
      obtain ⟨-, -, hdue, hfailing, -⟩ := wakeAt_elim hw
      obtain ⟨hreason, -⟩ := failDue_first (s := slotFailed s 0 r) (reason := r) hdue hfailing
      obtain ⟨-, -, hboot⟩ := failDue_rest (slotFailed s 0 r) r
      rw [imageLoad_fails hbeg hreq hcand hr]
      refine ⟨_, rfl, hreason, ?_⟩
      rw [hboot, slotFailed, htried]
      rfl
    · have hcand : flashCandidates s a b = [(0, a), (1, b)] := by
        rw [flashCandidates_first_a htried hca fun _ => hab, hcb]
        rfl
      obtain ⟨-, -, -, halt⟩ := imgLoaded_shows (slotFailed s 0 r) 1 b
      rw [imageLoad_second hbeg hreq hcand hr hf]
      exact ⟨_, rfl, imgLoaded_image .., halt.trans (by rw [slotFailed, htried]; rfl)⟩
    · rw [imageLoad_none hbeg hreq (flashCandidates_none hca hcb), hh, if_pos rfl]
      exact ⟨_, rfl, flag_setFlag_same s _ _ 0 (by decide) (by decide), rfl, SameRegs.setFld s SYS_BOOTCTL_WAITHOST _ 0⟩
    · obtain ⟨-, -, hdue, hfailing, -⟩ := wakeAt_elim hw
      obtain ⟨hreason, hregs⟩ := failDue_first (s := s) (reason := 0x10) hdue hfailing
      rw [imageLoad_none hbeg hreq (flashCandidates_none hca hcb), hh, if_neg (by decide)]
      exact ⟨_, rfl, hreason, hregs⟩
  · have hbeg : LoadBegins s := ⟨hw, hwait, htried, himg⟩
    have he : exec (.imageLoad a flash) s = .next (imageLoad s a (flashFrom ((0, a) :: flash) (slotBBase s))) := on_powered hp
    rw [he, hl]
    refine ⟨fun hd => ?_, fun hd hc hf => ?_, fun hd hc => ?_⟩
    · rw [imageLoad_host_waits hbeg hreq hd]
    · obtain ⟨hstep, -, hhost, -⟩ := imgLoaded_shows s 2 (hostStream s)
      rw [imageLoad_host_loads hbeg hreq hd hc hf]
      exact ⟨_, rfl, imgLoaded_image .., hhost, hstep⟩
    · obtain ⟨-, -, hdue, hfailing, -⟩ := wakeAt_elim hw
      obtain ⟨hreason, hregs⟩ := failDue_first (s := s) (reason := 0x10) hdue hfailing
      rw [imageLoad_host_fails hbeg hreq hd hc]
      exact ⟨_, rfl, hreason, hregs, (failDue_rest s 0x10).2.1⟩
  · exact ⟨_, (on_powered hp).trans (congrArg _ (verifySignature_good hw hi hg)), stepReached_step _ (by decide), hi, rfl⟩
  · exact ⟨_, on_powered hp, verifySignature_bad_shows hw hi hg⟩
  · obtain ⟨hstep, hstarted, htimer, hrun, hspare, hprog⟩ := install_shows hw hi
    exact ⟨_, on_powered hp, hstep, hstarted, htimer, hrun, hspare, fun e => hprog e e.isLt⟩
  · exact (on_powered hp).trans (congrArg _ (if_pos ⟨hc, by rw [hst]; rfl, by rw [hf]; rfl⟩))
end

section
/-! SUPPORT. A program that writes SYS_BOOTDATA freezes its engine (R168, R184), and once programs have started a freeze is a failed
start (R66): the write changes start-up's record. -/
namespace Sys2Proof.Machine

variable {s : State} {e : Nat}

/-- SYS_BOOTDATA is kept for host ports (R63). -/
theorem stxAllowed_bootdata (s : State) (e : Nat) : stxAllowed s e 0x57 = false := by
  have hkept : hostOnlySys 0x57 = true := rfl
  unfold stxAllowed
  split
  · rfl
  · rw [if_pos (by decide), hkept, Bool.not_true, Bool.and_false]

/-- An engine that runs freezes as it writes SYS_BOOTDATA, whatever the word. -/
theorem exec_bootdataWrite_engine (e : Fin 48) (w : Word) (hp : s.engPresent e = true) (hd : s.powered (engDomain e) = true)
    (hs : engState s e = esRunning) : exec (.bootdataWrite ⟨e.val, by omega⟩ w) s = .next (freeze s e 5 0x57) :=
  exec_registerWrite_refused e 0x57 w hp hd (stxAllowed_bootdata s e) hs

/-- Between program start and STANDBY a freeze fails the start (R66). -/
theorem freeze_fails (cause a : Nat) (hs : engState s e = esRunning) (hc : s.cur = modeWake) (hb : s.boot.started = true)
    (hd : s.boot.failDue = none) (hf : s.boot.failing = none) : (freeze s e cause a).boot.failDue = some 0x30 := by
  have hfreeze : ∃ u : State, freeze s e cause a = seqFail u ∧ u.cur = s.cur ∧ StartKept .none s u := by
    unfold freeze
    rw [if_pos (.inl hs)]
    refine ⟨_, rfl, ModeKept.cur ?_, ?_⟩
    · exact .rest (event_keepsMode rfl (setFld_keepsMode rfl (setFld_keepsMode rfl (revokeClause_keepsMode (setEng_keepsMode
        (setFld_keepsMode rfl (.refl s)))))))
    · exact .rest (event_keepsStart rfl (setFld_keepsStart rfl (setFld_keepsStart rfl (revokeClause_keepsStart (setEng_keepsStart
        (setFld_keepsStart rfl (.refl s)))))))
  obtain ⟨u, hu, hcur, hkept⟩ := hfreeze
  have hdue : u.boot.failDue = none := by rw [hkept.2]; exact hd
  have hfailing : u.boot.failing = none := by rw [hkept.2]; exact hf
  have hstarted : u.boot.started = true := by rw [hkept.2]; exact hb
  rw [hu, seqFail, if_pos ⟨hcur.trans hc, hstarted⟩]
  exact (failDue_first hdue hfailing).1

/-- WAKE after program start, with every domain up and engine 0 running, while the host's stream is open and no image is kept. -/
def streamAfterStart : State :=
  let s := (State.reset.setFld PDC_STAT_ON 0xFFF).setFld ENG_STAT_STATE esRunning 0
  { s with boot := { s.boot with started := true, hostReq := true } }

end Sys2Proof.Machine
end

section
open Sys2Proof Sys2Proof.Machine

/-- Refutes O22: in `streamAfterStart` engine 0 writes SYS_BOOTDATA and freezes, which fails the start (R66), so a write by another
master than HSPI0 does change start-up's record: a failure with reason 0x30 is due where none was. -/
theorem not_hostLoadAndFlashAct : ¬ Obligations.HostLoadAndFlashAct := by
  unfold Obligations.HostLoadAndFlashAct
  intro h
  obtain ⟨-, hstream, -⟩ := h streamAfterStart 0 0 0
  obtain ⟨-, -, hother⟩ := hstream rfl rfl
  obtain ⟨t, ht, hboot⟩ := hother (by decide)
  have hrun : engState streamAfterStart 0 = esRunning := by decide
  have he : exec (.bootdataWrite 0 0) streamAfterStart = .next (freeze streamAfterStart 0 5 0x57) :=
    exec_bootdataWrite_engine 0 0 (by decide) (by decide) hrun
  have hdue : (freeze streamAfterStart 0 5 0x57).boot.failDue = some 0x30 := freeze_fails 5 0x57 hrun (by decide) rfl rfl rfl
  injection he.symm.trans ht with hfrozen
  rw [hfrozen, hboot] at hdue
  exact absurd hdue (by decide)
end

section
/-! SUPPORT. The words of the rails (R100): a field of a rail's words read after another was set, and the keys of those words. -/
namespace Sys2Proof.Machine

variable {s t : State}

/-- Registers `r` and `r'` are different words of one block: as many, at the same stride. -/
def Reg.besideWord (r r' : Reg) : Bool := r.base != r'.base && r.stride == r'.stride && r.count == r'.count

theorem Reg.besideWord_addr {r r' : Reg} (h : r.besideWord r' = true) (n : Nat) : r.addr n ≠ r'.addr n := by
  simp only [Reg.besideWord, Bool.and_eq_true, bne_iff_ne, beq_iff_eq] at h
  obtain ⟨⟨hb, hs⟩, hc⟩ := h
  unfold Reg.addr
  rw [hs, hc]
  split <;> omega

/-- A field keeps its value as a field of another word of its rail is set. -/
theorem fld_setFld_word {f g : Fld} {v n : Nat} (h : f.reg.besideWord g.reg = true) : (s.setFld f v n).fld g n = s.fld g n :=
  fld_setFld_reg_ne s v (Reg.besideWord_addr h n)

/-- Fields `f` and `g` are apart in their word. -/
def Fld.apart (f g : Fld) : Bool := Nat.blt g.hi 32 && (Nat.blt f.hi g.lo || Nat.blt g.hi f.lo)

/-- A field keeps its value as a field apart from it in its word is set. -/
theorem fld_setFld_apart {f g : Fld} {v n : Nat} (hr : f.reg = g.reg) (h : f.apart g = true) : (s.setFld f v n).fld g n = s.fld g n := by
  simp only [Fld.apart, Bool.and_eq_true, Bool.or_eq_true, Nat.blt_eq] at h
  exact fld_setFld_bits_ne s v n hr h.1 h.2

theorem fld_setFld_value {f : Fld} {v n : Nat} (hf : Nat.blt f.hi 32 = true) (hv : v < 2 ^ (f.hi + 1 - f.lo)) :
    (s.setFld f v n).fld f n = v := by
  rw [fld_setFld_same s f v n (by simpa using hf), Nat.mod_eq_of_lt hv]

theorem flag_of_fld {f : Fld} {n : Nat} (h : t.fld f n = s.fld f n) : t.flag f n = s.flag f n := by
  unfold State.flag
  rw [h]

theorem rail_setFld (s : State) (f : Fld) (v n k : Nat) : (s.setFld f v n).rail k = s.rail k := rfl

theorem rail_setFlag (s : State) (f : Fld) (b : Bool) (n k : Nat) : (s.setFlag f b n).rail k = s.rail k := rfl

/-- The 32 words of register `r` stand in the blocks of the rails. -/
def Reg.ofRails (r : Reg) : Bool := Nat.ble 0x1000 r.base && Nat.blt r.base 0x1080 && r.stride == 0x80 && r.count == 32

theorem Reg.ofRails_addr {r : Reg} (h : r.ofRails = true) (n : Fin 32) : r.addr n = r.base + 0x80 * n := by
  simp only [Reg.ofRails, Bool.and_eq_true, beq_iff_eq] at h
  obtain ⟨⟨-, hs⟩, hc⟩ := h
  rw [Reg.addr, hc, hs, if_pos n.isLt]

theorem Reg.ofRails_bounds {r : Reg} (h : r.ofRails = true) (n : Fin 32) : 0x1000 ≤ r.addr n ∧ r.addr n < 0x2000 := by
  rw [Reg.ofRails_addr h]
  simp only [Reg.ofRails, Bool.and_eq_true, Nat.ble_eq, Nat.blt_eq] at h
  omega

end Sys2Proof.Machine
end

section
/-! SUPPORT. What a rail sets in motion in the other units (R98, R108, R143, R147, R179, R284) leaves the words of the rails and of the phases
alone, and with them the RAMs, the phases' fences and the course of every rail's generator. -/
namespace Sys2Proof.Machine

/-- The course of the slew generator (R83): its output, its target, and the move in progress. -/
def RailH.course (r : RailH) : Nat × Nat × Option (Nat × Bool) := (r.gen, r.target, r.move)

/-- The words of the rails and of the phases (0x1000 to 0x2FFF), but for those under the keys listed, are those of `s`, and so are the RAMs,
the phases' fences and the course of every rail's generator. -/
def RailsPart (keys : List Nat) (s : State) (regs : List (Nat × Word)) (mem : List Host.Cell) (phF : List (Nat × Nat))
    (rails : List (Nat × RailH)) : Prop :=
  (∀ k, 0x1000 ≤ k → k < 0x3000 → k ∉ keys → cellGet 0 regs k = cellGet 0 s.regs k) ∧ mem = s.mem ∧ phF = s.flt.phF
    ∧ ∀ n, (cellGet {} rails n).course = (s.rail n).course

/-- State `t` has kept them. -/
def RailsKept (keys : List Nat) (s t : State) : Prop := RailsPart keys s t.regs t.mem t.flt.phF t.rails

variable {keys : List Nat} {s0 s t u : State}

theorem RailsKept.refl (s : State) : RailsKept keys s s := ⟨fun _ _ _ _ => rfl, rfl, rfl, fun _ => rfl⟩

theorem RailsKept.trans (h1 : RailsKept keys s t) (h2 : RailsKept keys t u) : RailsKept keys s u :=
  ⟨fun k hl hh hk => (h2.1 k hl hh hk).trans (h1.1 k hl hh hk), h2.2.1.trans h1.2.1, h2.2.2.1.trans h1.2.2.1,
    fun n => (h2.2.2.2 n).trans (h1.2.2.2 n)⟩

theorem RailsKept.ite {c : Prop} [Decidable c] (hs : RailsKept keys s0 s) (ht : RailsKept keys s0 t) :
    RailsKept keys s0 (if c then s else t) := by
  split <;> assumption

theorem RailsKept.foldl {α : Type} {f : State → α → State} {l : List α} (hs : RailsKept keys s0 s)
    (hf : ∀ t x, RailsKept keys s0 t → RailsKept keys s0 (f t x)) : RailsKept keys s0 (l.foldl f s) :=
  List.foldlRecOn l f hs fun t ht x _ => hf t x ht

theorem RailsKept.foldlFst {α β : Type} {f : State × β → α → State × β} {l : List α} {x : State × β}
    (hx : RailsKept keys s0 x.1) (hf : ∀ y a, RailsKept keys s0 y.1 → RailsKept keys s0 (f y a).1) : RailsKept keys s0 (l.foldl f x).1 :=
  List.foldlRecOn l f (motive := fun y => RailsKept keys s0 y.1) hx fun y hy a _ => hf y a hy

theorem RailsKept.iteFst {α : Type} {c : Prop} [Decidable c] {x y : State × α} (hx : RailsKept keys s0 x.1) (hy : RailsKept keys s0 y.1) :
    RailsKept keys s0 (if c then x else y).1 := by
  split <;> assumption

theorem RailsKept.of_eq {α : Type} {x : State × α} {a : α} (hx : RailsKept keys s0 x.1) (he : x = (s, a)) : RailsKept keys s0 s := by
  rw [he] at hx; exact hx

/-- The other parts of the state do not matter. -/
theorem RailsKept.rest {part pairs lines tbase freeCtr armq armSeq mode bud groups ports engs progs pmap sigs pat sup pins links lx boot chg
    thm chk otp wds wdStart hosts intc tap pending} (h : RailsKept keys s0 s) :
    RailsKept keys s0 ⟨part, s.regs, pairs, s.mem, lines, tbase, freeCtr, armq, armSeq, mode, bud, groups, ports, s.rails, engs, progs, pmap,
      sigs, pat, s.flt, sup, pins, links, lx, boot, chg, thm, chk, otp, wds, wdStart, hosts, intc, tap, pending⟩ := h

/-- An intermediate state that has kept them, from which the state goes on. -/
theorem RailsKept.via (hf : RailsKept keys s0 t → RailsKept keys s0 s) (ht : RailsKept keys s0 t) : RailsKept keys s0 s := hf ht

/-- The words of register `r` lie apart from those of the rails and of the phases. -/
def Reg.offRails (r : Reg) : Bool := Nat.ble 0x3000 r.base || (Nat.blt r.base 0x1000 && Nat.ble (r.base + r.stride * r.count) 0x1000)

theorem Reg.offRails_addr {r : Reg} (h : r.offRails = true) (n : Nat) : r.addr n < 0x1000 ∨ 0x3000 ≤ r.addr n := by
  simp only [Reg.offRails, Bool.or_eq_true, Bool.and_eq_true, Nat.ble_eq, Nat.blt_eq] at h
  rcases addr_cases r n with ⟨hn, e⟩ | ⟨-, e⟩ <;> rw [e]
  · have hle : r.stride * n ≤ r.stride * r.count := Nat.mul_le_mul_left _ hn.le
    have hlt : n = 0 ∨ r.stride = 0 ∨ r.stride * n < r.stride * r.count := by
      rcases Nat.eq_zero_or_pos r.stride with h0 | h0
      · exact .inr (.inl h0)
      · exact .inr (.inr (Nat.mul_lt_mul_of_pos_left hn h0))
    rcases hlt with rfl | h0 | hlt
    · omega
    · rw [h0]; omega
    · omega
  · omega

/-- A word that lies apart, or under a key listed, is written. -/
theorem setReg_keepsRails {r w n} (hr : r.offRails = true ∨ r.addr n ∈ keys) (h : RailsKept keys s0 s) :
    RailsKept keys s0 (s.setReg r w n) := by
  refine ⟨fun k hl hh hk => (key_setReg_ne s r w n ?_).trans (h.1 k hl hh hk), h.2⟩
  rintro rfl
  rcases hr with hr | hr
  · have := Reg.offRails_addr hr n
    omega
  · exact hk hr

theorem setFld_keepsRails {f v n} (hf : f.reg.offRails = true) (h : RailsKept keys s0 s) : RailsKept keys s0 (State.setFld s f v n) :=
  setReg_keepsRails (.inl hf) h

theorem setFlag_keepsRails {f b n} (hf : f.reg.offRails = true) (h : RailsKept keys s0 s) : RailsKept keys s0 (State.setFlag s f b n) :=
  setFld_keepsRails hf h

theorem setFbit_keepsRails {f k b n} (hf : f.reg.offRails = true) (h : RailsKept keys s0 s) : RailsKept keys s0 (State.setFbit s f k b n) :=
  setFld_keepsRails hf h

theorem event_keepsRails {f n} (hf : f.reg.offRails = true) (h : RailsKept keys s0 s) : RailsKept keys s0 (State.event s f n) :=
  setFld_keepsRails hf h

theorem countTo_keepsRails {f top n} (hf : f.reg.offRails = true) (h : RailsKept keys s0 s) :
    RailsKept keys s0 (State.countTo s f top n) :=
  .ite (setFld_keepsRails hf h) h

/-- A rail's record changes in anything but the generator's course. -/
theorem setRail_keepsRails {n : Nat} {r : RailH} (hr : r.course = (s.rail n).course) (h : RailsKept keys s0 s) :
    RailsKept keys s0 (s.setRail n r) := by
  obtain ⟨hregs, hmem, hphF, hrails⟩ := h
  refine ⟨hregs, hmem, hphF, fun m => ?_⟩
  show (cellGet {} (cellSet {} s.rails n r) m).course = _
  rw [cellGet_set]
  split
  next hn => exact hn ▸ hr.trans (hrails n)
  next => exact hrails m

/-! ### History, records, levels and supervision -/

theorem noteHist_keepsRails {k} (h : RailsKept keys s0 s) : RailsKept keys s0 (s.noteHist k) := by
  unfold State.noteHist
  extract_lets _ a
  have ha : RailsKept keys s0 a := h
  refine .foldl ha fun t e ht => ?_
  dsimp only
  split
  · exact .ite ht ht
  · exact ht

theorem noteIf_keepsRails {b k} (h : RailsKept keys s0 s) : RailsKept keys s0 (State.noteIf s b k) := .ite (noteHist_keepsRails h) h

theorem dropRecord_keepsRails (h : RailsKept keys s0 s) : RailsKept keys s0 (State.dropRecord s) :=
  .via (fun h1 => .ite (.ite (.rest (event_keepsRails rfl (countTo_keepsRails rfl h1))) (countTo_keepsRails rfl h1)) h1)
    (event_keepsRails rfl h)

theorem postRecord_keepsRails {r} (h : RailsKept keys s0 s) : RailsKept keys s0 (State.postRecord s r) :=
  .ite h (.ite h (dropRecord_keepsRails h))

theorem setLevel_keepsRails {src inst detail data1 b} (h : RailsKept keys s0 s) :
    RailsKept keys s0 (State.setLevel s src inst detail data1 b) :=
  .ite h h

theorem supCount_keepsRails {n k} (h : RailsKept keys s0 s) : RailsKept keys s0 (supCount s n k) :=
  .ite h (.ite (.ite (.rest (setFbit_keepsRails rfl h)) h) h)

theorem rstoSet_keepsRails {j b} (h : RailsKept keys s0 s) : RailsKept keys s0 (rstoSet s j b) :=
  noteIf_keepsRails (setFlag_keepsRails rfl (setFlag_keepsRails rfl h))

theorem rstoLow_keepsRails {j cause} (h : RailsKept keys s0 s) : RailsKept keys s0 (rstoLow s j cause) :=
  setFld_keepsRails rfl (rstoSet_keepsRails h)

theorem rstoOne_keepsRails {hold j} (h : RailsKept keys s0 s) : RailsKept keys s0 (rstoOne s hold j) :=
  .ite h <| .ite (rstoLow_keepsRails h) <| .ite (.ite (rstoSet_keepsRails h) (rstoLow_keepsRails h)) <|
  .ite (rstoLow_keepsRails h) (by split; exacts [rstoLow_keepsRails h, .ite h (.rest (setFlag_keepsRails rfl h))])

theorem compSet_keepsRails {n q b} (h : RailsKept keys s0 s) : RailsKept keys s0 (compSet s n q b) :=
  .ite h <| .via
    (fun h1 => .ite
      (.foldl (.ite (supCount_keepsRails h1) (setFbit_keepsRails rfl (supCount_keepsRails h1))) fun _ _ => rstoOne_keepsRails) h1)
    (noteHist_keepsRails (.rest (setFbit_keepsRails rfl h)))

theorem compEnd_keepsRails {n q} (h : RailsKept keys s0 s) : RailsKept keys s0 (compEnd s n q) := setLevel_keepsRails (compSet_keepsRails h)

theorem supLeave_keepsRails {n} (h : RailsKept keys s0 s) : RailsKept keys s0 (supLeave s n) :=
  compSet_keepsRails (compEnd_keepsRails (compEnd_keepsRails h))

/-! ### Pools and claims -/

theorem endOvercommit_keepsRails {k} (h : RailsKept keys s0 s) : RailsKept keys s0 (endOvercommit s k) :=
  setLevel_keepsRails (setFlag_keepsRails rfl h)

theorem refundPorts_keepsRails {k x} {l : List Nat} (h : RailsKept keys s0 s) : RailsKept keys s0 (refundPorts k l s x).1 := by
  induction l generalizing s x with
  | nil => exact h
  | cons n l ih =>
    have hcut {f : Fld} {v} (hf : f.reg.offRails = true) : RailsKept keys s0 (s.setFld f v n) := setFld_keepsRails hf h
    exact .iteFst
      (.iteFst (ih h) (ih (countTo_keepsRails rfl (event_keepsRails rfl (.ite (setFlag_keepsRails rfl (hcut rfl)) (hcut rfl)))))) (ih h)

theorem refundClaims_keepsRails {k k'} (h : RailsKept keys s0 s) : RailsKept keys s0 (refundClaims k s k').1 := by
  unfold refundClaims
  dsimp only
  exact .foldlFst (.foldlFst (.foldlFst h (fun _ _ h => .iteFst h h)) (fun _ _ h => .iteFst h h)) (fun _ _ h => .iteFst h h)

theorem returnHeadroom_keepsRails {k x port} (h : RailsKept keys s0 s) : RailsKept keys s0 (returnHeadroom s k x port) := by
  have hclear : RailsKept keys s0 (clearOvercommit s k) := .ite (endOvercommit_keepsRails h) h
  unfold returnHeadroom
  extract_lets _ _
  split
  next h2 =>
  split
  next h3 =>
  have hs := (refundClaims_keepsRails <| (refundPorts_keepsRails hclear).of_eq h2).of_eq h3
  split
  · exact hs
  · exact .ite hs (setFld_keepsRails rfl hs)

theorem pinCount_keepsRails {n q pin ns} (h : RailsKept keys s0 s) : RailsKept keys s0 (pinCount s n q pin ns) :=
  .ite (.ite (event_keepsRails rfl h) h) h

/-! ### Link commands, intents and clauses -/

theorem sendCmd_keepsRails {l code arg} (h : RailsKept keys s0 s) : RailsKept keys s0 (sendCmd s l code arg) := .ite (.ite h h) h

theorem sendSink_keepsRails {n} (h : RailsKept keys s0 t) : RailsKept keys s0 (sendSink s t n) :=
  .ite h (.foldl h fun _ _ => sendCmd_keepsRails)

theorem logIntent_keepsRails {p outcome} (h : RailsKept keys s0 s) : RailsKept keys s0 (logIntent s p outcome) :=
  .ite (postRecord_keepsRails h) h

theorem portCount_keepsRails {f p} (hf : f.reg.offRails = true) (h : RailsKept keys s0 s) : RailsKept keys s0 (portCount s f p) :=
  .ite (.ite (event_keepsRails rfl (setFld_keepsRails hf h)) (setFld_keepsRails hf h)) h

theorem freeSlots_keepsRails {n} (h : RailsKept keys s0 s) : RailsKept keys s0 (freeSlots s n) := setRail_keepsRails rfl h

theorem unwindContribs_keepsRails {p n} (h : RailsKept keys s0 s) : RailsKept keys s0 (unwindContribs s p n) :=
  freeSlots_keepsRails (setRail_keepsRails rfl h)

theorem revokeIntent_keepsRails {p reason} (h : RailsKept keys s0 s) : RailsKept keys s0 (revokeIntent s p reason) :=
  .ite h <| logIntent_keepsRails <| portCount_keepsRails rfl <| event_keepsRails rfl <| setFld_keepsRails rfl <|
  .foldl (returnHeadroom_keepsRails <| .rest <| setFld_keepsRails rfl h) fun _ _ => unwindContribs_keepsRails

theorem confirmContribs_keepsRails {p n} (h : RailsKept keys s0 s) : RailsKept keys s0 (confirmContribs s p n) :=
  freeSlots_keepsRails (.via (fun h1 => setRail_keepsRails rfl h1) (setRail_keepsRails rfl h))

theorem confirmIntent_keepsRails {p} (h : RailsKept keys s0 s) : RailsKept keys s0 (confirmIntent s p) :=
  .ite h <| logIntent_keepsRails <| portCount_keepsRails rfl <| event_keepsRails rfl <|
  .foldl (setFld_keepsRails rfl h) fun _ _ => confirmContribs_keepsRails

theorem engCount_keepsRails {f e conf} (hf : f.reg.offRails = true) (h : RailsKept keys s0 s) : RailsKept keys s0 (engCount s f e conf) :=
  .ite (.ite (event_keepsRails rfl (.rest (setFld_keepsRails hf h))) (setFld_keepsRails hf h)) h

theorem unreserve_keepsRails {p k} (h : RailsKept keys s0 s) : RailsKept keys s0 (unreserve s p k) :=
  .ite (returnHeadroom_keepsRails (.rest h)) h

theorem unwindClause_keepsRails {e n} (h : RailsKept keys s0 s) : RailsKept keys s0 (unwindClause s e n) := by
  unfold unwindClause
  dsimp only
  split
  · exact .ite (.ite (setRail_keepsRails rfl h) (setRail_keepsRails rfl h)) h
  · exact h

theorem revokeClause_keepsRails {e reason branch} (h : RailsKept keys s0 s) : RailsKept keys s0 (revokeClause s e reason branch) := by
  unfold revokeClause
  split
  · exact h
  · exact .via
        (fun h1 => .ite (.via (fun h2 => .ite (setFld_keepsRails rfl h2) h2) (setFld_keepsRails rfl (.rest h1))) h1)
        (engCount_keepsRails rfl <| event_keepsRails rfl <| setFld_keepsRails rfl <| setFld_keepsRails rfl <|
        setFld_keepsRails rfl (.rest (.foldl (.foldl h (fun _ _ => unwindClause_keepsRails)) (fun _ _ => unreserve_keepsRails))))

theorem clearTerms_keepsRails {n} (h : RailsKept keys s0 s) :
    RailsKept keys s0 (s.setRail n { s.rail n with contribs := [], clause := none }) := setRail_keepsRails rfl h

theorem railTermsEnd_keepsRails {n ireason creason} (h : RailsKept keys s0 s) : RailsKept keys s0 (railTermsEnd s n ireason creason) := by
  unfold railTermsEnd
  extract_lets a b
  have ha : RailsKept keys s0 a := .foldl h fun _ _ h => .ite (revokeIntent_keepsRails h) h
  have hb : RailsKept keys s0 b := by
    refine .foldl ha fun t e ht => ?_
    cases (t.eng e).clause with
    | none => exact ht
    | some c => exact .ite (revokeClause_keepsRails ht) ht
  exact clearTerms_keepsRails hb

end Sys2Proof.Machine
end

section
/-! SUPPORT. What the words of a rail and its generator read as over a change that keeps them. -/
namespace Sys2Proof.Machine

variable {keys : List Nat} {s t : State}

theorem RailsKept.mem (h : RailsKept keys s t) : t.mem = s.mem := h.2.1

theorem RailsKept.course (h : RailsKept keys s t) (n : Nat) : (t.rail n).course = (s.rail n).course := h.2.2.2 n

theorem RailsKept.gen (h : RailsKept keys s t) (n : Nat) : (t.rail n).gen = (s.rail n).gen := congrArg (·.1) (h.course n)

theorem RailsKept.target (h : RailsKept keys s t) (n : Nat) : (t.rail n).target = (s.rail n).target := congrArg (·.2.1) (h.course n)

theorem RailsKept.move (h : RailsKept keys s t) (n : Nat) : (t.rail n).move = (s.rail n).move := congrArg (·.2.2) (h.course n)

theorem RailsKept.reg_of (h : RailsKept keys s t) {r : Reg} {n : Nat} (hl : 0x1000 ≤ r.addr n) (hh : r.addr n < 0x3000)
    (hk : r.addr n ∉ keys) : t.reg r n = s.reg r n := by
  unfold State.reg
  rw [h.1 _ hl hh hk]

/-- The keys of rail `n`'s words of some registers. -/
def wordsOf (rs : List Reg) (n : Nat) : List Nat := rs.map (·.addr n)

theorem notMem_wordsOf {rs : List Reg} {r : Reg} (h : rs.all (·.besideWord r) = true) (n : Nat) : r.addr n ∉ wordsOf rs n := by
  intro hm
  obtain ⟨x, hx, he⟩ := List.mem_map.mp hm
  exact Reg.besideWord_addr (List.all_eq_true.mp h x hx) n he

theorem lt_of_mem_wordsOf {rs : List Reg} {n : Fin 32} {k : Nat} (h : rs.all Reg.ofRails = true) (hk : k ∈ wordsOf rs n) : k < 0x2000 := by
  obtain ⟨x, hx, rfl⟩ := List.mem_map.mp hk
  exact (Reg.ofRails_bounds (List.all_eq_true.mp h x hx) n).2

variable {rs : List Reg} {n : Fin 32}

theorem RailsKept.reg (h : RailsKept (wordsOf rs n) s t) {r : Reg} (hr : r.ofRails = true) (hk : rs.all (·.besideWord r) = true) :
    t.reg r n = s.reg r n := by
  obtain ⟨hl, hh⟩ := Reg.ofRails_bounds hr n
  exact h.reg_of hl (by omega) (notMem_wordsOf hk n)

theorem RailsKept.fld (h : RailsKept (wordsOf rs n) s t) {f : Fld} (hf : f.reg.ofRails = true) (hk : rs.all (·.besideWord f.reg) = true) :
    t.fld f n = s.fld f n :=
  fld_of_reg (h.reg hf hk)

theorem RailsKept.flag (h : RailsKept (wordsOf rs n) s t) {f : Fld} (hf : f.reg.ofRails = true)
    (hk : rs.all (·.besideWord f.reg) = true) : t.flag f n = s.flag f n :=
  flag_of_fld (h.fld hf hk)

/-- A field of a word listed is set. -/
theorem setFld_keepsOthers {s0 : State} {f : Fld} {v : Nat} (hf : f.reg ∈ rs) (h : RailsKept (wordsOf rs n) s0 s) :
    RailsKept (wordsOf rs n) s0 (s.setFld f v n) :=
  setReg_keepsRails (.inr (List.mem_map_of_mem hf)) h

theorem event_keepsOthers {s0 : State} {f : Fld} (hf : f.reg ∈ rs) (h : RailsKept (wordsOf rs n) s0 s) :
    RailsKept (wordsOf rs n) s0 (s.event f n) :=
  setFld_keepsOthers hf h

/-! ### The phases of a rail -/

theorem mem_railPhases {n ph : Nat} (h : ph ∈ railPhases s n) : ph < 64 := by
  obtain ⟨j, hj, rfl⟩ := List.mem_map.mp h
  have hlt : j < 32 := List.mem_range.mp (List.mem_of_mem_filter hj)
  split <;> omega

theorem railPhases_nodup (s : State) (n : Nat) : (railPhases s n).Nodup :=
  (List.nodup_range.filter _).map fun _ _ h => Nat.add_left_cancel h

theorem railPhases_ne_nil {n : Nat} (h : s.fld RL_PMAP_PMAP n ≠ 0) : railPhases s n ≠ [] := by
  obtain ⟨j, hj⟩ := Nat.exists_testBit_of_ne_zero h
  have hlt : j < 32 := by
    by_contra hge
    have hw : s.fld RL_PMAP_PMAP n < 2 ^ 32 := Word.bits_lt _ _ _
    rw [Nat.testBit_lt_two_pow (hw.trans_le (Nat.pow_le_pow_right (by decide) (by omega)))] at hj
    exact absurd hj (by decide)
  have hmem : j ∈ (List.range 32).filter (fun j => (s.fld RL_PMAP_PMAP n).testBit j) :=
    List.mem_filter.mpr ⟨List.mem_range.mpr hlt, hj⟩
  exact List.ne_nil_of_mem (List.mem_map_of_mem hmem)

theorem phInService_iff {ph : Nat} : phInService s ph = true ↔ cellGet 0 s.flt.phF ph = 0 ∧ s.fld PH_FXSTAT_LSTATE ph = 6 := by
  simp [phInService]

theorem RailsKept.phases (h : RailsKept (wordsOf rs n) s t) (hk : rs.all (·.besideWord RL_PMAP) = true) :
    railPhases t n = railPhases s n := by
  unfold railPhases
  rw [h.fld rfl hk]

theorem RailsKept.lstate (h : RailsKept (wordsOf rs n) s t) (hr : rs.all Reg.ofRails = true) {ph : Nat} (hp : ph < 64) :
    t.fld PH_FXSTAT_LSTATE ph = s.fld PH_FXSTAT_LSTATE ph := by
  have he : PH_FXSTAT.addr ph = 0x2001 + 0x40 * ph := if_pos hp
  refine fld_of_reg (h.reg_of (r := PH_FXSTAT) (by omega) (by omega) fun hm => ?_)
  have := lt_of_mem_wordsOf hr hm
  omega

/-- The phases in service stay so. -/
theorem RailsKept.service (h : RailsKept (wordsOf rs n) s t) (hk : rs.all (·.besideWord RL_PMAP) = true)
    (hr : rs.all Reg.ofRails = true) : railService t n = railService s n := by
  unfold railService
  rw [h.phases hk]
  refine List.filter_congr fun ph hph => ?_
  unfold phInService
  rw [h.lstate hr (mem_railPhases hph), h.2.2.1]

end Sys2Proof.Machine
end

section
/-! SUPPORT. The states of a rail (R73, R100): what a change of state shows, what stops with it, and how a rail starts. -/
namespace Sys2Proof.Machine

variable {s t u : State} {n : Fin 32} {st : Nat}

/-! ### Fields of one word -/

theorem state_setSlewing {b : Bool} {n : Nat} : (s.setFlag RL_STAT_SLEWING b n).fld RL_STAT_STATE n = s.fld RL_STAT_STATE n :=
  fld_setFld_apart rfl rfl

theorem state_setRate {b : Bool} {n : Nat} : (s.setFlag RL_STAT_RATE b n).fld RL_STAT_STATE n = s.fld RL_STAT_STATE n :=
  fld_setFld_apart rfl rfl

/-! ### The state set -/

/-- RLn_CTRL.EN reads 1 in the state (R100). -/
def enabledIn (st : Nat) : Bool := st != rsOff && st != rsLatched && st != rsFenced

/-- The words in which the rail's state shows. -/
def stateShown (s : State) (n st : Nat) : State := (s.setFld RL_STAT_STATE st n).setFlag RL_CTRL_EN (enabledIn st) n

theorem stateShown_state (s : State) (n : Nat) (hst : st < 16) : railState (stateShown s n st) n = st :=
  (fld_setFld_word rfl).trans (fld_setFld_value rfl hst)

theorem stateShown_en (s : State) (n st : Nat) : (stateShown s n st).flag RL_CTRL_EN n = enabledIn st :=
  flag_setFlag_same _ _ _ _ (by decide) (by decide)

/-- Beside these words, a change of state changes what the other units hold. -/
theorem setRailState_kept {keys : List Nat} (s : State) (n st : Nat) : RailsKept keys (stateShown s n st) (setRailState s n st) := by
  unfold setRailState
  extract_lets a b
  have hb : RailsKept keys (stateShown s n st) b := .ite (supLeave_keepsRails (.refl _)) (.refl _)
  exact sendSink_keepsRails (.ite hb (noteHist_keepsRails (noteHist_keepsRails hb)))

theorem setRailState_state (s : State) (n : Fin 32) (hst : st < 16) : railState (setRailState s n st) n = st :=
  ((setRailState_kept s n st).fld (rs := []) rfl rfl).trans (stateShown_state s n hst)

theorem setRailState_en (s : State) (n : Fin 32) (st : Nat) : (setRailState s n st).flag RL_CTRL_EN n = enabledIn st :=
  ((setRailState_kept s n st).flag (rs := []) rfl rfl).trans (stateShown_en s n st)

/-- A change of state keeps the other words of the rails. -/
theorem setRailState_keeps (s : State) (n : Fin 32) (st : Nat) : RailsKept (wordsOf [RL_STAT, RL_CTRL] n) s (setRailState s n st) :=
  (setFld_keepsOthers (f := RL_CTRL_EN) (by simp [RL_CTRL_EN]) (setFld_keepsOthers (f := RL_STAT_STATE) (by simp [RL_STAT_STATE])
    (.refl s))).trans (setRailState_kept s n st)

/-! ### A rail stops -/

/-- A rail that has stopped in state `st`: its phases are high-impedance and its reference stands at 0 (R73). -/
structure RailStopped (n : Fin 32) (st : Nat) (t : State) : Prop where
  state : railState t n = st
  en : t.flag RL_CTRL_EN n = enabledIn st
  gen : (t.rail n).gen = 0
  vref : t.fld RL_VREF_VREF n = 0

theorem RailStopped.kept (h : RailStopped n st s) (hk : RailsKept (wordsOf [] n) s t) : RailStopped n st t where
  state := (hk.fld rfl rfl).trans h.state
  en := (hk.flag rfl rfl).trans h.en
  gen := (hk.gen n).trans h.gen
  vref := (hk.fld rfl rfl).trans h.vref

theorem rail_setRail (s : State) (n : Nat) (r : RailH) : (s.setRail n r).rail n = r := cellGet_set_same ..

theorem railStop_stops (s : State) (n : Fin 32) (hst : st < 16) : RailStopped n st (railStop s n st) ∧ (railStop s n st).mem = s.mem := by
  unfold railStop
  extract_lets a _ b c d
  have hgen : (b.rail n).gen = 0 := congrArg RailH.gen (rail_setRail a n _)
  have hstate : railState b n = st := setRailState_state s n hst
  have hen : b.flag RL_CTRL_EN n = enabledIn st := setRailState_en s n st
  have hmem : b.mem = s.mem := (setRailState_keeps s n st).mem
  have hc : RailsKept (wordsOf [] n) b c := .foldl (.refl b) fun _ _ => pinCount_keepsRails
  clear_value c b
  refine ⟨⟨?_, ?_, (hc.gen n).trans hgen, ?_⟩, hc.mem.trans hmem⟩
  · simp (disch := decide) only [railState, fld_setFld_word, d, state_setSlewing]
    exact (hc.fld rfl rfl).trans hstate
  · simp (disch := decide) only [State.flag, fld_setFld_word, d, setFlag_eq]
    exact (hc.flag rfl rfl).trans hen
  · simp (disch := decide) only [fld_setFld_word]
    exact fld_setFld_value rfl (by decide)

/-- A rail that leaves its state has stopped, and the end of its intents and clauses leaves it so. -/
theorem railLeave_stops (s : State) (n : Fin 32) (hst : st < 16) (ireason creason : Nat) :
    RailStopped n st (railLeave s n st ireason creason) := by
  have hs := (railStop_stops s n hst).1
  unfold railLeave
  extract_lets _ a
  split
  · exact hs.kept (railTermsEnd_keepsRails (.refl _))
  · exact hs

/-! ### A rail starts -/

/-- With every phase of its map in service the entry to SOFTSTART fences none (R87). -/
theorem fenceUntrained_inService {n : Nat} (h : railService s n = railPhases s n) : fenceUntrained s n = s := by
  refine List.foldlRecOn (motive := (· = s)) _ _ rfl fun t ht ph hph => ?_
  obtain ⟨hfence, -⟩ := phInService_iff.mp (List.filter_eq_self.mp h ph hph)
  have hup := (phInService_iff.mp (List.filter_eq_self.mp h ph hph)).2
  rw [ht, if_neg fun hn => hn.2 hup]

/-- A rail that does not come from STOPPING, as it has entered SOFTSTART: its word of state is set, and the shadow set is taken but at a
restart (R73, R81). -/
def startEntered (s : State) (n : Nat) (restart : Bool) : State :=
  let s := supCount (setRailState s n rsSoftstart) n 7
  if restart then s else compTake s n

/-- Its record: the generator and the compensator start from zero toward VSET (R73, R77, R88). -/
def startRecord (s : State) (n : Nat) : RailH :=
  { s.rail n with start := none, offs := [], offLeft := 0, target := s.fld RL_VSET_VSET n, rate := 0, move := none, shedNs := 0, addNs := 0,
                  overOff := false, floorNs := 0, managed := min (s.fld RL_PHBND_PHCEIL n) (railNsvc s n), period := periodInForce s n,
                  gen := 0, i := 0, d := 0, w := 0, ePrev := 0, trims := [] }

/-- Its words: the loop rate as it leaves OFF, SLEWING, and the retries but at a restart (R82, R93). -/
def startWords (s : State) (n : Nat) (restart off : Bool) : State :=
  let s := if off then s.setFlag RL_STAT_RATE ((railService s n).any (fun ph => s.fld PH_FXSTAT_VER ph == 1)) n else s
  let s := s.setFlag RL_STAT_SLEWING true n
  if restart then s else s.setFld RL_HSTAT_RETRIES 0 n

theorem startEntered_keeps (s : State) (n : Fin 32) (restart : Bool) :
    RailsKept (wordsOf [RL_STAT, RL_CTRL, RL_COMP3] n) s (startEntered s n restart) := by
  have hset : RailsKept (wordsOf [RL_STAT, RL_CTRL, RL_COMP3] n) s (setRailState s n rsSoftstart) :=
    (setFld_keepsOthers (f := RL_CTRL_EN) (by simp [RL_CTRL_EN]) (setFld_keepsOthers (f := RL_STAT_STATE) (by simp [RL_STAT_STATE])
      (.refl s))).trans (setRailState_kept s n rsSoftstart)
  have hsup := supCount_keepsRails (n := n) (k := 7) hset
  exact .ite hsup (setFld_keepsOthers (by simp [RL_COMP3_PEND]) (setRail_keepsRails rfl hsup))

theorem startEntered_shows (s : State) (n : Fin 32) (restart : Bool) :
    railState (startEntered s n restart) n = rsSoftstart ∧ (startEntered s n restart).flag RL_CTRL_EN n = true := by
  have hk : RailsKept (wordsOf [RL_COMP3] n) (setRailState s n rsSoftstart) (startEntered s n restart) :=
    .ite (supCount_keepsRails (.refl _))
      (setFld_keepsOthers (by simp [RL_COMP3_PEND]) (setRail_keepsRails rfl (supCount_keepsRails (.refl _))))
  exact ⟨(hk.fld rfl rfl).trans (setRailState_state s n (by decide)), (hk.flag rfl rfl).trans (setRailState_en s n rsSoftstart)⟩

theorem startWords_shows (s : State) (n : Fin 32) (restart off : Bool) :
    RailsKept (wordsOf [RL_STAT, RL_HSTAT] n) s (startWords s n restart off) ∧ railState (startWords s n restart off) n = railState s n
      ∧ (startWords s n restart off).flag RL_STAT_SLEWING n = true
      ∧ (startWords s n restart off).fld RL_HSTAT_RETRIES n = if restart then s.fld RL_HSTAT_RETRIES n else 0 := by
  unfold startWords
  extract_lets a b
  have ha : RailsKept (wordsOf [RL_STAT, RL_HSTAT] n) s a ∧ railState a n = railState s n
      ∧ a.fld RL_HSTAT_RETRIES n = s.fld RL_HSTAT_RETRIES n := by
    simp only [a]
    split
    · exact ⟨setFld_keepsOthers (by simp [RL_STAT_RATE]) (.refl s), state_setRate, fld_setFld_word rfl⟩
    · exact ⟨.refl s, rfl, rfl⟩
  clear_value a
  obtain ⟨hk, hstate, hret⟩ := ha
  have hb : RailsKept (wordsOf [RL_STAT, RL_HSTAT] n) s b := setFld_keepsOthers (by simp [RL_STAT_SLEWING]) hk
  have hslew : b.flag RL_STAT_SLEWING n = true := flag_setFlag_same _ _ _ _ (by decide) (by decide)
  have hbstate : railState b n = railState s n := state_setSlewing.trans hstate
  cases restart
  · exact ⟨setFld_keepsOthers (by simp [RL_HSTAT_RETRIES]) hb, (fld_setFld_word rfl).trans hbstate,
      (flag_of_fld (fld_setFld_word rfl)).trans hslew, fld_setFld_value rfl (by decide)⟩
  · exact ⟨hb, hbstate, hslew, (fld_setFld_word rfl).trans hret⟩

theorem startEntered_service (restart : Bool) : railService (startEntered s n restart) n = railService s n :=
  (startEntered_keeps s n restart).service rfl rfl

theorem railStart_eq (restart : Bool) (hs : railState s n ≠ rsStopping) (hserv : railService s n = railPhases s n)
    (hne : railPhases s n ≠ []) :
    railStart s n restart = startWords ((startEntered s n restart).setRail n (startRecord (startEntered s n restart) n)) n restart
      (railState s n == rsOff) := by
  have hnsvc : railNsvc (supCount (setRailState s n rsSoftstart) n 7) n ≠ 0 := by
    have hserv' : railService (supCount (setRailState s n rsSoftstart) n 7) n = railPhases s n :=
      (startEntered_service true).trans hserv
    unfold railNsvc
    rw [hserv']
    exact fun h0 => hne (List.length_eq_zero_iff.mp h0)
  have hstop : (railState s n == rsStopping) = false := by simpa using hs
  unfold railStart
  rw [fenceUntrained_inService hserv]
  simp only [if_neg hnsvc, hstop]
  unfold startWords startEntered startRecord
  simp only [beq_iff_eq]
  rfl

/-- A rail in SOFTSTART, its generator at 0 (R73, R77). -/
structure RailStarted (n : Fin 32) (target retries : Nat) (t : State) : Prop where
  state : railState t n = rsSoftstart
  en : t.flag RL_CTRL_EN n = true
  gen : (t.rail n).gen = 0
  target : (t.rail n).target = target
  slewing : t.flag RL_STAT_SLEWING n = true
  retries : t.fld RL_HSTAT_RETRIES n = retries

theorem railStart_starts (restart : Bool) (hs : railState s n ≠ rsStopping) (hserv : railService s n = railPhases s n)
    (hne : railPhases s n ≠ []) :
    RailStarted n (s.fld RL_VSET_VSET n) (if restart then s.fld RL_HSTAT_RETRIES n else 0) (railStart s n restart)
      ∧ (railStart s n restart).mem = s.mem := by
  rw [railStart_eq restart hs hserv hne]
  have hk := startEntered_keeps s n restart
  obtain ⟨hstate, hen⟩ := startEntered_shows s n restart
  have hrail := rail_setRail (startEntered s n restart) n (startRecord (startEntered s n restart) n)
  obtain ⟨hw, hwstate, hwslew, hwret⟩ := startWords_shows
    ((startEntered s n restart).setRail n (startRecord (startEntered s n restart) n)) n restart (railState s n == rsOff)
  have hvset : (startEntered s n restart).fld RL_VSET_VSET n = s.fld RL_VSET_VSET n := hk.fld rfl rfl
  have hret : (startEntered s n restart).fld RL_HSTAT_RETRIES n = s.fld RL_HSTAT_RETRIES n := hk.fld rfl rfl
  refine ⟨⟨hwstate.trans hstate, (hw.flag rfl rfl).trans hen, (hw.gen n).trans ?_, (hw.target n).trans ?_, hwslew, ?_⟩,
    hw.mem.trans hk.mem⟩
  · rw [hrail]; rfl
  · rw [hrail]; exact hvset
  · rw [hwret, ← hret]; rfl

end Sys2Proof.Machine
end

section
/-! SUPPORT. Enabling and disabling a rail (R73–R75, R100), and register writes of a rail that its crossing passes (R24, R26). -/
namespace Sys2Proof.Machine

variable {s t : State} {n : Fin 32}

/-- A register write of a rail acts where its crossing is open and writes are (R24, R26, R55, R70). -/
theorem onRailWrite_open (hp : s.railPresent n = true) (ho : s.railOpen n = true) (hw : s.writesOpen = true) :
    s.onRailWrite n t = .next t := by
  simp [State.onRailWrite, State.ifWritable, hp, ho, hw]

theorem onRailWrite_shut (h : s.railPresent n = false ∨ s.railOpen n = false ∨ s.writesOpen = false) :
    s.onRailWrite n t = .next s := by
  rcases h with h | h | h <;> simp [State.onRailWrite, State.ifWritable, h]

theorem onRailWrite_self : s.onRailWrite n s = .next s := by simp [State.onRailWrite, State.ifWritable]

/-! ### Enable -/

/-- An enable that nothing refuses starts a rail that is OFF (R73). -/
theorem railEnable_starts (hm : railEnableMode s.cur = true) (hs : railState s n = rsOff) (hpmap : s.fld RL_PMAP_PMAP n ≠ 0)
    (hilim : s.fld RL_ILIM_ILIM n ≠ 0) (hfloor : s.fld RL_VFLOOR_VFLOOR n ≤ s.fld RL_VSET_VSET n)
    (hceil : s.fld RL_VSET_VSET n ≤ railCeil s n) (hhot : railHot s n = false) (hp6 : s.powered 6 = true) :
    (railEnable s n).1 = railStart s n false := by
  have hcfg : ¬ (s.fld RL_PMAP_PMAP n = 0 ∨ s.fld RL_ILIM_ILIM n = 0 ∨ s.fld RL_VSET_VSET n < s.fld RL_VFLOOR_VFLOOR n
      ∨ railCeil s n < s.fld RL_VSET_VSET n) := by omega
  unfold railEnable railEnableIf
  simp [hm, hs, hcfg, hhot, hp6, rsOff, rsFenced, rsDraining, rsSoftstart, rsRegulate, rsHiccupOff]

/-- An enable that the mode, the state, the configuration or a hot phase refuses changes nothing (R74, R75, R321). -/
theorem railEnable_refused (h : railEnableMode s.cur = false ∨ railState s n = rsFenced ∨ railState s n = rsDraining
      ∨ railState s n = rsSoftstart ∨ railState s n = rsRegulate ∨ railState s n = rsHiccupOff
      ∨ s.fld RL_PMAP_PMAP n = 0 ∨ s.fld RL_ILIM_ILIM n = 0 ∨ s.fld RL_VSET_VSET n < s.fld RL_VFLOOR_VFLOOR n
      ∨ railCeil s n < s.fld RL_VSET_VSET n ∨ railHot s n = true) : (railEnable s n).1 = s := by
  rcases h with h | h | h | h | h | h | h | h | h | h | h <;> simp [railEnable, railEnableIf, h, apply_ite Prod.fst]

/-! ### Disable -/

theorem railDisable_retried (h : railState s n = rsHiccupOff ∨ railState s n = rsLatched) :
    (railDisable s n).1 = railLeave s n rsOff 4 4 := by
  unfold railDisable
  exact congrArg Prod.fst (if_pos h)

theorem railDisable_atOnce (h : railState s n = rsSoftstart ∨ railState s n = rsRegulate) (hm : s.flag RL_CTRL_STOPMODE n = false) :
    (railDisable s n).1 = railLeave s n rsOff 4 4 := by
  rcases h with h | h <;> simp [railDisable, h, hm, rsHiccupOff, rsLatched, rsSoftstart, rsRegulate, rsStopping]

theorem railDisable_idle (h : railState s n = rsOff ∨ railState s n = rsFenced ∨ railState s n = rsDraining) :
    (railDisable s n).1 = s := by
  rcases h with h | h | h <;>
    simp [railDisable, h, rsOff, rsFenced, rsDraining, rsHiccupOff, rsLatched, rsSoftstart, rsRegulate, rsStopping]

/-- A rail that begins to stop: in STOPPING, its generator on the way to 0 (R73, R75). -/
def stopBegun (s : State) (n : Nat) : State :=
  let s := setRailState (supersede s n) n rsStopping
  let s := s.setRail n { s.rail n with target := 0, rate := 0, move := none }
  railTermsEnd (s.setFlag RL_STAT_SLEWING true n) n 4 4

theorem railDisable_stopping (h : railState s n = rsSoftstart ∨ railState s n = rsRegulate) (hm : s.flag RL_CTRL_STOPMODE n = true) :
    (railDisable s n).1 = stopBegun s n := by
  rcases h with h | h <;>
    simp [railDisable, stopBegun, h, hm, rsHiccupOff, rsLatched, rsSoftstart, rsRegulate, rsStopping]

theorem supersede_keeps (s : State) (n : Fin 32) : RailsKept (wordsOf [RL_VSTAT, RL_EVT] n) s (supersede s n) :=
  .ite (event_keepsOthers (by simp [RL_EVT_SUPERSEDED]) (setFld_keepsOthers (by simp [RL_VSTAT_SUPMST]) (.refl s))) (.refl s)

theorem stopBegun_shows (s : State) (n : Fin 32) : railState (stopBegun s n) n = rsStopping ∧ (stopBegun s n).flag RL_CTRL_EN n = true
    ∧ ((stopBegun s n).rail n).gen = (s.rail n).gen ∧ ((stopBegun s n).rail n).target = 0
    ∧ (stopBegun s n).flag RL_STAT_SLEWING n = true := by
  unfold stopBegun
  extract_lets a _ b
  have hstate : railState a n = rsStopping := setRailState_state _ n (by decide)
  have hen : a.flag RL_CTRL_EN n = true := setRailState_en _ n rsStopping
  have hgen : (a.rail n).gen = (s.rail n).gen := ((setRailState_keeps _ n _).gen n).trans ((supersede_keeps s n).gen n)
  have hrail : b.rail n = { a.rail n with target := 0, rate := 0, move := none } := rail_setRail a n _
  have hbstate : railState b n = rsStopping := hstate
  have hben : b.flag RL_CTRL_EN n = true := hen
  clear_value b
  have hk : RailsKept (wordsOf [] n) (b.setFlag RL_STAT_SLEWING true n) (railTermsEnd (b.setFlag RL_STAT_SLEWING true n) n 4 4) :=
    railTermsEnd_keepsRails (.refl _)
  refine ⟨(hk.fld rfl rfl).trans (state_setSlewing.trans hbstate), (hk.flag rfl rfl).trans ((flag_of_fld (fld_setFld_word rfl)).trans hben),
    (hk.gen n).trans ?_, (hk.target n).trans ?_, (hk.flag rfl rfl).trans (flag_setFlag_same _ _ _ _ (by decide) (by decide))⟩
  · exact (congrArg RailH.gen hrail).trans hgen
  · exact congrArg RailH.target hrail

end Sys2Proof.Machine
end

section
open Sys2Proof Sys2Proof.Machine

/-- Settles O25: an enable that nothing refuses is the entry to SOFTSTART, whose record starts from zero; a disable leaves the rail stopped,
or begins its stop, and the end of its intents and clauses reaches no word of a rail. -/
theorem railEnableAndDisable : Obligations.RailEnableAndDisable := by
  unfold Obligations.RailEnableAndDisable
  intro n s
  refine ⟨fun h en => onRailWrite_shut h, fun hp ho hw => ⟨?_, fun h => ?_, fun h => ⟨fun hm => ?_, fun hm => ?_⟩, fun h => ?_,
    fun h => ?_⟩⟩
  · intro hmode hs hpmap hilim hfloor hceil hhot hp6 hserv
    have he : exec (.rlnEnWrite n true) s = .next (railStart s n false) := by
      rw [← railEnable_starts hmode hs hpmap hilim hfloor hceil hhot hp6]
      exact onRailWrite_open hp ho hw
    obtain ⟨ht, hmem⟩ := railStart_starts false (by rw [hs]; decide) hserv (railPhases_ne_nil hpmap)
    exact ⟨_, he, ht.state, ht.en, ht.gen, ht.target, ht.slewing, ht.retries, hmem⟩
  · have he : exec (.rlnEnWrite n true) s = s.onRailWrite n (railEnable s n).1 := rfl
    rw [he, railEnable_refused h, onRailWrite_self]
  · have ht := railLeave_stops s n (st := rsOff) (by decide) 4 4
    exact ⟨_, (onRailWrite_open hp ho hw).trans (congrArg _ (railDisable_atOnce h hm)), ht.state, ht.en, ht.gen, ht.vref⟩
  · exact ⟨_, (onRailWrite_open hp ho hw).trans (congrArg _ (railDisable_stopping h hm)), stopBegun_shows s n⟩
  · have ht := railLeave_stops s n (st := rsOff) (by decide) 4 4
    exact ⟨_, (onRailWrite_open hp ho hw).trans (congrArg _ (railDisable_retried h)), ht.state, ht.en⟩
  · have he : exec (.rlnEnWrite n false) s = s.onRailWrite n (railDisable s n).1 := rfl
    rw [he, railDisable_idle h, onRailWrite_self]
end

section
/-! SUPPORT. The switching period, hiccup and its retries (R91–R93), and the end of a drain (R99). -/
namespace Sys2Proof.Machine

variable {s t : State} {n : Fin 32} {c : Nat}

/-! ### Fields of one word -/

theorem retries_setCount {v n : Nat} : (s.setFld RL_HSTAT_COUNT v n).fld RL_HSTAT_RETRIES n = s.fld RL_HSTAT_RETRIES n :=
  fld_setFld_apart rfl rfl

theorem hiccup_hlatch {n : Nat} : (s.event RL_EVT_HLATCH n).flag RL_EVT_HICCUP n = s.flag RL_EVT_HICCUP n :=
  flag_of_fld (fld_setFld_apart rfl rfl)

/-! ### The switching period -/

/-- The rail at the start of the next period, its hiccup count not yet moved (R90, R91). -/
def periodStarted (s : State) (n : Nat) : State :=
  startPeriod (balance s n) n ((s.rail n).start.map (· + (s.rail n).period))

/-- The start of a period changes the rail's record alone, clears its limit flag, and leaves the generator's course. -/
theorem startPeriod_eq (s : State) (n : Nat) (start : Option Nat) :
    ∃ r, startPeriod s n start = moveOffsets (s.setRail n r) n ∧ r.limited = false ∧ r.course = (s.rail n).course :=
  ⟨_, rfl, rfl, rfl⟩

theorem moveOffsets_eq (s : State) (n : Nat) :
    ∃ offs left, moveOffsets s n = s.setRail n { s.rail n with offs := offs, offLeft := left } := ⟨_, _, rfl⟩

theorem startPeriod_limited (s : State) (n : Nat) (start : Option Nat) : ((startPeriod s n start).rail n).limited = false := by
  obtain ⟨r, he, hl, -⟩ := startPeriod_eq s n start
  obtain ⟨offs, left, hm⟩ := moveOffsets_eq (s.setRail n r) n
  rw [he, hm, rail_setRail, rail_setRail]
  exact hl

/-- Balance and the start of a period touch no word of the rails and leave the generator alone. -/
theorem periodStarted_keeps {keys : List Nat} (s : State) (n : Nat) : RailsKept keys s (periodStarted s n) := by
  obtain ⟨r, he, -, hcourse⟩ := startPeriod_eq (balance s n) n ((s.rail n).start.map (· + (s.rail n).period))
  obtain ⟨offs, left, hm⟩ := moveOffsets_eq ((balance s n).setRail n r) n
  unfold periodStarted
  rw [he, hm]
  exact setRail_keepsRails rfl (setRail_keepsRails hcourse (setRail_keepsRails rfl (.refl s)))

/-- The hiccup count after a period: one more, up to 255, where it was limited, otherwise one less (R93). -/
def nextCount (s : State) (n : Nat) : Nat :=
  if periodLimited s n then min 255 (s.fld RL_HSTAT_COUNT n + 1) else s.fld RL_HSTAT_COUNT n - 1

/-- The next period with the hiccup count moved. -/
def periodCounted (s : State) (n : Nat) : State := (periodStarted s n).setFld RL_HSTAT_COUNT (nextCount s n) n

theorem nextCount_lt (s : State) (n : Nat) : nextCount s n < 2 ^ 8 := by
  have hc : s.fld RL_HSTAT_COUNT n < 2 ^ 8 := Word.bits_lt _ _ _
  unfold nextCount
  split <;> omega

theorem periodCounted_keeps (s : State) (n : Fin 32) : RailsKept (wordsOf [RL_HSTAT] n) s (periodCounted s n) :=
  setFld_keepsOthers (List.mem_singleton_self _) (periodStarted_keeps s n)

theorem periodCounted_count (s : State) (n : Nat) : (periodCounted s n).fld RL_HSTAT_COUNT n = nextCount s n :=
  fld_setFld_value rfl (nextCount_lt s n)

theorem periodCounted_retries (s : State) (n : Fin 32) : (periodCounted s n).fld RL_HSTAT_RETRIES n = s.fld RL_HSTAT_RETRIES n :=
  retries_setCount.trans ((periodStarted_keeps s n).fld (rs := []) rfl rfl)

theorem periodCounted_limited (s : State) (n : Nat) : ((periodCounted s n).rail n).limited = false :=
  (congrArg RailH.limited (rail_setFld ..)).trans (startPeriod_limited ..)

theorem switchingPeriod_eq (s : State) (n : Fin 32) :
    switchingPeriod s n = if periodLimited s n ∧ max 1 (s.fld RL_HICC_NCYC n) ≤ nextCount s n then hiccupTrip (periodCounted s n) n
      else periodCounted s n := by
  have hcount : (periodStarted s n).fld RL_HSTAT_COUNT n = s.fld RL_HSTAT_COUNT n := (periodStarted_keeps s n).fld (rs := []) rfl rfl
  have hncyc : (periodCounted s n).fld RL_HICC_NCYC n = s.fld RL_HICC_NCYC n := (periodCounted_keeps s n).fld rfl rfl
  rw [← hncyc]
  unfold periodCounted nextCount
  rw [← hcount]
  rfl

theorem exec_switchingPeriod (hp : s.powered (railDomain n) = true) (hs : railState s n = rsRegulate) :
    exec (.switchingPeriod n) s = .next (switchingPeriod s n) :=
  if_pos ⟨hp, .inr (.inl hs)⟩

/-! ### A trip -/

/-- The state that a trip in REGULATE leads to (R73, R93). -/
def tripState (s : State) (n : Nat) : Nat :=
  if s.fld RL_HICC_RETRY n = 15 ∨ s.fld RL_HSTAT_RETRIES n < s.fld RL_HICC_RETRY n then rsHiccupOff else rsLatched

theorem flag_event_same (s : State) (f : Fld) (n : Nat) (h : f.hi < 32) (hlo : f.lo ≤ f.hi) : (s.event f n).flag f n = true :=
  flag_setFlag_same s f true n h hlo

/-- A trip is reported and counted (R93, R291). -/
def tripReported (s : State) (n : Nat) : State := supCount (s.event RL_EVT_HICCUP n) n 4

theorem tripReported_shows (s : State) (n : Fin 32) :
    (tripReported s n).flag RL_EVT_HICCUP n = true ∧ railState (tripReported s n) n = railState s n := by
  have hk : RailsKept (wordsOf [] n) (s.event RL_EVT_HICCUP n) (tripReported s n) := supCount_keepsRails (.refl _)
  exact ⟨(hk.flag rfl rfl).trans (flag_event_same _ _ _ (by decide) (by decide)), (hk.fld rfl rfl).trans (fld_setFld_word rfl)⟩

/-- A rail that gives up its retries says so (R93). -/
def latchReported (s : State) (n done : Nat) : State := (s.event RL_EVT_HLATCH n).postFault (64 + n) n done 0

theorem latchReported_shows (s : State) (n done : Nat) :
    (latchReported s n done).flag RL_EVT_HICCUP n = s.flag RL_EVT_HICCUP n ∧ railState (latchReported s n done) n = railState s n := by
  have hr : (latchReported s n done).regs = (s.event RL_EVT_HLATCH n).regs := rfl
  exact ⟨(flag_congr hr _ _).trans hiccup_hlatch, (fld_congr hr _ _).trans (fld_setFld_word rfl)⟩

theorem hiccupTrip_eq (hs : railState s n = rsRegulate) : hiccupTrip s n =
    if tripState s n = rsLatched then latchReported (tripReported (railLeave s n (tripState s n) 3 3) n) n (s.fld RL_HSTAT_RETRIES n)
    else tripReported (railLeave s n (tripState s n) 3 3) n := by
  have hst : ¬ railState s n = rsStopping := by rw [hs]; decide
  have hoff : ¬ tripState s n = rsOff := by unfold tripState; split <;> decide
  have he : hiccupTrip s n =
      let next := if railState s n = rsStopping then rsOff else tripState s n
      let t := tripReported (if next = rsOff then railSafeOff s n 3 3 else railLeave s n next 3 3) n
      if next = rsLatched then latchReported t n (s.fld RL_HSTAT_RETRIES n) else t := rfl
  rw [he]
  simp only [if_neg hst, if_neg hoff]

theorem hiccupTrip_shows (hs : railState s n = rsRegulate) :
    (hiccupTrip s n).flag RL_EVT_HICCUP n = true ∧ railState (hiccupTrip s n) n = tripState s n := by
  have hlt : tripState s n < 16 := by unfold tripState; split <;> decide
  obtain ⟨hevt, hstate⟩ := tripReported_shows (railLeave s n (tripState s n) 3 3) n
  have hleft := hstate.trans (railLeave_stops s n hlt 3 3).state
  rw [hiccupTrip_eq hs]
  split
  · obtain ⟨hevt', hstate'⟩ :=
      latchReported_shows (tripReported (railLeave s n (tripState s n) 3 3) n) n (s.fld RL_HSTAT_RETRIES n)
    exact ⟨hevt'.trans hevt, hstate'.trans hleft⟩
  · exact ⟨hevt, hleft⟩

/-! ### Retries and the drain -/

theorem exec_hiccupRestart (hp : s.powered (railDomain n) = true) (hs : railState s n = rsHiccupOff) :
    exec (.hiccupRestart n) s = .next (railStart (s.countTo RL_HSTAT_RETRIES 15 n) n true) :=
  if_pos ⟨hp, hs⟩

theorem exec_retryClear (hp : s.powered (railDomain n) = true) (hs : railState s n = rsRegulate) :
    exec (.retryClear n) s = .next (s.setFld RL_HSTAT_RETRIES 0 n) :=
  if_pos ⟨hp, hs⟩

/-- The retry of a restart counts before the rail starts (R93). -/
theorem hiccupRestart_starts (hs : railState s n = rsHiccupOff) (hserv : railService s n = railPhases s n) (hne : railPhases s n ≠ []) :
    RailStarted n (s.fld RL_VSET_VSET n) (min 15 (s.fld RL_HSTAT_RETRIES n + 1)) (railStart (s.countTo RL_HSTAT_RETRIES 15 n) n true) := by
  have hk : RailsKept (wordsOf [RL_HSTAT] n) s (s.countTo RL_HSTAT_RETRIES 15 n) :=
    .ite (setFld_keepsOthers (List.mem_singleton_self _) (.refl s)) (.refl s)
  have hstate : railState (s.countTo RL_HSTAT_RETRIES 15 n) n = rsHiccupOff := (hk.fld rfl rfl).trans hs
  have hphases : railPhases (s.countTo RL_HSTAT_RETRIES 15 n) n = railPhases s n := hk.phases rfl
  have hstart := (railStart_starts (s := s.countTo RL_HSTAT_RETRIES 15 n) true (by rw [hstate]; decide)
    ((hk.service rfl rfl).trans (hserv.trans hphases.symm)) (hphases ▸ hne)).1
  rwa [if_pos rfl, (countTo_counts RL_HSTAT_RETRIES n (by decide) (by decide)).1, hk.fld rfl rfl] at hstart

theorem exec_compApply (hp : s.railPresent n = true) (ho : s.railOpen n = true) (hw : s.writesOpen = true) :
    exec (.compApply n) s = .next (s.setRail n { s.rail n with applyNext := true }) :=
  onRailWrite_open hp ho hw

/-- With no transition to carry on, a drain ends as the rail has stopped (R99). -/
theorem exec_railDrainEnd (hp : s.powered (railDomain n) = true) (hs : railState s n = rsDraining) (hx : s.mode.trans = none)
    (ho : s.mode.optRelease = []) : exec (.railDrainEnd n) s = .next (railStop s n rsOff) := by
  have hk : ModeKept s (railStop s n rsOff) := railStop_keepsMode (.refl s)
  have hopt : (railStop s n rsOff).mode.optRelease = [] := by rw [hk.2]; exact ho
  have hidle : modeProgress (railStop s n rsOff) = railStop s n rsOff := by
    unfold modeProgress
    simp [hk.trans.trans hx, hopt]
  have hend : railDrainEnd s n = railStop s n rsOff := if_pos hs
  have he : exec (.railDrainEnd n) s = s.on (railDomain n) (if railState s n = rsDraining then modeProgress (railDrainEnd s n) else s) := rfl
  rw [he, if_pos hs, hend, hidle, on_powered hp]

end Sys2Proof.Machine
end

section
open Sys2Proof Sys2Proof.Machine

/-- Settles O29: a period moves the hiccup count and no other word, and a trip at NCYC leaves the rail stopped; a restart starts it with one
more retry. -/
theorem hiccupAndDrainAct : Obligations.HiccupAndDrainAct := by
  unfold Obligations.HiccupAndDrainAct
  intro n s c hp
  refine ⟨fun hs (hc : c = nextCount s n) => ⟨fun h => ?_, fun hl htrip => ?_⟩, fun hs hserv hne => ?_, fun hs => ?_,
    fun hpr ho hw => ?_, fun hs hx ho => ?_⟩
  · have hno : ¬ (periodLimited s n = true ∧ max 1 (s.fld RL_HICC_NCYC n) ≤ nextCount s n) := by
      rintro ⟨hlim, hle⟩
      rcases h with h | h
      · rw [h] at hlim
        exact absurd hlim (by decide)
      · exact absurd (hc ▸ h) (Nat.not_lt.mpr hle)
    refine ⟨_, exec_switchingPeriod hp hs, ?_⟩
    rw [switchingPeriod_eq, if_neg hno]
    exact ⟨(periodCounted_count s n).trans hc.symm, ((periodCounted_keeps s n).fld rfl rfl).trans hs, periodCounted_limited s n⟩
  · refine ⟨_, exec_switchingPeriod hp hs, ?_⟩
    rw [switchingPeriod_eq, if_pos ⟨hl, hc ▸ htrip⟩]
    have hk := periodCounted_keeps s n
    have htripped := hiccupTrip_shows (s := periodCounted s n) (n := n) ((hk.fld rfl rfl).trans hs)
    have hretry : (periodCounted s n).fld RL_HICC_RETRY n = s.fld RL_HICC_RETRY n := hk.fld rfl rfl
    rwa [tripState, hretry, periodCounted_retries] at htripped
  · have ht := hiccupRestart_starts hs hserv hne
    exact ⟨_, exec_hiccupRestart hp hs, ht.state, ht.retries, ht.gen⟩
  · exact ⟨_, exec_retryClear hp hs, fld_setFld_value rfl (by decide), (RegsOnly.refl s _).setFld _ (List.mem_singleton_self _)⟩
  · exact ⟨_, exec_compApply hpr ho hw, rail_setRail s n _, rfl, rfl⟩
  · obtain ⟨ht, hmem⟩ := railStop_stops s n (st := rsOff) (by decide)
    exact ⟨_, exec_railDrainEnd hp hs hx ho, ht.state, ht.gen, hmem⟩
end

section
/-! SUPPORT. The phase manager's commands (R88), and the fences of phases (R94–R97). -/
namespace Sys2Proof.Machine

variable {s t : State} {n : Fin 32} {ph cause : Nat}

/-! ### A phase leaves service -/

/-- The fence of phase `ph` on record with its cause (R95). -/
def fenceKept (s : State) (ph cause : Nat) : State := { s with flt := { s.flt with phF := cellSet 0 s.flt.phF ph cause } }

theorem phInService_fenceKept (hc : cause ≠ 0) (q : Nat) : phInService (fenceKept s ph cause) q = (phInService s q && q != ph) := by
  have hl : (fenceKept s ph cause).fld PH_FXSTAT_LSTATE q = s.fld PH_FXSTAT_LSTATE q := rfl
  have hf : cellGet 0 (fenceKept s ph cause).flt.phF q = if ph = q then cause else cellGet 0 s.flt.phF q := cellGet_set ..
  unfold phInService
  rw [hl, hf]
  by_cases hq : ph = q
  · simp [hq, hc]
  · simp [hq, Ne.symm hq]

/-- What the fence shows in the rail's words (R95, R100). -/
def fenceShown (s : State) (n ph cause : Nat) : State :=
  (((s.setFld RL_FENCE_CAUSE cause n).setFld RL_FENCE_PHASE ph n).countTo RL_FENCE_COUNT 0xFFFF n).event RL_EVT_PHFENCE n

theorem fld_countTo_apart {f g : Fld} {top n : Nat} (hr : f.reg = g.reg) (h : f.apart g = true) :
    (s.countTo f top n).fld g n = s.fld g n := by
  unfold State.countTo
  split
  · exact fld_setFld_apart hr h
  · rfl

theorem fenceCause_setPhase {v n : Nat} : (s.setFld RL_FENCE_PHASE v n).fld RL_FENCE_CAUSE n = s.fld RL_FENCE_CAUSE n :=
  fld_setFld_apart rfl rfl

theorem fenceCount_setPhase {v n : Nat} : (s.setFld RL_FENCE_PHASE v n).fld RL_FENCE_COUNT n = s.fld RL_FENCE_COUNT n :=
  fld_setFld_apart rfl rfl

theorem fenceCount_setCause {v n : Nat} : (s.setFld RL_FENCE_CAUSE v n).fld RL_FENCE_COUNT n = s.fld RL_FENCE_COUNT n :=
  fld_setFld_apart rfl rfl

theorem fenceCause_count {top n : Nat} : (s.countTo RL_FENCE_COUNT top n).fld RL_FENCE_CAUSE n = s.fld RL_FENCE_CAUSE n :=
  fld_countTo_apart rfl rfl

theorem fencePhase_count {top n : Nat} : (s.countTo RL_FENCE_COUNT top n).fld RL_FENCE_PHASE n = s.fld RL_FENCE_PHASE n :=
  fld_countTo_apart rfl rfl

theorem fenceShown_shows (s : State) (n : Nat) (hp : ph < 64) (hc : cause < 8) :
    (fenceShown s n ph cause).fld RL_FENCE_CAUSE n = cause ∧ (fenceShown s n ph cause).fld RL_FENCE_PHASE n = ph
      ∧ (fenceShown s n ph cause).fld RL_FENCE_COUNT n = min 65535 (s.fld RL_FENCE_COUNT n + 1)
      ∧ (fenceShown s n ph cause).flag RL_EVT_PHFENCE n = true := by
  have hcause : ((s.setFld RL_FENCE_CAUSE cause n).setFld RL_FENCE_PHASE ph n).fld RL_FENCE_CAUSE n = cause :=
    fenceCause_setPhase.trans (fld_setFld_value rfl hc)
  have hphase : ((s.setFld RL_FENCE_CAUSE cause n).setFld RL_FENCE_PHASE ph n).fld RL_FENCE_PHASE n = ph := fld_setFld_value rfl hp
  have hcount : ((s.setFld RL_FENCE_CAUSE cause n).setFld RL_FENCE_PHASE ph n).fld RL_FENCE_COUNT n = s.fld RL_FENCE_COUNT n :=
    fenceCount_setPhase.trans fenceCount_setCause
  unfold fenceShown
  generalize (s.setFld RL_FENCE_CAUSE cause n).setFld RL_FENCE_PHASE ph n = x at *
  have hbeside : RL_EVT_PHFENCE.reg.besideWord RL_FENCE = true := rfl
  exact ⟨(fld_setFld_word (g := RL_FENCE_CAUSE) hbeside).trans (fenceCause_count.trans hcause),
    (fld_setFld_word (g := RL_FENCE_PHASE) hbeside).trans (fencePhase_count.trans hphase),
    (fld_setFld_word (g := RL_FENCE_COUNT) hbeside).trans
      ((countTo_counts RL_FENCE_COUNT n (top := 0xFFFF) (by decide) (by decide)).1.trans (by rw [hcount])),
    flag_event_same _ _ _ (by decide) (by decide)⟩

theorem fenceShown_keeps (s : State) (n : Fin 32) (ph cause : Nat) :
    RailsKept (wordsOf [RL_FENCE, RL_EVT] n) s (fenceShown s n ph cause) := by
  have hset : RailsKept (wordsOf [RL_FENCE, RL_EVT] n) s ((s.setFld RL_FENCE_CAUSE cause n).setFld RL_FENCE_PHASE ph n) :=
    setFld_keepsOthers (by simp [RL_FENCE_PHASE]) (setFld_keepsOthers (by simp [RL_FENCE_CAUSE]) (.refl s))
  exact event_keepsOthers (by simp [RL_EVT_PHFENCE]) (.ite (setFld_keepsOthers (by simp [RL_FENCE_COUNT]) hset) hset)

/-- Beside these words and the record, a fence changes what the other units hold. -/
theorem recordPhaseFence_kept {keys : List Nat} (s : State) (n ph cause : Nat) :
    RailsKept keys (fenceShown (sendCmd (fenceKept s ph cause) ph cmdFence 0) n ph cause) (recordPhaseFence s n ph cause) := by
  unfold recordPhaseFence
  extract_lets _ _ _ c _ d e
  have hc : RailsKept keys (fenceShown (sendCmd (fenceKept s ph cause) ph cmdFence 0) n ph cause) c :=
    supCount_keepsRails (s := fenceShown (sendCmd (fenceKept s ph cause) ph cmdFence 0) n ph cause) (n := n) (k := 5) (.refl _)
  have hd : RailsKept keys (fenceShown (sendCmd (fenceKept s ph cause) ph cmdFence 0) n ph cause) d := hc
  clear_value d
  have he : RailsKept keys (fenceShown (sendCmd (fenceKept s ph cause) ph cmdFence 0) n ph cause) e :=
    event_keepsRails rfl (countTo_keepsRails rfl hd)
  exact .ite (.rest he) he

/-- A phase of the rail has left service with its cause on record (R95). -/
structure PhaseFenced (n : Fin 32) (ph cause : Nat) (s t : State) : Prop where
  kept : RailsKept (wordsOf [RL_FENCE, RL_EVT] n) (fenceKept s ph cause) t
  cause : t.fld RL_FENCE_CAUSE n = cause
  phase : t.fld RL_FENCE_PHASE n = ph
  count : t.fld RL_FENCE_COUNT n = min 65535 (s.fld RL_FENCE_COUNT n + 1)
  event : t.flag RL_EVT_PHFENCE n = true

theorem recordPhaseFence_fences (s : State) (n : Fin 32) (hp : ph < 64) (hc : cause < 8) :
    PhaseFenced n ph cause s (recordPhaseFence s n ph cause) := by
  have hsent : RailsKept (wordsOf [] n) (fenceKept s ph cause) (sendCmd (fenceKept s ph cause) ph cmdFence 0) := sendCmd_keepsRails (.refl _)
  have hcount : (sendCmd (fenceKept s ph cause) ph cmdFence 0).fld RL_FENCE_COUNT n = s.fld RL_FENCE_COUNT n := hsent.fld rfl rfl
  have hrec : RailsKept (wordsOf [] n) _ _ := recordPhaseFence_kept s n ph cause
  obtain ⟨hcause, hphase, hcnt, hevt⟩ := fenceShown_shows (sendCmd (fenceKept s ph cause) ph cmdFence 0) n hp hc
  exact ⟨((sendCmd_keepsRails (.refl _)).trans (fenceShown_keeps _ n ph cause)).trans (recordPhaseFence_kept s n ph cause),
    (hrec.fld rfl rfl).trans hcause, (hrec.fld rfl rfl).trans hphase,
    (hrec.fld rfl rfl).trans (hcount ▸ hcnt), (hrec.flag rfl rfl).trans hevt⟩

theorem PhaseFenced.state (h : PhaseFenced n ph cause s t) : railState t n = railState s n := h.kept.fld rfl rfl

theorem PhaseFenced.record (h : PhaseFenced n ph cause s t) : cellGet 0 t.flt.phF ph = cause := by
  rw [h.kept.2.2.1]
  exact cellGet_set_same ..

theorem PhaseFenced.service (h : PhaseFenced n ph cause s t) (hc : cause ≠ 0) : railService t n = (railService s n).filter (· != ph) := by
  rw [h.kept.service rfl rfl]
  have hp : railPhases (fenceKept s ph cause) n = railPhases s n := rfl
  unfold railService
  rw [hp, List.filter_filter]
  exact List.filter_congr fun q _ => by rw [phInService_fenceKept hc, Bool.and_comm]

theorem PhaseFenced.outOfService (h : PhaseFenced n ph cause s t) (hc : cause ≠ 0) : phInService t ph = false := by
  simp [phInService, h.record, hc]

/-- One of two phases in service remains. -/
theorem PhaseFenced.nsvc_ne_zero (h : PhaseFenced n ph cause s t) (hc : cause ≠ 0) (h2 : 2 ≤ railNsvc s n) : railNsvc t n ≠ 0 := by
  intro h0
  have hnil : (railService s n).filter (· != ph) = [] := h.service hc ▸ List.length_eq_zero_iff.mp h0
  have hsub : railService s n ⊆ [ph] := fun q hq => by
    have := List.filter_eq_nil_iff.mp hnil q hq
    simpa using this
  have hle := (((railPhases_nodup s n).filter _).subperm hsub).length_le
  exact absurd h2 (by unfold railNsvc; simp only [List.length_singleton] at hle; exact Nat.not_le.mpr (Nat.lt_succ_of_le hle))

/-! ### The command -/

theorem mem_of_railOfPhase {m : Nat} (h : railOfPhase s ph = some m) : (railPhases s m).contains ph = true :=
  List.find?_some (p := fun n => (railPhases s n).contains ph) h

theorem exec_phaseFence {ph : Fin 64} {cause : Fin 6} (h : railOfPhase s ph = some n.val) :
    exec (.phaseFence ph cause) s = .next (if s.powered (railDomain n) && fenceHolds s n ph cause then
      (if cause = 5 then linkVerFence s n ph else phaseFence s n ph cause) else s) := by
  have he : exec (.phaseFence ph cause) s = execPhaseFence ph cause s := rfl
  rw [he, execPhaseFence, h]

/-- A fenced phase leaves the rail running with the phases that remain (R95). -/
def fenceSettled (s : State) (n ph cause : Nat) : State :=
  let s := recordPhaseFence s n ph cause
  s.setRail n { s.rail n with managed := min (s.rail n).managed (railNsvc s n) }

theorem phaseFence_settles (hs : railState s n = rsRegulate) (hin : phInService s ph = true) (hmap : (railPhases s n).contains ph = true)
    (hleft : railNsvc (recordPhaseFence s n ph cause) n ≠ 0) : phaseFence s n ph cause = fenceSettled s n ph cause := by
  have hno : ¬ ((railState s n = rsOff ∨ railState s n = rsLatched ∨ railState s n = rsFenced) ∨ (!phInService s ph) = true
      ∨ (!(railPhases s n).contains ph) = true) := by
    rw [hs, hin, hmap]
    decide
  exact (if_neg hno).trans (if_neg hleft)

theorem linkVerFence_settles (hs : railState s n = rsRegulate) (hin : phInService s ph = true) (hmap : (railPhases s n).contains ph = true)
    (hrate : s.flag RL_STAT_RATE n = false) (hleft : railNsvc (recordPhaseFence s n ph 5) n ≠ 0) :
    linkVerFence s n ph = fenceSettled s n ph 5 := by
  have hno : ¬ (railState s n = rsOff ∨ s.flag RL_STAT_RATE n = true ∨ (!(railPhases s n).contains ph) = true
      ∨ cellGet 0 s.flt.phF ph = 5) := by
    rw [hs, hmap, hrate, (phInService_iff.mp hin).1]
    decide
  exact (if_neg hno).trans (if_neg fun h => hleft h.2.1)

theorem fenceHolds_cause {cause : Fin 6} (h : fenceHolds s n ph cause = true) : cause.val ≠ 0 := by
  intro h0
  rw [h0] at h
  exact absurd h Bool.false_ne_true

theorem exec_phaseFence_settles {ph : Fin 64} {cause : Fin 6} (hp : s.powered (railDomain n) = true) (hr : railOfPhase s ph = some n.val)
    (hh : fenceHolds s n ph cause = true) (hs : railState s n = rsRegulate) (hin : phInService s ph = true) (h2 : 2 ≤ railNsvc s n) :
    exec (.phaseFence ph cause) s = .next (fenceSettled s n ph cause) := by
  have hmap := mem_of_railOfPhase hr
  have hleft := (recordPhaseFence_fences s n ph.isLt (cause := cause) (by omega)).nsvc_ne_zero (fenceHolds_cause hh) h2
  rw [exec_phaseFence hr, if_pos (by rw [hp, hh]; rfl)]
  split
  next h5 =>
    subst h5
    have hrate : s.flag RL_STAT_RATE n = false := by
      have hboth : (!s.flag RL_STAT_RATE n && s.fld PH_FXSTAT_VER ph == 1) = true := hh
      simp only [Bool.and_eq_true, Bool.not_eq_true'] at hboth
      exact hboth.1
    exact congrArg _ (linkVerFence_settles hs hin hmap hrate hleft)
  next => exact congrArg _ (phaseFence_settles hs hin hmap hleft)

/-! ### Fences return -/

theorem sendCmd_links (s : State) (l code arg : Nat) : ∃ x, sendCmd s l code arg = { s with links := x } := by
  unfold sendCmd queueCmd
  split
  · split
    · exact ⟨_, rfl⟩
    · exact ⟨s.links, rfl⟩
  · exact ⟨s.links, rfl⟩

/-- The recorded fence of the phase returns (R97). -/
def unfencePhase (s : State) (x : Nat × Nat) : State :=
  if cellGet 0 s.flt.phF x.1 = 0 then s
  else sendCmd { s with flt := { s.flt with phF := cellErase s.flt.phF x.1 } } x.1 cmdUnfence 0

theorem unfencePhase_frame (s : State) (x : Nat × Nat) : (unfencePhase s x).regs = s.regs ∧ (unfencePhase s x).mem = s.mem := by
  unfold unfencePhase
  split
  · exact ⟨rfl, rfl⟩
  · obtain ⟨y, hy⟩ := sendCmd_links { s with flt := { s.flt with phF := cellErase s.flt.phF x.1 } } x.1 cmdUnfence 0
    rw [hy]
    exact ⟨rfl, rfl⟩

theorem unfencePhase_phF (s : State) (x : Nat × Nat) (q : Nat) :
    cellGet 0 (unfencePhase s x).flt.phF q = if x.1 = q then 0 else cellGet 0 s.flt.phF q := by
  unfold unfencePhase
  split
  next h0 => split <;> simp_all
  next =>
    obtain ⟨y, hy⟩ := sendCmd_links { s with flt := { s.flt with phF := cellErase s.flt.phF x.1 } } x.1 cmdUnfence 0
    rw [hy]
    exact cellGet_erase ..

theorem railUnfence_off (hs : railState s n = rsOff) (mask : Word) :
    (railUnfence s n mask).1 = ((railPhases s n).zipIdx.filter (fun x => Word.bit mask x.2)).foldl unfencePhase s := by
  unfold railUnfence
  rw [if_neg (not_not.mpr hs)]
  rfl

theorem railUnfence_refused (hs : railState s n ≠ rsOff) (mask : Word) : (railUnfence s n mask).1 = s := by
  unfold railUnfence
  rw [if_pos hs]

theorem unfencePhases_frame (s : State) (l : List (Nat × Nat)) :
    (l.foldl unfencePhase s).regs = s.regs ∧ (l.foldl unfencePhase s).mem = s.mem :=
  List.foldlRecOn (motive := fun t => t.regs = s.regs ∧ t.mem = s.mem) l _ ⟨rfl, rfl⟩ fun t ht x _ =>
    ⟨(unfencePhase_frame t x).1.trans ht.1, (unfencePhase_frame t x).2.trans ht.2⟩

theorem unfencePhases_returns (s : State) {l : List (Nat × Nat)} {x : Nat × Nat} (hx : x ∈ l) :
    cellGet 0 (l.foldl unfencePhase s).flt.phF x.1 = 0 :=
  foldl_reaches (P := fun t => cellGet 0 t.flt.phF x.1 = 0) hx (fun t => by rw [unfencePhase_phF, if_pos rfl])
    (fun t y ht => by rw [unfencePhase_phF, ht, ite_self]) s

/-! ### The phase manager -/

/-- The phase manager moves the rail's record and reports it, and does nothing else (R88). -/
theorem reported_shows (s : State) (n : Nat) (r : RailH) (f : Fld) (h : f.hi < 32) (hlo : f.lo ≤ f.hi) :
    ((s.setRail n r).event f n).flag f n = true ∧ ((s.setRail n r).event f n).rail n = r
      ∧ SameRegs s ((s.setRail n r).event f n) [f.reg.addr n] ∧ ((s.setRail n r).event f n).mem = s.mem :=
  ⟨flag_event_same _ f n h hlo, rail_setRail s n r, SameRegs.setFld (s.setRail n r) f 1 n, rfl⟩

theorem exec_phaseAdd {top want : Nat} (hp : s.powered (railDomain n) = true) (hr : railRuns s n = true)
    (hth : s.fld RL_PHTH_ADDTH n ≠ 0) (hdly : s.fld RL_PHDLY_ADDDLY n * 50 ≤ (s.rail n).addNs) (hns : (s.rail n).addNs ≠ 0)
    (htop : top = min (s.fld RL_PHBND_PHCEIL n) (railNsvc s n))
    (hwant : want = max ((s.rail n).managed + 1) (ceilDiv (s.sfld RL_IRAIL_IRAIL n).toNat (s.fld RL_PHTH_ADDTH n * 10)))
    (hlt : (s.rail n).managed < min want top) :
    exec (.phaseAdd n) s = .next ((s.setRail n { s.rail n with managed := min want top, addNs := 0 }).event RL_EVT_PHADD n) := by
  subst htop hwant
  exact if_pos ⟨hp, hr, hth, hdly, hns, hlt⟩

theorem exec_phaseShed (hp : s.powered (railDomain n) = true) (hr : railRuns s n = true) (hth : s.fld RL_PHTH_ADDTH n ≠ 0)
    (hdly : s.fld RL_PHDLY_SHEDDLY n * 1000 ≤ (s.rail n).shedNs) (hns : (s.rail n).shedNs ≠ 0)
    (hlt : s.fld RL_PHBND_PHFLOOR n < (s.rail n).managed) :
    exec (.phaseShed n) s
      = .next ((s.setRail n { s.rail n with managed := (s.rail n).managed - 1, shedNs := 0 }).event RL_EVT_PHSHED n) :=
  if_pos ⟨hp, hr, hth, hdly, hns, hlt⟩

end Sys2Proof.Machine
end

section
open Sys2Proof Sys2Proof.Machine

/-- Settles O28: the phase manager moves its record and reports it; the fence of one of two phases in service leaves the rail running, its
record and words being those of the fence; UNFENCE in OFF takes every phase of the mask out of the fences and touches no register. -/
theorem phaseCommandsAct : Obligations.PhaseCommandsAct := by
  unfold Obligations.PhaseCommandsAct
  intro n ph cause mask s hp
  refine ⟨fun top want hr hth hdly hns htop hwant hlt => ?_, fun hr hth hdly hns hlt => ?_, fun hr hh => ?_, fun hr hh hs hin h2 => ?_,
    fun hpr ho hw hs => ?_, fun _ hs => ?_⟩
  · exact ⟨_, exec_phaseAdd hp hr hth hdly hns htop hwant hlt, reported_shows s n _ RL_EVT_PHADD (by decide) (by decide)⟩
  · exact ⟨_, exec_phaseShed hp hr hth hdly hns hlt, reported_shows s n _ RL_EVT_PHSHED (by decide) (by decide)⟩
  · rw [exec_phaseFence hr, hh, Bool.and_false, if_neg Bool.false_ne_true]
  · have hc := fenceHolds_cause hh
    have hf := recordPhaseFence_fences s n ph.isLt (cause := cause) (by omega)
    exact ⟨_, exec_phaseFence_settles hp hr hh hs hin h2, hf.record, hf.cause, hf.phase, hf.count, hf.event, hf.outOfService hc,
      hf.state.trans hs, (congrArg RailH.managed (rail_setRail _ n _)).trans_le (min_le_right _ _)⟩
  · obtain ⟨hregs, hmem⟩ := unfencePhases_frame s ((railPhases s n).zipIdx.filter (fun x => Word.bit mask x.2))
    exact ⟨_, (onRailWrite_open hpr ho hw).trans (congrArg _ (railUnfence_off hs mask)),
      fun p hmem' hbit => unfencePhases_returns s (List.mem_filter.mpr ⟨hmem', hbit⟩), hregs, hmem⟩
  · have he : exec (.rlnUnfence n mask) s = s.onRailWrite n (railUnfence s n mask).1 := rfl
    rw [he, railUnfence_refused hs, onRailWrite_self]
end

section
/-! SUPPORT. A write of RLn_VSET by a master (R84): from the master's port to the rail's target. -/
namespace Sys2Proof.Machine

variable {s t : State} {n : Fin 32} {v : Word} {m : Nat}

/-- The address of RLn_VSET. -/
def vsetAddr (n : Nat) : Nat := 0x1002 + 0x80 * n

/-! ### The word -/

theorem regAt_vset (n : Fin 32) : regAt rlRegs (vsetAddr n) = some (RL_VSET, n.val) := by
  fin_cases n <;> rfl

theorem locate_vset (hp : s.railPresent n = true) (m : Nat) : locate s m (vsetAddr n) = some (.reg RL_VSET n) := by
  have hlo : 0x1000 ≤ vsetAddr n := by unfold vsetAddr; omega
  have hhi : vsetAddr n < 0x2000 := by unfold vsetAddr; omega
  have hblock : blockRegs (vsetAddr n) = rlRegs := by
    unfold blockRegs
    iterate 12 rw [if_neg (by omega)]
    rw [if_pos hhi]
  have hinst : instanceOf s m (vsetAddr n) RL_VSET n = n := by
    unfold instanceOf
    rw [if_neg (by decide), if_neg (by omega), if_neg (by omega)]
  have hpres : wordPresent s (vsetAddr n) n = true := by
    unfold wordPresent
    iterate 6 rw [if_neg (by omega)]
    rwa [if_pos ⟨hlo, hhi⟩]
  unfold locate locateReg
  rw [if_pos (by omega), if_neg (by omega), if_neg (by omega), if_neg (by omega), hblock, regAt_vset]
  simp only [hinst, hpres, if_true]

theorem regWrite_vset (s : State) (m : Nat) (n : Fin 32) (v : Word) :
    regWrite s m (vsetAddr n) RL_VSET n v = railSetTarget s n v.toNat 0 m := by
  have hhi : vsetAddr n < 0x2000 := by unfold vsetAddr; omega
  have hn : (vsetAddr n - 0x1000) / 0x80 = n.val := by unfold vsetAddr; omega
  have hoff : vsetAddr n % 0x80 = 2 := by unfold vsetAddr; omega
  have hlo : 0x1000 ≤ vsetAddr n := by unfold vsetAddr; omega
  unfold regWrite
  iterate 13 rw [if_neg (by omega)]
  rw [if_pos hhi, hn, hoff]
  rfl

/-! ### The write -/

/-- The outcome of a write of a pair whose target has answered `x` to master `m`. -/
def pairOutcome (m a : Nat) (x : State × Status) : State × Status := if x.2 = .ok then (pairWritten x.1 m a, .ok) else x

theorem writeLoc_vset (s : State) (m : Nat) (n : Fin 32) (v : Word) :
    writeLoc s m (vsetAddr n) (.reg RL_VSET n) v = pairOutcome m (vsetAddr n) (railSetTarget s n v.toNat 0 m) := by
  have hpair : (Loc.reg RL_VSET n).paired = true := rfl
  unfold writeLoc pairOutcome
  simp only [regWrite_vset, hpair, and_true]

theorem locOpen_vset (hp : s.railPresent n = true) (h : wordOpen s m (vsetAddr n) = true) :
    locOpen s (vsetAddr n) (.reg RL_VSET n) = true := by
  unfold wordOpen at h
  rwa [locate_vset hp] at h

/-- A target is taken, or refused for the bound that it passes (R78). -/
theorem railSetTarget_status (s : State) (n v rate m : Nat) : (railSetTarget s n v rate m).2 = .ok
    ∨ (railSetTarget s n v rate m).2 = .outofrange ∨ (railSetTarget s n v rate m).2 = .outofbound := by
  unfold railSetTarget
  dsimp only
  split
  · exact .inr (.inl rfl)
  · split
    · exact .inr (.inr rfl)
    · refine .inl ?_
      split
      · split
        · rfl
        · split <;> rfl
      · rfl

/-- A new state of the master's side: the status of an engine's write that its target refused goes back to the engine. -/
def vsetAnswered (m a : Nat) (x : State × Status) : State :=
  if x.2 = .ok then pairWritten x.1 m a else if m < 48 then postStatus x.1 m x.2 0 a else x.1

theorem stxStatus_pairOutcome {a : Nat} {x : State × Status} (hm : m < 48) (hx : x.2 = .ok ∨ x.2 = .outofrange ∨ x.2 = .outofbound) :
    stxStatus (pairOutcome m a x).1 m a (pairOutcome m a x).2 = vsetAnswered m a x := by
  unfold pairOutcome vsetAnswered
  obtain ⟨t, st⟩ := x
  rcases hx with rfl | rfl | rfl
  · rfl
  · exact (if_pos hm).symm
  · exact (if_pos hm).symm

/-- An engine's write of RLn_VSET reaches the rail (R168). -/
theorem writeBy_vset_engine (hp : s.railPresent n = true) (hm : m < 48) (hw : EngineWrites s m (vsetAddr n) v) :
    writeBy m (vsetAddr n) (.pair v (~~~v)) s = .next (vsetAnswered m (vsetAddr n) (railSetTarget s n v.toNat 0 m)) := by
  obtain ⟨heng, hdom, hright, hdel, hopen⟩ := hw
  have hrun : engState s m ≠ esFenced := fun h => by simp [stxAllowed, h] at hright
  have hsoft : hardMaster m = false := hardMaster_outside (.inl (by unfold masterAntic; omega))
  have hdeliver : stxDeliver s m (vsetAddr n) v = pairOutcome m (vsetAddr n) (railSetTarget s n v.toNat 0 m) := by
    simp [stxDeliver, hdel, writeWord, locate_vset hp, locOpen_vset hp hopen, writeLoc_vset]
  have hform : formWrite s m (vsetAddr n) (.pair v (~~~v)) = vsetAnswered m (vsetAddr n) (railSetTarget s n v.toNat 0 m) := by
    simp [formWrite, answered, hsoft, masterWrite, hm, hright, hdeliver, stxStatus_pairOutcome hm (railSetTarget_status ..)]
  have hhost : ¬ (masterHost 0 ≤ m ∧ m ≤ masterHost 2) := by unfold masterHost; omega
  simp [writeBy, hhost, hm, hrun, State.onEng, heng, hdom, hform]

/-- A host port's write of RLn_VSET reaches the rail, and the port keeps the address (R335, R401). -/
theorem writeBy_vset_host (hp : s.railPresent n = true) (hm : 48 ≤ m) (hm' : m < 51) (hw : HostWrites s (m - 48) (vsetAddr n)) :
    writeBy m (vsetAddr n) (.pair v (~~~v)) s
      = .next (vsetAnswered m (vsetAddr n) (railSetTarget (hostAsked s (m - 48) (vsetAddr n)) n v.toNat 0 m)) := by
  obtain ⟨h7, hfree, hhold, hopen, hright, hplinth⟩ := hw
  have hself : masterHost (m - 48) = m := by unfold masterHost; omega
  rw [hself] at hopen
  have hsoft : hardMaster m = false := hardMaster_outside (.inl (by unfold masterAntic; omega))
  have hports : ¬ (m - 48 ≠ 0 ∧ (vsetAddr n = 0x80 ∨ vsetAddr n = 0x81)) := by unfold vsetAddr; omega
  have hpair : (Loc.reg RL_VSET n).paired = true := rfl
  have hst := railSetTarget_status (hostAsked s (m - 48) (vsetAddr n)) n v.toNat 0 m
  have hwrite : (hostWrite s (m - 48) (vsetAddr n) v true).1
      = vsetAnswered m (vsetAddr n) (railSetTarget (hostAsked s (m - 48) (vsetAddr n)) n v.toNat 0 m) := by
    have hhold' : (hostAsked s (m - 48) (vsetAddr n)).flag SYS_BOOTSTAT_OTPHOLD = false := hhold
    have hloc : locate (hostAsked s (m - 48) (vsetAddr n)) m (vsetAddr n) = some (.reg RL_VSET n) := locate_vset hp m
    have hopen' : locOpen (hostAsked s (m - 48) (vsetAddr n)) (vsetAddr n) (.reg RL_VSET n) = true := locOpen_vset hp hopen
    have hright' : hostRight (hostAsked s (m - 48) (vsetAddr n)) (m - 48) (vsetAddr n) = true := hright
    have hplinth' : plinthDenies (hostAsked s (m - 48) (vsetAddr n)) (vsetAddr n) = false := hplinth
    have hfine : ¬ ((pairOutcome m (vsetAddr n) (railSetTarget (hostAsked s (m - 48) (vsetAddr n)) n v.toNat 0 m)).2 = .violation
        ∨ (pairOutcome m (vsetAddr n) (railSetTarget (hostAsked s (m - 48) (vsetAddr n)) n v.toNat 0 m)).2 = .keyerr) := by
      unfold pairOutcome
      rcases hst with h | h | h <;> simp [h]
    have hkept : (pairOutcome m (vsetAddr n) (railSetTarget (hostAsked s (m - 48) (vsetAddr n)) n v.toNat 0 m)).1
        = vsetAnswered m (vsetAddr n) (railSetTarget (hostAsked s (m - 48) (vsetAddr n)) n v.toNat 0 m) := by
      unfold pairOutcome vsetAnswered
      rw [if_neg (Nat.not_lt.mpr hm)]
      split <;> rfl
    unfold hostWrite
    simp only [hself, hhold', hloc, hopen', hright', hports, hpair, hplinth', writeLoc_vset]
    simp [hfine, hkept]
  have hform : formWrite s m (vsetAddr n) (.pair v (~~~v))
      = vsetAnswered m (vsetAddr n) (railSetTarget (hostAsked s (m - 48) (vsetAddr n)) n v.toNat 0 m) := by
    have hle : m ≤ masterHost 2 := by unfold masterHost; omega
    rw [← hwrite]
    simp [formWrite, answered, hsoft, masterWrite, hle, Nat.not_lt.mpr hm]
  have hhost : masterHost 0 ≤ m ∧ m ≤ masterHost 2 := by unfold masterHost; omega
  simp [writeBy, hhost, State.on, h7, hfree, hform]

end Sys2Proof.Machine
end

section
/-! SUPPORT. A rail takes a target (R78, R83, R84). -/
namespace Sys2Proof.Machine

variable {s t : State} {n : Fin 32} {v m : Nat} {l : List Nat}

theorem setFld_sameRegs {f : Fld} {k i : Nat} (hf : f.reg.addr i ∈ l) (h : SameRegs s t l) : SameRegs s (t.setFld f k i) l :=
  h.trans ((SameRegs.setFld t f k i).mono fun _ hx => List.mem_singleton.mp hx ▸ hf)

/-! ### Fields of one word -/

theorem superseded_setSupmst {k n : Nat} : ((s.setFld RL_VSTAT_SUPMST k n).event RL_EVT_SUPERSEDED n).fld RL_VSTAT_SUPMST n
    = (s.setFld RL_VSTAT_SUPMST k n).fld RL_VSTAT_SUPMST n :=
  fld_setFld_word rfl

theorem state_setVset {k n : Nat} : (s.setFld RL_VSET_VSET k n).fld RL_STAT_STATE n = s.fld RL_STAT_STATE n := fld_setFld_word rfl

theorem state_slewdone {n : Nat} : (s.event RL_EVT_SLEWDONE n).fld RL_STAT_STATE n = s.fld RL_STAT_STATE n := fld_setFld_word rfl

theorem vset_setSlewing {b : Bool} {n : Nat} : (s.setFlag RL_STAT_SLEWING b n).fld RL_VSET_VSET n = s.fld RL_VSET_VSET n :=
  fld_setFld_word rfl

theorem vset_slewdone {n : Nat} : (s.event RL_EVT_SLEWDONE n).fld RL_VSET_VSET n = s.fld RL_VSET_VSET n := fld_setFld_word rfl

/-! ### The target -/

/-- A target within the bounds of the rail (R78). -/
def InBounds (s : State) (n v : Nat) : Prop := v ≤ railMax s n ∧ s.fld RL_VFLOOR_VFLOOR n ≤ v ∧ v ≤ s.fld RL_VCEIL_VCEIL n

theorem railSetTarget_refused {rate : Nat} (h : railMax s n < v ∨ v < s.fld RL_VFLOOR_VFLOOR n ∨ s.fld RL_VCEIL_VCEIL n < v) :
    railSetTarget s n v rate m = (s, if railMax s n < v then .outofrange else .outofbound) := by
  unfold railSetTarget
  by_cases hmax : railMax s n < v
  · simp [hmax]
  · simp [hmax, h.resolve_left hmax]

/-- The rail's record once master `m` has begun a move in direction `up` to target `v` (R83). -/
def movedRecord (s : State) (n v m : Nat) (up : Bool) : RailH :=
  { s.rail n with target := v, rate := 0, issuer := m, move := some (moveRate s n 0 up, up) }

/-- A new target supersedes the move in progress and begins its own (R83, R84). -/
def targetMoved (s : State) (n v m : Nat) : State :=
  ((supersede s n).setFld RL_VSET_VSET v n).setRail n (movedRecord s n v m (decide ((s.rail n).gen < v * 1024)))

theorem targetMoved_rail (s : State) (n v m : Nat) :
    (targetMoved s n v m).rail n = movedRecord s n v m (decide ((s.rail n).gen < v * 1024)) :=
  rail_setRail _ n _

/-- The rate of a move stands in RLn_SLEW, which the target leaves alone. -/
theorem moveRate_superseded (s : State) (n : Fin 32) (v rate : Nat) (up : Bool) :
    moveRate ((supersede s n).setFld RL_VSET_VSET v n) n rate up = moveRate s n rate up := by
  have hk : RailsKept (wordsOf [RL_VSTAT, RL_EVT, RL_VSET] n) s ((supersede s n).setFld RL_VSET_VSET v n) :=
    setFld_keepsOthers (by simp [RL_VSET_VSET])
      (.ite (event_keepsOthers (by simp [RL_EVT_SUPERSEDED]) (setFld_keepsOthers (by simp [RL_VSTAT_SUPMST]) (.refl s))) (.refl s))
  have hup : ((supersede s n).setFld RL_VSET_VSET v n).fld RL_SLEW_UP n = s.fld RL_SLEW_UP n := hk.fld rfl rfl
  have hdown : ((supersede s n).setFld RL_VSET_VSET v n).fld RL_SLEW_DOWN n = s.fld RL_SLEW_DOWN n := hk.fld rfl rfl
  unfold moveRate
  rw [hup, hdown]

/-- A target within the bounds: in SOFTSTART and REGULATE one that is the rail's already changes RLn_VSET alone, another begins a move or
has arrived; in the other states it is RLn_VSET alone (R83). -/
theorem railSetTarget_eq (h : InBounds s n v) : railSetTarget s n v 0 m =
    (if railState s n = rsSoftstart ∨ railState s n = rsRegulate then
      if (s.rail n).target = v ∧ (!s.flag RL_STAT_SLEWING n
          ∨ moveNow s n (decide ((s.rail n).gen < v * 1024)) = moveRate s n 0 (decide ((s.rail n).gen < v * 1024)))
      then s.setFld RL_VSET_VSET v n
      else if (s.rail n).gen = v * 1024 ∧ railState s n = rsRegulate then
        ((targetMoved s n v m).setFlag RL_STAT_SLEWING false n).event RL_EVT_SLEWDONE n
      else (targetMoved s n v m).setFlag RL_STAT_SLEWING true n
    else (s.setFld RL_VSET_VSET v n).setRail n { s.rail n with issuer := m }, .ok) := by
  obtain ⟨hmax, hfloor, hceil⟩ := h
  have hbound : ¬ (v < s.fld RL_VFLOOR_VFLOOR n ∨ s.fld RL_VCEIL_VCEIL n < v) := by omega
  unfold railSetTarget targetMoved movedRecord
  simp only [if_neg (Nat.not_lt.mpr hmax), if_neg hbound, moveRate_superseded]
  split
  · split
    · rfl
    · split <;> rfl
  · rfl

/-! ### What it changes -/

/-- A target `v` has been taken: RLn_VSET shows it, and the words of the rail's state, events and status alone may have changed beside it. -/
structure TargetTaken (n : Fin 32) (v : Nat) (s t : State) : Prop where
  vset : t.fld RL_VSET_VSET n = v
  state : railState t n = railState s n
  mem : t.mem = s.mem
  same : SameRegs s t [RL_VSET.addr n, RL_STAT.addr n, RL_EVT.addr n, RL_VSTAT.addr n]

theorem TargetTaken.of_setVset {u : State} (hv : v < 2 ^ 32) (hstate : railState u n = railState s n) (hmem : u.mem = s.mem)
    (hsame : SameRegs s u [RL_VSET.addr n, RL_STAT.addr n, RL_EVT.addr n, RL_VSTAT.addr n]) :
    TargetTaken n v s (u.setFld RL_VSET_VSET v n) where
  vset := fld_setFld_value rfl hv
  state := state_setVset.trans hstate
  mem := hmem
  same := setFld_sameRegs (by simp [RL_VSET_VSET]) hsame

theorem TargetTaken.setRail (h : TargetTaken n v s t) (r : RailH) : TargetTaken n v s (t.setRail n r) :=
  ⟨h.vset, h.state, h.mem, h.same⟩

theorem supersede_sameRegs (s : State) (n : Nat) :
    SameRegs s (supersede s n) [RL_VSET.addr n, RL_STAT.addr n, RL_EVT.addr n, RL_VSTAT.addr n] := by
  unfold supersede
  split
  · exact setFld_sameRegs (by simp [RL_EVT_SUPERSEDED]) (setFld_sameRegs (by simp [RL_VSTAT_SUPMST]) (.refl s _))
  · exact .refl s _

theorem targetMoved_taken (s : State) (n : Fin 32) (m : Nat) (hv : v < 2 ^ 32) : TargetTaken n v s (targetMoved s n v m) := by
  unfold targetMoved
  have hk := supersede_keeps s n
  exact (TargetTaken.of_setVset hv (hk.fld rfl rfl) hk.mem (supersede_sameRegs s n)).setRail _

theorem TargetTaken.setSlewing (h : TargetTaken n v s t) (b : Bool) : TargetTaken n v s (t.setFlag RL_STAT_SLEWING b n) where
  vset := vset_setSlewing.trans h.vset
  state := state_setSlewing.trans h.state
  mem := h.mem
  same := setFld_sameRegs (by simp [RL_STAT_SLEWING]) h.same

theorem TargetTaken.slewdone (h : TargetTaken n v s t) : TargetTaken n v s (t.event RL_EVT_SLEWDONE n) where
  vset := vset_slewdone.trans h.vset
  state := state_slewdone.trans h.state
  mem := h.mem
  same := setFld_sameRegs (by simp [RL_EVT_SLEWDONE]) h.same

theorem railSetTarget_takes (h : InBounds s n v) (hv : v < 2 ^ 32) : TargetTaken n v s (railSetTarget s n v 0 m).1 := by
  rw [railSetTarget_eq h]
  dsimp only
  split
  · split
    · exact .of_setVset hv rfl rfl (.refl s _)
    · split
      · exact ((targetMoved_taken s n m hv).setSlewing false).slewdone
      · exact (targetMoved_taken s n m hv).setSlewing true
  · exact (TargetTaken.of_setVset hv rfl rfl (.refl s _)).setRail _

/-! ### A move begins -/

theorem railSetTarget_moves (h : InBounds s n v) (hs : railState s n = rsSoftstart ∨ railState s n = rsRegulate)
    (htarget : (s.rail n).target ≠ v) (hgen : (s.rail n).gen ≠ v * 1024) :
    (railSetTarget s n v 0 m).1 = (targetMoved s n v m).setFlag RL_STAT_SLEWING true n := by
  rw [railSetTarget_eq h, if_pos hs, if_neg fun h => htarget h.1, if_neg fun h => hgen h.1]

theorem railSetTarget_waits (h : InBounds s n v) (hs : railState s n ≠ rsSoftstart) (hr : railState s n ≠ rsRegulate) :
    (railSetTarget s n v 0 m).1 = (s.setFld RL_VSET_VSET v n).setRail n { s.rail n with issuer := m } := by
  rw [railSetTarget_eq h, if_neg (not_or.mpr ⟨hs, hr⟩)]

theorem supersede_reports {n : Nat} (hs : s.flag RL_STAT_SLEWING n = true) (hi : (s.rail n).issuer < 256) :
    (supersede s n).flag RL_EVT_SUPERSEDED n = true ∧ (supersede s n).fld RL_VSTAT_SUPMST n = (s.rail n).issuer := by
  unfold supersede
  rw [if_pos hs]
  exact ⟨flag_event_same _ _ _ (by decide) (by decide), superseded_setSupmst.trans (fld_setFld_value rfl hi)⟩

theorem supersede_idle {n : Nat} (hs : s.flag RL_STAT_SLEWING n = false) : supersede s n = s := by
  unfold supersede
  rw [hs, if_neg Bool.false_ne_true]

/-- The target leaves the words that report a superseded move. -/
theorem targetMoved_reg (s : State) (n : Fin 32) (v m : Nat) {r : Reg} (h : RL_VSET.besideWord r = true) :
    (targetMoved s n v m).reg r n = (supersede s n).reg r n :=
  reg_setFld_ne (s := supersede s n) (f := RL_VSET_VSET) v (Reg.besideWord_addr h n)

theorem moveBegun_reg (s : State) (n : Fin 32) (v m : Nat) {r : Reg} (hv : RL_VSET.besideWord r = true) (hs : RL_STAT.besideWord r = true) :
    ((targetMoved s n v m).setFlag RL_STAT_SLEWING true n).reg r n = (supersede s n).reg r n :=
  (reg_setFld_ne (f := RL_STAT_SLEWING) _ _ (Reg.besideWord_addr hs n)).trans (targetMoved_reg s n v m hv)

/-- What a move that begins shows (R83, R84). -/
structure MoveBegun (n : Fin 32) (v m : Nat) (s t : State) : Prop where
  slewing : t.flag RL_STAT_SLEWING n = true
  rail : ∀ up, up = decide ((s.rail n).gen < v * 1024) → t.rail n = movedRecord s n v m up
  superseded : s.flag RL_STAT_SLEWING n = true → (s.rail n).issuer < 256 → t.flag RL_EVT_SUPERSEDED n = true
    ∧ t.fld RL_VSTAT_SUPMST n = (s.rail n).issuer
  first : s.flag RL_STAT_SLEWING n = false → t.reg RL_EVT n = s.reg RL_EVT n

theorem moveBegun_shows (s : State) (n : Fin 32) (v m : Nat) :
    MoveBegun n v m s ((targetMoved s n v m).setFlag RL_STAT_SLEWING true n) where
  slewing := flag_setFlag_same _ _ _ _ (by decide) (by decide)
  rail := by
    rintro _ rfl
    exact (rail_setFlag ..).trans (targetMoved_rail s n v m)
  superseded hs hi := by
    obtain ⟨hevt, hmst⟩ := supersede_reports hs hi
    exact ⟨(flag_of_fld (fld_of_reg (moveBegun_reg s n v m rfl rfl))).trans hevt, (fld_of_reg (moveBegun_reg s n v m rfl rfl)).trans hmst⟩
  first hs := (moveBegun_reg s n v m rfl rfl).trans (by rw [supersede_idle hs])

end Sys2Proof.Machine
end

section
/-! SUPPORT. The outcome of a write of RLn_VSET (R84). -/
namespace Sys2Proof.Machine

variable {s : State} {n : Fin 32} {v : Word} {m : Fin 51}

theorem exec_vsetWrite (hp : s.railPresent n = true) (hw : MasterWrites s m (vsetAddr n) v) :
    exec (.vsetWrite m n v) s
      = .next (vsetAnswered m (vsetAddr n) (railSetTarget (askedBy s m (vsetAddr n)) n v.toNat 0 m)) := by
  have he : exec (.vsetWrite m n v) s = writeBy m (vsetAddr n) (.pair v (~~~v)) s := rfl
  rw [he]
  unfold MasterWrites at hw
  unfold askedBy
  by_cases hm : m.val < 48
  · rw [if_pos hm] at hw
    rw [if_neg (by omega), writeBy_vset_engine hp hm hw]
  · rw [if_neg hm, if_pos m.isLt] at hw
    rw [if_pos ⟨Nat.le_of_not_lt hm, m.isLt⟩, writeBy_vset_host hp (Nat.le_of_not_lt hm) m.isLt hw]

theorem askedBy_hosts (s : State) (m a : Nat) : ∃ h, askedBy s m a = { s with hosts := h } := by
  unfold askedBy
  split
  · exact ⟨_, rfl⟩
  · exact ⟨s.hosts, rfl⟩

/-- A target that is taken: beside the rail, the write touches what a port keeps of its requests, and what stands of a mismatch. -/
theorem exec_vsetWrite_taken (hp : s.railPresent n = true) (hw : MasterWrites s m (vsetAddr n) v) (hin : InBounds s n v.toNat) :
    ∃ h p f c, exec (.vsetWrite m n v) s
      = .next { (railSetTarget { s with hosts := h } n v.toNat 0 m).1 with pairs := p, flt := f, chk := c } := by
  obtain ⟨h, hh⟩ := askedBy_hosts s m (vsetAddr n)
  have hok : (railSetTarget { s with hosts := h } n v.toNat 0 m).2 = .ok := by rw [railSetTarget_eq (s := { s with hosts := h }) hin]
  obtain ⟨p, f, c, hpair⟩ := pairWritten_parts (railSetTarget { s with hosts := h } n v.toNat 0 m).1 m (vsetAddr n)
  refine ⟨h, p, f, c, ?_⟩
  rw [exec_vsetWrite hp hw, hh, vsetAnswered, if_pos hok, hpair]

theorem exec_vsetWrite_refused (hp : s.railPresent n = true) (hw : MasterWrites s m (vsetAddr n) v) {st : Status}
    (hst : st = if railMax s n < v.toNat then .outofrange else .outofbound)
    (h : railMax s n < v.toNat ∨ v.toNat < s.fld RL_VFLOOR_VFLOOR n ∨ s.fld RL_VCEIL_VCEIL n < v.toNat) :
    exec (.vsetWrite m n v) s = .next (if m < 48 then postStatus s m st 0 (vsetAddr n) else hostAsked s (m - 48) (vsetAddr n)) := by
  obtain ⟨x, hx⟩ := askedBy_hosts s m (vsetAddr n)
  have hno : railSetTarget (askedBy s m (vsetAddr n)) n v.toNat 0 m = (askedBy s m (vsetAddr n), st) := by
    rw [hx, hst]
    exact railSetTarget_refused (s := { s with hosts := x }) h
  have hnok : st ≠ .ok := by
    rw [hst]
    split <;> decide
  rw [exec_vsetWrite hp hw, hno, vsetAnswered, if_neg hnok]
  unfold askedBy
  by_cases hm : m.val < 48
  · have hlt : m < 48 := hm
    rw [if_pos hm, if_pos hlt, if_neg (by omega)]
  · have hge : ¬ m < 48 := hm
    rw [if_neg hm, if_neg hge, if_pos ⟨Nat.le_of_not_lt hm, m.isLt⟩]

end Sys2Proof.Machine
end

section
open Sys2Proof Sys2Proof.Machine

/-- Settles O26: the master's write reaches the rail's target, whose answer outside the bounds is a status alone; within them the branches of
the target are a move that begins, one that has arrived, and RLn_VSET alone. -/
theorem targetsAreCheckedAndTaken : Obligations.TargetsAreCheckedAndTaken := by
  unfold Obligations.TargetsAreCheckedAndTaken
  intro m n v s hp hw
  refine ⟨fun st hst h => exec_vsetWrite_refused hp hw hst h, fun hmax hfloor hceil => ?_⟩
  obtain ⟨h, p, f, c, he⟩ := exec_vsetWrite_taken hp hw ⟨hmax, hfloor, hceil⟩
  have hin : InBounds { s with hosts := h } n v.toNat := ⟨hmax, hfloor, hceil⟩
  refine ⟨?_, fun hs htarget hgen => ?_, fun hs hr => ?_⟩
  · have ht := railSetTarget_takes (m := m) hin v.isLt
    exact ⟨_, he, ht.vset, ht.state, ht.mem, ht.same⟩
  · rw [railSetTarget_moves (s := { s with hosts := h }) hin hs htarget hgen] at he
    have hb := moveBegun_shows { s with hosts := h } n v.toNat m
    exact ⟨_, he, hb.slewing, hb.rail, hb.superseded, hb.first⟩
  · rw [railSetTarget_waits (s := { s with hosts := h }) hin hs hr] at he
    exact ⟨_, he, rail_setRail (s.setFld RL_VSET_VSET v.toNat n) n _, SameRegs.setFld s RL_VSET_VSET v.toNat n⟩
end

section
/-! SUPPORT. A loop update (R77, R79): what goes before and after the step of the slew generator leaves its course alone. -/
namespace Sys2Proof.Machine

variable {keys keys' : List Nat} {rs : List Reg} {s0 s t u : State} {n : Fin 32}

theorem RailsKept.mono (h : RailsKept keys s t) (hk : ∀ k ∈ keys, k ∈ keys') : RailsKept keys' s t :=
  ⟨fun k hl hh hno => h.1 k hl hh fun hm => hno (hk k hm), h.2⟩

theorem RailsKept.wider {rs' : List Reg} (h : RailsKept (wordsOf rs n) s t) (hk : ∀ r ∈ rs, r ∈ rs') : RailsKept (wordsOf rs' n) s t :=
  h.mono fun _ hm => by
    obtain ⟨r, hr, rfl⟩ := List.mem_map.mp hm
    exact List.mem_map_of_mem (hk r hr)

theorem setSfld_keepsOthers {f : Fld} {v : Int} (hf : f.reg ∈ rs) (h : RailsKept (wordsOf rs n) s0 s) :
    RailsKept (wordsOf rs n) s0 (s.setSfld f v n) :=
  setFld_keepsOthers hf h

theorem rate_setRail {n : Nat} {r : RailH} (h : r.rate = (s.rail n).rate) : ((s.setRail n r).rail n).rate = (s.rail n).rate :=
  (congrArg RailH.rate (rail_setRail s n r)).trans h

/-! ### Before the generator -/

/-- The samples of a frame change the loop's own record of the rail, and its words of error and current. -/
theorem frameInputs_keeps (s : State) (n : Fin 32) (diffs : List Int) :
    RailsKept (wordsOf [RL_EVT, RL_ERR, RL_IRAIL] n) s (frameInputs s n diffs).1
      ∧ ((frameInputs s n diffs).1.rail n).rate = (s.rail n).rate := by
  unfold frameInputs
  extract_lets irail r hist codes sum e nact carried a b c
  have ha : RailsKept (wordsOf [RL_EVT, RL_ERR, RL_IRAIL] n) s a ∧ (a.rail n).rate = (s.rail n).rate :=
    ⟨setRail_keepsRails rfl (.refl s), rate_setRail rfl⟩
  clear_value a
  have hb : RailsKept (wordsOf [RL_EVT, RL_ERR, RL_IRAIL] n) s b ∧ (b.rail n).rate = (s.rail n).rate := by
    simp only [b]
    split
    · exact ⟨event_keepsOthers (by simp [RL_EVT_OVRANGE]) ha.1, ha.2⟩
    · exact ha
  clear_value b
  have hc : RailsKept (wordsOf [RL_EVT, RL_ERR, RL_IRAIL] n) s c ∧ (c.rail n).rate = (s.rail n).rate := by
    simp only [c]
    split
    · exact ⟨setSfld_keepsOthers (by simp [RL_ERR_CODE]) (setFld_keepsOthers (by simp [RL_ERR_OR]) hb.1), hb.2⟩
    · exact hb
  clear_value c
  exact ⟨setSfld_keepsOthers (by simp [RL_IRAIL_IRAIL]) hc.1, hc.2⟩

theorem compTake_keeps (s : State) (n : Fin 32) : RailsKept (wordsOf [RL_COMP3] n) s (compTake s n) :=
  setFld_keepsOthers (by simp [RL_COMP3_PEND]) (setRail_keepsRails rfl (.refl s))

theorem compTake_rate (s : State) (n : Nat) : ((compTake s n).rail n).rate = (s.rail n).rate :=
  (congrArg RailH.rate (rail_setFlag ..)).trans (rate_setRail rfl)

/-- The rail as the generator of a loop update finds it: the frame's samples taken, and the shadow set where APPLY asked for it. -/
def loopTaken (s : State) (n : Nat) (diffs : List Int) : State :=
  let u := (frameInputs s n diffs).1
  if (u.rail n).applyNext then compTake u n else u

theorem loopTaken_keeps (s : State) (n : Fin 32) (diffs : List Int) :
    RailsKept (wordsOf [RL_EVT, RL_ERR, RL_IRAIL, RL_COMP3] n) s (loopTaken s n diffs)
      ∧ ((loopTaken s n diffs).rail n).rate = (s.rail n).rate := by
  obtain ⟨hk, hrate⟩ := frameInputs_keeps s n diffs
  have hwide : RailsKept (wordsOf [RL_EVT, RL_ERR, RL_IRAIL, RL_COMP3] n) s (frameInputs s n diffs).1 :=
    hk.wider (by simp +contextual)
  unfold loopTaken
  dsimp only
  generalize (frameInputs s n diffs).1 = u at *
  split
  · exact ⟨hwide.trans ((compTake_keeps u n).wider (by simp)), (compTake_rate u n).trans hrate⟩
  · exact ⟨hwide, hrate⟩

/-! ### After the generator -/

theorem toCore_keepsRails {x} (h : RailsKept keys s0 s) : RailsKept keys s0 (toCore s x).1 :=
  .iteFst h (.iteFst h (.iteFst h (setLevel_keepsRails (setFbit_keepsRails rfl h))))

theorem telSample_keepsRails {k i v b} (h : RailsKept keys s0 s) : RailsKept keys s0 (telSample s k i v b) := .ite h h

theorem telRail_keepsRails {n irail} (h : RailsKept keys s0 s) : RailsKept keys s0 (telRail s n irail) := by
  unfold telRail
  extract_lets v subj _ a
  have ha : RailsKept keys s0 a := setRail_keepsRails rfl h
  clear_value a
  split
  next hx =>
  have hb := (toCore_keepsRails ha).of_eq hx
  refine .ite hb (.foldl ?_ fun t l ht => ?_)
  · exact telSample_keepsRails (telSample_keepsRails (telSample_keepsRails hb))
  · exact telSample_keepsRails (telSample_keepsRails (telSample_keepsRails ht))

theorem updateTerms_keepsRails {n im} (h : RailsKept keys s0 s) : RailsKept keys s0 (updateTerms s n im) := by
  unfold updateTerms
  extract_lets r up down ns arming fresh cs cl a b c
  have ha : RailsKept keys s0 a := setRail_keepsRails rfl h
  clear_value a
  have hb : RailsKept keys s0 b := .foldl ha fun t x ht => by
    have hib : RailsKept keys s0 (if x.applied && x.phase == .subj && !x.second then t.setSfld IP_BASE_IB x.ib x.port else t) :=
      .ite (setFld_keepsRails rfl ht) ht
    refine .ite (setFlag_keepsRails ?_ hib) hib
    split <;> rfl
  clear_value b
  exact freeSlots_keepsRails (.foldl hb fun t x ht => .ite (confirmIntent_keepsRails ht) ht)

end Sys2Proof.Machine
end

section
/-! SUPPORT. The step of the slew generator of a rail in REGULATE (R83). -/
namespace Sys2Proof.Machine

variable {s t u : State} {n : Fin 32}

/-- The target held within the bounds, in the generator's unit of 2^-10 µV. -/
def genGoal (s : State) (n : Nat) : Nat := max (s.fld RL_VFLOOR_VFLOOR n) (min (railCeil s n) (s.rail n).target) * 1024

/-- The direction of the step. -/
def genUp (s : State) (n : Nat) : Bool := decide ((s.rail n).gen < genGoal s n)

/-- The generator's output after the step. -/
def genNext (s : State) (n : Nat) : Nat :=
  (moveToward (s.rail n).gen (genGoal s n) (slewStep (moveNow s n (genUp s n)) (loopNs s n))).toNat

theorem moveToward_toNat (v t step : Nat) :
    (moveToward v t step).toNat = if v < t then min t (v + step) else max t (v - step) := by
  unfold moveToward
  split <;> split <;> omega

/-- The rail with its generator moved. -/
def genMoved (s : State) (n : Nat) : State :=
  s.setRail n { s.rail n with gen := genNext s n,
                              move := if genNext s n = genGoal s n then none else some (moveNow s n (genUp s n), genUp s n) }

theorem stepGenerator_eq (hs : railState s n = rsRegulate) : stepGenerator s n =
    if genNext s n = genGoal s n ∧ s.flag RL_STAT_SLEWING n then ((genMoved s n).setFlag RL_STAT_SLEWING false n).event RL_EVT_SLEWDONE n
    else if genNext s n ≠ genGoal s n then (genMoved s n).setFlag RL_STAT_SLEWING true n
    else genMoved s n := by
  have hstop : ¬ railState s n = rsStopping := by rw [hs]; decide
  have hsoft : ¬ railState s n = rsSoftstart := by rw [hs]; decide
  unfold stepGenerator
  simp only [if_neg hstop, if_neg hsoft]
  rfl

/-- The generator of `s` has made its step, and `t` shows it. -/
structure GeneratorStepped (n : Fin 32) (s t : State) : Prop where
  gen : (t.rail n).gen = genNext s n
  move : genNext s n ≠ genGoal s n → (t.rail n).move = some (moveNow s n (genUp s n), genUp s n)
  state : railState t n = railState s n
  alone : t.fld RL_TRACK_MODE n = s.fld RL_TRACK_MODE n
  slewing : genNext s n ≠ genGoal s n → t.flag RL_STAT_SLEWING n = true
  arrived : genNext s n = genGoal s n → s.flag RL_STAT_SLEWING n = true →
    t.flag RL_STAT_SLEWING n = false ∧ t.flag RL_EVT_SLEWDONE n = true

theorem track_setSlewing {b : Bool} {n : Nat} : (s.setFlag RL_STAT_SLEWING b n).fld RL_TRACK_MODE n = s.fld RL_TRACK_MODE n :=
  fld_setFld_word rfl

theorem track_slewdone {n : Nat} : (s.event RL_EVT_SLEWDONE n).fld RL_TRACK_MODE n = s.fld RL_TRACK_MODE n := fld_setFld_word rfl

theorem slewing_slewdone {n : Nat} : (s.event RL_EVT_SLEWDONE n).flag RL_STAT_SLEWING n = s.flag RL_STAT_SLEWING n :=
  flag_of_fld (fld_setFld_word rfl)

theorem genMoved_gen (s : State) (n : Nat) : ((genMoved s n).rail n).gen = genNext s n := congrArg RailH.gen (rail_setRail s n _)

theorem genMoved_move {n : Nat} (h : genNext s n ≠ genGoal s n) :
    ((genMoved s n).rail n).move = some (moveNow s n (genUp s n), genUp s n) :=
  (congrArg RailH.move (rail_setRail s n _)).trans (if_neg h)

theorem stepGenerator_steps (hs : railState s n = rsRegulate) : GeneratorStepped n s (stepGenerator s n) := by
  have hgen := genMoved_gen s n
  have hmove := fun h => genMoved_move (s := s) (n := n) h
  have hstate : railState (genMoved s n) n = railState s n := rfl
  have halone : (genMoved s n).fld RL_TRACK_MODE n = s.fld RL_TRACK_MODE n := rfl
  have hslewing : (genMoved s n).flag RL_STAT_SLEWING n = s.flag RL_STAT_SLEWING n := rfl
  rw [stepGenerator_eq hs]
  generalize genMoved s n = m at *
  split
  next h =>
    refine ⟨hgen, fun hne => absurd h.1 hne, state_slewdone.trans (state_setSlewing.trans hstate),
      track_slewdone.trans (track_setSlewing.trans halone),
      fun hne => absurd h.1 hne, fun _ _ => ⟨?_, flag_event_same _ _ _ (by decide) (by decide)⟩⟩
    exact slewing_slewdone.trans (flag_setFlag_same _ _ _ _ (by decide) (by decide))
  next h =>
    split
    next hne =>
      exact ⟨hgen, hmove, state_setSlewing.trans hstate, track_setSlewing.trans halone,
        fun _ => flag_setFlag_same _ _ _ _ (by decide) (by decide), fun he => absurd he hne⟩
    next he =>
      exact ⟨hgen, hmove, hstate, halone, fun hne => absurd hne he, fun h1 h2 => absurd ⟨h1, h2⟩ h⟩

/-! ### The step does not depend on what the loop update takes -/

/-- What the step rests on stands in `u` as in `s`. -/
structure StepKept (n : Fin 32) (s u : State) : Prop where
  kept : RailsKept (wordsOf [RL_EVT, RL_ERR, RL_IRAIL, RL_COMP3] n) s u
  rate : (u.rail n).rate = (s.rail n).rate

theorem StepKept.state (h : StepKept n s u) : railState u n = railState s n := h.kept.fld rfl rfl

theorem StepKept.slewing (h : StepKept n s u) : u.flag RL_STAT_SLEWING n = s.flag RL_STAT_SLEWING n := h.kept.flag rfl rfl

theorem StepKept.alone (h : StepKept n s u) : u.fld RL_TRACK_MODE n = s.fld RL_TRACK_MODE n := h.kept.fld rfl rfl

theorem StepKept.goal (h : StepKept n s u) : genGoal u n = genGoal s n := by
  have hfloor : u.fld RL_VFLOOR_VFLOOR n = s.fld RL_VFLOOR_VFLOOR n := h.kept.fld rfl rfl
  have hceil : u.fld RL_VCEIL_VCEIL n = s.fld RL_VCEIL_VCEIL n := h.kept.fld rfl rfl
  have hdiv : u.fld RL_CTRL_DIV n = s.fld RL_CTRL_DIV n := h.kept.fld rfl rfl
  unfold genGoal railCeil railMax railRatio
  rw [hfloor, hceil, hdiv, h.kept.target n]

theorem StepKept.up (h : StepKept n s u) : genUp u n = genUp s n := by
  unfold genUp
  rw [h.goal, h.kept.gen n]

theorem StepKept.moveNow (h : StepKept n s u) (up : Bool) : moveNow u n up = moveNow s n up := by
  have hup : u.fld RL_SLEW_UP n = s.fld RL_SLEW_UP n := h.kept.fld rfl rfl
  have hdown : u.fld RL_SLEW_DOWN n = s.fld RL_SLEW_DOWN n := h.kept.fld rfl rfl
  unfold Machine.moveNow moveRate
  rw [h.kept.move n, h.rate, hup, hdown]

theorem StepKept.next (h : StepKept n s u) : genNext u n = genNext s n := by
  have hrate : u.flag RL_STAT_RATE n = s.flag RL_STAT_RATE n := h.kept.flag rfl rfl
  unfold genNext loopNs
  rw [h.moveNow, h.up, h.goal, hrate, h.kept.gen n]

theorem GeneratorStepped.of_kept (h : GeneratorStepped n u t) (hk : StepKept n s u) : GeneratorStepped n s t where
  gen := h.gen.trans hk.next
  move hne := by
    rw [h.move (by rwa [hk.next, hk.goal]), hk.moveNow, hk.up]
  state := h.state.trans hk.state
  alone := h.alone.trans hk.alone
  slewing hne := h.slewing (by rwa [hk.next, hk.goal])
  arrived he hs := h.arrived (by rwa [hk.next, hk.goal]) (hk.slewing.trans hs)

end Sys2Proof.Machine
end

section
/-! SUPPORT. A loop update of a rail that tracks no leader shows the generator's step (R77, R79). -/
namespace Sys2Proof.Machine

variable {s t u : State} {n : Fin 32}

/-- The words of the rail but its duty, input voltage and live terms stand, and so do its generator's course and SLEWDONE. -/
structure RefKept (n : Fin 32) (s t : State) : Prop where
  kept : RailsKept (wordsOf [RL_DUTY, RL_VIN, RL_PBLIVE, RL_FFLIVE, RL_EVT] n) s t
  done : t.flag RL_EVT_SLEWDONE n = s.flag RL_EVT_SLEWDONE n

theorem RefKept.of_rails (h : RailsKept (wordsOf [RL_DUTY, RL_VIN, RL_PBLIVE, RL_FFLIVE] n) s t) : RefKept n s t :=
  ⟨h.wider (by simp +contextual), h.flag rfl rfl⟩

theorem RefKept.trans (h1 : RefKept n s t) (h2 : RefKept n t u) : RefKept n s u := ⟨h1.kept.trans h2.kept, h2.done.trans h1.done⟩

theorem slewdone_phadd {n : Nat} : (s.event RL_EVT_PHADD n).flag RL_EVT_SLEWDONE n = s.flag RL_EVT_SLEWDONE n :=
  flag_of_fld (fld_setFld_apart rfl rfl)

theorem slewdone_phshed {n : Nat} : (s.event RL_EVT_PHSHED n).flag RL_EVT_SLEWDONE n = s.flag RL_EVT_SLEWDONE n :=
  flag_of_fld (fld_setFld_apart rfl rfl)

/-- The phase manager reports a phase added or shed, and leaves the generator and its events. -/
theorem managePhases_keeps (s : State) (n : Fin 32) (irail : Int) : RefKept n s (managePhases s n irail) := by
  unfold managePhases
  extract_lets r ns addth m add shed above was a
  have ha : RefKept n s a := ⟨setRail_keepsRails rfl (.refl s), rfl⟩
  clear_value a
  split
  · exact ha.trans ⟨event_keepsOthers (by simp [RL_EVT_PHADD]) (.refl a), slewdone_phadd⟩
  · split
    · exact ha.trans ⟨event_keepsOthers (by simp [RL_EVT_PHSHED]) (.refl a), slewdone_phshed⟩
    · exact ha

/-- Without a leader the indicative reference is the generator's output (R77). -/
theorem indicative_alone (h : s.fld RL_TRACK_MODE n = 0) : indicative s n = (s, (s.rail n).gen) := by
  unfold indicative
  exact if_pos (.inl h)

/-- The generator's step with the reference that RLn_VREF shows of it. -/
def refShown (s : State) (n : Nat) (diffs : List Int) : State :=
  let u := stepGenerator (loopTaken s n diffs) n
  u.setFld RL_VREF_VREF ((u.rail n).gen / 1024) n

/-- The compensator's state is no part of the generator's course. -/
theorem compensate_keepsRails {keys : List Nat} {s0 : State} {n : Nat} {e eff vin ff dmin dmax dLast q eff' : Int} {vset gen : Option Nat}
    {dac : Nat} (h : RailsKept keys s0 s) :
    RailsKept keys s0 (s.setRail n { (compensate (s.rail n) e eff vin ff dmin dmax dLast q).1 with
      eff := eff', vsetAt := vset, genAt := gen, dac := dac }) :=
  setRail_keepsRails rfl h

/-- Compensation, telemetry and the phase manager follow, and leave the reference as it is. -/
theorem loopUpdate_keeps (s : State) (n : Fin 32) (diffs : List Int) (hs : railState (refShown s n diffs) n = rsRegulate)
    (halone : (stepGenerator (loopTaken s n diffs) n).fld RL_TRACK_MODE n = 0) :
    RefKept n (refShown s n diffs) (loopUpdate s n diffs) := by
  unfold refShown at hs ⊢
  unfold loopUpdate
  rcases hf : frameInputs s n diffs with ⟨u, irail, e⟩
  have ht : (if (u.rail n).applyNext then compTake u n else u) = loopTaken s n diffs := by
    unfold loopTaken
    rw [hf]
  dsimp -zeta only
  rw [ht]
  extract_lets g taken g' terms lo hi eff conf pinned vin loop words told managed last
  have hx : indicative g' n = (g', (g'.rail n).gen) := indicative_alone halone
  have hterms : RailsKept (wordsOf [RL_DUTY, RL_VIN, RL_PBLIVE, RL_FFLIVE] n) (g.setFld RL_VREF_VREF ((g.rail n).gen / 1024) n) terms := by
    simp only [terms, hx]
    exact updateTerms_keepsRails (.refl _)
  replace hs : railState (g.setFld RL_VREF_VREF ((g.rail n).gen / 1024) n) n = rsRegulate := hs
  generalize g.setFld RL_VREF_VREF ((g.rail n).gen / 1024) n = shown at *
  have hpinned : RailsKept (wordsOf [RL_DUTY, RL_VIN, RL_PBLIVE, RL_FFLIVE] n) shown pinned := pinCount_keepsRails hterms
  clear_value pinned
  have hfree : RailsKept (wordsOf [RL_DUTY, RL_VIN, RL_PBLIVE, RL_FFLIVE] n) shown (if vin = 0 then pinned.free else (0, pinned)).2 := by
    split
    · exact hpinned
    · exact hpinned
  have hloop : RailsKept (wordsOf [RL_DUTY, RL_VIN, RL_PBLIVE, RL_FFLIVE] n) shown loop := compensate_keepsRails hfree
  clear_value loop
  have hwords : RailsKept (wordsOf [RL_DUTY, RL_VIN, RL_PBLIVE, RL_FFLIVE] n) shown words :=
    setSfld_keepsOthers (by simp [RL_PBLIVE_PBLIVE]) (setFld_keepsOthers (by simp [RL_VIN_VIN])
      (setSfld_keepsOthers (by simp [RL_DUTY_D]) hloop))
  clear_value words
  have htold : RailsKept (wordsOf [RL_DUTY, RL_VIN, RL_PBLIVE, RL_FFLIVE] n) shown told :=
    telRail_keepsRails (setSfld_keepsOthers (by simp [RL_FFLIVE_FFLIVE]) hwords)
  clear_value told
  have hmanaged : RefKept n shown managed := (RefKept.of_rails htold).trans (managePhases_keeps told n irail)
  clear_value managed
  have hlast : RefKept n shown last := hmanaged.trans (.of_rails (pinCount_keepsRails (.refl managed)))
  have hstate : railState last n = rsRegulate := (hlast.kept.fld rfl rfl).trans hs
  have hgoes : ¬ (railState last n = rsStopping ∧ (indicative g' n).2 = 0) := by
    rw [hstate]
    exact fun h => absurd h.1 (by decide)
  rw [if_neg hgoes]
  exact hlast

/-! ### The update -/

theorem exec_loopUpdate (diffs : List Int) (hpr : s.railPresent n = true) (hp : s.powered (railDomain n) = true)
    (hadc : s.powered 6 = true) (hs : railState s n = rsRegulate) :
    exec (.loopUpdate n diffs) s = .next (loopUpdate s n (if crossingShut s (112 + n) then [] else diffs)) := by
  have he : exec (.loopUpdate n diffs) s = execLoopUpdate n diffs s := rfl
  rw [he, execLoopUpdate]
  simp [hp, hpr, hadc, hs]

/-- A loop update shows the generator's step in RLn_VREF and in the words of the rail's state and events. -/
theorem loopUpdate_steps (s : State) (n : Fin 32) (diffs : List Int) (hs : railState s n = rsRegulate)
    (halone : s.fld RL_TRACK_MODE n = 0) (hwide : genNext s n < 2 ^ 42) :
    GeneratorStepped n s (loopUpdate s n diffs) ∧ (loopUpdate s n diffs).fld RL_VREF_VREF n = genNext s n / 1024 := by
  obtain ⟨hkept, hrate⟩ := loopTaken_keeps s n diffs
  have hk : StepKept n s (loopTaken s n diffs) := ⟨hkept, hrate⟩
  have hg : GeneratorStepped n s (stepGenerator (loopTaken s n diffs) n) := (stepGenerator_steps (hk.state.trans hs)).of_kept hk
  have hw : RailsKept (wordsOf [RL_VREF] n) (stepGenerator (loopTaken s n diffs) n) (refShown s n diffs) :=
    setFld_keepsOthers (by simp [RL_VREF_VREF]) (.refl _)
  have hvref : (refShown s n diffs).fld RL_VREF_VREF n = genNext s n / 1024 := by
    have hfits : genNext s n / 1024 < 2 ^ 32 := by omega
    rw [← hg.gen] at hfits ⊢
    exact fld_setFld_value rfl hfits
  have hstate : railState (refShown s n diffs) n = railState s n := (hw.fld rfl rfl).trans hg.state
  have hl := loopUpdate_keeps s n diffs (hstate.trans hs) (hg.alone.trans halone)
  generalize loopUpdate s n diffs = t at *
  generalize refShown s n diffs = u at *
  have hslew : t.flag RL_STAT_SLEWING n = u.flag RL_STAT_SLEWING n := hl.kept.flag rfl rfl
  have hslew' : u.flag RL_STAT_SLEWING n = (stepGenerator (loopTaken s n diffs) n).flag RL_STAT_SLEWING n := hw.flag rfl rfl
  have hdone : u.flag RL_EVT_SLEWDONE n = (stepGenerator (loopTaken s n diffs) n).flag RL_EVT_SLEWDONE n := hw.flag rfl rfl
  have hmode : u.fld RL_TRACK_MODE n = (stepGenerator (loopTaken s n diffs) n).fld RL_TRACK_MODE n := hw.fld rfl rfl
  exact ⟨{ gen := (hl.kept.gen n).trans ((hw.gen n).trans hg.gen)
           move := fun hne => (hl.kept.move n).trans ((hw.move n).trans (hg.move hne))
           state := (hl.kept.fld rfl rfl).trans hstate
           alone := (hl.kept.fld rfl rfl).trans (hmode.trans hg.alone)
           slewing := fun hne => hslew.trans (hslew'.trans (hg.slewing hne))
           arrived := fun he hs' => ⟨hslew.trans (hslew'.trans (hg.arrived he hs').1),
                                   hl.done.trans (hdone.trans (hg.arrived he hs').2)⟩ },
    (hl.kept.fld rfl rfl).trans hvref⟩

end Sys2Proof.Machine
end

section
open Sys2Proof Sys2Proof.Machine

/-- Settles O27: the step is that of the slew generator, whose course and words the rest of the loop update leaves alone. -/
theorem theGeneratorMovesAtItsRate : Obligations.TheGeneratorMovesAtItsRate := by
  unfold Obligations.TheGeneratorMovesAtItsRate
  intro n diffs s hpr hp hadc hs halone goal hgoal up hup fresh hfresh rate hrate step hstep gen hgen hwide
  have hg : genGoal s n = goal := by rw [hgoal, genGoal, Nat.mul_comm]
  have hu : genUp s n = up := by rw [hup, genUp, hg]
  have hr : moveNow s n up = rate := by rw [hrate, hfresh]; rfl
  have hx : genNext s n = gen := by
    rw [hgen, genNext, moveToward_toNat, hg, hu, hr, hstep]
    rfl
  obtain ⟨ht, hvref⟩ := loopUpdate_steps s n (if crossingShut s (112 + n) then [] else diffs) hs halone (hx ▸ hwide)
  subst hg hu hr hx
  exact ⟨_, exec_loopUpdate diffs hpr hp hadc hs, ht.gen, hvref, ht.move, ht.state.trans hs, ht.slewing, ht.arrived⟩
end

section
/-! SUPPORT. What the fence of a phase (R95) or the trip of a module (R254) sets in motion in the other units leaves the words of the links
alone, and with them each link's count of bad frames and its drain. -/
namespace Sys2Proof.Machine

/-- What a link keeps of its own through a change elsewhere: its consecutive bad frames (R115) and its drain (R125). -/
def LinkH.course (h : LinkH) : Nat × Nat := (h.bads, h.draining)

/-- The words of the links, but for those under the keys listed, are those of `s`, and so is the course of every link. The words stand at
0x2000 to 0x2FFF, those of the bridges' links that many times 0x10000 above. -/
def LinksPart (keys : List Nat) (s : State) (regs : List (Nat × Word)) (links : List (Nat × LinkH)) : Prop :=
  (∀ k, k % 0x10000 / 0x1000 = 2 → k ∉ keys → cellGet 0 regs k = cellGet 0 s.regs k)
    ∧ ∀ l, (cellGet {} links l).course = (s.link l).course

/-- State `t` has kept them. -/
def LinksKept (keys : List Nat) (s t : State) : Prop := LinksPart keys s t.regs t.links

variable {keys : List Nat} {s0 s t u : State}

theorem LinksKept.refl (s : State) : LinksKept keys s s := ⟨fun _ _ _ => rfl, fun _ => rfl⟩

theorem LinksKept.mono {keys' : List Nat} (h : LinksKept keys s t) (hk : ∀ k ∈ keys, k ∈ keys') : LinksKept keys' s t :=
  ⟨fun k hl hm => h.1 k hl fun hx => hm (hk k hx), h.2⟩

theorem LinksKept.ite {c : Prop} [Decidable c] (hs : LinksKept keys s0 s) (ht : LinksKept keys s0 t) :
    LinksKept keys s0 (if c then s else t) := by
  split <;> assumption

theorem LinksKept.iteFst {α : Type} {c : Prop} [Decidable c] {x y : State × α} (hx : LinksKept keys s0 x.1) (hy : LinksKept keys s0 y.1) :
    LinksKept keys s0 (if c then x else y).1 := by
  split <;> assumption

theorem LinksKept.foldl {α : Type} {f : State → α → State} {l : List α} (hs : LinksKept keys s0 s)
    (hf : ∀ t x, LinksKept keys s0 t → LinksKept keys s0 (f t x)) : LinksKept keys s0 (l.foldl f s) :=
  List.foldlRecOn l f hs fun t ht x _ => hf t x ht

theorem LinksKept.foldlFst {α β : Type} {f : State × β → α → State × β} {l : List α} {x : State × β}
    (hx : LinksKept keys s0 x.1) (hf : ∀ y a, LinksKept keys s0 y.1 → LinksKept keys s0 (f y a).1) : LinksKept keys s0 (l.foldl f x).1 :=
  List.foldlRecOn l f (motive := fun y => LinksKept keys s0 y.1) hx fun y hy a _ => hf y a hy

theorem LinksKept.of_eq {α : Type} {x : State × α} {a : α} (hx : LinksKept keys s0 x.1) (he : x = (s, a)) : LinksKept keys s0 s := by
  rw [he] at hx; exact hx

/-- The other parts of the state do not matter. -/
theorem LinksKept.rest {part pairs mem lines tbase freeCtr armq armSeq mode bud groups ports rails engs progs pmap sigs pat flt sup pins lx boot
    chg thm chk otp wds wdStart hosts intc tap pending} (h : LinksKept keys s0 s) :
    LinksKept keys s0 ⟨part, s.regs, pairs, mem, lines, tbase, freeCtr, armq, armSeq, mode, bud, groups, ports, rails, engs, progs, pmap,
      sigs, pat, flt, sup, pins, s.links, lx, boot, chg, thm, chk, otp, wds, wdStart, hosts, intc, tap, pending⟩ := h

/-- An intermediate state that has kept them, from which the state goes on. -/
theorem LinksKept.via (hf : LinksKept keys s0 t → LinksKept keys s0 s) (ht : LinksKept keys s0 t) : LinksKept keys s0 s := hf ht

/-- The words of register `r` lie apart from those of the links. -/
def Reg.offLinks (r : Reg) : Bool :=
  Nat.blt (r.base + r.stride * (r.count - 1)) 0x2000 || Nat.ble 0x3000 r.base && Nat.blt (r.base + r.stride * (r.count - 1)) 0x10000

theorem Reg.offLinks_addr {r : Reg} (h : r.offLinks = true) (n : Nat) : r.addr n % 0x10000 / 0x1000 ≠ 2 := by
  simp only [Reg.offLinks, Bool.or_eq_true, Bool.and_eq_true, Nat.ble_eq, Nat.blt_eq] at h
  rcases addr_cases r n with ⟨hn, e⟩ | ⟨-, e⟩ <;> rw [e]
  · have hle : r.stride * n ≤ r.stride * (r.count - 1) := Nat.mul_le_mul_left _ (Nat.le_pred_of_lt hn)
    omega
  · omega

/-- A word that lies apart, or under a key listed, is written. -/
theorem setReg_keepsLinks {r w n} (hr : r.offLinks = true ∨ r.addr n ∈ keys) (h : LinksKept keys s0 s) :
    LinksKept keys s0 (s.setReg r w n) := by
  refine ⟨fun k hk hm => (key_setReg_ne s r w n ?_).trans (h.1 k hk hm), h.2⟩
  rintro rfl
  exact hr.elim (fun hr => Reg.offLinks_addr hr n hk) hm

theorem setFld_keepsLinks {f v n} (hf : f.reg.offLinks = true) (h : LinksKept keys s0 s) : LinksKept keys s0 (State.setFld s f v n) :=
  setReg_keepsLinks (.inl hf) h

theorem setFlag_keepsLinks {f b n} (hf : f.reg.offLinks = true) (h : LinksKept keys s0 s) : LinksKept keys s0 (State.setFlag s f b n) :=
  setFld_keepsLinks hf h

theorem setFbit_keepsLinks {f k b n} (hf : f.reg.offLinks = true) (h : LinksKept keys s0 s) : LinksKept keys s0 (State.setFbit s f k b n) :=
  setFld_keepsLinks hf h

theorem event_keepsLinks {f n} (hf : f.reg.offLinks = true) (h : LinksKept keys s0 s) : LinksKept keys s0 (State.event s f n) :=
  setFld_keepsLinks hf h

theorem countTo_keepsLinks {f top n} (hf : f.reg.offLinks = true) (h : LinksKept keys s0 s) :
    LinksKept keys s0 (State.countTo s f top n) :=
  .ite (setFld_keepsLinks hf h) h

theorem link_setLink (s : State) (l : Nat) (h : LinkH) : (s.setLink l h).link l = h := cellGet_set_same ..

/-- A link's record changes in anything but its course. -/
theorem setLink_keepsLinks {l : Nat} {r : LinkH} (hr : r.course = (s.link l).course) (h : LinksKept keys s0 s) :
    LinksKept keys s0 (s.setLink l r) := by
  refine ⟨h.1, fun k => ?_⟩
  show (cellGet {} (cellSet {} s.links l r) k).course = _
  rw [cellGet_set]
  split
  next hk => exact hk ▸ hr.trans (h.2 l)
  next => exact h.2 k

/-! ### History, records, levels and supervision -/

theorem noteHist_keepsLinks {k} (h : LinksKept keys s0 s) : LinksKept keys s0 (s.noteHist k) := by
  unfold State.noteHist
  extract_lets _ a
  have ha : LinksKept keys s0 a := h
  refine .foldl ha fun t e ht => ?_
  dsimp only
  split
  · exact .ite ht ht
  · exact ht

theorem noteIf_keepsLinks {b k} (h : LinksKept keys s0 s) : LinksKept keys s0 (State.noteIf s b k) := .ite (noteHist_keepsLinks h) h

theorem dropRecord_keepsLinks (h : LinksKept keys s0 s) : LinksKept keys s0 (State.dropRecord s) :=
  .via (fun h1 => .ite (.ite (.rest (event_keepsLinks rfl (countTo_keepsLinks rfl h1))) (countTo_keepsLinks rfl h1)) h1)
    (event_keepsLinks rfl h)

theorem postRecord_keepsLinks {r} (h : LinksKept keys s0 s) : LinksKept keys s0 (State.postRecord s r) :=
  .ite h (.ite h (dropRecord_keepsLinks h))

theorem setLevel_keepsLinks {src inst detail data1 b} (h : LinksKept keys s0 s) :
    LinksKept keys s0 (State.setLevel s src inst detail data1 b) :=
  .ite h h

theorem supCount_keepsLinks {n k} (h : LinksKept keys s0 s) : LinksKept keys s0 (supCount s n k) :=
  .ite h (.ite (.ite (.rest (setFbit_keepsLinks rfl h)) h) h)

theorem rstoSet_keepsLinks {j b} (h : LinksKept keys s0 s) : LinksKept keys s0 (rstoSet s j b) :=
  noteIf_keepsLinks (setFlag_keepsLinks rfl (setFlag_keepsLinks rfl h))

theorem rstoLow_keepsLinks {j cause} (h : LinksKept keys s0 s) : LinksKept keys s0 (rstoLow s j cause) :=
  setFld_keepsLinks rfl (rstoSet_keepsLinks h)

theorem rstoOne_keepsLinks {hold j} (h : LinksKept keys s0 s) : LinksKept keys s0 (rstoOne s hold j) :=
  .ite h <| .ite (rstoLow_keepsLinks h) <| .ite (.ite (rstoSet_keepsLinks h) (rstoLow_keepsLinks h)) <|
  .ite (rstoLow_keepsLinks h) (by split; exacts [rstoLow_keepsLinks h, .ite h (.rest (setFlag_keepsLinks rfl h))])

theorem compSet_keepsLinks {n q b} (h : LinksKept keys s0 s) : LinksKept keys s0 (compSet s n q b) :=
  .ite h <| .via
    (fun h1 => .ite
      (.foldl (.ite (supCount_keepsLinks h1) (setFbit_keepsLinks rfl (supCount_keepsLinks h1))) fun _ _ => rstoOne_keepsLinks) h1)
    (noteHist_keepsLinks (.rest (setFbit_keepsLinks rfl h)))

theorem compEnd_keepsLinks {n q} (h : LinksKept keys s0 s) : LinksKept keys s0 (compEnd s n q) := setLevel_keepsLinks (compSet_keepsLinks h)

theorem supLeave_keepsLinks {n} (h : LinksKept keys s0 s) : LinksKept keys s0 (supLeave s n) :=
  compSet_keepsLinks (compEnd_keepsLinks (compEnd_keepsLinks h))

/-! ### Pools and claims -/

theorem endOvercommit_keepsLinks {k} (h : LinksKept keys s0 s) : LinksKept keys s0 (endOvercommit s k) :=
  setLevel_keepsLinks (setFlag_keepsLinks rfl h)

theorem refundPorts_keepsLinks {k x} {l : List Nat} (h : LinksKept keys s0 s) : LinksKept keys s0 (refundPorts k l s x).1 := by
  induction l generalizing s x with
  | nil => exact h
  | cons n l ih =>
    have hcut {f : Fld} {v} (hf : f.reg.offLinks = true) : LinksKept keys s0 (s.setFld f v n) := setFld_keepsLinks hf h
    exact .iteFst
      (.iteFst (ih h) (ih (countTo_keepsLinks rfl (event_keepsLinks rfl (.ite (setFlag_keepsLinks rfl (hcut rfl)) (hcut rfl)))))) (ih h)

theorem refundClaims_keepsLinks {k k'} (h : LinksKept keys s0 s) : LinksKept keys s0 (refundClaims k s k').1 := by
  unfold refundClaims
  dsimp only
  exact .foldlFst (.foldlFst (.foldlFst h (fun _ _ h => .iteFst h h)) (fun _ _ h => .iteFst h h)) (fun _ _ h => .iteFst h h)

theorem returnHeadroom_keepsLinks {k x port} (h : LinksKept keys s0 s) : LinksKept keys s0 (returnHeadroom s k x port) := by
  have hclear : LinksKept keys s0 (clearOvercommit s k) := .ite (endOvercommit_keepsLinks h) h
  unfold returnHeadroom
  extract_lets _ _
  split
  next h2 =>
  split
  next h3 =>
  have hs := (refundClaims_keepsLinks <| (refundPorts_keepsLinks hclear).of_eq h2).of_eq h3
  split
  · exact hs
  · exact .ite hs (setFld_keepsLinks rfl hs)

theorem pinCount_keepsLinks {n q pin ns} (h : LinksKept keys s0 s) : LinksKept keys s0 (pinCount s n q pin ns) :=
  .ite (.ite (event_keepsLinks rfl h) h) h

/-! ### Link commands, intents and clauses -/

/-- A command that falls due on a link is no part of its course. -/
theorem sendCmd_keepsLinks {l code arg} (h : LinksKept keys s0 s) : LinksKept keys s0 (sendCmd s l code arg) :=
  .ite (.ite (setLink_keepsLinks rfl h) h) h

theorem sendSink_keepsLinks {n} (h : LinksKept keys s0 t) : LinksKept keys s0 (sendSink s t n) :=
  .ite h (.foldl h fun _ _ => sendCmd_keepsLinks)

theorem logIntent_keepsLinks {p outcome} (h : LinksKept keys s0 s) : LinksKept keys s0 (logIntent s p outcome) :=
  .ite (postRecord_keepsLinks h) h

theorem portCount_keepsLinks {f p} (hf : f.reg.offLinks = true) (h : LinksKept keys s0 s) : LinksKept keys s0 (portCount s f p) :=
  .ite (.ite (event_keepsLinks rfl (setFld_keepsLinks hf h)) (setFld_keepsLinks hf h)) h

theorem revokeIntent_keepsLinks {p reason} (h : LinksKept keys s0 s) : LinksKept keys s0 (revokeIntent s p reason) :=
  .ite h <| logIntent_keepsLinks <| portCount_keepsLinks rfl <| event_keepsLinks rfl <| setFld_keepsLinks rfl <|
  .foldl (returnHeadroom_keepsLinks <| .rest <| setFld_keepsLinks rfl h) fun _ _ h => h

theorem engCount_keepsLinks {f e conf} (hf : f.reg.offLinks = true) (h : LinksKept keys s0 s) : LinksKept keys s0 (engCount s f e conf) :=
  .ite (.ite (event_keepsLinks rfl (.rest (setFld_keepsLinks hf h))) (setFld_keepsLinks hf h)) h

theorem unreserve_keepsLinks {p k} (h : LinksKept keys s0 s) : LinksKept keys s0 (unreserve s p k) :=
  .ite (returnHeadroom_keepsLinks (.rest h)) h

theorem unwindClause_keepsLinks {e n} (h : LinksKept keys s0 s) : LinksKept keys s0 (unwindClause s e n) := by
  unfold unwindClause
  dsimp only
  split
  · exact .ite (.ite h h) h
  · exact h

theorem revokeClause_keepsLinks {e reason branch} (h : LinksKept keys s0 s) : LinksKept keys s0 (revokeClause s e reason branch) := by
  unfold revokeClause
  split
  · exact h
  · exact .via
        (fun h1 => .ite (.via (fun h2 => .ite (setFld_keepsLinks rfl h2) h2) (setFld_keepsLinks rfl (.rest h1))) h1)
        (engCount_keepsLinks rfl <| event_keepsLinks rfl <| setFld_keepsLinks rfl <| setFld_keepsLinks rfl <|
        setFld_keepsLinks rfl (.rest (.foldl (.foldl h (fun _ _ => unwindClause_keepsLinks)) (fun _ _ => unreserve_keepsLinks))))

theorem railTermsEnd_keepsLinks {n ireason creason} (h : LinksKept keys s0 s) : LinksKept keys s0 (railTermsEnd s n ireason creason) := by
  unfold railTermsEnd
  extract_lets a b
  have ha : LinksKept keys s0 a := .foldl h fun _ _ h => .ite (revokeIntent_keepsLinks h) h
  have hb : LinksKept keys s0 b := by
    refine .foldl ha fun t e ht => ?_
    cases (t.eng e).clause with
    | none => exact ht
    | some c => exact .ite (revokeClause_keepsLinks ht) ht
  exact .rest hb

/-! ### The fence of a phase -/

theorem setRailState_keepsLinks {n st} (h : LinksKept keys s0 s) : LinksKept keys s0 (setRailState s n st) := by
  unfold setRailState
  extract_lets a b
  have ha : LinksKept keys s0 a := setFlag_keepsLinks rfl (setFld_keepsLinks rfl h)
  have hb : LinksKept keys s0 b := .ite (supLeave_keepsLinks ha) ha
  exact sendSink_keepsLinks (.ite hb (noteHist_keepsLinks (noteHist_keepsLinks hb)))

theorem railStop_keepsLinks {n st} (h : LinksKept keys s0 s) : LinksKept keys s0 (railStop s n st) :=
  setFld_keepsLinks rfl <| setFld_keepsLinks rfl <| setFld_keepsLinks rfl <| setFld_keepsLinks rfl <| setFld_keepsLinks rfl <|
  setFld_keepsLinks rfl <| setFlag_keepsLinks rfl <| .foldl (.rest (setRailState_keepsLinks h)) fun _ _ => pinCount_keepsLinks

theorem railNoPhase_keepsLinks {n} (h : LinksKept keys s0 s) : LinksKept keys s0 (railNoPhase s n) :=
  .rest <| event_keepsLinks rfl <| .rest <| .ite (railTermsEnd_keepsLinks (railStop_keepsLinks h)) (railStop_keepsLinks h)

theorem recordPhaseFence_keepsLinks {n ph cause} (h : LinksKept keys s0 s) : LinksKept keys s0 (recordPhaseFence s n ph cause) := by
  unfold recordPhaseFence
  extract_lets x a b c d e f
  have ha : LinksKept keys s0 a := sendCmd_keepsLinks h
  have hb : LinksKept keys s0 b := countTo_keepsLinks rfl (setFld_keepsLinks rfl (setFld_keepsLinks rfl ha))
  have hc : LinksKept keys s0 c := supCount_keepsLinks (event_keepsLinks rfl hb)
  have hf : LinksKept keys s0 f := event_keepsLinks rfl (countTo_keepsLinks rfl hc)
  exact .ite hf hf

theorem phaseFence_keepsLinks {n ph cause} (h : LinksKept keys s0 s) : LinksKept keys s0 (phaseFence s n ph cause) :=
  .ite h (.ite (railNoPhase_keepsLinks (recordPhaseFence_keepsLinks h)) (.rest (recordPhaseFence_keepsLinks h)))

/-! ### The trip of a module -/

theorem lxRerank_keepsLinks (h : LinksKept keys s0 s) : LinksKept keys s0 (lxRerank s) :=
  .foldl h fun _ _ h => setFld_keepsLinks rfl (.ite h h)

theorem lxHandOver_keepsLinks {a b} (h : LinksKept keys s0 s) : LinksKept keys s0 (lxHandOver s a b) := by
  unfold lxHandOver
  split
  · exact .ite h h
  · exact h

theorem setLxState_keepsLinks {m st} (h : LinksKept keys s0 s) : LinksKept keys s0 (setLxState s m st) :=
  .via (fun h1 => lxRerank_keepsLinks (.ite h1 (.rest h1))) (lxHandOver_keepsLinks (setFlag_keepsLinks rfl (setFld_keepsLinks rfl h)))

/-- The bridges' links lose the edges that were fixed for them, and nothing of their course. -/
theorem lxStop_keepsLinks {m st} (h : LinksKept keys s0 s) : LinksKept keys s0 (lxStop s m st) := by
  unfold lxStop
  extract_lets a _ b _ c _ d e
  have ha : LinksKept keys s0 a := setLxState_keepsLinks h
  clear_value a
  have hb : LinksKept keys s0 b := .rest ha
  have hc : LinksKept keys s0 c := setLink_keepsLinks rfl hb
  clear_value c
  have hd : LinksKept keys s0 d := setLink_keepsLinks rfl hc
  clear_value d
  exact setFlag_keepsLinks rfl <| setFlag_keepsLinks rfl <| setFlag_keepsLinks rfl <| setFlag_keepsLinks rfl <| setFld_keepsLinks rfl <|
    setFld_keepsLinks rfl <| setFld_keepsLinks rfl hd

theorem lxTrip_keepsLinks {m c link} (h : LinksKept keys s0 s) : LinksKept keys s0 (lxTrip s m c link) :=
  .ite (.rest <| event_keepsLinks rfl <| countTo_keepsLinks rfl <| setFld_keepsLinks rfl <| lxStop_keepsLinks h) h

/-! ### What they read as over such a change -/

/-- The words of register `r` stand among those of the links. -/
def Reg.ofLinks (r : Reg) : Bool := Nat.ble 0x2000 r.base && Nat.blt r.base 0x2040 && r.stride == 0x40 && r.count == 64

theorem Reg.ofLinks_addr {r : Reg} (h : r.ofLinks = true) (l : Nat) : r.addr l % 0x10000 / 0x1000 = 2 := by
  simp only [Reg.ofLinks, Bool.and_eq_true, Nat.ble_eq, Nat.blt_eq, beq_iff_eq] at h
  obtain ⟨⟨hb, hs⟩, hc⟩ := h
  rcases addr_cases r l with ⟨hn, e⟩ | ⟨-, e⟩ <;> rw [e]
  · rw [hs]
    omega
  · omega

variable {rs : List Reg} {l : Nat}

theorem LinksKept.bads (h : LinksKept keys s t) (l : Nat) : (t.link l).bads = (s.link l).bads := congrArg Prod.fst (h.2 l)

theorem LinksKept.draining (h : LinksKept keys s t) (l : Nat) : (t.link l).draining = (s.link l).draining := congrArg Prod.snd (h.2 l)

theorem LinksKept.fld (h : LinksKept (wordsOf rs l) s t) {f : Fld} (hf : f.reg.ofLinks = true) (hk : rs.all (·.besideWord f.reg) = true) :
    t.fld f l = s.fld f l := by
  refine fld_of_reg ?_
  unfold State.reg
  rw [h.1 _ (Reg.ofLinks_addr hf l) (notMem_wordsOf hk l)]

theorem LinksKept.flag (h : LinksKept (wordsOf rs l) s t) {f : Fld} (hf : f.reg.ofLinks = true)
    (hk : rs.all (·.besideWord f.reg) = true) : t.flag f l = s.flag f l :=
  flag_of_fld (h.fld hf hk)

/-- A field of a word listed is set. -/
theorem setFld_keepsOtherLinks {f : Fld} {v : Nat} (hf : f.reg ∈ rs) (h : LinksKept (wordsOf rs l) s0 s) :
    LinksKept (wordsOf rs l) s0 (s.setFld f v l) :=
  setReg_keepsLinks (.inr (List.mem_map_of_mem hf)) h

end Sys2Proof.Machine
end

section
/-! SUPPORT. The commands of a link act where the part has it; its counters and the words of its state; its loss (R115, R116). -/
namespace Sys2Proof.Machine

variable {s t : State} {l : Nat}

/-- A field keeps its value as a field apart from it in its word is set, with both fields' bits written out. -/
theorem fld_setFld_sameWord {r : Reg} {hi lo hi' lo' v n : Nat} (h : Fld.apart ⟨r, hi, lo⟩ ⟨r, hi', lo'⟩ = true) :
    (s.setFld ⟨r, hi, lo⟩ v n).fld ⟨r, hi', lo'⟩ n = s.fld ⟨r, hi', lo'⟩ n :=
  fld_setFld_apart rfl h

theorem onLink_present (hp : s.powered (linkDomain l) = true) (hl : 64 ≤ l ∨ s.phPresent l = true) : s.onLink l t = .next t := by
  simp [State.onLink, hp, hl]

/-! ### A counter of the link -/

theorem linkCount_links (s : State) (l : Nat) (f sat : Fld) : (linkCount s l f sat).links = s.links := by
  unfold linkCount
  split
  · simp only [apply_ite State.links, event_links, setFlag_links, setFld_links, ite_self]
  · rfl

/-- A field that the counter, its SAT bit and SATURATED leave alone. -/
theorem linkCount_fld {f sat g : Fld} (hf : f.reg.besideWord g.reg = true) (hs : ∀ (u : State) v, (u.setFld sat v l).fld g l = u.fld g l)
    (he : ∀ u : State, (u.event PH_EVT_SATURATED l).fld g l = u.fld g l) : (linkCount s l f sat).fld g l = s.fld g l := by
  unfold linkCount
  dsimp only
  split
  · split
    · exact (he _).trans ((hs _ _).trans (fld_setFld_word hf))
    · exact fld_setFld_word hf
  · rfl

/-- A counter counts, and stands at its largest value (R13). -/
theorem linkCount_count {f sat : Fld} (hf : f.hi = 31 ∧ f.lo = 0) (hs : sat.reg.besideWord f.reg = true)
    (he : PH_EVT.besideWord f.reg = true) : (linkCount s l f sat).fld f l = min 0xFFFFFFFF (s.fld f l + 1) := by
  obtain ⟨hhi, hlo⟩ := hf
  have hw : s.fld f l < 2 ^ 32 := by
    have hlt : s.fld f l < 2 ^ (f.hi + 1 - f.lo) := Word.bits_lt _ _ _
    rwa [hhi, hlo] at hlt
  unfold linkCount
  dsimp only
  split
  next h =>
    have hset : (s.setFld f (s.fld f l + 1) l).fld f l = s.fld f l + 1 :=
      fld_setFld_value (by rw [hhi]; rfl) (by rw [hhi, hlo]; omega)
    rw [Nat.min_eq_right (by omega)]
    split
    · exact (fld_setFld_word he).trans ((fld_setFld_word hs).trans hset)
    · exact hset
  next => omega

/-! ### Loss -/

/-- The phase of the link, where it has one, leaves service with cause LINK (R94). -/
theorem linkFence_keeps (s : State) (l : Nat) {keys : List Nat} :
    LinksKept keys s (match railOfPhase s l with | some n => phaseFence s n l 4 | none => s) := by
  split
  · exact phaseFence_keepsLinks (.refl s)
  · exact .refl s

/-- A link that is lost: in LOST, of no version, with LOST raised (R116, R126). -/
structure LinkIsLost (l : Nat) (t : State) : Prop where
  state : lstate t l = lsLost
  ver : t.fld PH_FXSTAT_VER l = 0
  event : t.flag PH_EVT_LOST l = true

theorem LinkIsLost.kept (h : LinkIsLost l s) (hk : LinksKept (wordsOf [] l) s t) : LinkIsLost l t where
  state := (hk.fld rfl rfl).trans h.state
  ver := (hk.fld rfl rfl).trans h.ver
  event := (hk.flag rfl rfl).trans h.event

/-- The words in which a loss shows, but for its counter. -/
def lossShown (s : State) (l : Nat) : State := ((s.setFld PH_FXSTAT_LSTATE lsLost l).setFld PH_FXSTAT_VER 0 l).event PH_EVT_LOST l

theorem lossShown_lost (s : State) (l : Nat) : LinkIsLost l (lossShown s l) where
  state := by
    simp (disch := decide) only [lstate, lossShown, event_eq, PH_FXSTAT_LSTATE, PH_FXSTAT_VER, fld_setFld_word, fld_setFld_sameWord]
    exact fld_setFld_value rfl (by decide)
  ver := by
    simp (disch := decide) only [lossShown, event_eq, fld_setFld_word]
    exact fld_setFld_value rfl (by decide)
  event := flag_event_same _ _ _ (by decide) (by decide)

theorem lossShown_cmdfail (s : State) (l : Nat) : (lossShown s l).flag PH_EVT_CMDFAIL l = s.flag PH_EVT_CMDFAIL l := by
  simp (disch := decide) only [State.flag, lossShown, event_eq, PH_EVT_LOST, PH_EVT_CMDFAIL, fld_setFld_word, fld_setFld_sameWord]

theorem linkLost_lost (h : lstate s l = lsUp) :
    LinkIsLost l (linkLost s l) ∧ (linkLost s l).flag PH_EVT_CMDFAIL l = s.flag PH_EVT_CMDFAIL l := by
  unfold linkLost
  rw [if_neg (not_not_intro h)]
  extract_lets a b c d
  have ha : LinksKept (wordsOf [] l) s a := .ite (linkFence_keeps s l) (.refl s)
  have hd := lossShown_lost c l
  have hc : c.flag PH_EVT_CMDFAIL l = s.flag PH_EVT_CMDFAIL l := ha.flag rfl rfl
  have hstat {g : Fld} (hg : g.reg = PH_FXSTAT) (hs : PH_FXSTAT_LOSSSAT.apart g = true) :
      (linkCount d l PH_LOSSCNT_COUNT PH_FXSTAT_LOSSSAT).fld g l = d.fld g l :=
    linkCount_fld (by rw [hg]; rfl) (fun _ _ => fld_setFld_apart hg.symm hs) fun _ => fld_setFld_word (by rw [hg]; rfl)
  have hevt {g : Fld} (hg : g.reg = PH_EVT) (he : PH_EVT_SATURATED.apart g = true) :
      (linkCount d l PH_LOSSCNT_COUNT PH_FXSTAT_LOSSSAT).flag g l = d.flag g l :=
    flag_of_fld (linkCount_fld (by rw [hg]; rfl) (fun _ _ => fld_setFld_word (by rw [hg]; rfl)) fun _ => fld_setFld_apart hg.symm he)
  exact ⟨⟨(hstat rfl rfl).trans hd.state, (hstat rfl rfl).trans hd.ver, (hevt rfl rfl).trans hd.event⟩,
    (hevt rfl rfl).trans ((lossShown_cmdfail c l).trans hc)⟩

/-- A module that trips for the loss leaves the link lost (R254). -/
theorem anyLinkLost_lost (h : lstate s l = lsUp) :
    LinkIsLost l (anyLinkLost s l) ∧ (anyLinkLost s l).flag PH_EVT_CMDFAIL l = s.flag PH_EVT_CMDFAIL l := by
  obtain ⟨hl, hc⟩ := linkLost_lost h
  have hk : LinksKept (wordsOf [] l) (linkLost s l) (anyLinkLost s l) := .ite (lxTrip_keepsLinks (.refl _)) (.refl _)
  exact ⟨hl.kept hk, (hk.flag rfl rfl).trans hc⟩

end Sys2Proof.Machine
end

section
/-! SUPPORT. Upstream frames in UP (R109–R115): what a frame that passes its checks shows, and one that does not. -/
namespace Sys2Proof.Machine

variable {s t : State} {l : Nat} {u : UpFields}

/-! ### The data of a good frame -/

/-- The words of a link that show the stage's measurements (R110, R111). -/
def measureWords : List Reg := [PH_TELI, PH_TELV, PH_TELT, PH_TELPV]

theorem thmFresh_keepsLinks {keys : List Nat} {s0 : State} (h : LinksKept keys s0 s) : LinksKept keys s0 (thmFresh s l) := .ite (.rest h) h

theorem thmLoss_keepsLinks {keys : List Nat} {s0 : State} {i p : Nat} (h : LinksKept keys s0 s) : LinksKept keys s0 (thmLoss s i p) :=
  .ite (.rest h) h

theorem thmFrame_keepsLinks {keys : List Nat} {s0 : State} (h : LinksKept keys s0 s) : LinksKept keys s0 (thmFrame s l) :=
  .ite h (.ite (thmLoss_keepsLinks h) (thmLoss_keepsLinks h))

theorem senseCheck_keepsLinks {keys : List Nat} {s0 : State} {aux ipv : Nat} (h : LinksKept keys s0 s) :
    LinksKept keys s0 (senseCheck s l aux ipv) := by
  unfold senseCheck
  extract_lets x
  split
  · exact .ite (setLink_keepsLinks rfl h) (.ite h (setLink_keepsLinks rfl h))
  · exact setLink_keepsLinks rfl h

theorem phaseData_keeps (s : State) (l : Nat) (u : UpFields) : LinksKept (wordsOf measureWords l) s (phaseData s l u) := by
  unfold phaseData
  extract_lets ver sc ish ipv a out x b c
  have ha : LinksKept (wordsOf measureWords l) s a := setFld_keepsOtherLinks (by simp [measureWords, PH_TELI_ICUR]) (.refl s)
  have hb : LinksKept (wordsOf measureWords l) s b := setLink_keepsLinks rfl ha
  have hset {f : Fld} {v : Nat} (hf : f.reg ∈ measureWords) : LinksKept (wordsOf measureWords l) s (b.setFld f v l) :=
    setFld_keepsOtherLinks hf hb
  have hc : LinksKept (wordsOf measureWords l) s c :=
    .ite (senseCheck_keepsLinks (hset (by simp [measureWords, PH_TELPV_IPV])))
      (.ite (hset (by simp [measureWords, PH_TELV_VIN])) (thmFresh_keepsLinks (hset (by simp [measureWords, PH_TELT_TEMP]))))
  split
  · exact hc
  · next n _ =>
    extract_lets r d
    have hd : LinksKept (wordsOf measureWords l) s d := .ite (.rest hc) hc
    exact .ite (phaseFence_keepsLinks hd) hd

theorem bridgeData_keeps (s : State) (l : Nat) (u : UpFields) : LinksKept (wordsOf measureWords l) s (bridgeData s l u) := by
  unfold bridgeData
  extract_lets h sc ish i vdc a isV isI b h' c
  have ha : LinksKept (wordsOf measureWords l) s a := setFld_keepsOtherLinks (by simp [measureWords, PH_TELI_ICUR]) (.refl s)
  have hset {f : Fld} {v : Nat} (hf : f.reg ∈ measureWords) : LinksKept (wordsOf measureWords l) s (a.setFld f v l) :=
    setFld_keepsOtherLinks hf ha
  have hb : LinksKept (wordsOf measureWords l) s b :=
    .ite (hset (by simp [measureWords, PH_TELV_VIN]))
      (.ite (hset (by simp [measureWords, PH_TELPV_IPV])) (thmFresh_keepsLinks (hset (by simp [measureWords, PH_TELT_TEMP]))))
  have hc : LinksKept (wordsOf measureWords l) s c := setLink_keepsLinks rfl hb
  exact .ite (lxTrip_keepsLinks hc) hc

/-- What the stage of link `l` makes of a good frame's contents. -/
def stageData (l : Nat) (u : UpFields) (s : State) : State := if l < 64 then phaseData s l u else bridgeData s l u

theorem stageData_keeps (s : State) (l : Nat) (u : UpFields) : LinksKept (wordsOf measureWords l) s (stageData l u s) :=
  .ite (phaseData_keeps s l u) (bridgeData_keeps s l u)

/-! ### A good frame -/

/-- The link has taken the status of a good frame (R112): the run of bad frames is over (R115), and ERRCNT and the state are those of `s`. -/
structure StatusTaken (l : Nat) (status : Nat) (s t : State) : Prop where
  bads : (t.link l).bads = 0
  status : t.fld PH_STSTAT_LAST l = status % 256
  errors : t.fld PH_ERRCNT_COUNT l = s.fld PH_ERRCNT_COUNT l
  state : lstate t l = lstate s l

theorem StatusTaken.kept {status : Nat} {v : State} (h : StatusTaken l status s t) (hk : LinksKept (wordsOf measureWords l) t v) :
    StatusTaken l status s v where
  bads := (hk.bads l).trans h.bads
  status := (hk.fld rfl rfl).trans h.status
  errors := (hk.fld rfl rfl).trans h.errors
  state := (hk.fld rfl rfl).trans h.state

theorem takeAck_bads (h : LinkH) (ack : Nat) : (takeAck h ack).bads = h.bads := by
  unfold takeAck
  split <;> rfl

/-- Events of the link that the status raises leave its other words. -/
theorem takeStatus_fld {st : Nat} {g : Fld} (he : PH_EVT.besideWord g.reg = true) (hg : PH_STSTAT.besideWord g.reg = true) :
    (takeStatus s l st).fld g l = s.fld g l := by
  unfold takeStatus
  extract_lets last rose a b
  have ha : a.fld g l = s.fld g l := by
    simp only [a]
    split
    · exact fld_setFld_word he
    · rfl
  have hb : b.fld g l = a.fld g l := by
    simp only [b]
    split
    · exact fld_setFld_word he
    · rfl
  exact (fld_setFld_word hg).trans ((fld_setFld_word hg).trans (hb.trans ha))

theorem takeStatus_last (s : State) (l st : Nat) : (takeStatus s l st).fld PH_STSTAT_LAST l = st % 256 :=
  Eq.trans (fld_setFld_apart rfl rfl) (fld_setFld_same _ PH_STSTAT_LAST st l (by decide))

theorem takeStatus_links (s : State) (l st : Nat) : (takeStatus s l st).links = s.links := by
  simp only [takeStatus, setFld_links, apply_ite State.links, event_links, ite_self]

theorem goodFrame_taken (hdn : u.status.testBit 6 = false) : StatusTaken l u.status s (goodFrame s l u) := by
  unfold goodFrame
  simp only [hdn, Bool.false_eq_true, if_false]
  refine ⟨?_, takeStatus_last _ _ _, takeStatus_fld rfl rfl, takeStatus_fld rfl rfl⟩
  unfold State.link
  rw [takeStatus_links]
  exact (congrArg LinkH.bads (link_setLink _ _ _)).trans (takeAck_bads _ _)

/-! ### A bad frame -/

/-- A bad frame has been counted (R114, R115). -/
structure BadCounted (l : Nat) (s t : State) : Prop where
  bads : (t.link l).bads = (s.link l).bads + 1
  errors : t.fld PH_ERRCNT_COUNT l = min 0xFFFFFFFF (s.fld PH_ERRCNT_COUNT l + 1)
  state : lstate t l = lstate s l

theorem BadCounted.kept {v : State} (h : BadCounted l s t) (hk : LinksKept (wordsOf [] l) t v) : BadCounted l s v where
  bads := (hk.bads l).trans h.bads
  errors := (hk.fld rfl rfl).trans h.errors
  state := (hk.fld rfl rfl).trans h.state

/-- The bad frame's count, in the link's record and in ERRCNT. -/
def badCounted (s : State) (l seq : Nat) : State :=
  linkCount (s.setLink l { s.link l with rxRef := some seq, bads := (s.link l).bads + 1, winBad := (s.link l).winBad + 1 }) l
    PH_ERRCNT_COUNT PH_FXSTAT_ERRSAT

theorem badCounted_counts (s : State) (l seq : Nat) : BadCounted l s (badCounted s l seq) where
  bads := by
    unfold State.link
    rw [badCounted, linkCount_links]
    exact congrArg LinkH.bads (link_setLink s l _)
  errors := linkCount_count ⟨rfl, rfl⟩ rfl rfl
  state := linkCount_fld rfl (fun _ _ => fld_setFld_apart rfl rfl) fun _ => fld_setFld_word rfl

theorem badFrame_eq {seq : Nat} (hlim : s.fld PH_FXCTRL_ERRLIM l = 0) :
    badFrame s l seq = if 4 ≤ (s.link l).bads + 1 then linkLost (badCounted s l seq) l else badCounted s l seq := by
  have hl : (badCounted s l seq).fld PH_FXCTRL_ERRLIM l = 0 :=
    (linkCount_fld rfl (fun _ _ => fld_setFld_word rfl) fun _ => fld_setFld_word rfl).trans hlim
  unfold badFrame
  dsimp only
  unfold badCounted at hl ⊢
  simp only [hl, ne_eq, not_true_eq_false, false_and, or_false]

/-! ### The command -/

/-- The frame as link `l` in UP judges it. -/
def frameJudged (s : State) (l : Nat) (u : UpFields) (codeOk : Bool) (ref : Nat) : State := upFrame s l u codeOk ref (stageData l u)

theorem frameJudged_good {codeOk : Bool} {ref : Nat} (hg : frameSound (s.link l) u codeOk = true)
    (hlag : (ref + 16 - u.dseq) % 16 = s.fld PH_RTT_LAG l) (hdn : u.status.testBit 6 = false) (hs : lstate s l = lsUp) :
    StatusTaken l u.status s (frameJudged s l u codeOk ref) := by
  have ht : StatusTaken l u.status s (goodFrame s l u) := goodFrame_taken hdn
  unfold frameJudged upFrame
  dsimp only
  rw [if_pos ⟨hg, hlag⟩, if_pos (ht.state.trans hs)]
  exact ht.kept (stageData_keeps _ l u)

theorem frameJudged_bad {codeOk : Bool} {ref : Nat}
    (hb : frameSound (s.link l) u codeOk = false ∨ (ref + 16 - u.dseq) % 16 ≠ s.fld PH_RTT_LAG l) :
    frameJudged s l u codeOk ref = badFrame s l u.seq := by
  unfold frameJudged upFrame
  refine if_neg fun ⟨hg, hlag⟩ => ?_
  rcases hb with hb | hb
  · exact Bool.false_ne_true (hb.symm.trans hg)
  · exact hb hlag

/-- In UP the frame is judged; the maquette's sample and a module's trip for the loss follow. -/
theorem exec_upstreamFrame {l : Fin 72} {f : BitVec 64} {codeOk : Bool} {ref : Fin 16} (hp : s.powered (linkDomain l) = true)
    (hl : 64 ≤ l.val ∨ s.phPresent l = true) (hs : lstate s l = lsUp) (hd : (s.link l).draining = 0) :
    ∃ t, exec (.upstreamFrame l f codeOk ref) s = .next t
      ∧ LinksKept (wordsOf [] l) (frameJudged s l (upFields (s.link l).ver f) codeOk ref) t := by
  have he : exec (.upstreamFrame l f codeOk ref) s = execUpstreamFrame l f codeOk ref s := rfl
  refine ⟨upstream s l f codeOk ref, he.trans (onLink_present hp hl), ?_⟩
  unfold upstream
  have hset : lsUp ≠ lsSetup := by decide
  simp only [hs, hd, hset, false_and, and_self, if_false, if_true]
  have hk := thmFrame_keepsLinks (keys := wordsOf [] l.val) (l := l)
    (LinksKept.refl (frameJudged s l (upFields (s.link l).ver f) codeOk ref))
  exact .ite (lxTrip_keepsLinks hk) hk

end Sys2Proof.Machine
end

section
open Sys2Proof Sys2Proof.Machine

/-- Settles O31: a frame is good or bad, and what follows from it in the stage's rail or module leaves the link's words and its count. -/
theorem upstreamFramesAreJudged : Obligations.UpstreamFramesAreJudged := by
  unfold Obligations.UpstreamFramesAreJudged
  rintro l f codeOk ref s u hp hl hs hd rfl
  obtain ⟨t, ht, hk⟩ := exec_upstreamFrame (f := f) (codeOk := codeOk) (ref := ref) hp hl hs hd
  refine ⟨fun hg hlag hdn => ?_, fun hb hlim => ?_⟩
  · have h := (frameJudged_good hg hlag hdn hs).kept (hk.mono (by simp [wordsOf]))
    exact ⟨t, ht, h.bads, h.status, h.errors, h.state.trans hs⟩
  rw [frameJudged_bad hb, badFrame_eq hlim] at hk
  have hc := badCounted_counts s l (upFields (s.link l).ver f).seq
  refine ⟨fun h3 => ⟨t, ht, ?_⟩, fun h3 => ⟨t, ht, ?_⟩⟩
  · rw [if_neg (by omega)] at hk
    have h := hc.kept hk
    exact ⟨h.bads, h.errors, h.state.trans hs⟩
  · rw [if_pos (by omega)] at hk
    have h := (linkLost_lost (hc.state.trans hs)).1.kept hk
    exact ⟨h.state, h.ver, h.event⟩
end

section
/-! SUPPORT. The steps of a training (R116–R121): how an attempt begins and ends, and what each ordered set counts for. -/
namespace Sys2Proof.Machine

variable {s t : State} {l : Nat}

/-! ### An attempt begins -/

theorem mayTrain_iff : mayTrain s l = true ↔
    s.flag PH_FXCTRL_EN l = true ∧ s.flag CLK_STAT_TIMELOCK = true ∧ linkGoing s l = false := by
  simp [mayTrain, and_assoc]

theorem mayTrain_eq_false_iff : mayTrain s l = false ↔
    s.flag PH_FXCTRL_EN l = false ∨ s.flag CLK_STAT_TIMELOCK = false ∨ linkGoing s l = true := by
  simp only [mayTrain, Bool.and_eq_false_iff, Bool.not_eq_eq_eq_not, Bool.not_false, or_assoc]

/-- The words in which attempt `k` shows as it begins (R118, R126). -/
def attemptShown (s : State) (l k : Nat) : State :=
  (((s.setFld PH_FXSTAT_LSTATE lsAlign l).setFld PH_FXSTAT_ATTEMPT k l).setFld PH_FXSTAT_VER 0 l).setReg PH_RTT 0 l

theorem fxstat_setRtt {hi lo : Nat} {w : Word} : (s.setReg PH_RTT w l).fld ⟨PH_FXSTAT, hi, lo⟩ l = s.fld ⟨PH_FXSTAT, hi, lo⟩ l :=
  fld_setReg_ne s w (Reg.besideWord_addr (r := PH_RTT) (r' := PH_FXSTAT) rfl l)

theorem fld_setLink (s : State) (l : Nat) (h : LinkH) (f : Fld) (n : Nat) : (s.setLink l h).fld f n = s.fld f n := rfl

theorem attemptShown_state (s : State) (l k : Nat) : lstate (attemptShown s l k) l = lsAlign := by
  simp (disch := decide) only [lstate, attemptShown, fxstat_setRtt, PH_FXSTAT_LSTATE, PH_FXSTAT_ATTEMPT, PH_FXSTAT_VER,
    fld_setFld_sameWord]
  exact fld_setFld_value rfl (by decide)

theorem attemptShown_attempt (s : State) (l : Nat) {k : Nat} (hk : k < 16) : (attemptShown s l k).fld PH_FXSTAT_ATTEMPT l = k := by
  simp (disch := decide) only [attemptShown, fxstat_setRtt, PH_FXSTAT_ATTEMPT, PH_FXSTAT_VER, fld_setFld_sameWord]
  exact fld_setFld_value rfl hk

theorem attemptShown_ver (s : State) (l k : Nat) : (attemptShown s l k).fld PH_FXSTAT_VER l = 0 := by
  simp only [attemptShown, fxstat_setRtt, PH_FXSTAT_VER]
  exact fld_setFld_value rfl (by decide)

/-- The link's record as an attempt begins: the window goes on, and the version of the training before is kept (R102, R126). -/
def attemptRecord (s : State) (l : Nat) : LinkH :=
  { window := (s.link l).window, prevVer := if s.fld PH_FXSTAT_VER l = 0 then (s.link l).prevVer else s.fld PH_FXSTAT_VER l,
    vmax := s.fld PH_FXCTRL_VMAX l }

/-- The crossing of the link is open again (R382). -/
def crossingReset (s : State) (l : Nat) : State := (s.setStopped (40 + l) false).setOverrun (40 + l) false

theorem startTraining_eq (s : State) (l k : Nat) :
    startTraining s l k = attemptShown ((crossingReset s l).setLink l (attemptRecord (crossingReset s l) l)) l k := rfl

theorem attemptShown_link (s : State) (l k : Nat) : (attemptShown s l k).link l = s.link l := rfl

theorem attemptShown_mem (s : State) (l k : Nat) : (attemptShown s l k).mem = s.mem := rfl

theorem crossingReset_mem (s : State) (l : Nat) : (crossingReset s l).mem = s.mem := rfl

theorem startTraining_begins (s : State) (l : Nat) {k : Nat} (hk : k < 16) : BeginsTraining s (startTraining s l k) l k := by
  rw [startTraining_eq]
  refine ⟨attemptShown_state _ l k, attemptShown_attempt _ l hk, attemptShown_ver _ l k, reg_setReg_same .., ?_, ?_, ?_, ?_⟩
  · rw [attemptShown_link, link_setLink, attemptRecord]
  · rw [attemptShown_link, link_setLink, attemptRecord]
  · rw [attemptShown_link, link_setLink, attemptRecord]
  · rw [attemptShown_mem, setLink_mem, crossingReset_mem]

/-! ### The commands that begin one -/

theorem exec_trainingStart {l : Fin 72} (hp : s.powered (linkDomain l) = true) (hl : 64 ≤ l.val ∨ s.phPresent l = true) :
    exec (.trainingStart l) s = .next (if lstate s l = lsDown ∧ mayTrain s l then startTraining s l 1 else s) :=
  onLink_present hp hl

theorem exec_autortRetrain {l : Fin 72} (hp : s.powered (linkDomain l) = true) (hl : 64 ≤ l.val ∨ s.phPresent l = true) :
    exec (.autortRetrain l) s = .next (if lstate s l = lsLost ∧ s.flag PH_FXCTRL_AUTORT l ∧ mayTrain s l
      then startTraining s l 1 else s) :=
  onLink_present hp hl

theorem exec_trainingRetry {l : Fin 72} (hp : s.powered (linkDomain l) = true) (hl : 64 ≤ l.val ∨ s.phPresent l = true) :
    exec (.trainingRetry l) s = .next (if (s.link l).retry ∧ mayTrain s l
      then startTraining s l (s.fld PH_FXSTAT_ATTEMPT l + 1) else s) :=
  onLink_present hp hl

/-- The stage of the link is not in use, and CLRFLT and RETRAIN are not refused (R126, R257). -/
abbrev StageIdle (s : State) (l : Nat) : Prop := if l < 64 then phaseBusy s l = false else lxQuiet s ((l - 64) % 4) = true

theorem anyLinkWrite_fxcmd (h : StageIdle s l) (w : Word) : ∃ st, anyLinkWrite s l 6 w = writeFxcmd s l w false st := by
  unfold anyLinkWrite
  unfold StageIdle at h
  split at h
  next hl => exact ⟨.railon, by rw [if_pos hl, h]; rfl⟩
  next hl => exact ⟨.lxon, by rw [if_neg hl, h]; rfl⟩

/-- RETRAIN alone in a word of FXCMD. -/
theorem writeFxcmd_retrain (hm : mayTrain s l = true) (st : Status) : (writeFxcmd s l 1 false st).1 = startTraining s l 1 := by
  have h0 : Word.bit 1 0 = true := by decide
  have h1 : Word.bit 1 1 = false := by decide
  have h2 : Word.bit 1 2 = false := by decide
  simp only [writeFxcmd, linkRetrain, h0, h1, h2, hm, if_true, Bool.false_eq_true, if_false]

/-- A register write of a link acts where such writes are open (R55, R70). -/
theorem onLink_written (hp : s.powered (linkDomain l) = true) (hl : 64 ≤ l ∨ s.phPresent l = true) (hw : s.writesOpen = true) :
    s.onLink l (s.ifWritable t) = .next t := by
  rw [onLink_present hp hl, State.ifWritable, if_pos hw]

theorem onLink_shut (hw : s.writesOpen = false) : s.onLink l (s.ifWritable t) = .next s := by
  simp [State.onLink, State.ifWritable, hw]

theorem exec_retrain {l : Fin 72} (hp : s.powered (linkDomain l) = true) (hl : 64 ≤ l.val ∨ s.phPresent l = true)
    (hw : s.writesOpen = true) (hi : StageIdle s l) (hm : mayTrain s l = true) : exec (.retrain l) s = .next (startTraining s l 1) := by
  have he : exec (.retrain l) s = s.onLink l (s.ifWritable (anyLinkWrite s l 6 1).1) := rfl
  obtain ⟨st, hst⟩ := anyLinkWrite_fxcmd hi 1
  rw [he, onLink_written hp hl hw, hst, writeFxcmd_retrain hm]

/-! ### An attempt ends -/

theorem fxstat_attempt_setFailstep {v : Nat} : (s.setFld PH_FXSTAT_FAILSTEP v l).fld PH_FXSTAT_ATTEMPT l = s.fld PH_FXSTAT_ATTEMPT l :=
  fld_setFld_apart rfl rfl

theorem failAttempt_retries (h : s.fld PH_FXSTAT_ATTEMPT l < max 1 (s.fld PH_FXCTRL_ATTEMPTS l)) :
    failAttempt s l = (s.setFld PH_FXSTAT_FAILSTEP (lstate s l) l).setLink l
      { s.link l with retry := true, resets := true, cmds := [], sent := [] } := by
  unfold failAttempt
  simp (disch := decide) only [fxstat_attempt_setFailstep, fld_setFld_word]
  rw [if_pos h]
  rfl

theorem failAttempt_last (h : max 1 (s.fld PH_FXCTRL_ATTEMPTS l) ≤ s.fld PH_FXSTAT_ATTEMPT l) :
    failAttempt s l = ((((s.setFld PH_FXSTAT_FAILSTEP (lstate s l) l).setLink l
      { s.link l with retry := false, resets := true, cmds := [], sent := [] }).setFld PH_FXSTAT_LSTATE lsFailed l).event
        PH_EVT_TRFAIL l) := by
  unfold failAttempt
  simp (disch := decide) only [fxstat_attempt_setFailstep, fld_setFld_word]
  rw [if_neg (by omega)]
  rfl

/-- The step that failed stands in FAILSTEP, and a retry is due (R121). -/
theorem failAttempt_retries_shows (h : s.fld PH_FXSTAT_ATTEMPT l < max 1 (s.fld PH_FXCTRL_ATTEMPTS l)) :
    ((failAttempt s l).link l).retry = true ∧ (failAttempt s l).fld PH_FXSTAT_FAILSTEP l = lstate s l
      ∧ lstate (failAttempt s l) l = lstate s l := by
  rw [failAttempt_retries h]
  refine ⟨congrArg LinkH.retry (link_setLink _ l _), ?_, ?_⟩
  · rw [fld_setLink]
    exact fld_setFld_value rfl (Word.bits_lt _ _ _)
  · rw [lstate, fld_setLink]
    exact fld_setFld_apart rfl rfl

/-- The last attempt ends in FAILED, with TRFAIL (R121). -/
theorem failAttempt_last_shows (h : max 1 (s.fld PH_FXCTRL_ATTEMPTS l) ≤ s.fld PH_FXSTAT_ATTEMPT l) :
    lstate (failAttempt s l) l = lsFailed ∧ (failAttempt s l).fld PH_FXSTAT_FAILSTEP l = lstate s l
      ∧ (failAttempt s l).flag PH_EVT_TRFAIL l = true := by
  rw [failAttempt_last h]
  refine ⟨?_, ?_, flag_event_same _ _ _ (by decide) (by decide)⟩
  · simp (disch := decide) only [lstate, event_eq, fld_setFld_word]
    exact fld_setFld_value rfl (by decide)
  · simp (disch := decide) only [event_eq, fld_setFld_word, PH_FXSTAT_FAILSTEP, PH_FXSTAT_LSTATE, fld_setFld_sameWord, fld_setLink]
    exact fld_setFld_value rfl (Word.bits_lt _ _ _)

theorem exec_trainingTimeout {l : Fin 72} (hp : s.powered (linkDomain l) = true) (hl : 64 ≤ l.val ∨ s.phPresent l = true)
    (hi : inTraining s l = true) : exec (.trainingTimeout l) s = .next (failAttempt s l) := by
  have he : exec (.trainingTimeout l) s = s.onLink l (if inTraining s l then failAttempt s l else s) := rfl
  rw [he, onLink_present hp hl, if_pos hi]

/-! ### Ordered sets -/

/-- Link `l` is in step `st` of a training, without a retry waiting or a drain. -/
structure TrainingIn (s : State) (l st : Nat) : Prop where
  state : lstate s l = st
  retry : (s.link l).retry = false
  draining : (s.link l).draining = 0

theorem TrainingIn.training {st : Nat} (h : TrainingIn s l st) (h1 : lsAlign ≤ st) (h5 : st ≤ lsSetup) : inTraining s l = true := by
  simp [inTraining, h.state, h.retry, h.draining, h1, h5]

theorem exec_orderedSet {l : Fin 72} (hp : s.powered (linkDomain l) = true) (hl : 64 ≤ l.val ∨ s.phPresent l = true) (o : OrderedSet) :
    exec (.orderedSet l o) s = .next (orderedSet s l o) :=
  onLink_present hp hl

/-- The step that follows, but for SETUP, has its counts at zero and shows in LSTATE (R118). -/
theorem nextStep_eq {st : Nat} (h : st ≠ lsSetup) :
    nextStep s l st = (s.setLink l { s.link l with count := 0, rtts := 0 }).setFld PH_FXSTAT_LSTATE st l :=
  if_neg h

theorem nextStep_state {st : Nat} (h : st ≠ lsSetup) (hst : st < 16) : lstate (nextStep s l st) l = st := by
  rw [nextStep_eq h]
  exact fld_setFld_value rfl hst

theorem nextStep_link {st : Nat} (h : st ≠ lsSetup) : (nextStep s l st).link l = { s.link l with count := 0, rtts := 0 } := by
  rw [nextStep_eq h]
  exact link_setLink s l _

theorem orderedSet_align (h : TrainingIn s l lsAlign) : orderedSet s l .align =
    if 63 ≤ (s.link l).count then nextStep s l lsCaps else s.setLink l { s.link l with count := (s.link l).count + 1 } := by
  simp [orderedSet, h.training (by decide) (by decide), h.state]

theorem orderedSet_align_invalid (h : TrainingIn s l lsAlign) : orderedSet s l .invalid = s.setLink l { s.link l with count := 0 } := by
  simp [orderedSet, h.training (by decide) (by decide), h.state]

theorem orderedSet_cap {vmax ish ir fl rev crc : Nat} (h : TrainingIn s l lsCaps) (hv : capValid 0x81 vmax ish ir fl rev crc = true) :
    orderedSet s l (.cap 0x81 vmax ish ir fl rev crc) = takeCap s l (vmax, ish, ir, fl, rev) := by
  simp [orderedSet, h.training (by decide) (by decide), h.state, hv, lsCaps, lsAlign, lsRate]

theorem capValid_vmax {type vmax ish ir fl rev crc : Nat} (h : capValid type vmax ish ir fl rev crc = true) : vmax < 4 := by
  simp only [capValid, Bool.and_eq_true, decide_eq_true_eq] at h
  omega

theorem orderedSet_rtt {k : Nat} (h : TrainingIn s l lsRtt) (hk : k ≤ 10240) (hr : (s.link l).rtts < 3) :
    orderedSet s l (.rtt k) = (s.setFld PH_RTT_RTT (max k (s.fld PH_RTT_RTT l)) l).setLink l
      { s.link l with rtts := (s.link l).rtts + 1 } := by
  simp [orderedSet, h.training (by decide) (by decide), h.state, lsRtt, lsAlign, lsRate, lsCaps, Nat.not_lt.mpr hk, Nat.not_le.mpr hr]

/-- The words in which the stage's capabilities show (R119). -/
def capShown (s : State) (l : Nat) (c : Nat × Nat × Nat × Nat × Nat) : State :=
  ((((s.setFld PH_FXCAP_SVMAX c.1 l).setFld PH_FXCAP_ISH c.2.1 l).setFld PH_FXCAP_IRATED c.2.2.1 l).setFld
    PH_FXCAP_FLAGS c.2.2.2.1 l).setFld PH_FXCAP_STAGEREV c.2.2.2.2 l

theorem capShown_svmax {c : Nat × Nat × Nat × Nat × Nat} (hc : c.1 < 4) : (capShown s l c).fld PH_FXCAP_SVMAX l = c.1 := by
  simp (disch := decide) only [capShown, PH_FXCAP_SVMAX, PH_FXCAP_ISH, PH_FXCAP_IRATED, PH_FXCAP_FLAGS, PH_FXCAP_STAGEREV,
    fld_setFld_sameWord]
  exact fld_setFld_value rfl hc

/-- The version that capabilities `c` let the link choose (R120). -/
def versionChosen (s : State) (l : Nat) (c : Nat × Nat × Nat × Nat × Nat) : Nat := min c.1 (max 1 (s.link l).vmax)

/-- The capabilities show, and the version chosen is in the link's record (R120). -/
def capChosen (s : State) (l : Nat) (c : Nat × Nat × Nat × Nat × Nat) : State :=
  (capShown s l c).setLink l { s.link l with ver := versionChosen s l c }

/-- The eighth identical CAP set. -/
def capCounted (s : State) (l : Nat) (c : Nat × Nat × Nat × Nat × Nat) : State :=
  s.setLink l { s.link l with cap := some c, count := 8 }

/-- The step that a version leads to: FXL1 has no RATE (R118). -/
def stepAfterCaps (ver : Nat) : Nat := if ver = 1 then lsRtt else lsRate

theorem stepAfterCaps_spec (ver : Nat) : stepAfterCaps ver ≠ lsSetup ∧ stepAfterCaps ver < 16 := by
  unfold stepAfterCaps
  split <;> decide

theorem takeCap_eighth {c : Nat × Nat × Nat × Nat × Nat} (hcap : (s.link l).cap = some c) (hk : (s.link l).count = 7) (hc : 0 < c.1) :
    takeCap s l c = nextStep (capChosen (capCounted s l c) l c) l (stepAfterCaps (versionChosen (capCounted s l c) l c)) := by
  have h8 : (if (s.link l).cap = some c then (s.link l).count + 1 else 1) = 8 := by rw [if_pos hcap, hk]
  unfold takeCap
  dsimp only
  rw [h8, if_neg (by omega), if_neg (by omega)]
  rfl

theorem versionChosen_counted (s : State) (l : Nat) (c : Nat × Nat × Nat × Nat × Nat) :
    versionChosen (capCounted s l c) l c = min c.1 (max 1 (s.link l).vmax) := by
  rw [versionChosen, capCounted, link_setLink]

/-- The choice of the version shows in the stage's capabilities and in the step that follows (R119, R120). -/
theorem takeCap_chooses {c : Nat × Nat × Nat × Nat × Nat} (hcap : (s.link l).cap = some c) (hk : (s.link l).count = 7) (hc : 0 < c.1)
    (hc4 : c.1 < 4) : ((takeCap s l c).link l).ver = min c.1 (max 1 (s.link l).vmax) ∧ (takeCap s l c).fld PH_FXCAP_SVMAX l = c.1
      ∧ lstate (takeCap s l c) l = stepAfterCaps ((takeCap s l c).link l).ver := by
  obtain ⟨hset, h16⟩ := stepAfterCaps_spec (versionChosen (capCounted s l c) l c)
  have hver : ((takeCap s l c).link l).ver = versionChosen (capCounted s l c) l c := by
    rw [takeCap_eighth hcap hk hc, nextStep_link hset, capChosen, link_setLink]
  refine ⟨hver.trans (versionChosen_counted s l c), ?_, ?_⟩
  · rw [takeCap_eighth hcap hk hc, nextStep_eq hset, fld_setFld_word rfl, fld_setLink, capChosen, fld_setLink, capShown_svmax hc4]
  · rw [hver, takeCap_eighth hcap hk hc, nextStep_state hset h16]

end Sys2Proof.Machine
end

section
open Sys2Proof Sys2Proof.Machine

/-- Settles O32: each command begins an attempt, counts an ordered set, or ends the attempt, as the step of the training has it. -/
theorem trainingFollowsItsSteps : Obligations.TrainingFollowsItsSteps := by
  unfold Obligations.TrainingFollowsItsSteps
  intro l s hp hl
  refine ⟨fun hen hlock hgo => ?_, fun h => ?_, fun hs hr hd => ?_, fun vmax ish ir fl rev hcap crc hs hr hd hv hk h0 => ?_,
    fun k hs hr hd hk hrtt => ?_, fun hi => ?_⟩
  · have hm : mayTrain s l = true := mayTrain_iff.mpr ⟨hen, hlock, hgo⟩
    have hone : BeginsTraining s (startTraining s l 1) l 1 := startTraining_begins s l (by decide)
    refine ⟨fun hs => ⟨_, exec_trainingStart hp hl, ?_⟩, fun hs ha => ⟨_, exec_autortRetrain hp hl, ?_⟩,
      fun hw hi => ⟨_, exec_retrain hp hl hw hi hm, hone⟩, fun hr h3 => ⟨_, exec_trainingRetry hp hl, ?_⟩⟩
    · rwa [if_pos ⟨hs, hm⟩]
    · rwa [if_pos ⟨hs, ha, hm⟩]
    · rw [if_pos ⟨hr, hm⟩]
      exact startTraining_begins s l (by omega)
  · have hm : mayTrain s l = false := mayTrain_eq_false_iff.mpr h
    rw [exec_trainingStart hp hl, exec_autortRetrain hp hl, exec_trainingRetry hp hl]
    simp [hm]
  · have hin : TrainingIn s l lsAlign := ⟨hs, hr, hd⟩
    have hcaps : lsCaps ≠ lsSetup := by decide
    refine ⟨fun h => ⟨_, exec_orderedSet hp hl _, ?_⟩, fun h => ⟨_, exec_orderedSet hp hl _, ?_⟩, _, exec_orderedSet hp hl _, ?_⟩
    · rw [orderedSet_align hin, if_neg (by omega)]
      exact ⟨congrArg LinkH.count (link_setLink s l _), rfl⟩
    · rw [orderedSet_align hin, if_pos h]
      exact ⟨nextStep_state hcaps (by decide), congrArg LinkH.count (nextStep_link hcaps)⟩
    · rw [orderedSet_align_invalid hin]
      exact ⟨congrArg LinkH.count (link_setLink s l _), rfl⟩
  · refine ⟨_, exec_orderedSet hp hl _, ?_⟩
    rw [orderedSet_cap ⟨hs, hr, hd⟩ hv]
    exact takeCap_chooses hcap hk h0 (capValid_vmax hv)
  · refine ⟨_, exec_orderedSet hp hl _, ?_⟩
    have hw : s.fld PH_RTT_RTT l < 2 ^ 16 := Word.bits_lt _ _ _
    have hfits : max k (s.fld PH_RTT_RTT l) < 2 ^ 16 := max_lt (by omega) hw
    rw [orderedSet_rtt ⟨hs, hr, hd⟩ hk hrtt]
    rw [fld_setLink, link_setLink]
    exact ⟨fld_setFld_value rfl hfits, rfl⟩
  · exact ⟨fun h => ⟨_, exec_trainingTimeout hp hl hi, failAttempt_retries_shows h⟩,
      fun h => ⟨_, exec_trainingTimeout hp hl hi, failAttempt_last_shows h⟩⟩
end

section
/-! SUPPORT. The commands and register writes of a link: its enable and its drain (R125), and the commands that fall due (R108, R126). -/
namespace Sys2Proof.Machine

variable {s t : State} {l : Nat}

/-! ### Enable and drain -/

theorem linkEnable_on (h : s.flag PH_FXCTRL_EN l = false) : linkEnable s l true = s.setFlag PH_FXCTRL_EN true l := by
  simp [linkEnable, h]

theorem linkEnable_off (h : s.flag PH_FXCTRL_EN l = true) : linkEnable s l false = linkStop (s.setFlag PH_FXCTRL_EN false l) l := by
  simp [linkEnable, h]

/-- The link's record as a drain begins: four frames without drive while UP, then link resets (R125). -/
def drainRecord (s : State) (l : Nat) : LinkH :=
  { s.link l with draining := if lstate s l = lsUp then 5 else 1, retry := false, cmds := [], sent := [], fencing := 0 }

theorem linkDrain_begins (hs : lstate s l ≠ lsDown) (hd : (s.link l).draining = 0) : linkDrain s l = s.setLink l (drainRecord s l) :=
  if_neg fun h => h.elim hs fun hne => hne hd

/-- A drain has begun, and the commands that waited are gone (R108, R125). -/
theorem linkStop_drains (hs : lstate s l ≠ lsDown) (hd : (s.link l).draining = 0) :
    ((linkStop s l).link l).draining = (if lstate s l = lsUp then 5 else 1) ∧ ((linkStop s l).link l).cmds = []
      ∧ (linkStop s l).flag PH_FXCTRL_EN l = s.flag PH_FXCTRL_EN l := by
  unfold linkStop
  extract_lets a
  have ha : LinksKept (wordsOf [] l) s a := .ite (linkFence_keeps s l) (.refl s)
  have hstate : lstate a l = lstate s l := ha.fld rfl rfl
  rw [linkDrain_begins (hstate ▸ hs) ((ha.draining l).trans hd), link_setLink, ← hstate]
  exact ⟨rfl, rfl, ha.flag rfl rfl⟩

/-- A link that is not UP has no phase in service. -/
theorem linkStop_notUp (hs : lstate s l ≠ lsUp) : linkStop s l = linkDrain s l := by
  unfold linkStop
  rw [if_neg fun h => hs h.2]

theorem linkDrain_regs (s : State) (l : Nat) : (linkDrain s l).regs = s.regs := by
  unfold linkDrain
  split <;> rfl

theorem lstate_setEn (s : State) (l : Nat) (b : Bool) : lstate (s.setFlag PH_FXCTRL_EN b l) l = lstate s l := fld_setFld_word rfl

theorem exec_linkEnWrite {l : Fin 72} (hp : s.powered (linkDomain l) = true) (hl : 64 ≤ l.val ∨ s.phPresent l = true)
    (hw : s.writesOpen = true) (en : Bool) : exec (.linkEnWrite l en) s = .next (linkEnable s l en) :=
  onLink_written hp hl hw

/-- EN written 0 starts the drain; off UP it writes FXCTRL and nothing else of the registers (R125). -/
theorem linkEnable_off_drains (he : s.flag PH_FXCTRL_EN l = true) (hs : lstate s l ≠ lsDown) (hd : (s.link l).draining = 0) :
    (linkEnable s l false).flag PH_FXCTRL_EN l = false ∧ ((linkEnable s l false).link l).draining = (if lstate s l = lsUp then 5 else 1)
      ∧ ((linkEnable s l false).link l).cmds = []
      ∧ (lstate s l ≠ lsUp → SameRegs s (linkEnable s l false) [PH_FXCTRL.addr l]) := by
  have hstate : lstate (s.setFlag PH_FXCTRL_EN false l) l = lstate s l := lstate_setEn s l false
  have hoff : (s.setFlag PH_FXCTRL_EN false l).flag PH_FXCTRL_EN l = false := flag_setFlag_same _ _ _ _ (by decide) (by decide)
  have hdown : lstate (s.setFlag PH_FXCTRL_EN false l) l ≠ lsDown := hstate ▸ hs
  rw [linkEnable_off he]
  obtain ⟨hdrain, hcmds, hen⟩ := linkStop_drains hdown hd
  rw [hstate] at hdrain
  refine ⟨hen.trans hoff, hdrain, hcmds, fun hup k hk => ?_⟩
  rw [linkStop_notUp (hstate ▸ hup), linkDrain_regs]
  exact SameRegs.setFld s PH_FXCTRL_EN _ l k hk

theorem exec_linkDrainEnd {l : Fin 72} (hp : s.powered (linkDomain l) = true) : exec (.linkDrainEnd l) s = .next (linkDrainEnd s l) := by
  have he : exec (.linkDrainEnd l) s = s.on (linkDomain l) (linkDrainEnd s l) := rfl
  rw [he, State.on, if_pos hp]

/-- What the end of a drain shows (R125): DOWN, no version, ABORTED. -/
theorem linkDrainEnd_shows (hd : (s.link l).draining ≠ 0) : lstate (linkDrainEnd s l) l = lsDown ∧ (linkDrainEnd s l).fld PH_FXSTAT_VER l = 0
    ∧ (linkDrainEnd s l).flag PH_EVT_ABORTED l = true ∧ ((linkDrainEnd s l).link l).draining = 0 := by
  unfold linkDrainEnd
  rw [if_neg hd]
  extract_lets h prev a
  have ha : (a.link l).draining = 0 := congrArg LinkH.draining (link_setLink s l _)
  clear_value a
  refine ⟨?_, ?_, flag_event_same _ _ _ (by decide) (by decide), ha⟩
  · simp (disch := decide) only [lstate, event_eq, PH_FXSTAT_LSTATE, PH_FXSTAT_VER, fld_setFld_word, fld_setFld_sameWord]
    exact fld_setFld_value rfl (by decide)
  · simp (disch := decide) only [event_eq, fld_setFld_word]
    exact fld_setFld_value rfl (by decide)

/-! ### Commands that fall due -/

/-- The link's record once a command has fallen due on it (R108). -/
def dueRecord (h : LinkH) (code arg : Nat) : LinkH := { h with cmds := dueCmd { code := code, arg := arg, due := h.window } h.cmds }

theorem sendCmd_up (hs : lstate s l = lsUp) (code arg : Nat) : sendCmd s l code arg = s.setLink l (dueRecord (s.link l) code arg) := by
  rw [sendCmd, if_pos hs, queueCmd, if_pos (.inl hs)]
  rfl

theorem sendCmd_notUp (hs : lstate s l ≠ lsUp) (code arg : Nat) : sendCmd s l code arg = s := if_neg hs

theorem sendCmd_link (s : State) (l code arg : Nat) :
    (sendCmd s l code arg).link l = if lstate s l = lsUp then dueRecord (s.link l) code arg else s.link l := by
  split
  next hs => rw [sendCmd_up hs, link_setLink]
  next hs => rw [sendCmd_notUp hs]

theorem sendCmd_regs (s : State) (l code arg : Nat) : (sendCmd s l code arg).regs = s.regs := by
  unfold sendCmd queueCmd
  simp only [apply_ite State.regs, setLink_regs, ite_self]

/-- CLRFLT alone in a word of FXCMD. -/
theorem writeFxcmd_clrflt (s : State) (l : Nat) (st : Status) : (writeFxcmd s l 2 false st).1 = sendCmd s l cmdClrflt 0 := by
  have h0 : Word.bit 2 0 = false := by decide
  have h1 : Word.bit 2 1 = true := by decide
  have h2 : Word.bit 2 2 = false := by decide
  simp only [writeFxcmd, linkClrflt, h0, h1, h2, if_true, Bool.false_eq_true, if_false]
  split
  next hs => rw [sendCmd_notUp hs]
  next => rfl

theorem exec_clrflt {l : Fin 72} (hp : s.powered (linkDomain l) = true) (hl : 64 ≤ l.val ∨ s.phPresent l = true)
    (hw : s.writesOpen = true) (hi : StageIdle s l) : exec (.clrflt l) s = .next (sendCmd s l cmdClrflt 0) := by
  have he : exec (.clrflt l) s = s.onLink l (s.ifWritable (anyLinkWrite s l 6 2).1) := rfl
  obtain ⟨st, hst⟩ := anyLinkWrite_fxcmd hi 2
  rw [he, onLink_written hp hl hw, hst, writeFxcmd_clrflt]

theorem exec_pklimWrite {l : Fin 72} (hp : s.powered (linkDomain l) = true) (hl : 64 ≤ l.val ∨ s.phPresent l = true)
    (hw : s.writesOpen = true) (w : Word) : exec (.pklimWrite l w) s = .next (writePklim s l w) :=
  onLink_written hp hl hw

theorem Word.bits_low (w : Word) : Word.bits w 15 0 = w.toNat % 65536 := rfl

/-- PKLIM takes the low half of the word, and in UP SETLIM falls due with it (R108). -/
theorem writePklim_shows (s : State) (l : Nat) (w : Word) : (writePklim s l w).fld PH_PKLIM_PKLIM l = w.toNat % 65536
    ∧ (writePklim s l w).link l = (if lstate s l = lsUp then dueRecord (s.link l) cmdSetlim (w.toNat % 65536) else s.link l)
    ∧ SameRegs s (writePklim s l w) [PH_PKLIM.addr l] := by
  have hstate : lstate (s.plainWrite PH_PKLIM w l) l = lstate s l := fld_setReg_ne s _ (Reg.besideWord_addr (r' := PH_FXSTAT) rfl l)
  have hlink : (s.plainWrite PH_PKLIM w l).link l = s.link l := rfl
  unfold writePklim
  refine ⟨?_, ?_, fun k hk => ?_⟩
  · rw [fld_congr (sendCmd_regs _ _ _ _), State.fld, State.plainWrite]
    refine (congrArg (Word.bits · 15 0) (reg_setReg_same s PH_PKLIM _ l)).trans ?_
    exact (Word.bits_setBits_same _ _ (by decide)).trans (Nat.mod_mod _ _)
  · rw [sendCmd_link, hstate, hlink, Word.bits_low]
  · rw [sendCmd_regs]
    exact SameRegs.setReg s PH_PKLIM _ l k hk

/-! ### Counters, windows and resends -/

theorem exec_phClrcnt {l : Fin 72} (hp : s.powered (linkDomain l) = true) (hl : 64 ≤ l.val ∨ s.phPresent l = true)
    (hw : s.writesOpen = true) : exec (.phClrcnt l) s = .next (linkClrcnt s l) :=
  onLink_written hp hl hw

theorem linkClrcnt_counts (s : State) (l : Nat) : (linkClrcnt s l).fld PH_ERRCNT_COUNT l = 0 ∧ (linkClrcnt s l).fld PH_DNERRCNT_COUNT l = 0
    ∧ (linkClrcnt s l).fld PH_LOSSCNT_COUNT l = 0 := by
  simp (disch := decide) only [linkClrcnt, setFlag_eq, fld_setFld_word]
  exact ⟨fld_setFld_value rfl (by decide), fld_setFld_value rfl (by decide), fld_setFld_value rfl (by decide)⟩

theorem linkClrcnt_state (s : State) (l : Nat) : lstate (linkClrcnt s l) l = lstate s l := by
  simp (disch := decide) only [lstate, linkClrcnt, setFlag_eq, PH_FXSTAT_LSTATE, PH_FXSTAT_LOSSSAT, PH_FXSTAT_DNSAT, PH_FXSTAT_ERRSAT,
    fld_setFld_sameWord, fld_setFld_word]

theorem linkClrcnt_regsOnly (s : State) (l : Nat) :
    RegsOnly s (linkClrcnt s l) [PH_ERRCNT.addr l, PH_DNERRCNT.addr l, PH_LOSSCNT.addr l, PH_FXSTAT.addr l] := by
  unfold linkClrcnt
  simp only [setFlag_eq]
  have herr := (RegsOnly.refl s [PH_ERRCNT.addr l, PH_DNERRCNT.addr l, PH_LOSSCNT.addr l, PH_FXSTAT.addr l]).setFld (f := PH_ERRCNT_COUNT) 0
    (n := l) (by simp [PH_ERRCNT_COUNT])
  have hdn := herr.setFld (f := PH_DNERRCNT_COUNT) 0 (n := l) (by simp [PH_DNERRCNT_COUNT])
  have hloss := hdn.setFld (f := PH_LOSSCNT_COUNT) 0 (n := l) (by simp [PH_LOSSCNT_COUNT])
  have hlosssat := hloss.setFld (f := PH_FXSTAT_LOSSSAT) false.toNat (n := l) (by simp [PH_FXSTAT_LOSSSAT])
  have hdnsat := hlosssat.setFld (f := PH_FXSTAT_DNSAT) false.toNat (n := l) (by simp [PH_FXSTAT_DNSAT])
  exact hdnsat.setFld (f := PH_FXSTAT_ERRSAT) false.toNat (n := l) (by simp [PH_FXSTAT_ERRSAT])

theorem exec_errlimWindow {l : Fin 72} (hp : s.powered (linkDomain l) = true) (hl : 64 ≤ l.val ∨ s.phPresent l = true) :
    exec (.errlimWindow l) s = .next (s.setLink l { s.link l with winBad := 0 }) :=
  onLink_present hp hl

theorem exec_commandResend {l : Fin 72} (hp : s.powered (linkDomain l) = true) (hl : 64 ≤ l.val ∨ s.phPresent l = true) :
    exec (.commandResend l) s = .next (commandResend s l) :=
  onLink_present hp hl

theorem commandResend_again {x : LinkCmd} {rest : List LinkCmd} (h : (s.link l).sent = x :: rest) (hx : x.resends < 3) :
    commandResend s l = s.setLink l { s.link l with sent := rest, cmds := { x with resends := x.resends + 1 } :: (s.link l).cmds } := by
  simp only [commandResend, h, if_pos hx]

/-- After the third resend a link in UP is lost (R108). -/
theorem commandResend_fails {x : LinkCmd} {rest : List LinkCmd} (h : (s.link l).sent = x :: rest) (hx : 3 ≤ x.resends)
    (hs : lstate s l = lsUp) : commandResend s l = anyLinkLost (s.event PH_EVT_CMDFAIL l) l := by
  have hs' : lstate (s.event PH_EVT_CMDFAIL l) l = lsUp := (fld_setFld_word rfl).trans hs
  simp only [commandResend, h, if_neg (Nat.not_lt.mpr hx), if_pos hs']

end Sys2Proof.Machine
end

section
open Sys2Proof Sys2Proof.Machine

/-- Settles O33: with writes open each register write does its one thing to the link, with writes shut none; the ends of drains and windows
and the resends act in either case. -/
theorem linkCommandsAct : Obligations.LinkCommandsAct := by
  unfold Obligations.LinkCommandsAct
  intro l w s hp hl
  refine ⟨fun hw => ⟨fun he => ?_, fun he hs hd => ?_, ?_, fun hi => ⟨fun hs => ?_, fun hs => ?_⟩, ?_⟩, fun hw en => ?_, fun hd => ?_, ?_,
    fun x rest hsent => ⟨fun hx => ?_, fun hx hs => ?_⟩⟩
  · refine ⟨_, exec_linkEnWrite hp hl hw true, ?_⟩
    rw [linkEnable_on he]
    exact ⟨flag_setFlag_same _ _ _ _ (by decide) (by decide), (RegsOnly.refl s _).setFld _ (by simp [PH_FXCTRL_EN])⟩
  · exact ⟨_, exec_linkEnWrite hp hl hw false, linkEnable_off_drains he hs hd⟩
  · exact ⟨_, exec_pklimWrite hp hl hw w, writePklim_shows s l w⟩
  · refine ⟨_, exec_clrflt hp hl hw hi, ?_, sendCmd_regs _ _ _ _⟩
    rw [sendCmd_link, if_pos hs]
    rfl
  · rw [exec_clrflt hp hl hw hi, sendCmd_notUp hs]
  · obtain ⟨herr, hdn, hloss⟩ := linkClrcnt_counts s l
    exact ⟨_, exec_phClrcnt hp hl hw, herr, hdn, hloss, flag_setFlag_same _ _ _ _ (by decide) (by decide), linkClrcnt_state s l,
      linkClrcnt_regsOnly s l⟩
  · exact ⟨onLink_shut hw, onLink_shut hw, onLink_shut hw, onLink_shut hw, onLink_shut hw⟩
  · exact ⟨_, exec_linkDrainEnd hp, linkDrainEnd_shows hd⟩
  · exact ⟨_, exec_errlimWindow hp hl, link_setLink s l _, rfl⟩
  · refine ⟨_, exec_commandResend hp hl, ?_⟩
    rw [commandResend_again hsent hx]
    exact ⟨link_setLink s l _, rfl⟩
  · refine ⟨_, exec_commandResend hp hl, ?_⟩
    rw [commandResend_fails hsent hx hs]
    have hs' : lstate (s.event PH_EVT_CMDFAIL l) l = lsUp := (fld_setFld_word rfl).trans hs
    obtain ⟨hlost, hfail⟩ := anyLinkLost_lost hs'
    exact ⟨hlost.state, hfail.trans (flag_event_same _ _ _ (by decide) (by decide))⟩
end

section
/-! SUPPORT. The fields of a downstream frame (R104, R113). -/
namespace Sys2Proof.Machine

/-! ### Check codes -/

theorem crcBit_lt {w poly : Nat} (hp : poly < 2 ^ w) (acc : Nat) (b : Bool) : crcBit w poly acc b < 2 ^ w := by
  have hm : acc * 2 % 2 ^ w < 2 ^ w := Nat.mod_lt _ (Nat.two_pow_pos w)
  unfold crcBit
  dsimp only
  split
  · exact Nat.xor_lt_two_pow hm hp
  · exact hm

theorem crcBits_lt {w poly : Nat} (hp : poly < 2 ^ w) (k v : Nat) {acc : Nat} (ha : acc < 2 ^ w) : crcBits w poly k v acc < 2 ^ w := by
  induction k generalizing acc with
  | zero => exact ha
  | succ k ih => exact ih (crcBit_lt hp acc _)

theorem crc8_lt (k v : Nat) : crc8 k v < 2 ^ 8 := Nat.xor_lt_two_pow (crcBits_lt (by decide) k v (by decide)) (by decide)

theorem crc16_lt (k v : Nat) : crc16 k v < 2 ^ 16 := crcBits_lt (by decide) k v (by decide)

/-! ### The bits of a frame -/

theorem fbits_eq (f : BitVec 64) (hi lo : Nat) : fbits f hi lo = f.toNat / 2 ^ lo % 2 ^ (hi + 1 - lo) := by
  rw [fbits, Nat.shiftRight_eq_div_pow]

/-- A field within a field. -/
theorem fbits_within (f : BitVec 64) {hi lo hi' lo' : Nat} (hlo : lo ≤ lo') (hle : lo' ≤ hi') (hhi : hi' ≤ hi) :
    fbits f hi' lo' = fbits f hi lo / 2 ^ (lo' - lo) % 2 ^ (hi' + 1 - lo') := by
  have hsum : lo + (lo' - lo) = lo' := by omega
  have hsum' : lo' - lo + (hi + 1 - lo') = hi + 1 - lo := by omega
  have hdvd : 2 ^ (hi' + 1 - lo') ∣ 2 ^ (hi + 1 - lo') := Nat.pow_dvd_pow 2 (by omega)
  rw [fbits_eq, fbits_eq, ← hsum', Nat.pow_add, Nat.mod_mul_right_div_self, Nat.div_div_eq_div_mul, ← Nat.pow_add, hsum,
    Nat.mod_mod_of_dvd _ hdvd]

variable {f : BitVec 64} {w lo : Nat}

theorem edgeField_none (h : fbits f (lo + w + 1) lo = edgeBits w none) : fbits f (lo + w + 1) (lo + w + 1) = 0 := by
  rw [fbits_within f (hi := lo + w + 1) (lo := lo) (by omega) (by omega) (by omega), h]
  exact (congrArg (· % _) (Nat.zero_div _)).trans (Nat.zero_mod _)

/-- An edge field shows its edge: present, its level, and its offset. -/
theorem edgeField_some {v : Bool} {k : Nat} (hw : 0 < w) (h : fbits f (lo + w + 1) lo = edgeBits w (some (v, k))) (hk : k < 2 ^ w) :
    fbits f (lo + w + 1) (lo + w + 1) = 1 ∧ fbits f (lo + w) (lo + w) = v.toNat ∧ fbits f (lo + w - 1) lo = k := by
  have hpos := Nat.two_pow_pos w
  have hb : edgeBits w (some (v, k)) = k + 2 ^ w * (2 + v.toNat) := by
    show 2 ^ (w + 1) + v.toNat * 2 ^ w + k % 2 ^ w = _
    rw [Nat.mod_eq_of_lt hk, Nat.pow_succ]
    ring
  have hdiv : edgeBits w (some (v, k)) / 2 ^ w = 2 + v.toNat := by
    rw [hb, Nat.add_mul_div_left _ _ hpos, Nat.div_eq_of_lt hk, Nat.zero_add]
  have hv : v.toNat < 2 := Bool.toNat_lt v
  refine ⟨?_, ?_, ?_⟩
  · rw [fbits_within f (hi := lo + w + 1) (lo := lo) (by omega) (by omega) (by omega), h, show lo + w + 1 - lo = w + 1 by omega,
      Nat.pow_succ, ← Nat.div_div_eq_div_mul, hdiv, show lo + w + 1 + 1 - (lo + w + 1) = 1 by omega]
    omega
  · rw [fbits_within f (hi := lo + w + 1) (lo := lo) (by omega) (by omega) (by omega), h, show lo + w - lo = w by omega, hdiv,
      show lo + w + 1 - (lo + w) = 1 by omega]
    omega
  · rw [fbits_within f (hi := lo + w + 1) (lo := lo) (by omega) (by omega) (by omega), h, hb, Nat.sub_self, Nat.pow_zero, Nat.div_one,
      show lo + w - 1 + 1 - lo = w by omega, Nat.add_mul_mod_self_left, Nat.mod_eq_of_lt hk]

/-! ### The frame's fields -/

theorem edgeBits_lt (w : Nat) (e : FrameEdge) : edgeBits w e < 4 * 2 ^ w := by
  have hpos := Nat.two_pow_pos w
  cases e with
  | none => exact Nat.mul_pos (by decide) hpos
  | some x =>
    obtain ⟨v, k⟩ := x
    have hk : k % 2 ^ w < 2 ^ w := Nat.mod_lt _ hpos
    have hp : 2 ^ (w + 1) = 2 * 2 ^ w := Nat.pow_succ'
    have hv : v.toNat * 2 ^ w ≤ 1 * 2 ^ w := Nat.mul_le_mul_right _ (Bool.toNat_le v)
    show 2 ^ (w + 1) + v.toNat * 2 ^ w + k % 2 ^ w < 4 * 2 ^ w
    omega

/-- The width of an edge's offset (R104). -/
def edgeWidth (ver : Nat) : Nat := if ver = 1 then 10 else 9

theorem edgeWidth_cases (ver : Nat) : edgeWidth ver = 10 ∨ edgeWidth ver = 9 := by
  unfold edgeWidth
  split
  · exact .inl rfl
  · exact .inr rfl

theorem frameTicks_eq (ver : Nat) : frameTicks ver = 2 ^ edgeWidth ver := by
  unfold frameTicks edgeWidth
  split <;> rfl

/-- A frame above its check code. -/
def frameHead (w seq : Nat) (e0 e1 : FrameEdge) (drv cmd arg : Nat) : Nat :=
  ((((seq % 16 * 2 ^ (w + 2) + edgeBits w e0) * 2 ^ (w + 2) + edgeBits w e1) * 4 + drv % 4) * 16 + cmd % 16) * 2 ^ 16 + arg % 2 ^ 16

/-- The check code of a frame whose head, with the check's bits at zero, is `v` (R113). -/
def frameCheck (ver v : Nat) : Nat := if ver = 3 then crc16 48 (v / 2 ^ 16) else crc8 56 (v / 2 ^ 8)

theorem downFrame_eq (ver seq : Nat) (e0 e1 : FrameEdge) (drv cmd arg : Nat) :
    downFrame ver seq e0 e1 drv cmd arg = BitVec.ofNat 64
      (frameHead (edgeWidth ver) seq e0 e1 drv cmd arg * 2 ^ (34 - 2 * edgeWidth ver)
        + frameCheck ver (frameHead (edgeWidth ver) seq e0 e1 drv cmd arg * 2 ^ (34 - 2 * edgeWidth ver))) := by
  unfold downFrame edgeWidth
  split <;> rfl

/-- The frame `f` carries its fields, the offsets of its edges `w` bits wide (R104). -/
structure DownFields (w : Nat) (f : BitVec 64) (seq : Nat) (e0 e1 : FrameEdge) (drv cmd arg : Nat) : Prop where
  seq : fbits f 63 60 = seq % 16
  edge0 : fbits f 59 (58 - w) = edgeBits w e0
  edge1 : fbits f (57 - w) (56 - 2 * w) = edgeBits w e1
  drv : fbits f (55 - 2 * w) (54 - 2 * w) = drv % 4
  cmd : fbits f (53 - 2 * w) (50 - 2 * w) = cmd % 16
  arg : fbits f (49 - 2 * w) (34 - 2 * w) = arg % 2 ^ 16

variable {ver seq drv cmd arg c : Nat} {e0 e1 : FrameEdge}

theorem downFields_of_toNat (hw : w = 10 ∨ w = 9) (hc : c < 2 ^ (34 - 2 * w))
    (h : f.toNat = frameHead w seq e0 e1 drv cmd arg * 2 ^ (34 - 2 * w) + c) : DownFields w f seq e0 e1 drv cmd arg := by
  have h0 := edgeBits_lt w e0
  have h1 := edgeBits_lt w e1
  unfold frameHead at h
  rcases hw with rfl | rfl <;> constructor <;> rw [fbits_eq, h] <;> omega

theorem frameHead_lt (hw : w = 10 ∨ w = 9) : frameHead w seq e0 e1 drv cmd arg * 2 ^ (34 - 2 * w) + 2 ^ (34 - 2 * w) ≤ 2 ^ 64 := by
  have h0 := edgeBits_lt w e0
  have h1 := edgeBits_lt w e1
  unfold frameHead
  rcases hw with rfl | rfl <;> omega

theorem frameCheck_lt (ver v : Nat) : frameCheck ver v < 2 ^ (34 - 2 * edgeWidth ver) := by
  have h8 := crc8_lt 56 (v / 2 ^ 8)
  have h16 := crc16_lt 48 (v / 2 ^ 16)
  unfold frameCheck edgeWidth
  split
  next h3 => rwa [if_neg (by omega)]
  next => split <;> omega

theorem downFrame_toNat (ver seq : Nat) (e0 e1 : FrameEdge) (drv cmd arg : Nat) :
    (downFrame ver seq e0 e1 drv cmd arg).toNat = frameHead (edgeWidth ver) seq e0 e1 drv cmd arg * 2 ^ (34 - 2 * edgeWidth ver)
      + frameCheck ver (frameHead (edgeWidth ver) seq e0 e1 drv cmd arg * 2 ^ (34 - 2 * edgeWidth ver)) := by
  have hh := frameHead_lt (seq := seq) (e0 := e0) (e1 := e1) (drv := drv) (cmd := cmd) (arg := arg) (edgeWidth_cases ver)
  have hc := frameCheck_lt ver (frameHead (edgeWidth ver) seq e0 e1 drv cmd arg * 2 ^ (34 - 2 * edgeWidth ver))
  rw [downFrame_eq, BitVec.toNat_ofNat, Nat.mod_eq_of_lt (by omega)]

theorem downFrame_fields (ver seq : Nat) (e0 e1 : FrameEdge) (drv cmd arg : Nat) :
    DownFields (edgeWidth ver) (downFrame ver seq e0 e1 drv cmd arg) seq e0 e1 drv cmd arg :=
  downFields_of_toNat (edgeWidth_cases ver) (frameCheck_lt ver _) (downFrame_toNat ..)

/-- A frame with CRC-8 has zeros between its fields and the code, which covers all above it (R113). -/
theorem downFrame_crc8 (h3 : ver ≠ 3) (hf : f = downFrame ver seq e0 e1 drv cmd arg) :
    fbits f (33 - 2 * edgeWidth ver) 8 = 0 ∧ fbits f 7 0 = crc8 56 (f.toNat / 2 ^ 8) := by
  have hn := downFrame_toNat ver seq e0 e1 drv cmd arg
  rw [← hf, frameCheck, if_neg h3] at hn
  generalize frameHead (edgeWidth ver) seq e0 e1 drv cmd arg = v at hn
  have hlt := crc8_lt 56 (v * 2 ^ (34 - 2 * edgeWidth ver) / 2 ^ 8)
  have hcover : f.toNat / 2 ^ 8 = v * 2 ^ (34 - 2 * edgeWidth ver) / 2 ^ 8 := by
    rcases edgeWidth_cases ver with hw | hw <;> rw [hw] at hn hlt ⊢ <;> omega
  rw [hcover, fbits_eq, fbits_eq]
  rcases edgeWidth_cases ver with hw | hw <;> rw [hw] at hn hlt ⊢ <;> omega

/-- A frame with CRC-16 ends in the code, which covers all above it (R113). -/
theorem downFrame_crc16 (hf : f = downFrame 3 seq e0 e1 drv cmd arg) : fbits f 15 0 = crc16 48 (f.toNat / 2 ^ 16) := by
  have hn := downFrame_toNat 3 seq e0 e1 drv cmd arg
  have hw : edgeWidth 3 = 9 := rfl
  rw [← hf, frameCheck, if_pos rfl, hw] at hn
  generalize frameHead 9 seq e0 e1 drv cmd arg = v at hn
  have hlt := crc16_lt 48 (v * 2 ^ (34 - 2 * 9) / 2 ^ 16)
  have hcover : f.toNat / 2 ^ 16 = v * 2 ^ (34 - 2 * 9) / 2 ^ 16 := by omega
  rw [hcover, fbits_eq]
  omega

/-- The edge's offset lies within its frame. -/
def EdgeFits (w : Nat) (e : FrameEdge) : Prop := ∀ v k, e = some (v, k) → k < 2 ^ w

theorem edgeFits_none (w : Nat) : EdgeFits w none := fun _ _ h => by cases h

theorem edgeFits_some {v : Bool} {k : Nat} (h : k < 2 ^ w) : EdgeFits w (some (v, k)) := fun _ _ he => by cases he; exact h

/-- The field at bit `lo` of frame `f` shows an edge, its offset `w` bits wide, or that there is none (R104). -/
def EdgeShown (f : BitVec 64) (lo w : Nat) : FrameEdge → Prop
  | none => fbits f (lo + w + 1) (lo + w + 1) = 0
  | some (v, k) => fbits f (lo + w + 1) (lo + w + 1) = 1 ∧ fbits f (lo + w) (lo + w) = v.toNat ∧ fbits f (lo + w - 1) lo = k

theorem edgeShown_of_field {e : FrameEdge} (hw : 0 < w) (h : fbits f (lo + w + 1) lo = edgeBits w e) (hfit : EdgeFits w e) :
    EdgeShown f lo w e := by
  cases e with
  | none => exact edgeField_none h
  | some x => exact edgeField_some hw h (hfit x.1 x.2 rfl)

/-- A frame that carries DRV switching drives the edges of its fields. -/
theorem DownFields.drives (h : DownFields (edgeWidth ver) f seq e0 e1 1 cmd arg) (h0 : EdgeFits (edgeWidth ver) e0)
    (h1 : EdgeFits (edgeWidth ver) e1) : drivesEdges ver f e0 e1 := by
  obtain ⟨-, hedge0, hedge1, hdrv, -, -⟩ := h
  unfold drivesEdges
  by_cases hv : ver = 1
  · have hw : edgeWidth ver = 10 := if_pos hv
    rw [hw] at hedge0 hedge1 hdrv h0 h1
    simp only [if_pos hv]
    exact ⟨hdrv, edgeShown_of_field (lo := 48) (w := 10) (by decide) hedge0 h0, edgeShown_of_field (lo := 36) (w := 10) (by decide) hedge1 h1⟩
  · have hw : edgeWidth ver = 9 := if_neg hv
    rw [hw] at hedge0 hedge1 hdrv h0 h1
    simp only [if_neg hv]
    exact ⟨hdrv, edgeShown_of_field (lo := 49) (w := 9) (by decide) hedge0 h0, edgeShown_of_field (lo := 38) (w := 9) (by decide) hedge1 h1⟩

end Sys2Proof.Machine
end

section
/-! SUPPORT. The frame that a link assembles (R102, R106, R108): the command it takes, and the edges of its phase. -/
namespace Sys2Proof.Machine

variable {s t : State} {l n b c a p0 w len : Nat} {h : LinkH}

/-! ### Sending -/

theorem exec_downstreamFrame {l : Fin 72} (hp : s.powered (linkDomain l) = true) (hl : 64 ≤ l.val ∨ s.phPresent l = true)
    (hb : frameDue (s.link l) b = true) :
    exec (.downstreamFrame l b) s = .next (if l.val < 64 then phaseFrame s l b else bridgeFrame s l b) := by
  have he : exec (.downstreamFrame l b) s = execDownstreamFrame l b s := rfl
  rw [he, execDownstreamFrame, hb]
  exact onLink_present hp hl

theorem sendFrame_link (s : State) (l : Nat) (h : LinkH) (b : Nat) (e0 e1 : FrameEdge) (drv cmd arg : Nat) :
    (sendFrame s l h b e0 e1 drv cmd arg).link l = { h with frame := downFrame h.ver h.txSeq e0 e1 drv cmd arg, txSeq := (h.txSeq + 1) % 16,
                                                            window := b, framed := true } :=
  link_setLink s l _

/-- Command `c` with argument `a` is the oldest that waits on the link, or none waits and both are 0 (R108). -/
def OldestCmd (h : LinkH) (c a : Nat) : Prop := h.cmds = [] ∧ c = 0 ∧ a = 0 ∨ ∃ x rest, h.cmds = x :: rest ∧ c = x.code ∧ a = x.arg

/-- The link's record once its oldest command goes out. -/
def takenRecord (h : LinkH) : LinkH := (takeCmd h).1

theorem takeCmd_oldest (hc : OldestCmd h c a) : takeCmd h = (takenRecord h, c, a) := by
  unfold takenRecord takeCmd
  rcases hc with ⟨h0, rfl, rfl⟩ | ⟨x, rest, h0, rfl, rfl⟩ <;> rw [h0]

theorem takenRecord_eq (h : LinkH) : takenRecord h = { h with cmds := h.cmds.tail, sent := (takenRecord h).sent } := by
  unfold takenRecord takeCmd
  cases h0 : h.cmds with
  | nil =>
    show h = { h with cmds := ([] : List LinkCmd), sent := h.sent }
    rw [← h0]
  | cons x rest => rfl

/-! ### A frame in SETUP -/

/-- In SETUP a frame carries the oldest command and no edge, on either kind of link (R106, R118). -/
theorem exec_setupFrame {l : Fin 72} (hp : s.powered (linkDomain l) = true) (hl : 64 ≤ l.val ∨ s.phPresent l = true)
    (hb : frameDue (s.link l) b = true) (hs : lstate s l = lsSetup) (hd : (s.link l).draining = 0) (hc : OldestCmd (s.link l) c a) :
    exec (.downstreamFrame l b) s = .next (sendFrame s l (takenRecord (s.link l)) b none none 0 c a) := by
  have hup : lsSetup ≠ lsUp := by decide
  have hlost : lsSetup ≠ lsLost := by decide
  have hphase : phaseFrame s l b = sendFrame s l (takenRecord (s.link l)) b none none 0 c a := by
    simp [phaseFrame, hs, hd, hlost, takeCmd_oldest hc]
  have hbridge : bridgeFrame s l b = phaseFrame s l b := by simp [bridgeFrame, hs, hup]
  rw [exec_downstreamFrame hp hl hb, hbridge, ite_self, hphase]

/-! ### The edges of a phase -/

/-- The record `g` of a link has the version and the sequence of `h`. -/
def LinkH.Numbered (h g : LinkH) : Prop := g.ver = h.ver ∧ g.txSeq = h.txSeq

theorem LinkH.Numbered.iteFst {h : LinkH} {α : Type} {q : Prop} [Decidable q] {x y : LinkH × α} (hx : h.Numbered x.1)
    (hy : h.Numbered y.1) : h.Numbered (if q then x else y).1 := by
  split <;> assumption

theorem LinkH.Numbered.placeRise {h g : LinkH} (hg : h.Numbered g) (p0 r per : Nat) (pulse : Bool) :
    h.Numbered (g.placeRise p0 r per pulse) := by
  unfold LinkH.placeRise
  dsimp only
  split <;> exact hg

theorem LinkH.Numbered.placeFall {h g : LinkH} (hg : h.Numbered g) : h.Numbered g.placeFall := by
  unfold LinkH.placeFall
  split <;> exact hg

/-- The edges leave the link's version and its sequence. -/
theorem phaseEdges_numbered (s : State) (n l w len : Nat) (h : LinkH) : h.Numbered (phaseEdges s n l w len h).1 := by
  have hself : h.Numbered h := ⟨rfl, rfl⟩
  have hrise (p0 r per : Nat) (pulse : Bool) : h.Numbered (h.placeRise p0 r per pulse) := hself.placeRise ..
  unfold phaseEdges
  split
  · exact hself
  · dsimp only
    split
    · exact .iteFst (.iteFst (hrise ..) (.iteFst (hrise ..).placeFall (hrise ..).placeFall)) (.iteFst hself.placeFall hself)
    · exact .iteFst hself (.iteFst (hrise ..) (.iteFst (hrise ..) (hrise ..)))

/-- With no pulse in progress, and the period's rising edge placed already or past the window, nothing is placed. -/
theorem phaseEdges_rest (hp : (s.rail n).start = some p0) (hr : h.rise = none)
    (hf : h.placed = some p0 ∨ w + len ≤ max w (riseTick s n l p0)) : phaseEdges s n l w len h = (h, none, none) := by
  have hcond : (decide (h.placed ≠ some p0) && decide (max w (riseTick s n l p0) < w + len)) = false := by
    rcases hf with hf | hf
    · simp [hf]
    · rw [decide_eq_false (Nat.not_lt.mpr hf), Bool.and_false]
  simp only [phaseEdges, hp, hr, Bool.and_assoc, hcond, Bool.and_false, Bool.not_false, if_true]

/-- A rising edge within the window is placed, with its falling edge where that falls within it too (R106). -/
theorem phaseEdges_rise (hp : (s.rail n).start = some p0) (hr : h.rise = none) (hact : phActive s n l = true) (hpl : h.placed ≠ some p0)
    (hlt : max w (riseTick s n l p0) < w + len) (hon : onTicks s n l ≠ 0) : phaseEdges s n l w len h =
      if max w (riseTick s n l p0) + onTicks s n l < w + len then
        (h.placeRise p0 (max w (riseTick s n l p0)) (s.rail n).period false, some (true, max w (riseTick s n l p0) - w),
          some (false, max w (riseTick s n l p0) + onTicks s n l - w))
      else (h.placeRise p0 (max w (riseTick s n l p0)) (s.rail n).period true, some (true, max w (riseTick s n l p0) - w), none) := by
  simp only [phaseEdges, hp, hr, hact, decide_eq_true hpl, decide_eq_true hlt, Bool.and_self, Bool.not_true, Bool.false_eq_true, if_false,
    if_neg hon]

/-- The falling edge of the pulse in progress is placed where it falls within the window (R106). -/
theorem phaseEdges_fall {q : Nat} (hp : (s.rail n).start = some p0) (hr : h.rise = some q) (hpl : h.placed = some p0) :
    phaseEdges s n l w len h = if max w (q + onTicks s n l) < w + len then (h.placeFall, some (false, max w (q + onTicks s n l) - w), none)
      else (h, none, none) := by
  simp [phaseEdges, hp, hr, hpl]

/-! ### A frame in UP -/

/-- A phase that is active in a running rail and drives already goes on driving, with the edges of its window (R89, R106). -/
theorem drivenFrame_drives (hp : (s.rail n).start = some p0) (hrun : railRuns s n = true) (hf : cellGet 0 s.flt.phF l = 0)
    (hact : phActive s n l = true) (hdrv : h.drv = true) : drivenFrame s n l b h c a =
      sendFrame s l { (phaseEdges s n l (512 * b) (frameTicks h.ver) h).1 with drv := true } b
        (phaseEdges s n l (512 * b) (frameTicks h.ver) h).2.1 (phaseEdges s n l (512 * b) (frameTicks h.ver) h).2.2 1 c a := by
  simp [drivenFrame, hp, hrun, hf, hact, hdrv]

/-- The edges of the phase in the window at boundary `b`. -/
def windowEdges (s : State) (n l b : Nat) : LinkH × FrameEdge × FrameEdge :=
  phaseEdges s n l (512 * b) (frameTicks (s.link l).ver) (takenRecord (s.link l))

/-- In UP a frame carries the oldest command and the edges of its window (R106). -/
theorem exec_upFrame {l : Fin 72} (hp : s.powered (linkDomain l) = true) (hl : 64 ≤ l.val ∨ s.phPresent l = true)
    (hb : frameDue (s.link l) b = true) (hs : lstate s l = lsUp) (hd : (s.link l).draining = 0) (hc : OldestCmd (s.link l) c a)
    (hlt : l.val < 64) (hn : railOfPhase s l = some n) (hst : (s.rail n).start = some p0) (hrun : railRuns s n = true)
    (hf : cellGet 0 s.flt.phF l = 0) (hact : phActive s n l = true) (hdrv : (s.link l).drv = true) :
    exec (.downstreamFrame l b) s = .next (sendFrame s l { (windowEdges s n l b).1 with drv := true } b (windowEdges s n l b).2.1
      (windowEdges s n l b).2.2 1 c a) := by
  have hset : lsUp ≠ lsSetup := by decide
  have hlost : lsUp ≠ lsLost := by decide
  have hdrv' : (takenRecord (s.link l)).drv = true := by rw [takenRecord_eq]; exact hdrv
  have hver : (takenRecord (s.link l)).ver = (s.link l).ver := by rw [takenRecord_eq]
  have hphase : phaseFrame s l b = drivenFrame s n l b (takenRecord (s.link l)) c a := by
    simp [phaseFrame, hs, hd, hset, hlost, takeCmd_oldest hc, hn]
  rw [exec_downstreamFrame hp hl hb, if_pos hlt, hphase, drivenFrame_drives hst hrun hf hact hdrv', hver]
  rfl

end Sys2Proof.Machine
end

section
/-! SUPPORT. The fields that a frame in SETUP and one in UP show (R104, R106). -/
namespace Sys2Proof.Machine

variable {s : State} {l n b c a p0 : Nat} {h : LinkH}

/-! ### In SETUP -/

/-- A frame with neither edge nor drive, as each version lays it out. -/
theorem idleFrame_fields {ver seq : Nat} {f : BitVec 64} (hf : f = downFrame ver seq none none 0 c a) :
    fbits f 63 60 = seq % 16 ∧ fbits f 59 59 = 0
      ∧ (ver = 1 → fbits f 47 47 = 0 ∧ fbits f 35 34 = 0 ∧ fbits f 33 30 = c % 16 ∧ fbits f 29 14 = a % 65536 ∧ fbits f 13 8 = 0
        ∧ fbits f 7 0 = crc8 56 (f.toNat / 2 ^ 8))
      ∧ (ver = 2 → fbits f 48 48 = 0 ∧ fbits f 37 36 = 0 ∧ fbits f 35 32 = c % 16 ∧ fbits f 31 16 = a % 65536 ∧ fbits f 15 8 = 0
        ∧ fbits f 7 0 = crc8 56 (f.toNat / 2 ^ 8))
      ∧ (ver = 3 → fbits f 48 48 = 0 ∧ fbits f 37 36 = 0 ∧ fbits f 35 32 = c % 16 ∧ fbits f 31 16 = a % 65536
        ∧ fbits f 15 0 = crc16 48 (f.toNat / 2 ^ 16)) := by
  have hfields := downFrame_fields ver seq none none 0 c a
  rw [← hf] at hfields
  have hwide (hw : edgeWidth ver = 9) : fbits f 48 48 = 0 ∧ fbits f 37 36 = 0 ∧ fbits f 35 32 = c % 16 ∧ fbits f 31 16 = a % 65536 := by
    rw [hw] at hfields
    exact ⟨edgeField_none (lo := 38) (w := 9) hfields.edge1, hfields.drv, hfields.cmd, hfields.arg⟩
  refine ⟨hfields.seq, ?_, fun hv => ?_, fun hv => ?_, fun hv => ?_⟩
  · rcases edgeWidth_cases ver with hw | hw <;> rw [hw] at hfields
    · exact edgeField_none (lo := 48) (w := 10) hfields.edge0
    · exact edgeField_none (lo := 49) (w := 9) hfields.edge0
  · subst hv
    obtain ⟨hzero, hcrc⟩ := downFrame_crc8 (by decide) hf
    exact ⟨edgeField_none (lo := 36) (w := 10) hfields.edge1, hfields.drv, hfields.cmd, hfields.arg, hzero, hcrc⟩
  · subst hv
    obtain ⟨hnone, hdrv, hcmd, harg⟩ := hwide rfl
    obtain ⟨hzero, hcrc⟩ := downFrame_crc8 (by decide) hf
    exact ⟨hnone, hdrv, hcmd, harg, hzero, hcrc⟩
  · subst hv
    obtain ⟨hnone, hdrv, hcmd, harg⟩ := hwide rfl
    exact ⟨hnone, hdrv, hcmd, harg, downFrame_crc16 hf⟩

/-! ### In UP -/

/-- The frame that carries the edges of the window at boundary `b`, and the link's record after it. -/
def upRecord (s : State) (n l b c a : Nat) : LinkH :=
  { (windowEdges s n l b).1 with
      drv := true, txSeq := ((s.link l).txSeq + 1) % 16, window := b, framed := true
      frame := downFrame (s.link l).ver (s.link l).txSeq (windowEdges s n l b).2.1 (windowEdges s n l b).2.2 1 c a }

theorem windowEdges_numbered (s : State) (n l b : Nat) : (s.link l).Numbered (windowEdges s n l b).1 := by
  have h := phaseEdges_numbered s n l (512 * b) (frameTicks (s.link l).ver) (takenRecord (s.link l))
  rw [takenRecord_eq] at h
  unfold windowEdges
  rw [takenRecord_eq]
  exact h

theorem upFrame_link (s : State) (n l b c a : Nat) :
    (sendFrame s l { (windowEdges s n l b).1 with drv := true } b (windowEdges s n l b).2.1 (windowEdges s n l b).2.2 1 c a).link l
      = upRecord s n l b c a := by
  obtain ⟨hver, hseq⟩ := windowEdges_numbered s n l b
  rw [sendFrame_link, upRecord, ← hver, ← hseq]

/-- The sequence and the command stand in their fields, whatever the edges. -/
theorem upRecord_fields (s : State) (n l b c a : Nat) : fbits (upRecord s n l b c a).frame 63 60 = (s.link l).txSeq % 16
    ∧ (if (s.link l).ver = 1 then fbits (upRecord s n l b c a).frame 33 30 else fbits (upRecord s n l b c a).frame 35 32) = c % 16 := by
  have h := downFrame_fields (s.link l).ver (s.link l).txSeq (windowEdges s n l b).2.1 (windowEdges s n l b).2.2 1 c a
  refine ⟨h.seq, ?_⟩
  have hcmd := h.cmd
  unfold edgeWidth at hcmd
  split at hcmd
  next hv => rw [if_pos hv]; exact hcmd
  next hv => rw [if_neg hv]; exact hcmd

/-- The frame drives the edges of the window, where they lie within it. -/
theorem upRecord_drives {g : LinkH} {e0 e1 : FrameEdge} (h : windowEdges s n l b = (g, e0, e1)) (h0 : EdgeFits (edgeWidth (s.link l).ver) e0)
    (h1 : EdgeFits (edgeWidth (s.link l).ver) e1) : drivesEdges (s.link l).ver (upRecord s n l b c a).frame e0 e1 := by
  have hf : (upRecord s n l b c a).frame = downFrame (s.link l).ver (s.link l).txSeq e0 e1 1 c a := by rw [upRecord, h]
  rw [hf]
  exact (downFrame_fields ..).drives h0 h1

theorem offset_lt {ver r w : Nat} (h : r < w + frameTicks ver) : r - w < 2 ^ edgeWidth ver := by
  have hpos := Nat.two_pow_pos (edgeWidth ver)
  rw [frameTicks_eq] at h
  omega

theorem LinkH.placeRise_placed (h : LinkH) (p0 r per : Nat) (pulse : Bool) : (h.placeRise p0 r per pulse).placed = some p0 := by
  unfold LinkH.placeRise
  dsimp only
  split <;> rfl

theorem LinkH.placeRise_first {h : LinkH} (hr : h.rise = none) (p0 r per : Nat) : (h.placeRise p0 r per true).rise = some r := by
  unfold LinkH.placeRise
  dsimp only
  rw [hr]

theorem takenRecord_rise (h : LinkH) : (takenRecord h).rise = h.rise := by rw [takenRecord_eq]

theorem takenRecord_placed (h : LinkH) : (takenRecord h).placed = h.placed := by rw [takenRecord_eq]

/-- The first tick of the window that a rising edge of the period begun at `p0` may take. -/
def riseIn (s : State) (n l p0 b : Nat) : Nat := max (512 * b) (riseTick s n l p0)

/-- The tick at which the window of link `l` at boundary `b` ends. -/
def windowEnd (s : State) (l b : Nat) : Nat := 512 * b + frameTicks (s.link l).ver

/-- A rising edge within the window goes out once in the period, and its falling edge with it where that lies within the window too. -/
theorem upRecord_rises (hst : (s.rail n).start = some p0) (hact : phActive s n l = true) (hr : (s.link l).rise = none)
    (hpl : (s.link l).placed ≠ some p0) (hlt : riseIn s n l p0 b < windowEnd s l b) (hon : onTicks s n l ≠ 0) :
    (upRecord s n l b c a).placed = some p0
      ∧ (riseIn s n l p0 b + onTicks s n l < windowEnd s l b → drivesEdges (s.link l).ver (upRecord s n l b c a).frame
        (some (true, riseIn s n l p0 b - 512 * b)) (some (false, riseIn s n l p0 b + onTicks s n l - 512 * b)))
      ∧ (windowEnd s l b ≤ riseIn s n l p0 b + onTicks s n l → drivesEdges (s.link l).ver (upRecord s n l b c a).frame
        (some (true, riseIn s n l p0 b - 512 * b)) none ∧ (upRecord s n l b c a).rise = some (riseIn s n l p0 b)) := by
  have hr' : (takenRecord (s.link l)).rise = none := (takenRecord_rise _).trans hr
  have hpl' : (takenRecord (s.link l)).placed ≠ some p0 := takenRecord_placed (s.link l) ▸ hpl
  have hedges := phaseEdges_rise hst hr' hact hpl' hlt hon
  have hfit : EdgeFits (edgeWidth (s.link l).ver) (some (true, riseIn s n l p0 b - 512 * b)) := edgeFits_some (offset_lt hlt)
  refine ⟨?_, fun hin => ?_, fun hout => ?_⟩
  · show (windowEdges s n l b).1.placed = some p0
    rw [windowEdges, hedges]
    split <;> exact LinkH.placeRise_placed ..
  · exact upRecord_drives (hedges.trans (if_pos hin)) hfit (edgeFits_some (offset_lt hin))
  · have hw : windowEdges s n l b = _ := hedges.trans (if_neg (Nat.not_lt.mpr hout))
    refine ⟨upRecord_drives hw hfit (edgeFits_none _), ?_⟩
    show (windowEdges s n l b).1.rise = _
    rw [hw]
    exact LinkH.placeRise_first hr' ..

/-- With no pulse in progress and no rising edge to place the frame has none. -/
theorem upRecord_rests (hst : (s.rail n).start = some p0) (hr : (s.link l).rise = none)
    (hf : (s.link l).placed = some p0 ∨ windowEnd s l b ≤ riseIn s n l p0 b) :
    drivesEdges (s.link l).ver (upRecord s n l b c a).frame none none ∧ (upRecord s n l b c a).rise = none := by
  have hr' : (takenRecord (s.link l)).rise = none := (takenRecord_rise _).trans hr
  have hw : windowEdges s n l b = _ := phaseEdges_rest hst hr' (hf.imp_left (takenRecord_placed _).trans)
  refine ⟨upRecord_drives hw (edgeFits_none _) (edgeFits_none _), ?_⟩
  show (windowEdges s n l b).1.rise = none
  rw [hw]
  exact hr'

/-- The pulse in progress ends in the window or goes on. -/
theorem upRecord_falls {q : Nat} (hst : (s.rail n).start = some p0) (hr : (s.link l).rise = some q) (hpl : (s.link l).placed = some p0) :
    (max (512 * b) (q + onTicks s n l) < windowEnd s l b → drivesEdges (s.link l).ver (upRecord s n l b c a).frame
        (some (false, max (512 * b) (q + onTicks s n l) - 512 * b)) none)
      ∧ (windowEnd s l b ≤ max (512 * b) (q + onTicks s n l) → drivesEdges (s.link l).ver (upRecord s n l b c a).frame none none
        ∧ (upRecord s n l b c a).rise = some q) := by
  have hr' : (takenRecord (s.link l)).rise = some q := (takenRecord_rise _).trans hr
  have hedges := phaseEdges_fall (l := l) (w := 512 * b) (len := frameTicks (s.link l).ver) hst hr' ((takenRecord_placed _).trans hpl)
  refine ⟨fun hin => upRecord_drives (hedges.trans (if_pos hin)) (edgeFits_some (offset_lt hin)) (edgeFits_none _), fun hout => ?_⟩
  have hw : windowEdges s n l b = _ := hedges.trans (if_neg (Nat.not_lt.mpr hout))
  refine ⟨upRecord_drives hw (edgeFits_none _) (edgeFits_none _), ?_⟩
  show (windowEdges s n l b).1.rise = some q
  rw [hw]
  exact hr'

end Sys2Proof.Machine
end

section
open Sys2Proof Sys2Proof.Machine

/-- Settles O30: a frame's fields stand where its version has them, and in UP its edges are those of the window: a rising edge with or
without its falling edge, none, or the falling edge of the pulse in progress. -/
theorem downstreamFramesCarryTheirFields : Obligations.DownstreamFramesCarryTheirFields := by
  unfold Obligations.DownstreamFramesCarryTheirFields
  rintro l b s _ c a hp hl rfl hd hb hver hc
  refine ⟨fun hs => ?_, ?_⟩
  · have hx := exec_setupFrame hp hl hb hs hd hc
    refine ⟨_, _, hx, rfl, ?_⟩
    rw [sendFrame_link, takenRecord_eq]
    exact ⟨rfl, rfl, rfl, rfl, rfl, rfl, idleFrame_fields rfl⟩
  rintro n hn p0 hst _ rfl _ rfl _ rfl _ rfl hlt hs hrun hf hact hdrv
  refine ⟨_, _, exec_upFrame hp hl hb hs hd hc hlt hn hst hrun hf hact hdrv, rfl, ?_⟩
  rw [upFrame_link]
  obtain ⟨hseq, hcmd⟩ := upRecord_fields s n l b c a
  exact ⟨rfl, rfl, rfl, rfl, hseq, hcmd, fun hr hpl hin hon => upRecord_rises hst hact hr hpl hin hon, fun hr hf => upRecord_rests hst hr hf,
    fun q hr hpl => upRecord_falls hst hr hpl⟩
end

section
/-! SUPPORT. A supply of an intent group in a class that R465 does not have. -/
namespace Sys2Proof.Machine

/-- PD4 is powered, and the class kept for VDDIP0 is 3. -/
def thirdSupplyClass : State :=
  let s := State.reset.setFld PDC_STAT_ON 0x13
  { s with pins := { s.pins with vddip := [(0, 3)] } }

/-- The ranges of a third class are those of the 3.3 V class, so at 3.3 V the class stands, and IOSTAT of group 0 shows it. -/
theorem thirdSupplyClass_stays {t : State} (h : exec (.vddipClassChange 0 3300) thirdSupplyClass = .next t) : t.fld IPT_GRP_IOSTAT 0 = 3 := by
  cases h
  decide

end Sys2Proof.Machine
end

section
open Sys2Proof Sys2Proof.Machine

/-- Refutes O37: the class of a VDDIPg is left 30 mV outside its range (R465), and the model reads the range of every class but 0 and 1 as
that of the 3.3 V class. The statement does not ask that the class kept is one of the three of R447: where it is 3, which no command makes
it, VDDIP0 at 3.3 V shows IOSTAT = 3 and not 2. -/
theorem not_portsAnswerBeats : ¬ Obligations.PortsAnswerBeats := by
  unfold Obligations.PortsAnswerBeats
  intro h
  obtain ⟨-, -, -, -, -, -, hgroup, -⟩ := h 0 0 thirdSupplyClass (by decide)
  obtain ⟨-, -, hsupply⟩ := hgroup 0 0
  obtain ⟨t, he, -, hclass, -⟩ := hsupply 3300
  have h2 : t.fld IPT_GRP_IOSTAT 0 = 2 := hclass (by decide) (by decide)
  exact absurd ((thirdSupplyClass_stays he).symm.trans h2) (by decide)
end

section
/-! SUPPORT. A write of the Intent Table that meets an armed injection of ECC_UNCORR (R361): the other words of the line are lost (R369). -/
namespace Sys2Proof.Machine

/-- SERVICE with PD4 powered: word 1 of the Intent Table, in the undamaged line of word 0, is 1, and an injection of check bits for
ECC_UNCORR of the Intent Table has been armed (R362). -/
def armedTable : State :=
  let s := ((State.reset.setFld PDC_STAT_ON 0x13).setFld SYS_MODECUR_CUR modeService).setWord itBase 1 1
  (injectArm (((s.setFld FLT_INJSEL_SRC 357).setFld FLT_INJSEL_KIND 1).setFld FLT_INJSEL_INST 2)).1

/-- A write of word 0 clears word 1. -/
theorem armedTable_write_clears {t : State} (h : exec (.intentTableWrite 0 0) armedTable = .next t) : t.byte (itBase + 4) = 0 := by
  cases h
  decide

end Sys2Proof.Machine
end

section
open Sys2Proof Sys2Proof.Machine

/-- Refutes O38: a write of the table first reads the line that it lands on (R369), and an armed injection of ECC_UNCORR makes that read
uncorrectable (R361), so the line's other words become zero. The statement asks only that the line was not damaged before: in `armedTable`
the write of word 0 clears word 1. -/
theorem not_grantsOpenAndReleaseIntents : ¬ Obligations.GrantsOpenAndReleaseIntents := by
  unfold Obligations.GrantsOpenAndReleaseIntents
  intro h
  obtain ⟨-, -, -, -, -, -, -, -, -, htable⟩ := h 0 armedTable (by decide)
  obtain ⟨-, hwrite⟩ := htable 0 0
  obtain ⟨t, he, -, hbytes⟩ := hwrite (by decide) (by decide)
  have hkept : t.byte (itBase + 4) = armedTable.byte (itBase + 4) := hbytes (by decide) _ (by decide)
  exact absurd ((armedTable_write_clears he).symm.trans hkept) (by decide)
end

section
/-! SUPPORT. The words of the engines (R187): a field of one word read after a field of another was set, of the same or of another engine. -/
namespace Sys2Proof.Machine

variable {s : State}

/-- The words of register `r` stand in the blocks of the engines. -/
def Reg.ofEngines (r : Reg) : Bool := Nat.ble 0x3000 r.base && Nat.blt r.base 0x3020 && r.stride == 0x20 && r.count == 48

/-- Registers `r` and `r'` are different words of the engines' blocks. -/
def Reg.besideEngine (r r' : Reg) : Bool := r.ofEngines && r'.ofEngines && r.base != r'.base

theorem Reg.ofEngines_addr {r : Reg} (h : r.ofEngines = true) (n : Nat) :
    0x3000 ≤ r.base ∧ r.base < 0x3020 ∧ r.addr n = r.base + if n < 48 then 0x20 * n else 0x10000 * (n + 1) := by
  simp only [Reg.ofEngines, Bool.and_eq_true, Nat.ble_eq, Nat.blt_eq, beq_iff_eq] at h
  obtain ⟨⟨⟨hl, hh⟩, hs⟩, hc⟩ := h
  refine ⟨hl, hh, ?_⟩
  rw [Reg.addr, hs, hc]
  split <;> rfl

/-- Different words of the engines' blocks stand under different keys, whatever their engines. -/
theorem Reg.besideEngine_addr {r r' : Reg} (h : r.besideEngine r' = true) (n m : Nat) : r.addr n ≠ r'.addr m := by
  simp only [Reg.besideEngine, Bool.and_eq_true, bne_iff_ne] at h
  obtain ⟨⟨h1, h2⟩, hb⟩ := h
  obtain ⟨hl, hh, e⟩ := Reg.ofEngines_addr h1 n
  obtain ⟨hl', hh', e'⟩ := Reg.ofEngines_addr h2 m
  rw [e, e']
  split <;> split <;> omega

theorem fld_setFld_engine {f g : Fld} (h : f.reg.besideEngine g.reg = true) {v n m : Nat} : (s.setFld f v n).fld g m = s.fld g m :=
  fld_setFld_reg_ne s v (Reg.besideEngine_addr h n m)

end Sys2Proof.Machine
end

section
/-! SUPPORT. An engine without an open clause that breaks an access rule freezes (R184). -/
namespace Sys2Proof.Machine

variable {s : State} {e k : Nat}

theorem seqFail_flt (s : State) : (seqFail s).flt = s.flt := by
  unfold seqFail failDue
  split_ifs <;> rfl

theorem seqFail_mem (s : State) : (seqFail s).mem = s.mem := by
  unfold seqFail failDue
  split_ifs <;> rfl

theorem revokeClause_none (h : inClause s e = false) (reason : Nat) (branch : Bool) : revokeClause s e reason branch = s := by
  have hc : (s.eng e).clause = none := by simpa [inClause] using h
  unfold revokeClause
  rw [hc]

/-- The registers of an engine that freezes with no clause to revoke. -/
def frozenRegs (s : State) (e cause addr : Nat) : State :=
  ((((setEngState s e esFrozen).setFld ENG_FREEZE_CAUSE cause e).setFld ENG_FREEZE_ADDR (addr % 65536) e)).setFld ENG_EVT_FROZEN 1 e

theorem freeze_parts (hr : engState s e = esRunning) (hc : inClause s e = false) (cause addr : Nat) :
    (freeze s e cause addr).regs = (frozenRegs s e cause addr).regs ∧ (freeze s e cause addr).mem = s.mem
      ∧ (freeze s e cause addr).flt.due = s.flt.due ++ [⟨338, e, cause, wordOf addr⟩] := by
  have hn : inClause ((setEngState s e esFrozen).setEng e { (setEngState s e esFrozen).eng e with wait := none }) e = false := by
    rw [inClause, eng_setEng]
    exact hc
  unfold freeze
  simp only [hr, true_or, if_true, revokeClause_none hn, seqFail_regs, seqFail_mem, seqFail_flt]
  exact ⟨rfl, rfl, rfl⟩

theorem frozenRegs_keys (s : State) (e cause addr : Nat) :
    SameRegs s (frozenRegs s e cause addr) [ENG_STAT.addr e, ENG_FREEZE.addr e, ENG_EVT.addr e] := by
  have h (u : State) (f : Fld) (v : Nat) (hf : f.reg ∈ [ENG_STAT, ENG_FREEZE, ENG_EVT]) :
      SameRegs u (u.setFld f v e) [ENG_STAT.addr e, ENG_FREEZE.addr e, ENG_EVT.addr e] :=
    (SameRegs.setFld u f v e).mono fun x hx => List.mem_singleton.mp hx ▸ List.mem_map_of_mem (f := (·.addr e)) hf
  exact (((h _ _ _ (by simp [ENG_STAT_STATE])).trans (h _ _ _ (by simp [ENG_FREEZE_CAUSE]))).trans
    (h _ _ _ (by simp [ENG_FREEZE_ADDR]))).trans (h _ _ _ (by simp [ENG_EVT_FROZEN]))

/-- An engine that executes without an open clause freezes as R184 has it. -/
theorem freezesEngine_of (hr : engState s e = esRunning) (hc : inClause s e = false) (cause addr : Nat) :
    FreezesEngine s (freeze s e cause addr) e cause addr := by
  obtain ⟨hregs, hmem, hdue⟩ := freeze_parts hr hc cause addr
  have hfld (f : Fld) : (freeze s e cause addr).fld f e = (frozenRegs s e cause addr).fld f e := fld_congr hregs f e
  refine ⟨?_, ?_, ?_, ?_, ?_, hmem, hdue, fun k hk => hregs ▸ frozenRegs_keys s e cause addr k hk⟩
  · rw [hfld, frozenRegs, fld_setFld_engine rfl, fld_setFld_engine rfl, fld_setFld_engine rfl]
    exact fld_setFld_same s _ _ _ (by decide)
  · rw [hfld, frozenRegs, fld_setFld_engine rfl, fld_setFld_apart (f := ENG_FREEZE_ADDR) (g := ENG_FREEZE_CAUSE) rfl rfl]
    exact fld_setFld_same _ _ _ _ (by decide)
  · rw [hfld, frozenRegs, fld_setFld_engine rfl, fld_setFld_same _ _ _ _ (by decide)]
    exact Nat.mod_mod ..
  · rw [flag_congr hregs]
    exact flag_event_same _ _ _ (by decide) (by decide)
  · rw [hfld, frozenRegs, fld_setFld_engine rfl, fld_setFld_engine rfl, fld_setFld_engine rfl]
    exact fld_setFld_engine rfl

/-- An instruction that breaks an access rule is not carried out: its engine freezes. -/
theorem engRun_stops {body : State → Nat → Retire} {cause addr : Nat} (h : Executes s e k)
    (hb : body s (s.fld ENG_PC_PC e) = .stop cause addr) : engRun s e k body = freeze s e cause addr := by
  rw [engRun_eq h, hb]
  rfl

end Sys2Proof.Machine
end

section
open Sys2Proof Sys2Proof.Machine

/-- Settles O11: each rule is broken before the instruction has changed anything, so it ends in `freeze`, which without an open clause
changes the engine's state, its cause and its event, and nothing else but the assertion of source 338. -/
theorem accessViolationsFreeze : Obligations.AccessViolationsFreeze := by
  unfold Obligations.AccessViolationsFreeze
  intro e d a imm im n s hc hx
  have hr : engState s e = esRunning := by
    have h := hx.1
    simp only [engReady, Bool.and_eq_true, beq_iff_eq] at h
    exact h.1.2
  have hstop {body : State → Nat → Retire} {cause addr : Nat} (hb : body s (s.fld ENG_PC_PC e) = .stop cause addr) :
      ∃ t, (Host.Outcome.next (engRun s e 1 body) : Out) = .next t ∧ FreezesEngine s t e cause addr :=
    ⟨_, congrArg _ (engRun_stops hx hb), freezesEngine_of hr hc cause addr⟩
  refine ⟨hstop rfl, fun h => hstop (if_pos h), fun h => hstop (if_pos h), fun g => hstop rfl, fun h g => hstop (if_pos h), fun h => ?_,
    ?_, fun r cause h => ?_⟩
  · exact hstop (by simp only [h])
  · rintro _ rfl
    exact ⟨fun h => ⟨hstop (by simp only [immAddr, h]), hstop (by simp only [immAddr, h])⟩,
      fun h => hstop (if_neg (by simp only [immAddr, h]; decide))⟩
  · exact ⟨hstop (by simp only [h]), hstop (by simp only [h])⟩
end

section
/-! SUPPORT. A rail that two revoked clauses of one engine still arm (R179). -/
namespace Sys2Proof.Machine

/-- Engine 0 has revoked two clauses that armed phases of rail 0, the second before CLSHDLY of the first had ended: one phase of the first
waits among `olds`, one of the second in the term itself. -/
def twiceRevoked : State :=
  State.reset.setRail 0 { clause := some { eng := 0, phase := .revoked, arm := 1, armHeld := true, olds := [(0, 1)] } }

/-- One CLAUSE_DISARM withdraws what the first clause armed, and the second's phase waits on. -/
theorem twiceRevoked_disarmed {t : State} (h : exec (.clauseDisarm 0) twiceRevoked = .next t) :
    (t.rail 0).clause = some { eng := 0, phase := .revoked, arm := 1, armHeld := true } := by
  cases h
  decide

end Sys2Proof.Machine
end

section
open Sys2Proof Sys2Proof.Machine

/-- Refutes O41: CLAUSE_DISARM ends the delay of one revoked clause, the oldest of its engine on each rail (R179). The statement asks that
no phase of a term of the engine waits after it; in `twiceRevoked` a second clause of the engine has armed the same rail, and its own delay
still runs. -/
theorem not_copiesClausesSignalsAndBarriersEnd : ¬ Obligations.CopiesClausesSignalsAndBarriersEnd := by
  unfold Obligations.CopiesClausesSignalsAndBarriersEnd
  intro h
  obtain ⟨-, -, ⟨t, he, -, hheld⟩, -⟩ := h 0 twiceRevoked
  exact absurd (hheld 0 _ (twiceRevoked_disarmed he) rfl) (by decide)
end

section
/-! SUPPORT. The end of an engine's wait (R171, R199, R202, R203): what ending a wait, taking a signal, evaluating the waiting CHECKs and
failing one change. -/
namespace Sys2Proof.Machine

variable {s t u : State} {e : Nat}

@[simp] theorem eng_setFld (s : State) (f : Fld) (v n e : Nat) : (s.setFld f v n).eng e = s.eng e := rfl

@[simp] theorem eng_setEngState (s : State) (n st e : Nat) : (setEngState s n st).eng e = s.eng e := rfl

@[simp] theorem eng_setFlags (s : State) (n e : Nat) (z m c v : Bool) : (setFlags s n z m c v).eng e = s.eng e := rfl

theorem engState_setEngState {st : Nat} (h : st < 16) : engState (setEngState s e st) e = st :=
  fld_setFld_value rfl h

theorem eng_endWait (s : State) (e : Nat) : (endWait s e).eng e = { s.eng e with wait := none } := by
  rw [endWait, eng_setEngState, eng_setEng]

/-- An engine whose wait has ended runs on, and only the word of its state has changed. -/
theorem endWait_spec (s : State) (e : Nat) : (endWait s e).fld ENG_STAT_STATE e = 1 ∧ ((endWait s e).eng e).wait = none
    ∧ SameRegs s (endWait s e) [ENG_STAT.addr e] :=
  ⟨engState_setEngState (by decide), by rw [eng_endWait], SameRegs.setFld _ ENG_STAT_STATE _ _⟩

/-- An engine whose wait ends at its label branches there. -/
theorem endWait_branch (s : State) (e label : Nat) : ((endWait s e).setFld ENG_PC_PC label e).fld ENG_STAT_STATE e = 1
    ∧ (((endWait s e).setFld ENG_PC_PC label e).eng e).wait = none
    ∧ ((endWait s e).setFld ENG_PC_PC label e).fld ENG_PC_PC e = label % 65536
    ∧ SameRegs s ((endWait s e).setFld ENG_PC_PC label e) [ENG_STAT.addr e, ENG_PC.addr e] := by
  obtain ⟨hst, hw, hk⟩ := endWait_spec s e
  exact ⟨(fld_setFld_engine rfl).trans hst, by rw [eng_setFld, hw], fld_setFld_same _ _ _ _ (by decide),
    (hk.mono (by simp)).trans ((SameRegs.setFld _ ENG_PC_PC _ _).mono (by simp [ENG_PC_PC]))⟩

/-- An engine whose CHECK has ended runs on with the flags of its outcome. -/
theorem endWait_flags (s : State) (e : Nat) (z n c v : Bool) : (setFlags (endWait s e) e z n c v).fld ENG_STAT_STATE e = 1
    ∧ ((setFlags (endWait s e) e z n c v).eng e).wait = none ∧ FlagsAre (setFlags (endWait s e) e z n c v) e z n c v
    ∧ SameRegs s (setFlags (endWait s e) e z n c v) [ENG_STAT.addr e, ENG_FLAGS.addr e] := by
  obtain ⟨hst, hw, hk⟩ := endWait_spec s e
  have hf := setFlags_keys (endWait s e) e z n c v
  have hne : ENG_STAT_STATE.reg.addr e ∉ [ENG_FLAGS.addr e] := by
    simpa using Reg.besideEngine_addr (r := ENG_STAT_STATE.reg) (r' := ENG_FLAGS) rfl e e
  exact ⟨(hf.fld hne).trans hst, by rw [eng_setFlags, hw], setFlags_flags .., (hk.mono (by simp)).trans (hf.mono (by simp))⟩

/-- A condition other than SIGNAL takes no signal. -/
theorem takeSignal_other {c : Cond} (h : c.sel ≠ 10) : takeSignal s e c = s := if_neg fun hc => h hc.1

/-- A SIGNAL without NEG that is satisfied takes its signal (R173, R202). -/
theorem takeSignal_clears {c : Cond} (hs : c.sel = 10) (hn : c.neg = false) (hi : c.idx < 16) :
    (takeSignal s e c).fbit ENG_SIG_PENDING c.idx (progOf s e) = false := by
  unfold takeSignal
  rw [if_pos ⟨hs, hn⟩]
  exact fbit_setFbit_same s _ _ _ _ (by decide) hi

/-- The evaluation of the waiting CHECKs changes the engines' records alone. -/
theorem checkEval_engs (s : State) : checkEval s = { s with engs := (checkEval s).engs } := by
  unfold checkEval
  refine List.foldlRecOn _ _ (motive := fun t : State => t = { s with engs := t.engs }) rfl fun t ht e _ => ?_
  split
  · split
    · rw [ht]
      rfl
    · exact ht
  · exact ht

theorem checkEval_same (s : State) : (checkEval s).regs = s.regs ∧ (checkEval s).flt = s.flt := by
  rw [checkEval_engs]
  exact ⟨rfl, rfl⟩

theorem progOf_endWait (s : State) (e : Nat) : progOf (endWait s e) e = progOf s e := progOf_setEngState ..

theorem seqFail_engs (s : State) : (seqFail s).engs = s.engs := by
  unfold seqFail failDue
  split_ifs <;> rfl

/-- A CHECK that fails ends its wait with the flags of its reason, and its fault falls due with the reason, its CODE and its PC (R203). -/
theorem checkFails_spec (s : State) (e reason code pc : Nat) : (checkFails s e reason code pc).fld ENG_STAT_STATE e = 1
    ∧ ((checkFails s e reason code pc).eng e).wait = none ∧ FlagsAre (checkFails s e reason code pc) e false false (reason == 2) false
    ∧ SameRegs s (checkFails s e reason code pc) [ENG_STAT.addr e, ENG_FLAGS.addr e]
    ∧ (checkFails s e reason code pc).flt.due
      = s.flt.due ++ [⟨240 + progOf s e, progOf s e, 256 * reason + code, wordOf pc⟩] := by
  obtain ⟨hst, hw, hf, hk⟩ := endWait_flags s e false false (reason == 2) false
  have hp : progOf (setFlags (endWait s e) e false false (reason == 2) false) e = progOf s e := by
    have hne : ENG_STAT_PROG.reg.addr e ∉ [ENG_FLAGS.addr e] := by
      simpa using Reg.besideEngine_addr (r := ENG_STAT_PROG.reg) (r' := ENG_FLAGS) rfl e e
    exact ((setFlags_keys (endWait s e) e false false (reason == 2) false).fld (f := ENG_STAT_PROG) hne).trans (progOf_endWait s e)
  unfold checkFails
  dsimp only
  rw [hp]
  have hflt : (setFlags (endWait s e) e false false (reason == 2) false).flt = s.flt := rfl
  generalize setFlags (endWait s e) e false false (reason == 2) false = u at hst hw hf hk hflt
  have hregs (i : Nat) (d : Nat) (x : Word) : (seqFail (u.postFault i (progOf s e) d x)).regs = u.regs := seqFail_regs _
  have hengs (i : Nat) (d : Nat) (x : Word) : (seqFail (u.postFault i (progOf s e) d x)).eng e = u.eng e := by
    unfold State.eng
    rw [seqFail_engs, postFault_engs]
  exact ⟨(fld_congr (hregs ..) ..).trans hst, (congrArg EngH.wait (hengs ..)).trans hw, FlagsAre.of_reg (reg_congr (hregs ..) ..) hf,
    fun k hkeys => hregs .. ▸ hk k hkeys, by rw [seqFail_flt, postFault_due, hflt]⟩

end Sys2Proof.Machine
end

section
/-! SUPPORT. The commands that end an engine's wait, each as O6 states it. -/
namespace Sys2Proof.Machine

variable {s t : State} {e : Fin 48}

theorem exec_waitEnd {us start : Nat} (hw : s.waiting e = some (.time us start)) :
    exec (.waitEnd e) s = .next (if timeOver s.tbase start us then endWait s e else s) := by
  show (Host.Outcome.next _ : Out) = _
  simp only [hw]

theorem exec_waitcSatisfied {c : Cond} {label x start : Nat} (hw : s.waiting e = some (.cond c label x start)) :
    exec (.waitcSatisfied e) s
      = .next (if condTrue s e c && !timeOver s.tbase start x then endWait (takeSignal s e c) e else s) := by
  show (Host.Outcome.next _ : Out) = _
  simp only [hw]

theorem exec_waitcTimeout {c : Cond} {label x start : Nat} (hw : s.waiting e = some (.cond c label x start)) :
    exec (.waitcTimeout e) s = .next (if timeOver s.tbase start x then (endWait s e).setFld ENG_PC_PC label e else s) := by
  show (Host.Outcome.next _ : Out) = _
  simp only [hw]

theorem exec_syncTimeout {b g label x start : Nat} (hw : s.waiting e = some (.sync b g label x start)) :
    exec (.syncTimeout e) s
      = .next (if timeOver s.tbase start x && !barComplete s b g then (endWait s e).setFld ENG_PC_PC label e else s) := by
  show (Host.Outcome.next _ : Out) = _
  simp only [hw]

/-- A time of some microseconds is not over before they have passed (R199). -/
theorem timeOver_before {now start us : Nat} (hus : us ≠ 0) (h : now ≤ start + us) : timeOver now start us = false := by
  simp [timeOver, hus, h]

/-- A satisfied WAITC ends the wait, and a SIGNAL takes its signal (R173, R202). -/
theorem satisfied_spec (s : State) (e : Nat) (c : Cond) : (endWait (takeSignal s e c) e).fld ENG_STAT_STATE e = 1
    ∧ ((endWait (takeSignal s e c) e).eng e).wait = none
    ∧ (c.sel ≠ 10 → SameRegs s (endWait (takeSignal s e c) e) [ENG_STAT.addr e])
    ∧ (c.sel = 10 → c.neg = false → c.idx < 16 →
      (endWait (takeSignal s e c) e).fbit ENG_SIG_PENDING c.idx (progOf s e) = false) := by
  obtain ⟨hst, hw, hk⟩ := endWait_spec (takeSignal s e c) e
  refine ⟨hst, hw, fun h => ?_, fun hs hn hi => ?_⟩
  · rw [takeSignal_other h] at hk ⊢
    exact hk
  · have hne : ENG_SIG_PENDING.reg.addr (progOf s e) ∉ [ENG_STAT.addr e] := by
      simpa using Reg.besideEngine_addr (r := ENG_SIG_PENDING.reg) (r' := ENG_STAT) rfl (progOf s e) e
    unfold State.fbit
    rw [hk.fld hne]
    exact takeSignal_clears hs hn hi

section Check

variable {c : Cond} {code x y lim pc : Nat} {w : Watch} (hw : (checkEval s).waiting e = some (.check c code x y lim pc w))
include hw

theorem exec_checkPass : exec (.checkPass e) s = .next (if checkPasses (checkEval s).tbase c x y w
    then setFlags (endWait (checkEval s) e) e true false false false else checkEval s) := by
  show (Host.Outcome.next _ : Out) = _
  simp only [hw]

theorem exec_checkChatter : exec (.checkChatter e) s
    = .next (if checkChatters y lim w then checkFails (checkEval s) e 2 code pc else checkEval s) := by
  show (Host.Outcome.next _ : Out) = _
  simp only [hw]

theorem exec_checkTimeout : exec (.checkTimeout e) s
    = .next (if checkExpires (checkEval s).tbase c x y w then checkFails (checkEval s) e 1 code pc else checkEval s) := by
  show (Host.Outcome.next _ : Out) = _
  simp only [hw]

end Check

/-- What fails a CHECK is told from the state before its evaluation, which sets no register and no fault. -/
theorem checkEval_fails (s : State) (e reason code pc : Nat) : (checkFails (checkEval s) e reason code pc).fld ENG_STAT_STATE e = 1
    ∧ ((checkFails (checkEval s) e reason code pc).eng e).wait = none
    ∧ FlagsAre (checkFails (checkEval s) e reason code pc) e false false (reason == 2) false
    ∧ SameRegs s (checkFails (checkEval s) e reason code pc) [ENG_STAT.addr e, ENG_FLAGS.addr e]
    ∧ (checkFails (checkEval s) e reason code pc).flt.due
      = s.flt.due ++ [⟨240 + progOf s e, progOf s e, 256 * reason + code, wordOf pc⟩] := by
  obtain ⟨hregs, hflt⟩ := checkEval_same s
  obtain ⟨hst, hwait, hf, hk, hdue⟩ := checkFails_spec (checkEval s) e reason code pc
  have hp : progOf (checkEval s) e = progOf s e := fld_congr hregs ..
  rw [hp, hflt] at hdue
  exact ⟨hst, hwait, hf, fun k hkeys => (hk k hkeys).trans (by rw [hregs]), hdue⟩

end Sys2Proof.Machine
end

section
open Sys2Proof Sys2Proof.Machine

/-- Settles O6: every command that ends a wait answers by one branch on its time and its condition, and each branch that ends the wait is
`endWait` with the label, the signal or the flags of its outcome. -/
theorem waitingEnginesRunOn : Obligations.WaitingEnginesRunOn := by
  unfold Obligations.WaitingEnginesRunOn
  intro e s
  refine ⟨fun us start hw => ⟨fun ht => ?_, fun hus hle => ?_⟩, fun c label x start hw => ⟨fun hc ht => ?_, fun ht => ?_, fun ht => ?_,
    fun ht => ?_⟩, ?_, fun b g label x start hw ht hb => ?_⟩
  · rw [exec_waitEnd hw, if_pos ht]
    obtain ⟨hst, hn, hk⟩ := endWait_spec s e
    exact ⟨_, rfl, hst, hn, rfl, hk⟩
  · rw [exec_waitEnd hw, if_neg (by simp [timeOver_before hus hle])]
  · rw [exec_waitcSatisfied hw, if_pos (by simp [hc, ht])]
    exact ⟨_, rfl, satisfied_spec s e c⟩
  · rw [exec_waitcTimeout hw, if_pos ht]
    exact ⟨_, rfl, endWait_branch s e label⟩
  · rw [exec_waitcSatisfied hw, if_neg (by simp [ht])]
  · rw [exec_waitcTimeout hw, if_neg (by simp [ht])]
  · intro u hu c code x y lim pc w hw
    rw [hu] at hw ⊢
    refine ⟨fun h => ?_, fun h => ?_, fun h => ?_⟩
    · rw [exec_checkPass hw, if_pos h]
      obtain ⟨hst, hn, hf, hk⟩ := endWait_flags (checkEval s) e true false false false
      exact ⟨_, rfl, hst, hn, hf, fun k hkeys => (hk k hkeys).trans (by rw [(checkEval_same s).1])⟩
    · rw [exec_checkChatter hw, if_pos h]
      exact ⟨_, rfl, checkEval_fails s e 2 code pc⟩
    · rw [exec_checkTimeout hw, if_pos h]
      exact ⟨_, rfl, checkEval_fails s e 1 code pc⟩
  · rw [exec_syncTimeout hw, if_pos (by simp [ht, hb])]
    exact ⟨_, rfl, endWait_branch s e label⟩
end

section
/-! SUPPORT. The last engine to drain of a domain that is about to be released (R47, R186). -/
namespace Sys2Proof.Machine

/-- The re-arm of a restart removes domain 2, and engine 0 is the last of its units to drain. -/
def lastToDrain : State :=
  { ((State.reset.setFld SYS_MODECUR_CUR modeShutdown).setFbit PDC_STAT_ON 2 true).setFld ENG_STAT_STATE esDraining 0 with
    mode := { rearm := true, optRelease := [2] } }

/-- The end of its drain releases the domain, whose registers return to their reset values: ABORTED is not set any more. -/
theorem lastToDrain_ended {t : State} (h : exec (.engineDrainEnd 0) lastToDrain = .next t) : t.flag ENG_EVT_ABORTED 0 = false := by
  cases h
  decide

end Sys2Proof.Machine
end

section
open Sys2Proof Sys2Proof.Machine

/-- Refutes O40: where the engine is the last of its domain's units to drain, the end of its drain releases the domain (R22, R46, R47), and
with it the engine's registers lose ABORTED, which the statement asks to be set. In `lastToDrain` a restart waits for engine 0 alone. -/
theorem not_enginesStartHaltFenceAndRestore : ¬ Obligations.EnginesStartHaltFenceAndRestore := by
  unfold Obligations.EnginesStartHaltFenceAndRestore
  intro h
  obtain ⟨-, -, -, -, -, -, -, -, -, -, -, -, -, hdrain, -⟩ := h 0 0 0 lastToDrain (by decide) (by decide)
  obtain ⟨t, he, -, haborted, -⟩ := hdrain (by decide)
  exact Bool.false_ne_true ((lastToDrain_ended he).symm.trans haborted)
end
